-- ==== Sys2Proof/Word.lean ====
section
/-! DEFINITION. Words of the part and the sparse table every large piece of state is kept in (R6, R121, R325). -/

namespace Sys2Proof

/-- One byte of memory. -/
abbrev Byte := BitVec 8
/-- A 32-bit register or element. -/
abbrev Word := BitVec 32
/-- A 64-bit value (R395). -/
abbrev Dword := BitVec 64

/-- A sparse table: pairs of a key and a value, keys strictly rising, no entry equal to the
table's default. The default is given to each operation. -/
abbrev FMap (α : Type) := List (Nat × α)

/-- What key `a` of table `m` holds; `d` where nothing is listed. -/
def FMap.get {α : Type} (d : α) : FMap α → Nat → α
  | [], _ => d
  | (k, v) :: m, a => if k = a then v else FMap.get d m a

/-- Puts an entry before the first larger key. -/
def FMap.insertSorted {α : Type} (a : Nat) (v : α) : FMap α → FMap α
  | [] => [(a, v)]
  | (k, w) :: m => if a < k then (a, v) :: (k, w) :: m else (k, w) :: FMap.insertSorted a v m

/-- Table `m` without key `a`. -/
def FMap.erase {α : Type} (m : FMap α) (a : Nat) : FMap α :=
  m.filter fun e => !(e.1 == a)

/-- Table `m` with key `a` holding `v`; writing the default removes the entry. -/
def FMap.set {α : Type} [DecidableEq α] (d : α) (m : FMap α) (a : Nat) (v : α) : FMap α :=
  if v = d then FMap.erase m a else FMap.insertSorted a v (FMap.erase m a)

/-- Applies `f` to what key `a` holds. -/
def FMap.upd {α : Type} [DecidableEq α] (d : α) (m : FMap α) (a : Nat) (f : α → α) : FMap α :=
  FMap.set d m a (f (FMap.get d m a))

/-- The canonical form: keys strictly rising and no entry equal to the default. -/
abbrev FMap.wf {α : Type} (d : α) (m : FMap α) : Prop :=
  m.Pairwise (fun x y => x.1 < y.1) ∧ ∀ e ∈ m, e.2 ≠ d

/-- Bits `hi` down to `lo` of a number. -/
def bitsOf (x hi lo : Nat) : Nat := x / 2 ^ lo % 2 ^ (hi - lo + 1)

/-- Bit `i` of a number. -/
def bitOf (x i : Nat) : Bool := x / 2 ^ i % 2 == 1

/-- The number a truth value stands for in a register field. -/
def bit (b : Bool) : Nat := if b then 1 else 0

/-- The least `n` with `n * d ≥ a`. -/
def ceilDiv (a d : Nat) : Nat := (a + d - 1) / d

end Sys2Proof
end

