-- ==== Sys2Proof/Config.lean ====
section
/-! DEFINITION. What the implementation fixes: the figures of R2 and R4, and the free values: constants
with no body, so that nothing can be proved of them (log 9, 18, 19). -/

namespace Sys2Proof.Config

/-- Lane dies of the part (R2, R4). -/
def laneDies : Nat := 40
/-- Row engines, and vector engines, of a lane die (R2). -/
def enginesPerDie : Nat := 8
/-- Collie cores of a lane die (R161). -/
def coresPerDie : Nat := 16
/-- Afnex stacks (R2). -/
def stackCount : Nat := 20
/-- Capacity of a stack in GiB (R2). -/
def stackGib : Nat := 96
/-- Contexts (R2). -/
def contextCount : Nat := 4096
/-- Slices (R2). -/
def sliceCount : Nat := 16
/-- Partner ports (R2). -/
def portCount : Nat := 6
/-- Device physical addresses run below this (R122). -/
def dramBytes : Nat := 1920 * 2 ^ 30
/-- Items of one context fetched and not yet recorded (R255). -/
def ctxWindow : Nat := 1024
/-- Items of the part fetched and not yet recorded (R255). -/
def partWindow : Nat := 16384
/-- Register slots of a core (R162). -/
def regSlots : Nat := 68
/-- Block memory of a core in bytes (R161). -/
def blockMemBytes : Nat := 262144
/-- Watchdog limit of a barrier instance in cycles (R175). -/
def barrierLimit : Nat := 2 ^ 22
/-- Largest module cap in W (R370). -/
def ratedW : Nat := 10400

/-- FREE VALUE: byte `i` (0 to 127) of the 128 B line at device line `line` when a line written
under key `wk` is read under key `rk` (R127: it decrypts to unrelated bits). -/
opaque foreignByte : (rk wk line : Nat) → List Byte → (i : Nat) → Byte
/-- FREE VALUE: a byte the spec calls unspecified (R62, R81), drawn with the free counter. -/
opaque freeByte : (n addr : Nat) → Byte
/-- FREE VALUE: whether byte `addr` of a failed item's destination holds the item's output or its
previous contents (R81: an unspecified mix). -/
opaque freeMix : (n addr : Nat) → Bool
/-- FREE VALUE: the seed Mastiff draws from its random source (R326). -/
opaque freeSeed : Nat → Dword
/-- FREE VALUE: the correctly rounded exp2 of an FP32 bit pattern, used only where the model's bounds do not
settle it (R146, log 19). -/
opaque freeExp2 : Word → Word
/-- FREE VALUE: as `freeExp2`, for log2. -/
opaque freeLog2 : Word → Word
/-- FREE VALUE: the result of an FP32 operation on operands for which the spec states none: a division by zero or
of infinities, a root or logarithm of a negative number or of zero (R146, log 22). The first argument numbers the
operation. -/
opaque freeFp : Nat → Word → Word → Word
/-- FREE VALUE: the result of a shift by the operand's width or more, which the spec does not state (R197, log 30). The
first argument numbers the operation. -/
opaque freeShift : Nat → Dword → Dword → Dword
/-- FREE VALUE: the byte that a raw u8 store of an element above 255 writes (R147, log 50). -/
opaque freeNarrow : Word → Byte
/-- FREE VALUE: what MOVSR reads where the spec states no value: the lane in a uniform register, or an engine of the die
that does not exist (R199, log 31): of the register and its index. -/
opaque freeSreg : Nat → Word
/-- Measurement 1, the digest of the boot ROM, and the digests of firmware images and of owner keys (R356; log 9). -/
opaque romDigest : BitVec 512
opaque imageDigest : (image : Nat) → BitVec 512
opaque keyDigest : (key : Nat) → BitVec 512
/-- Flits of each virtual channel a partner has room for when a link comes UP (log 21). -/
opaque portCredits : (vc : Nat) → Nat
/-- FREE VALUES: the device identity key that a transition generates, ECDSA P-521 signatures by it, the hash of a requester's
certificate, the part's serial number and Suteto's enterprise number (R350, R355, R356, R363; log 9). -/
opaque freeKey : Nat → Nat
opaque sign : (key : Nat) → List Byte → BitVec 1056
opaque certHash : (role key : Nat) → BitVec 512
opaque serialNumber : Nat
opaque vendorId : Nat
/-- The names that the model gives Suteto's release key and service key (log 9). -/
def releaseKey : Nat := 0
def serviceKey : Nat := 0
/-- Bytes of the largest firmware image (R357). -/
def imageMax : Nat := 24 * 2 ^ 20
/-- FREE VALUE: the version of the partner protocol that the handshake reports (R312; log 21). -/
opaque portVersion : Nat
/-- FREE VALUE: where Mastiff begins to look for a unit for a table it allocates (R327, R328). -/
opaque freeTable : Nat → BitVec 36

end Sys2Proof.Config
end

