-- ==== Sys2Proof/Syntax.lean ====
section
/-! DEFINITION. The commands of the part: one constructor per row of the table of operations and events, with
the operands the row's rule names. What lies outside the part (R1), and what the spec leaves to timing, reaches
the part as an operand (log 1, log 15). -/

namespace Sys2Proof

/-! ### What a unit reports with its step (log 15) -/

/-- What a unit met between its last step and this one: runs of cycles in which it held work and issued nothing, each with the
set of causes that held, bit n for code n (of which R55, R158 and R185 count one), cycles in which it issued, and, for a
pack's instruction, the entries of the active set whose packs have their operands too (R165). The spec fixes which cause is
counted and which pack issues, not when operands come. -/
structure Report where
  stalls : List (Nat × Nat)
  busy   : Nat
  rivals : BitVec 4
  deriving DecidableEq, Repr, Inhabited

/-- Nothing to report. -/
def Report.zero : Report := ⟨[], 0, 0⟩

/-- A request that a die's generator sees (R156): its unit, row engines 0 to 7 and vector engines 8 to 15, the class of its work,
the blocks a drain asks for, and the stall causes that hold at the unit besides, bit n for code n. -/
structure DrawReq where
  unit   : Nat
  cls    : Nat
  blocks : Nat
  causes : Nat
  deriving DecidableEq, Repr, Inhabited

/-! ### Operand forms of JKF instructions (R188 to R198) -/

/-- The guard of an instruction: predicate and sense (R192 bits [49:46]). -/
structure Guard where
  neg  : Bool
  pred : BitVec 3
  deriving DecidableEq, Repr, Inhabited

/-- Which pack issues, under which guard, and the immediate word that follows (R192). A pack is named by
16 times its block's number plus its index in the block. `rivals` are the other entries of the active set whose packs have
their operands at that moment, so that they could issue as well (R165; log 15). -/
structure Issue where
  pack  : Nat
  guard : Option Guard
  imm   : Option Dword
  rivals : BitVec 4
  deriving DecidableEq, Repr, Inhabited

/-- Body of INT and FP (R194). -/
structure AluBody where
  dst : BitVec 8
  a   : BitVec 8
  b   : BitVec 8
  c   : BitVec 8
  fmt : BitVec 6
  cvt : BitVec 8
  deriving DecidableEq, Repr, Inhabited

/-- Body of PRED (R194). -/
structure PredBody where
  pd   : BitVec 3
  a    : BitVec 8
  b    : BitVec 8
  fmt  : BitVec 6
  ps   : BitVec 3
  comb : BitVec 2
  deriving DecidableEq, Repr, Inhabited

/-- Body of the predicate-logic operations (R194). -/
structure PlogBody where
  pd : BitVec 3
  pa : BitVec 3
  pb : BitVec 3
  deriving DecidableEq, Repr, Inhabited

/-- Body of MEM (R194). -/
structure MemBody where
  data  : BitVec 8
  addr  : BitVec 8
  fmt   : BitVec 6
  space : BitVec 2
  off   : BitVec 22
  deriving DecidableEq, Repr, Inhabited

/-- Body of ATOM (R194). -/
structure AtomBody where
  dst   : BitVec 8
  addr  : BitVec 8
  opnd  : BitVec 8
  cmp   : BitVec 8
  fmt   : BitVec 6
  scope : BitVec 2
  space : BitVec 1
  deriving DecidableEq, Repr, Inhabited

/-- Body of BRA (R194). -/
structure BraBody where
  target : BitVec 23
  recon  : BitVec 23
  deriving DecidableEq, Repr, Inhabited

/-- Body of SYNC (R194). -/
structure SyncBody where
  scope : BitVec 2
  kind  : BitVec 2
  deriving DecidableEq, Repr, Inhabited

/-- Body of ENG (R194). -/
structure EngBody where
  result : BitVec 8
  src    : BitVec 8
  kind   : BitVec 2
  k      : BitVec 4
  deriving DecidableEq, Repr, Inhabited

/-- Body of SPEC (R194). -/
structure SpecBody where
  dst : BitVec 8
  sr  : BitVec 8
  idx : BitVec 8
  deriving DecidableEq, Repr, Inhabited

/-- Body of VEC (R194). -/
structure VecBody where
  k   : BitVec 4
  vd  : BitVec 4
  va  : BitVec 4
  vb  : BitVec 4
  vc  : BitVec 4
  vm  : BitVec 3
  vmx : BitVec 3
  ub  : BitVec 6
  fmt : BitVec 6
  deriving DecidableEq, Repr, Inhabited

/-- Where a vector instruction comes from: a pack, whose uniform registers from ub hold the operand block (R198),
or an entry of a VEC list item running on engine k of a lane die, with its 14 words (R435). -/
inductive VecSrc where
  | pack (p : Nat) (rep : Report)
  | list (die k : Nat) (u : List Word) (rep : Report)
  deriving DecidableEq, Repr, Inhabited

/-- A vector instruction. `seg` says that a scan's op code is the segmented one (R198: 0x40 to 0x46). -/
structure VecArgs where
  src  : VecSrc
  body : VecBody
  seg  : Bool
  deriving DecidableEq, Repr, Inhabited

/-- Where a stream operation comes from: a stream-form VEC item, or a kernel instruction naming engine k and the
uniform register that holds its record's block-memory address (R150, R198). -/
inductive StreamSrc where
  | item (ctx seq : Nat) (rep : Report)
  | pack (p : Nat) (body : VecBody) (rep : Report)
  deriving DecidableEq, Repr, Inhabited

/-! ### Other operand forms -/

/-- Who accesses a register (R394, R403). -/
inductive Requester where
  | host | mastiff | sheepdog
  deriving DecidableEq, Repr, Inhabited

/-- One write on its way to a register: BAR0 byte offset, alias included, and value (R391). `size` is its
length in bytes, `high` the upper half of an 8 B value (R392). -/
structure RegWrite where
  who    : Requester
  offset : Nat
  value  : Word
  size   : Nat
  high   : Word
  deriving DecidableEq, Repr, Inhabited

/-- What the ECC of a half-line shows when it is read (R123). `clean` also stands for an error that goes
undetected. -/
inductive Ecc where
  | clean | corrected | uncorrectable
  deriving DecidableEq, Repr, Inhabited

/-- Kinds of page of R329. -/
inductive PageKind where
  | localMem | hostMem | peer
  deriving DecidableEq, Repr, Inhabited

/-- The payload of MAP for one page (R328 to R330). `big` maps 2 MiB. `phys` is the physical page address in
units of 64 KiB: device for local pages (the granules Mastiff takes from its free pool, log 11), host for
host pages. -/
structure MapPage where
  va     : Nat
  big    : Bool
  kind   : PageKind
  r      : Bool
  w      : Bool
  phys   : Nat
  node   : Nat
  rctx   : Nat
  rva    : Nat
  deriving DecidableEq, Repr, Inhabited

/-- A field CTX_SET changes (R326). -/
inductive CtxField where
  | homeSlice (s : Nat)
  | resvSlice (s : Option Nat)
  | classes (m : BitVec 4)
  | pinRight (b : Bool)
  | portMask (m : BitVec 6)
  | stashQuota (n : Nat)
  | stashPolicy (p : Nat)
  | ovf (base size : Nat)
  | seed (v : Dword)
  deriving DecidableEq, Repr, Inhabited

/-- The parameters of a slice (R279). `bw` holds the shares of the 20 stacks. -/
structure SliceParams where
  reserved  : Bool
  dies      : List Nat
  bw        : List Nat
  fabWeight : Nat
  ringShare : Nat
  floorW    : Nat
  core      : Bool
  deriving DecidableEq, Repr, Inhabited

/-- A peer grant (R326). -/
structure PeerGrant where
  node : Nat
  ctx  : Nat
  r    : Bool
  w    : Bool
  a    : Bool
  deriving DecidableEq, Repr, Inhabited

/-- Life-cycle states, numbered as measurement 4 of R356. -/
inductive Life where
  | blank | provisioned | owned | service | decommissioned
  deriving DecidableEq, Repr, Inhabited

/-- The key a session's requester certificate chain ends at (R352): none, the owner key of the number given,
Suteto's service key, or another key. -/
inductive ReqKey where
  | anonymous | owner (key : Nat) | service (key : Nat) | other
  deriving DecidableEq, Repr, Inhabited

/-- A firmware image (R357): whether its signature verifies, the key that signed it, its length in bytes, and its SVN; `image`
stands for its bytes (log 9). -/
structure ImageCheck where
  sigOk  : Bool
  signer : Nat
  len    : Nat
  svn    : Nat
  image  : Nat
  deriving DecidableEq, Repr, Inhabited

/-- TAP instructions (R416). -/
inductive TapInstr where
  | bypass | idcode | sample | extest | clamp | highz | debug
  deriving DecidableEq, Repr, Inhabited

/-- The sensors of R351. -/
inductive Sensor where
  | inlet | junction (die : Nat) | voltage | current | power | lanes | eccCe (stack : Nat) | eccUe (stack : Nat)
  | lifeCycle
  deriving DecidableEq, Repr, Inhabited

/-- A unit that the clocks gate (R378): lane die and unit 0 to 31 as R425 numbers them; TXB units are 32 to 39. -/
structure UnitId where
  die  : Nat
  unit : Nat
  deriving DecidableEq, Repr, Inhabited

/-- What wakes (R379): a unit, or a lane die whose PLL was off. -/
inductive WakeOf where
  | unit (u : UnitId) | die (d : Nat)
  deriving DecidableEq, Repr, Inhabited

/-- A die that powers up (R380, R381): a lane die, or hub die H1 to H3. -/
inductive DieId where
  | lane (d : Nat) | hub (h : Nat)
  deriving DecidableEq, Repr, Inhabited

/-- The blocks of the register map that hold an enable and a state (R396, R400, R401). -/
inductive Block where
  | re (die k : Nat) | ve (die : Nat) | txb (die : Nat) | collie (die : Nat) | dcache (die : Nat) | retr (die : Nat)
  | rng (die : Nat) | mem (i : Nat) | ups | reel | pport (p : Nat) | ring (ctx : Nat) | slc (s : Nat)
  deriving DecidableEq, Repr, Inhabited

/-- Six context fault codes (R340). -/
inductive FaultCode where
  | translation | permission | illegalInstr | misaligned | barrierTimeout | divergenceOverflow
  deriving DecidableEq, Repr, Inhabited

/-- What reaches H0 with a context fault: the fields of R341 but the time. -/
structure FaultInfo where
  code   : FaultCode
  source : Nat
  die    : Nat
  unit   : Nat
  lane   : Nat
  sqIndex : Nat
  pc     : Nat
  packIx : Nat
  aux    : Nat
  addr   : Nat
  deriving DecidableEq, Repr, Inhabited

/-- The operations of R129. -/
inductive AtomOp where
  | add | min | max | and | or | xor | xchg | cas
  deriving DecidableEq, Repr, Inhabited

/-- Operand types of atomics (R129). -/
inductive AtomTy where
  | s32 | u32 | s64 | u64 | f32 | b32 | b64
  deriving DecidableEq, Repr, Inhabited

/-- An atomic request on its way to an executing unit (R130, R176): one location by its virtual address, operands in lane
order, and compare values beside them. -/
structure AtomReq where
  op    : AtomOp
  ty    : AtomTy
  addr  : Nat
  opnds : List Dword
  cmps  : List Dword
  deriving DecidableEq, Repr, Inhabited

/-- The parameters each Reel message carries (R302). -/
structure ReelParams where
  op    : Nat
  fmt   : Nat
  count : Nat
  root  : Nat
  deriving DecidableEq, Repr, Inhabited

/-- A Reel message from another module (R301 to R307). `partialUp` brings a child module's subtree: its partial, the
shards in it and the lowest of them with its parameters, the source's bytes when the root shard is among them, and the
lowest shard whose parameters differ from `params`. `resultDown` brings the total or the bytes from the parent module,
`failDown` the lowest shard that differs; `abort` names the shard that ended. Each carries the instance's parameters; `downEntry`
is about the entry and names no instance. -/
inductive ReelMsg where
  | partialUp (group inst : Nat) (params : ReelParams) (values : List Word) (shards low : Nat) (bytes : Option (List Byte))
      (bad : Option Nat)
  | resultDown (group inst : Nat) (params : ReelParams) (values : List Word) (bytes : List Byte)
  | failDown (group inst : Nat) (params : ReelParams) (bad : Nat)
  | abort (group inst : Nat) (params : ReelParams) (shard : Nat)
  | downEntry (group : Nat)
  | freeze
  | drained
  | taken
  | resume
  | reset
  deriving DecidableEq, Repr, Inhabited

/-- A peer request as it arrives from a partner module (R319, R329). -/
inductive PeerOp where
  | read (bytes : Nat)
  | write (data : List Byte)
  | atomic (op : AtomOp) (ty : AtomTy) (opnds cmps : List Dword)
  deriving DecidableEq, Repr, Inhabited

/-- A request of context `srcCtx` of node `srcNode` on virtual address `va` of context `ctx` of node `dst`, on virtual channel
`vc` (R315, R317, R319). -/
structure PeerReq where
  srcNode : Nat
  srcCtx  : Nat
  ctx     : Nat
  va      : Nat
  tag     : Nat
  op      : PeerOp
  dst     : Nat
  vc      : Nat
  deriving DecidableEq, Repr, Inhabited

/-- What a partner answers (R319, R347); `lost`: a module on the way found no link that leads on (R318, R322). -/
inductive PeerAns where
  | data (bytes : List Byte)
  | done
  | old (vals : List Dword)
  | refused
  | eccError
  | lost
  deriving DecidableEq, Repr, Inhabited

/-- Who answers whom: the node the answer is for and the node it comes from (R317). -/
structure AnsPath where
  dst : Nat
  src : Nat
  deriving DecidableEq, Repr, Inhabited

/-- A ZC frame (R321): one row's masks, values and row-table entry, in pieces with the addresses they go to. -/
structure ZcFrame where
  tag     : Nat
  srcNode : Nat
  srcCtx  : Nat
  ctx     : Nat
  masks   : List (Nat × List Byte)
  vals    : List (Nat × List Byte)
  rowVa   : Nat
  row     : Dword
  dst     : Nat
  vc      : Nat
  deriving DecidableEq, Repr, Inhabited

/-- What a port learns of its partner in the handshake (R312, R313). -/
structure Partner where
  node    : Nat
  port    : Nat
  topo    : Word
  version : Nat
  deriving DecidableEq, Repr, Inhabited

/-- A flit as it arrives (R315, R316). `acked` is the number the partner next expects: it acknowledges those below. `credits`
the credits it returns for V0 to V3. `fecBad` counts FEC codewords that could not be corrected. -/
structure Flit where
  seq     : Nat
  crcOk   : Bool
  vc      : Nat
  acked   : Nat
  credits : List Nat
  fecBad  : Nat
  deriving DecidableEq, Repr, Inhabited

/-- A host access to an HDM window (R247). -/
inductive HdmOp where
  | read (n : Nat)
  | write (data : List Byte)
  deriving DecidableEq, Repr, Inhabited

/-- One write of the host to its own memory, as it becomes visible to the part (R220). -/
structure HostWrite where
  addr : Nat
  data : List Byte
  deriving DecidableEq, Repr, Inhabited

/-- A demand request that a miss register serves (R234): the item that issued it and the virtual address of the line. -/
structure Waiter where
  ctx  : Nat
  seq  : Nat
  va   : Nat
  pack : Option Nat
  deriving DecidableEq, Repr, Inhabited

/-- The commands. -/
inductive Instr where
  /-- INT_ADD (R197): JKF INT ADD adds integers with wrap-around. -/
  | intAdd (i : Issue) (b : AluBody)
  /-- INT_SUB (R197): JKF INT SUB subtracts integers with wrap-around. -/
  | intSub (i : Issue) (b : AluBody)
  /-- INT_MULLO (R197): JKF INT MULLO returns the low word of a product. -/
  | intMullo (i : Issue) (b : AluBody)
  /-- INT_MULHI (R197): JKF INT MULHI returns the high word of the 64-bit product. -/
  | intMulhi (i : Issue) (b : AluBody)
  /-- INT_DIV (R183): JKF INT DIV divides, with fixed results for division by zero. -/
  | intDiv (i : Issue) (b : AluBody)
  /-- INT_REM (R183): JKF INT REM returns the remainder, or the dividend when dividing by zero. -/
  | intRem (i : Issue) (b : AluBody)
  /-- INT_MIN (R197): JKF INT MIN returns the smaller operand. -/
  | intMin (i : Issue) (b : AluBody)
  /-- INT_MAX (R197): JKF INT MAX returns the larger operand. -/
  | intMax (i : Issue) (b : AluBody)
  /-- INT_AND (R197): JKF INT AND computes a bitwise and. -/
  | intAnd (i : Issue) (b : AluBody)
  /-- INT_OR (R197): JKF INT OR computes a bitwise or. -/
  | intOr (i : Issue) (b : AluBody)
  /-- INT_XOR (R197): JKF INT XOR computes a bitwise exclusive or. -/
  | intXor (i : Issue) (b : AluBody)
  /-- INT_NOT (R197): JKF INT NOT inverts every bit. -/
  | intNot (i : Issue) (b : AluBody)
  /-- INT_SHL (R197): JKF INT SHL shifts left. -/
  | intShl (i : Issue) (b : AluBody)
  /-- INT_SHR (R197): JKF INT SHR shifts right logically. -/
  | intShr (i : Issue) (b : AluBody)
  /-- INT_SAR (R197): JKF INT SAR shifts right arithmetically. -/
  | intSar (i : Issue) (b : AluBody)
  /-- INT_POPC (R197): JKF INT POPC counts set bits. -/
  | intPopc (i : Issue) (b : AluBody)
  /-- INT_CLZ (R197): JKF INT CLZ counts leading zeros. -/
  | intClz (i : Issue) (b : AluBody)
  /-- INT_BREV (R197): JKF INT BREV reverses the bit order. -/
  | intBrev (i : Issue) (b : AluBody)
  /-- INT_MOV (R197): JKF INT MOV copies an operand. -/
  | intMov (i : Issue) (b : AluBody)
  /-- INT_SEL (R194): JKF INT SEL selects an operand by the predicate that cvt names. -/
  | intSel (i : Issue) (b : AluBody)
  /-- FP_ADD (R146): JKF FP ADD adds in FP32 with round to nearest even. -/
  | fpAdd (i : Issue) (b : AluBody)
  /-- FP_SUB (R146): JKF FP SUB subtracts in FP32. -/
  | fpSub (i : Issue) (b : AluBody)
  /-- FP_MUL (R146): JKF FP MUL multiplies in FP32. -/
  | fpMul (i : Issue) (b : AluBody)
  /-- FP_FMA (R146): JKF FP FMA computes a fused multiply-add with one rounding. -/
  | fpFma (i : Issue) (b : AluBody)
  /-- FP_MIN (R146): JKF FP MIN returns the smaller value under the NaN rules of R129. -/
  | fpMin (i : Issue) (b : AluBody)
  /-- FP_MAX (R146): JKF FP MAX returns the larger value under the NaN rules of R129. -/
  | fpMax (i : Issue) (b : AluBody)
  /-- FP_ABS (R197): JKF FP ABS returns the magnitude. -/
  | fpAbs (i : Issue) (b : AluBody)
  /-- FP_NEG (R197): JKF FP NEG negates its operand. -/
  | fpNeg (i : Issue) (b : AluBody)
  /-- FP_COPYSIGN (R197): JKF FP COPYSIGN copies a sign onto a magnitude. -/
  | fpCopysign (i : Issue) (b : AluBody)
  /-- FP_DIV (R146): JKF FP DIV divides, correctly rounded. -/
  | fpDiv (i : Issue) (b : AluBody)
  /-- FP_SQRT (R146): JKF FP SQRT takes a correctly rounded square root. -/
  | fpSqrt (i : Issue) (b : AluBody)
  /-- FP_RSQRT (R146): JKF FP RSQRT takes a correctly rounded reciprocal square root. -/
  | fpRsqrt (i : Issue) (b : AluBody)
  /-- FP_RECIP (R146): JKF FP RECIP takes a correctly rounded reciprocal. -/
  | fpRecip (i : Issue) (b : AluBody)
  /-- FP_EXP2 (R146): JKF FP EXP2 computes a correctly rounded power of two. -/
  | fpExp2 (i : Issue) (b : AluBody)
  /-- FP_LOG2 (R146): JKF FP LOG2 computes a correctly rounded base-2 logarithm. -/
  | fpLog2 (i : Issue) (b : AluBody)
  /-- CVT_F2I (R197): JKF CVT.F2I converts FP32 to s32, rounding under rnd and saturating. -/
  | cvtF2i (i : Issue) (b : AluBody)
  /-- CVT_F2U (R197): JKF CVT.F2U converts FP32 to u32, rounding under rnd and saturating. -/
  | cvtF2u (i : Issue) (b : AluBody)
  /-- CVT_I2F (R197): JKF CVT.I2F converts s32 to FP32. -/
  | cvtI2f (i : Issue) (b : AluBody)
  /-- CVT_U2F (R197): JKF CVT.U2F converts u32 to FP32. -/
  | cvtU2f (i : Issue) (b : AluBody)
  /-- CVT_F2N (R197): JKF CVT.F2N narrows FP32 to a 16-bit or 8-bit format under R29 and R30. -/
  | cvtF2n (i : Issue) (b : AluBody)
  /-- CVT_N2F (R197): JKF CVT.N2F widens a narrow format to FP32. -/
  | cvtN2f (i : Issue) (b : AluBody)
  /-- PRED_EQ (R197): JKF EQ sets a predicate where the operands are equal. -/
  | predEq (i : Issue) (b : PredBody)
  /-- PRED_NE (R197): JKF NE sets a predicate where the operands differ. -/
  | predNe (i : Issue) (b : PredBody)
  /-- PRED_LT (R197): JKF LT sets a predicate where a is less than b. -/
  | predLt (i : Issue) (b : PredBody)
  /-- PRED_LE (R197): JKF LE sets a predicate where a is at most b. -/
  | predLe (i : Issue) (b : PredBody)
  /-- PRED_GT (R197): JKF GT sets a predicate where a is greater than b. -/
  | predGt (i : Issue) (b : PredBody)
  /-- PRED_GE (R197): JKF GE sets a predicate where a is at least b. -/
  | predGe (i : Issue) (b : PredBody)
  /-- PRED_ISNAN (R197): JKF ISNAN sets a predicate for NaN operands. -/
  | predIsnan (i : Issue) (b : PredBody)
  /-- PRED_ISINF (R197): JKF ISINF sets a predicate for infinite operands. -/
  | predIsinf (i : Issue) (b : PredBody)
  /-- PRED_ISFINITE (R197): JKF ISFINITE sets a predicate for finite operands. -/
  | predIsfinite (i : Issue) (b : PredBody)
  /-- PAND (R197): JKF PAND combines predicates with and. -/
  | pand (i : Issue) (b : PlogBody)
  /-- POR (R197): JKF POR combines predicates with or. -/
  | por (i : Issue) (b : PlogBody)
  /-- PXOR (R197): JKF PXOR combines predicates with exclusive or. -/
  | pxor (i : Issue) (b : PlogBody)
  /-- PNOT (R197): JKF PNOT inverts a predicate. -/
  | pnot (i : Issue) (b : PlogBody)
  /-- PMOV (R197): JKF PMOV copies a predicate. -/
  | pmov (i : Issue) (b : PlogBody)
  /-- MEM_LD (R195): JKF LD loads from global, block or constant-pool memory. -/
  | memLd (i : Issue) (b : MemBody) (evicts : List Nat)
  /-- MEM_ST (R195): JKF ST stores to global or block memory, with the highest lane winning on collisions. -/
  | memSt (i : Issue) (b : MemBody) (evicts : List Nat)
  /-- MEM_DISCARD (R232): JKF DISCARD drops one 128 B line of device memory without write-back. -/
  | memDiscard (i : Issue) (b : MemBody)
  /-- ATOM_ADD (R176): JKF ATOM ADD performs a coalesced atomic add in lane order. -/
  | atomAdd (i : Issue) (b : AtomBody)
  /-- ATOM_MIN (R176): JKF ATOM MIN performs a coalesced atomic minimum. -/
  | atomMin (i : Issue) (b : AtomBody)
  /-- ATOM_MAX (R176): JKF ATOM MAX performs a coalesced atomic maximum. -/
  | atomMax (i : Issue) (b : AtomBody)
  /-- ATOM_AND (R176): JKF ATOM AND performs a coalesced atomic and. -/
  | atomAnd (i : Issue) (b : AtomBody)
  /-- ATOM_OR (R176): JKF ATOM OR performs a coalesced atomic or. -/
  | atomOr (i : Issue) (b : AtomBody)
  /-- ATOM_XOR (R176): JKF ATOM XOR performs a coalesced atomic exclusive or. -/
  | atomXor (i : Issue) (b : AtomBody)
  /-- ATOM_XCHG (R176): JKF ATOM XCHG exchanges values lane by lane in ascending order. -/
  | atomXchg (i : Issue) (b : AtomBody)
  /-- ATOM_CAS (R176): JKF ATOM CAS compares and swaps lane by lane in ascending order. -/
  | atomCas (i : Issue) (b : AtomBody)
  /-- BRA (R169): JKF BRA branches, splitting the pack and pushing the mask stack where needed. -/
  | bra (i : Issue) (b : BraBody)
  /-- EXIT (R170): JKF EXIT stops its threads for good, and the pack retires when all have exited. -/
  | exitThreads (i : Issue)
  /-- BAR (R173): JKF BAR parks the thread at a block barrier as a block-scope release. -/
  | bar (i : Issue) (id : BitVec 4)
  /-- FLOW_NOP (R197): JKF NOP does nothing. -/
  | flowNop (i : Issue)
  /-- FENCE (R213): JKF FENCE orders the pack's accesses at its scope, writing back or invalidating the data cache as needed. -/
  | fence (i : Issue) (b : SyncBody) (waited : Nat)
  /-- ENG_ISSUE (R179): JKF ENG.ISSUE places a work record in an engine queue and returns a token. -/
  | engIssue (i : Issue) (b : EngBody)
  /-- ENG_WAIT (R181): JKF ENG.WAIT waits for issued work to drain and returns its status. -/
  | engWait (i : Issue) (b : EngBody)
  /-- VACQ (R198): JKF VACQ acquires a vector engine for the block and zeroes its registers. -/
  | vacq (i : Issue) (b : EngBody)
  /-- VREL (R198): JKF VREL releases the block's vector engine. -/
  | vrel (i : Issue) (b : EngBody)
  /-- VSYNC (R198): JKF VSYNC waits until the block's earlier VEC instructions have completed. -/
  | vsync (i : Issue) (b : EngBody)
  /-- MOVSR (R199): JKF MOVSR reads a special register. -/
  | movsr (i : Issue) (b : SpecBody)
  /-- VEC_FP_ADD (R145): Vector FP ADD adds active elements. -/
  | vecFpAdd (v : VecArgs)
  /-- VEC_FP_SUB (R145): Vector FP SUB subtracts active elements. -/
  | vecFpSub (v : VecArgs)
  /-- VEC_FP_MUL (R145): Vector FP MUL multiplies active elements. -/
  | vecFpMul (v : VecArgs)
  /-- VEC_FP_FMA (R145): Vector FP FMA computes a fused multiply-add on active elements. -/
  | vecFpFma (v : VecArgs)
  /-- VEC_FP_MIN (R145): Vector FP MIN takes element-wise minima. -/
  | vecFpMin (v : VecArgs)
  /-- VEC_FP_MAX (R145): Vector FP MAX takes element-wise maxima. -/
  | vecFpMax (v : VecArgs)
  /-- VEC_FP_ABS (R145): Vector FP ABS takes element-wise magnitudes. -/
  | vecFpAbs (v : VecArgs)
  /-- VEC_FP_NEG (R145): Vector FP NEG negates elements. -/
  | vecFpNeg (v : VecArgs)
  /-- VEC_FP_COPYSIGN (R145): Vector FP COPYSIGN copies signs element-wise. -/
  | vecFpCopysign (v : VecArgs)
  /-- VEC_FP_SEL (R145): Vector FP SEL selects elements by a mask. -/
  | vecFpSel (v : VecArgs)
  /-- VEC_INT_ADD (R145): Vector INT ADD adds integers element-wise. -/
  | vecIntAdd (v : VecArgs)
  /-- VEC_INT_SUB (R145): Vector INT SUB subtracts integers element-wise. -/
  | vecIntSub (v : VecArgs)
  /-- VEC_INT_MULLO (R145): Vector INT MULLO multiplies integers and keeps the low word. -/
  | vecIntMullo (v : VecArgs)
  /-- VEC_INT_MIN (R145): Vector INT MIN takes integer minima. -/
  | vecIntMin (v : VecArgs)
  /-- VEC_INT_MAX (R145): Vector INT MAX takes integer maxima. -/
  | vecIntMax (v : VecArgs)
  /-- VEC_INT_SHL (R145): Vector INT SHL shifts left. -/
  | vecIntShl (v : VecArgs)
  /-- VEC_INT_SHR (R145): Vector INT SHR shifts right logically. -/
  | vecIntShr (v : VecArgs)
  /-- VEC_INT_SAR (R145): Vector INT SAR shifts right arithmetically. -/
  | vecIntSar (v : VecArgs)
  /-- VEC_INT_AND (R145): Vector INT AND computes a bitwise and. -/
  | vecIntAnd (v : VecArgs)
  /-- VEC_INT_OR (R145): Vector INT OR computes a bitwise or. -/
  | vecIntOr (v : VecArgs)
  /-- VEC_INT_XOR (R145): Vector INT XOR computes a bitwise exclusive or. -/
  | vecIntXor (v : VecArgs)
  /-- VEC_INT_NOT (R145): Vector INT NOT inverts bits. -/
  | vecIntNot (v : VecArgs)
  /-- VEC_INT_SEL (R145): Vector INT SEL selects elements by a mask. -/
  | vecIntSel (v : VecArgs)
  /-- VEC_CMP_EQ (R145): Vector CMP EQ writes an equality mask. -/
  | vecCmpEq (v : VecArgs)
  /-- VEC_CMP_NE (R145): Vector CMP NE writes an inequality mask. -/
  | vecCmpNe (v : VecArgs)
  /-- VEC_CMP_LT (R145): Vector CMP LT writes a less-than mask. -/
  | vecCmpLt (v : VecArgs)
  /-- VEC_CMP_LE (R145): Vector CMP LE writes a less-or-equal mask. -/
  | vecCmpLe (v : VecArgs)
  /-- VEC_CMP_ISNAN (R145): Vector CMP ISNAN writes a NaN mask. -/
  | vecCmpIsnan (v : VecArgs)
  /-- VEC_CMP_ISINF (R145): Vector CMP ISINF writes an infinity mask. -/
  | vecCmpIsinf (v : VecArgs)
  /-- VEC_CMP_ISFINITE (R145): Vector CMP ISFINITE writes a finite mask. -/
  | vecCmpIsfinite (v : VecArgs)
  /-- VEC_DIV (R146): Vector DIV divides, correctly rounded. -/
  | vecDiv (v : VecArgs)
  /-- VEC_SQRT (R146): Vector SQRT takes correctly rounded square roots. -/
  | vecSqrt (v : VecArgs)
  /-- VEC_RSQRT (R146): Vector RSQRT takes correctly rounded reciprocal square roots. -/
  | vecRsqrt (v : VecArgs)
  /-- VEC_RECIP (R146): Vector RECIP takes correctly rounded reciprocals. -/
  | vecRecip (v : VecArgs)
  /-- VEC_EXP2 (R146): Vector EXP2 computes powers of two. -/
  | vecExp2 (v : VecArgs)
  /-- VEC_LOG2 (R146): Vector LOG2 computes base-2 logarithms. -/
  | vecLog2 (v : VecArgs)
  /-- VEC_RED_SUM (R148): Vector RED SUM reduces active elements in the fixed tree order into element 0. -/
  | vecRedSum (v : VecArgs)
  /-- VEC_RED_MIN (R148): Vector RED MIN reduces to the minimum. -/
  | vecRedMin (v : VecArgs)
  /-- VEC_RED_MAX (R148): Vector RED MAX reduces to the maximum. -/
  | vecRedMax (v : VecArgs)
  /-- VEC_RED_AND (R148): Vector RED AND reduces with bitwise and. -/
  | vecRedAnd (v : VecArgs)
  /-- VEC_RED_OR (R148): Vector RED OR reduces with bitwise or. -/
  | vecRedOr (v : VecArgs)
  /-- VEC_RED_XOR (R148): Vector RED XOR reduces with bitwise exclusive or. -/
  | vecRedXor (v : VecArgs)
  /-- VEC_SCAN_ADD_INCL (R149): Vector inclusive add scan, optionally segmented by vmx. -/
  | vecScanAddIncl (v : VecArgs)
  /-- VEC_SCAN_MIN_INCL (R149): Vector inclusive min scan, optionally segmented. -/
  | vecScanMinIncl (v : VecArgs)
  /-- VEC_SCAN_MAX_INCL (R149): Vector inclusive max scan, optionally segmented. -/
  | vecScanMaxIncl (v : VecArgs)
  /-- VEC_SCAN_ADD_EXCL (R149): Vector exclusive add scan with an init operand, optionally segmented. -/
  | vecScanAddExcl (v : VecArgs)
  /-- VEC_SCAN_MIN_EXCL (R149): Vector exclusive min scan, optionally segmented. -/
  | vecScanMinExcl (v : VecArgs)
  /-- VEC_SCAN_MAX_EXCL (R149): Vector exclusive max scan, optionally segmented. -/
  | vecScanMaxExcl (v : VecArgs)
  /-- VEC_LD (R147): Vector LD loads contiguous elements and widens them to 32 bits. -/
  | vecLd (v : VecArgs)
  /-- VEC_ST (R147): Vector ST narrows elements under the conversion byte and stores them contiguously. -/
  | vecSt (v : VecArgs)
  /-- VEC_LDS (R147): Vector LDS performs a strided load. -/
  | vecLds (v : VecArgs)
  /-- VEC_STS (R147): Vector STS performs a strided store. -/
  | vecSts (v : VecArgs)
  /-- VEC_GATHER (R147): Vector GATHER loads 32-bit elements at indexed addresses. -/
  | vecGather (v : VecArgs)
  /-- VEC_SCATTER (R147): Vector SCATTER stores 32-bit elements at indexed addresses, with the highest index winning. -/
  | vecScatter (v : VecArgs)
  /-- VEC_CVT (R145): Vector CVT converts elements between FP32, s32 and u32. -/
  | vecCvt (v : VecArgs)
  /-- RAND_U32 (R155): RAND.U32 writes CB10 words as u32. -/
  | randU32 (v : VecArgs)
  /-- RAND_UNI (R155): RAND.UNI writes uniform FP32 values from CB10 words. -/
  | randUni (v : VecArgs)
  /-- RAND_BERN (R155): RAND.BERN writes a mask bit where the CB10 word is below T. -/
  | randBern (v : VecArgs)
  /-- DROP_FWD (R157): DROP.FWD drops or scales elements by CB10 words in the forward pass. -/
  | dropFwd (v : VecArgs)
  /-- DROP_BWD (R157): DROP.BWD rebuilds the forward mask and applies it to gradients. -/
  | dropBwd (v : VecArgs)
  /-- CB10_GRANT (R156): The die's generator grants whole block requests, class 0 first, then round-robin. -/
  | cb10Grant (die : Nat) (reqs : List DrawReq)
  /-- ZC_COMPRESS (R151): ZC.COMPRESS compresses a dense tensor into masks, row table and values. -/
  | zcCompress (src : StreamSrc)
  /-- S24_COMPRESS (R62): S24.COMPRESS compresses a dense tensor into 2:4 form under STRICT or PRUNE. -/
  | s24Compress (src : StreamSrc)
  /-- PRUNE24T (R69): PRUNE24T chooses the best transposable pattern for each 4 × 4 block. -/
  | prune24t (src : StreamSrc)
  /-- NNZ_HIST (R152): NNZ.HIST writes per-row beat and non-zero counts and a beat histogram. -/
  | nnzHist (src : StreamSrc)
  /-- POWER_GOOD (R369): The input has stayed within 57 to 72 V for 10 ms, so power-good asserts and a cold reset begins. -/
  | powerGood (mv : Nat) (jumper btnLow : Bool) (addr : BitVec 3) (twoByEight : Bool)
  /-- INPUT_LOSS (R369): The input falls below 40 V and the whole part, always-on domain included, turns off. -/
  | inputLoss
  /-- INPUT_UNDERVOLTAGE_FAULT (R369): After power-good the input has stayed below 55 V for 1 ms, so a power fault destroys every key and shuts the die rails. -/
  | inputUndervoltageFault (mv : Nat)
  /-- INPUT_OVERVOLTAGE_FAULT (R369): After power-good the input exceeds 72 V, and the input stage disconnects within 1 µs as a power fault. -/
  | inputOvervoltageFault (mv : Nat)
  /-- BOOT_IMAGE_CHECK_DONE (R357): The boot ROM finishes checking the signature, key hash, length and SVN, then starts the image or enters recovery. -/
  | bootImageCheckDone (img : ImageCheck)
  /-- FIRMWARE_START_DONE (R388): The firmware has read the fuses, powered H0 to H3 and locked their PLLs. -/
  | firmwareStartDone
  /-- STACK_TRAINING_DONE (R388): The base dies are powered and the stacks trained, so the internal key is generated and stages 4a and 4b begin. -/
  | stackTrainingDone
  /-- LANE_SELF_TEST_DONE (R52): The lane self-test ends, the bypass map and retirement are fixed, and every lane die is power-gated. -/
  | laneSelfTestDone (bad : List (Nat × BitVec 16))
  /-- DRAM_WIPE_DONE (R337): The DRAM wipe of every stack finishes under the internal key. -/
  | dramWipeDone
  /-- SRAM_WIPE_DONE (R337): Every SRAM, the context table included, has been zeroed. -/
  | sramWipeDone
  /-- HOST_LINK_TRAINED (R388): Once the wipe and self-test have ended and HOST_PERST_N is deasserted, the host link trains and configuration space opens. -/
  | hostLinkTrained
  /-- HOST_PERST_ASSERT (R245): An assertion of HOST_PERST_N starts a warm reset, or holds the link stage of a running reset. -/
  | hostPerstAssert
  /-- HOST_PERST_DEASSERT (R388): Deassertion of HOST_PERST_N lets the link stage of a reset proceed. -/
  | hostPerstDeassert
  /-- CXL_HOT_RESET (R245): A CXL hot reset, or a link-down of the link carrying CXL.io, is treated as HOST_PERST_N and starts a warm reset. -/
  | cxlHotReset
  /-- LINK_B_DOWN (R245): Link B goes down in 2 × 8 mode, and HDM windows 32 to 63 become unreachable without a reset. -/
  | linkBDown
  /-- LINK_B_RETRAIN (R245): Link B retrains, and HDM windows 32 to 63 become reachable again. -/
  | linkBRetrain
  /-- REFCLK_LOST (R377): The reference has been absent for 10 µs, so refclk_lost is set and a warm reset begins. -/
  | refclkLost
  /-- REFCLK_STABLE (R377): The reference has been stable for 1 ms, so the held warm reset proceeds. -/
  | refclkStable
  /-- CONFIG_READ (R245): A configuration read is answered with retry status until the part is ready. -/
  | configRead
  /-- SEAL_CHECK (R364): The always-on domain checks the continuity of the seal loop, every millisecond and at power-on. -/
  | sealCheck (opened : Bool)
  /-- PRESENCE_BUTTON_HOLD (R361): PP_BTN_N has been held low for 2 s, so a presence window opens or restarts for 300 s. -/
  | presenceButtonHold
  /-- PRESENCE_WINDOW_EXPIRY (R361): A window opened by the button reaches the end of its 300 s and closes. -/
  | presenceWindowExpiry
  /-- THERMAL_SAMPLE (R382): Every 1 ms Sheepdog reads the junctions, and every 10 ms the inlet, then enters, continues or ends a thermal emergency. -/
  | thermalSample (temps : List (Nat × Nat)) (inlet : Option Nat)
  /-- TRIP_HOLD_EXPIRY (R383): Every die has stayed at or below 85 °C and the inlet at or below 45 °C for 1 s after a trip, so a cold reset follows. -/
  | tripHoldExpiry
  /-- SENSOR_UPDATE (R384): A PLDM sensor updates at its rate and crosses its warning, critical or fatal thresholds, which drives MGMT_ALERT_N. -/
  | sensorUpdate (which : Sensor) (value : Nat)
  /-- GRANT_EPOCH (R372): Every 10 µs Sheepdog recomputes the slice and die power grants from the agents' demands. -/
  | grantEpoch (demands : List (Nat × Nat)) (drawn : List (Nat × Nat))
  /-- SLEEP_ENTRY (R381): No slice, no open context and no enabled PPORT have lasted sleep_ms, so the part sleeps and the stacks self-refresh. -/
  | sleepEntry
  /-- UNIT_CLOCK_GATE (R378): A unit that has been idle for 64 cycles is clock-gated. -/
  | unitClockGate (u : UnitId)
  /-- DIE_PLL_OFF (R378): Every unit of a lane die outside a RESERVED slice has been clock-gated for pll_idle, so the die's PLL stops. -/
  | diePllOff (die : Nat)
  /-- UNIT_WAKE_DONE (R379): A waking unit or die has its clock running again and may issue. -/
  | unitWakeDone (w : WakeOf)
  /-- DIE_POWER_UP_DONE (R380): A power-gated die finishes its 90 µs power-up, and its blocks apply held settings and start. -/
  | diePowerUpDone (d : DieId)
  /-- TAP_INSTRUCTION_LOAD (R416): An instruction is loaded into the TAP, and EXTEST, CLAMP or HIGHZ starts a warm reset held at its link stage. -/
  | tapInstructionLoad (i : TapInstr)
  /-- TAP_TRST (R416): TRST_N resets the TAP and releases a held warm reset. -/
  | tapTrst
  /-- MCTP_MESSAGE (R350): An MCTP message arrives on J9 and is dispatched by type, or answered as an unsupported type. -/
  | mctpMessage (typ : Nat) (sid : Nat)
  /-- DYNAMIC_ADDRESS_ASSIGN (R349): The I3C controller assigns a dynamic address by SETDASA or ENTDAA, and the port changes to I3C. -/
  | dynamicAddressAssign (addr : BitVec 7)
  /-- SET_ENDPOINT_ID (R350): The bus owner sets Mastiff's MCTP endpoint id. -/
  | setEndpointId (eid : Byte)
  /-- SPDM_KEY_EXCHANGE (R352): An SPDM KEY_EXCHANGE sets up a session that authenticates the part and, where the state needs it, the requester. -/
  | spdmKeyExchange (sid : Nat) (key : ReqKey)
  /-- GET_MEASUREMENTS (R356): GET_MEASUREMENTS returns the measurement blocks signed by the device identity key. -/
  | getMeasurements
  /-- PLDM_SENSOR_READ (R351): A PLDM type 2 request returns a numeric or state sensor. -/
  | pldmSensorRead (which : Sensor)
  /-- IDE_KM (R338): An IDE_KM message in the SPDM session establishes or refreshes the CXL IDE keys. -/
  | ideKm (sid : Nat)
  /-- FIRMWARE_UPDATE_TRANSFER (R358): A PLDM type 5 update receives an image, checks it at VerifyComplete and, if it passes, writes the flash. -/
  | firmwareUpdateTransfer (sid : Nat) (img : ImageCheck)
  /-- FLASH_WRITE_DONE (R358): The flash erase and write end, and the new image is pending activation at the next reset. -/
  | flashWriteDone
  /-- RECOVERY_IMAGE_LOAD (R359): In recovery, the ROM accepts an image inside a presence window, checks it, writes the flash and performs a cold reset. -/
  | recoveryImageLoad (img : ImageCheck)
  /-- MGMT_COMMAND_ARRIVAL (R353): A management command arrives and is queued, or refused with BUSY when the queue of 8 is full. -/
  | mgmtCommandArrival (sid code : Nat)
  /-- CTX_CREATE (R327): CTX_CREATE moves a FREE context to FROZEN with new keys, its seed, an empty root and its slices. -/
  | ctxCreate (sid ctx : Nat) (home resv : Option Nat) (seed : Option Dword)
  /-- CTX_OPEN (R327): CTX_OPEN moves a FROZEN context to OPEN, and the gate resumes fetching. -/
  | ctxOpen (sid ctx : Nat)
  /-- CTX_FREEZE (R20): CTX_FREEZE stops the dispatch of new items without disturbing dispatched ones. -/
  | ctxFreeze (sid ctx : Nat)
  /-- CTX_KILL (R277): CTX_KILL kills the context and accounts for every accepted entry with a CONTEXT_KILLED record. -/
  | ctxKill (sid ctx : Nat)
  /-- CTX_DESTROY (R336): CTX_DESTROY kills the context if needed and moves it to TEARDOWN, waiting for its last record. -/
  | ctxDestroy (sid ctx : Nat)
  /-- TEARDOWN_RECORDS_DRAINED (R336): The last record of a context in teardown is written, so its keys are erased, its bindings released and its scrub started. -/
  | teardownRecordsDrained (ctx : Nat)
  /-- TEARDOWN_SCRUB_DONE (R336): The scrub of the context's granules ends, the granules return to the free pool and the context becomes FREE. -/
  | teardownScrubDone (ctx : Nat)
  /-- CTX_SET (R326): CTX_SET changes one field of a context table entry in the states that field allows. -/
  | ctxSet (sid ctx : Nat) (field : CtxField)
  /-- MAP (R330): MAP maps scrubbed granules from the free pool into a context's translation. -/
  | map (sid ctx : Nat) (pages : List MapPage)
  /-- UNMAP (R332): UNMAP removes a page once every translation cache has dropped it and old accesses have completed. -/
  | unmap (sid ctx va : Nat)
  /-- SHARE (R333): SHARE maps a page owned by one context into another with the owner's key and no wider rights. -/
  | share (sid owner va ctx toVa : Nat) (r w : Bool)
  /-- UNSHARE (R332): UNSHARE removes a shared mapping once caches have dropped it and accesses have completed. -/
  | unshare (sid ctx va : Nat)
  /-- HDM_BIND (R247): HDM_BIND binds or unbinds an HDM window to a context and virtual base. -/
  | hdmBind (sid window : Nat) (ctx : Option Nat) (base : Nat)
  /-- GRANT (R319): GRANT adds or revokes a peer grant of a context. -/
  | grant (sid ctx : Nat) (g : PeerGrant) (revoke : Bool)
  /-- SLICE_CREATE (R279): SLICE_CREATE creates a slice with its dies and shares, waking the part from sleep if needed. -/
  | sliceCreate (sid slice : Nat) (p : SliceParams)
  /-- SLICE_CHANGE (R406): SLICE_CHANGE passes a slice's block through OFF, rewrites its parameters and starts it again. -/
  | sliceChange (sid slice : Nat) (p : SliceParams)
  /-- SLICE_DESTROY (R280): SLICE_DESTROY removes a slice that no context names, flushing and power-gating its dies. -/
  | sliceDestroy (sid slice : Nat)
  /-- DIE_CACHE_FLUSH_DONE (R226): A die leaving a slice has written back and invalidated its cache and released its pins, so it is power-gated. -/
  | dieCacheFlushDone (die : Nat)
  /-- PWR_SET (R374): PWR_SET sets the module cap, slice caps and floors from the next epoch. -/
  | pwrSet (sid : Nat) (capW : Option Nat) (caps floors : List (Nat × Nat))
  /-- TOPO_SET (R323): TOPO_SET writes PPORT_NODE and PPORT_TOPO while all six PPORT blocks are OFF. -/
  | topoSet (sid node : Nat) (topo : Word)
  /-- REEL_SYS_SET (R308): REEL_SYS_SET writes the system tree in REEL_SYS_CFG. -/
  | reelSysSet (sid : Nat) (cfg : Word)
  /-- SNAPSHOT (R306): SNAPSHOT sends a freeze down the system tree so that every module freezes its open contexts and drains them. -/
  | snapshot (sid : Nat)
  /-- SNAPSHOT_TAKEN (R306): Every module's drain report has reached the root, so the snapshot is taken. -/
  | snapshotTaken
  /-- RESUME (R306): RESUME reopens exactly the contexts that the snapshot froze. -/
  | resume (sid : Nat)
  /-- REEL_RESET (R307): REEL_RESET sends a reset down the system tree, and each module performs a warm reset with a full wipe. -/
  | reelReset (sid : Nat)
  /-- IDE_POLICY (R338): IDE_POLICY sets or clears the IDE-required policy. -/
  | idePolicy (sid : Nat) (required : Bool)
  /-- LOG_READ (R368): LOG_READ returns the management log entries, oldest first. -/
  | logRead (sid : Nat)
  /-- CMD_STATUS (R353): CMD_STATUS returns the state of the last long command. -/
  | cmdStatus (sid : Nat)
  /-- LC_TRANSITION (R365): LC_TRANSITION fuses a new life-cycle state inside a presence window and performs a warm reset with a full wipe. -/
  | lcTransition (sid : Nat) (target : Life) (key : Nat)
  /-- DEBUG_UNLOCK (R367): DEBUG_UNLOCK performs a warm reset with a full wipe, after which the part comes up in debug mode. -/
  | debugUnlock (sid : Nat)
  /-- OWNER_KEY_ROTATE (R360): OWNER_KEY_ROTATE replaces the owner key with a new key signed by the old one and ends the old sessions. -/
  | ownerKeyRotate (sid key : Nat) (sigOk : Bool)
  /-- PRESENCE_CLOSE (R363): PRESENCE_CLOSE closes a window that the button opened. -/
  | presenceClose (sid : Nat)
  /-- WARM_RESET (R385): The WARM_RESET command starts a warm reset with a full wipe. -/
  | warmReset (sid : Nat)
  /-- REGISTER_WRITE (R394): A BAR0 write to a register without its own row is combined through the aliases, checked against block state and rights, and stored or rejected. -/
  | registerWrite (ws : List RegWrite)
  /-- ENABLE_WRITE_ONE (R396): Writing enable = 1 moves an OFF block to STARTING, and the write is rejected during STOPPING. -/
  | enableWriteOne (who : Requester) (b : Block)
  /-- ENABLE_WRITE_ZERO (R396): Writing enable = 0 moves an ON block to STOPPING, or marks a STARTING block to stop once it has started. -/
  | enableWriteZero (who : Requester) (b : Block)
  /-- BLOCK_STARTED (R396): A STARTING block finishes its start and reads ON. -/
  | blockStarted (b : Block)
  /-- BLOCK_STOPPED (R396): A STOPPING block has drained its work in flight and reads OFF. -/
  | blockStopped (b : Block)
  /-- RING_ENABLE (R251): Writing RING_QCTRL.enable = 1 turns a context's rings on, resetting the pointers and the sequence numbering. -/
  | ringEnable (who : Requester) (ctx : Nat)
  /-- RING_DISABLE (R251): Writing RING_QCTRL.enable = 0 stops fetching, and the rings read OFF once the records of fetched items are written. -/
  | ringDisable (who : Requester) (ctx : Nat)
  /-- PPORT_ENABLE (R312): Writing PPORT_CTRL.enable = 1 starts training and the handshake of a partner port. -/
  | pportEnable (who : Requester) (port : Nat)
  /-- RE_HALT_REQUEST (R57): Writing RE_DBG_SEL.halt_req requests or releases a halt of the engine's shared issue in debug mode. -/
  | reHaltRequest (die k : Nat) (halt : Bool)
  /-- ENGINE_DEBUG_HALT (R57): At the next chunk boundary, after its drains and LOADs finish, the engine halts and dbg_halted reads 1. -/
  | engineDebugHalt (die k chunk : Nat)
  /-- CORE_HALT_REQUEST (R429): Writing DBG_CORE_CTRL.halt_req requests or releases the halt of a Collie core in debug mode. -/
  | coreHaltRequest (die core : Nat) (halt : Bool)
  /-- CORE_DEBUG_HALT (R429): The core stops issuing at its next instruction boundary and halted reads 1. -/
  | coreDebugHalt (die core : Nat)
  /-- CNT_SEL_WRITE (R426): A write to CNT_SEL selects the context shown in the counter window and clears snap. -/
  | cntSelWrite (ctx : Nat)
  /-- CNT_SNAP_TAKE (R426): Writing CNT_SNAP.take copies the selected context's counters and arrays into a snapshot. -/
  | cntSnapTake
  /-- CNT_SNAP_RELEASE (R426): Writing CNT_SNAP.release clears snap, so reads return live values again. -/
  | cntSnapRelease
  /-- CNT_CLEAR (R426): Writing CNT_CLEAR.clear zeroes the selected context's counters, except STASH_BYTES. -/
  | cntClear
  /-- CNT_TRACE_WRITE (R425): A write to CNT_TRACE clears every per-unit array and sets the traced context. -/
  | cntTraceWrite (v : Word)
  /-- SQ_TAIL_WRITE (R254): A doorbell write to SQ_TAIL is accepted when it moves the tail forward, and is otherwise ignored and counted. -/
  | sqTailWrite (ctx : Nat) (v : Word) (seen : List HostWrite)
  /-- CQ_HEAD_WRITE (R254): A doorbell write to CQ_HEAD frees completion-ring space when it passes its test. -/
  | cqHeadWrite (ctx : Nat) (v : Word)
  /-- DOORBELL_PAGE_OTHER_WRITE (R253): A write to a doorbell page that is not an aligned 4 B write to its two registers is ignored and counted. -/
  | doorbellPageOtherWrite (ctx offset size : Nat)
  /-- HOST_MEM_ACCESS (R247): A host CXL.mem read or write in an HDM window is translated, encrypted and performed, or zeroed or dropped. -/
  | hostMemAccess (window offset : Nat) (op : HdmOp)
  /-- DESCRIPTOR_FETCH (R255): The ring engine fetches up to 16 descriptors in ring order within the item window and checks each one. -/
  | descriptorFetch (ctx : Nat) (poisoned : List Nat) (hostNs : Nat)
  /-- ITEM_DISPATCH (R255): A ready item is dispatched by class rank and ring order to the slice that R11 selects, pinning versions and reserving stash. -/
  | itemDispatch (ctx seq : Nat)
  /-- ITEM_COMPLETE (R273): An item's work ends, its status is chosen, claims are counted down and its dependents are released or failed. -/
  | itemComplete (ctx seq : Nat)
  /-- COMPLETION_RECORD_WRITE (R276): A record waiting for completion-ring space is written once the ring has room. -/
  | completionRecordWrite (ctx : Nat)
  /-- MSIX_MESSAGE (R250): The ring's MSI-X vector is sent, at most once per microsecond, covering every new record with irq set. -/
  | msixMessage (vector : Nat)
  /-- CONTEXT_FAULT (R342): A context fault reaches H0, is written to the fault record or counted in extra, and kills the context. -/
  | contextFault (ctx : Nat) (faults : List FaultInfo)
  /-- ITEM_NOP (R258): A NOP item completes once its dependencies are met. -/
  | itemNop (ctx seq : Nat)
  /-- RE_PRODUCT (R261): An RE_PRODUCT item is cut into tiles that run on the slice's row engines. -/
  | reProduct (ctx seq : Nat)
  /-- VEC_LIST (R264): A list-form VEC item runs up to 4,096 vector instructions on one engine, starting from zeroed registers. -/
  | vecList (ctx seq : Nat)
  /-- KERNEL (R266): A KERNEL item places its blocks on the slice's Collie cores and runs until every block exits. -/
  | kernel (ctx seq : Nat)
  /-- NORM_UPDATE (R105): A NORM_UPDATE item clips and updates one weight set layer by layer, and then publishes the new version. -/
  | normUpdate (ctx seq : Nat)
  /-- LAYER_WRITE_START (R116): Once no item still holds the target slot, the sequencer starts writing the layer. -/
  | layerWriteStart (ctx seq waited : Nat) (held : List (Nat × Nat × Nat))
  /-- LAYER_SWAP (R117): A layer's write-back ends, and the sequencer sets its current slot and version P + 1 in one step. -/
  | layerSwap (ctx seq : Nat)
  /-- CACHE_CTL_PIN (R228): A PIN item sets a class's pinned way count on every die of the slice, or is refused whole. -/
  | cacheCtlPin (ctx seq : Nat)
  /-- PIN_SCAN_DONE (R230): Every die has scanned its newly pinned ways, and the pin item completes. -/
  | pinScanDone (slice : Nat)
  /-- CACHE_CTL_DISCARD (R268): A DISCARD item discards every line of an address range. -/
  | cacheCtlDiscard (ctx seq : Nat)
  /-- EVENT_ADD (R269): An EVENT ADD atomically adds its value to a 64-bit word at system scope. -/
  | eventAdd (ctx seq : Nat)
  /-- EVENT_SET (R269): An EVENT SET stores its value to a 64-bit word at system scope. -/
  | eventSet (ctx seq : Nat)
  /-- EVENT_WAIT_GE (R269): An EVENT WAIT_GE completes when the word reads at or above its value. -/
  | eventWaitGe (ctx seq : Nat)
  /-- EVENT_MONITOR_REREAD (R270): A monitored event word is re-read when its line is written or invalidated. -/
  | eventMonitorReread (ctx seq : Nat) (seen : List HostWrite)
  /-- EVENT_POLL (R270): A WAIT_GE without a monitor polls its word every 20 µs. -/
  | eventPoll (ctx seq : Nat) (seen : List HostWrite)
  /-- CANCEL (R271): A CANCEL ends the matching earlier items of its context with CANCELLED. -/
  | cancel (ctx seq : Nat)
  /-- REEL_BARRIER (R300): A REEL barrier completes when its instance completes. -/
  | reelBarrier (ctx seq : Nat)
  /-- REEL_BROADCAST (R300): A REEL broadcast writes the root shard's bytes to every shard's destination. -/
  | reelBroadcast (ctx seq : Nat)
  /-- REEL_REDUCE (R301): A REEL reduce combines up to 32 values in the fixed tree order and writes the total to every shard. -/
  | reelReduce (ctx seq : Nat)
  /-- REEL_ARRIVAL (R299): A shard's item starts and arrives at its group instance as a release. -/
  | reelArrival (ctx seq : Nat)
  /-- REEL_MESSAGE_RECEIVE (R302): A Reel message from a child or parent module arrives and is combined, forwarded or checked for mismatched parameters. -/
  | reelMessageReceive (port : Nat) (m : ReelMsg)
  /-- REEL_INSTANCE_COMPLETE (R299): All shards have arrived and the result is written, so the instance completes as an acquire. -/
  | reelInstanceComplete (group : Nat)
  /-- REEL_ABORT (R304): A shard whose item ends without arriving aborts its instance, and the other items fail. -/
  | reelAbort (group shard : Nat)
  /-- JKF_TRANSLATION_DONE (R202): The validation and translation of a kernel image end, or it fails with ILLEGAL_INSTR. -/
  | jkfTranslationDone (ctx seq : Nat)
  /-- TILE_DEAL (R283): The ring engine deals a run of up to 8 tiles to the least-loaded eligible engine once queue room exists. -/
  | tileDeal (ctx seq : Nat)
  /-- TILE_START (R42): A row engine takes its next tile from the local queue and begins issuing chunks. -/
  | tileStart (die k : Nat) (rep : Report)
  /-- TILE_DRAIN_DONE (R44): A tile's accumulator rows have been converted and written, and its bank is free. -/
  | tileDrainDone (die k : Nat) (rep : Report)
  /-- SPLIT_COMBINE (R48): After the last split of a tile drains, the engine combines the partials and drains the result. -/
  | splitCombine (die k rows : Nat) (rep : Report)
  /-- STEAL_ATTEMPT (R285): An engine that has been idle for 256 cycles, and every 64 cycles after, tries to steal a tile. -/
  | stealAttempt (die k : Nat)
  /-- TILE_PARK (R288): At the next chunk boundary a row engine parks its lower-rank tile to run arriving class 0 tiles. -/
  | tilePark (die k chunk : Nat)
  /-- PARKED_TILE_RESUME (R288): With no class 0 tile queued, the parked tile reloads its bank and resumes. -/
  | parkedTileResume (die k : Nat)
  /-- TXB_TURN_DONE (R86): The TXB finishes turning a tile, checking 2:4 blocks and requantizing MX blocks. -/
  | txbTurnDone (die k : Nat) (isB : Bool) (row col : Nat)
  /-- DEMAND_MISS_FILL (R235): A miss register's line arrives, is corrected or found uncorrectable, and is delivered to every waiter. -/
  | demandMissFill (die line : Nat) (lo hi : Ecc)
  /-- PREFETCH_FILL (R239): A Retriever prefetch returns and is installed in the die cache or first level, or dropped. -/
  | prefetchFill (die line : Nat) (lo hi : Ecc)
  /-- PATROL_SCRUB_READ (R126): The patrol scrub reads a codeword on schedule and corrects or counts its errors. -/
  | patrolScrubRead (half : Nat) (e : Ecc)
  /-- COMBINER_ATOMIC (R130): A device- or system-scope atomic request reaches its base-die combiner and is applied in arrival order. -/
  | combinerAtomic (ctx seq : Nat) (req : AtomReq)
  /-- HOST_LINE_ATOMIC (R249): An atomic on host memory runs on H0 after it takes the line exclusive. -/
  | hostLineAtomic (ctx seq : Nat) (req : AtomReq)
  /-- BLOCK_PLACE (R163): A kernel block is placed whole on an eligible core, and its block memory is zeroed. -/
  | blockPlace (ctx seq : Nat)
  /-- PACK_MOVE (R166): A free active entry takes the oldest ready pending pack in 4 cycles. -/
  | packMove (die core : Nat) (rep : Report)
  /-- PATH_RECONVERGE (R170): A path reaching the top reconvergence pc switches to pending threads or pops the mask-stack entry. -/
  | pathReconverge (pack : Nat)
  /-- BARRIER_INSTANCE_COMPLETE (R172): Every live thread has arrived at a barrier id, so its parked threads resume together. -/
  | barrierInstanceComplete (block id : Nat)
  /-- BARRIER_TIMEOUT (R175): An open barrier instance reaches 2²² cycles, and the context takes the BARRIER_TIMEOUT fault. -/
  | barrierTimeout (block id : Nat)
  /-- PORT_TRAINING_DONE (R312): PHY training with the partner ends and the port enters HANDSHAKE. -/
  | portTrainingDone (port : Nat) (lanes : BitVec 16)
  /-- PORT_HANDSHAKE (R313): The handshake exchange with the partner completes, bringing the link UP or setting hs_fault. -/
  | portHandshake (port : Nat) (partner : Partner)
  /-- NO_PARTNER_TIMEOUT (R312): No partner has answered for 1 s, so no_partner is set. -/
  | noPartnerTimeout (port : Nat)
  /-- FLIT_RECEIVE (R316): A flit arrives, has its CRC checked, returns credits, and is delivered or NAKed. -/
  | flitReceive (port : Nat) (f : Flit)
  /-- FLIT_NAK (R316): A NAK causes the sender to replay from the named flit, and the 16th replay brings the link down. -/
  | flitNak (port seq : Nat)
  /-- ACK_TIMEOUT (R316): No acknowledgement has arrived for 20 µs, so the link goes DOWN. -/
  | ackTimeout (port : Nat)
  /-- BLOCK_LOCK_LOSS (R316): The PHY loses block lock, for instance when a cable is unplugged, so the link goes DOWN. -/
  | blockLockLoss (port : Nat)
  /-- LINK_DOWN (R322): A link going DOWN fails the items using it within 50 µs, marks Reel groups DOWN and may retrain. -/
  | linkDown (port : Nat)
  /-- PEER_REQUEST_RECEIVE (R319): A peer read, write or atomic arrives at the target, is checked against grants and is performed or refused. -/
  | peerRequestReceive (port : Nat) (req : PeerReq)
  /-- PEER_RESPONSE_RECEIVE (R319): A peer response or refusal returns to the source item. -/
  | peerResponseReceive (path : AnsPath) (tag : Nat) (ans : PeerAns)
  /-- ZC_FRAME_RECEIVE (R321): A ZC row frame arrives, and its row-table entry is written after its masks and values. -/
  | zcFrameReceive (port : Nat) (f : ZcFrame)
  /-- POWER_ON (R369): The input rises to 40 V or more from below, so the always-on domain starts, the time counter starts from zero and the seal loop is checked. -/
  | powerOn (mv : Nat) (sealOpen : Bool)
  /-- MSIX_TABLE_WRITE (R250): A host write to the BAR4 MSI-X table unmasks a vector, and the message held in its pending bit is sent. -/
  | msixTableWrite (offset : Nat) (v : Word)
  /-- CXL_CACHE_SNOOP (R226): The host's CXL.cache coherence request for a host-memory line held in a die cache arrives, and the die cache gives up or invalidates the line. -/
  | cxlCacheSnoop (line : Nat) (takes : Bool)
  /-- BACK_INVALIDATION_RESPONSE (R221): The host answers an HDM-DB back-invalidation for a device line it held, which lets a waiting completion record be written. -/
  | backInvalidationResponse (line : Nat)
  /-- PP_BTN_N_RELEASE (R388): During boot ROM stage 1, PP_BTN_N is released before 2 s and the ROM goes on to check the image. -/
  | ppBtnNRelease
  deriving DecidableEq, Repr

end Sys2Proof
end

