-- ==== Sys2Proof/WellFormed.lean ====
section
/-! DEFINITION. Which operands a command can carry: numbers of units, ports and contexts within what the part has. What a
management command names may be anything: Mastiff answers for it (R354). -/

namespace Sys2Proof

/-! ### Numbers (R2, R4, R122, R250, R297, R423) -/

/-- A context. -/
def okCtx (c : Nat) : Bool := decide (c < Config.contextCount)
/-- A lane die. -/
def okDie (d : Nat) : Bool := decide (d < Config.laneDies)
/-- A row or vector engine of a die. -/
def okEngine (k : Nat) : Bool := decide (k < Config.enginesPerDie)
/-- A core of a die. -/
def okCore (c : Nat) : Bool := decide (c < Config.coresPerDie)
/-- A partner port. -/
def okPort (p : Nat) : Bool := decide (p < Config.portCount)
/-- A slice index. -/
def okSlice (s : Nat) : Bool := decide (s < Config.sliceCount)
/-- An HDM window (R247). -/
def okWindow (w : Nat) : Bool := decide (w < 64)
/-- A Reel group. -/
def okGroup (g : Nat) : Bool := decide (g < 256)
/-- A traffic class. -/
def okClass (t : Nat) : Bool := decide (t < 8)
/-- An MSI-X vector. -/
def okVector (v : Nat) : Bool := decide (v < Config.contextCount)
/-- A half-line of device memory. -/
def okHalf (h : Nat) : Bool := decide (h < Config.dramBytes / 64)
/-- A barrier id (R172). -/
def okBarrier (i : Nat) : Bool := decide (i < 16)

/-! ### Compound operands -/

/-- A report names stall codes of R55, R158 and R185. -/
def okReport (r : Report) : Bool := r.stalls.all fun e => decide (e.1 < 4096)

/-- A list entry has 14 words (R435). -/
def okVec (v : VecArgs) : Bool :=
  match v.src with
  | .pack _ rep => okReport rep
  | .list die k u rep => okDie die && okEngine k && u.length == 14 && okReport rep

/-- Where a stream operation comes from. -/
def okStream : StreamSrc → Bool
  | .item ctx _ rep => okCtx ctx && okReport rep
  | .pack _ _ rep => okReport rep

/-- A block of the register map. -/
def okBlock : Block → Bool
  | .re die k => okDie die && okEngine k
  | .ve die => okDie die
  | .txb die => okDie die
  | .collie die => okDie die
  | .dcache die => okDie die
  | .retr die => okDie die
  | .rng die => okDie die
  | .mem i => decide (i < Config.stackCount)
  | .ups => true
  | .reel => true
  | .pport p => okPort p
  | .ring ctx => okCtx ctx
  | .slc s => okSlice s

/-- A unit that a clock gates. -/
def okUnit (u : UnitId) : Bool := okDie u.die && decide (u.unit < 40)

/-- What wakes. -/
def okWake : WakeOf → Bool
  | .unit u => okUnit u
  | .die d => okDie d

/-- A die that powers up. -/
def okDieId : DieId → Bool
  | .lane d => okDie d
  | .hub h => decide (1 ≤ h) && decide (h ≤ 3)

/-- A sensor of R351. -/
def okSensor : Sensor → Bool
  | .junction d => decide (d < 64)
  | .eccCe s => decide (s < Config.stackCount)
  | .eccUe s => decide (s < Config.stackCount)
  | _ => true

/-- A register write lies in the 16 MiB of BAR0 (R391). -/
def okWrite (w : RegWrite) : Bool := decide (w.offset < 2 ^ 24)

/-- A CXL.mem access lies in one line (R247). -/
def okHdm (off : Nat) : HdmOp → Bool
  | .read n => decide (off % 128 + n ≤ 128)
  | .write bs => decide (off % 128 + bs.length ≤ 128)

/-- A Reel message names a group of the table. -/
def okReel : ReelMsg → Bool
  | .partialUp g _ _ _ _ _ _ _ => okGroup g
  | .resultDown g _ _ _ _ => okGroup g
  | .failDown g _ _ _ => okGroup g
  | .abort g _ _ _ => okGroup g
  | .downEntry g => okGroup g
  | .freeze => true
  | .drained => true
  | .taken => true
  | .resume => true
  | .reset => true

/-- Bytes of an operand type. -/
def tyBytes : AtomTy → Nat
  | .s64 => 8
  | .u64 => 8
  | .b64 => 8
  | _ => 4

/-- An atomic carries an operand for each lane, and lies at a multiple of its size (R129). -/
def okAtom (r : AtomReq) : Bool :=
  decide (1 ≤ r.opnds.length) && decide (r.opnds.length ≤ 32) && r.addr % tyBytes r.ty == 0

/-- Nodes have 12 bits (R317). -/
def okNodes (src dst : Nat) : Bool := decide (src < 4096) && decide (dst < 4096)

/-- A peer request names nodes, contexts and an aligned atomic, and travels on V0 or on the channel of its kind (R315, R319,
R329). -/
def okPeer (r : PeerReq) : Bool :=
  okNodes r.srcNode r.dst && okCtx r.ctx && okCtx r.srcCtx && match r.op with
    | .atomic _ ty os _ => r.va % tyBytes ty == 0 && decide (os.length ≤ 32) && (r.vc == 0 || r.vc == 1)
    | .read _ => r.vc == 0 || r.vc == 1
    | .write _ => r.vc == 0 || r.vc == 3

/-- A frame holds whole mask words and whole 32 B units of values (R71, R72, R321). -/
def okFrame (f : ZcFrame) : Bool :=
  okNodes f.srcNode f.dst && okCtx f.ctx && okCtx f.srcCtx && (f.masks.map fun e => e.2.length).sum % 8 == 0 &&
    (f.vals.map fun e => e.2.length).sum % 32 == 0 &&
    (f.vc == 0 || f.vc == 3)

/-- A partner's node id has 12 bits, its port is one of six (R317, R323). -/
def okPartner (p : Partner) : Bool := decide (p.node < 4096) && okPort p.port

/-- A flit belongs to one of four channels and returns credits for each (R315). -/
def okFlit (f : Flit) : Bool := decide (f.vc < 4) && f.credits.length == 4

/-- A fault's fields fit the record (R341). -/
def okFault (f : FaultInfo) : Bool := decide (f.source < 8) && decide (f.die < 64) && decide (f.lane < 32)

/-- A command whose operands the part can be given. -/
def Instr.wf (c : Instr) : Bool :=
  match c with
  | .intAdd _ _ => true
  | .intSub _ _ => true
  | .intMullo _ _ => true
  | .intMulhi _ _ => true
  | .intDiv _ _ => true
  | .intRem _ _ => true
  | .intMin _ _ => true
  | .intMax _ _ => true
  | .intAnd _ _ => true
  | .intOr _ _ => true
  | .intXor _ _ => true
  | .intNot _ _ => true
  | .intShl _ _ => true
  | .intShr _ _ => true
  | .intSar _ _ => true
  | .intPopc _ _ => true
  | .intClz _ _ => true
  | .intBrev _ _ => true
  | .intMov _ _ => true
  | .intSel _ _ => true
  | .fpAdd _ _ => true
  | .fpSub _ _ => true
  | .fpMul _ _ => true
  | .fpFma _ _ => true
  | .fpMin _ _ => true
  | .fpMax _ _ => true
  | .fpAbs _ _ => true
  | .fpNeg _ _ => true
  | .fpCopysign _ _ => true
  | .fpDiv _ _ => true
  | .fpSqrt _ _ => true
  | .fpRsqrt _ _ => true
  | .fpRecip _ _ => true
  | .fpExp2 _ _ => true
  | .fpLog2 _ _ => true
  | .cvtF2i _ _ => true
  | .cvtF2u _ _ => true
  | .cvtI2f _ _ => true
  | .cvtU2f _ _ => true
  | .cvtF2n _ _ => true
  | .cvtN2f _ _ => true
  | .predEq _ _ => true
  | .predNe _ _ => true
  | .predLt _ _ => true
  | .predLe _ _ => true
  | .predGt _ _ => true
  | .predGe _ _ => true
  | .predIsnan _ _ => true
  | .predIsinf _ _ => true
  | .predIsfinite _ _ => true
  | .pand _ _ => true
  | .por _ _ => true
  | .pxor _ _ => true
  | .pnot _ _ => true
  | .pmov _ _ => true
  | .memLd _ _ _ => true
  | .memSt _ _ _ => true
  | .memDiscard _ _ => true
  | .atomAdd _ _ => true
  | .atomMin _ _ => true
  | .atomMax _ _ => true
  | .atomAnd _ _ => true
  | .atomOr _ _ => true
  | .atomXor _ _ => true
  | .atomXchg _ _ => true
  | .atomCas _ _ => true
  | .bra _ _ => true
  | .exitThreads _ => true
  | .bar _ _ => true
  | .flowNop _ => true
  | .fence _ _ _ => true
  | .engIssue _ _ => true
  | .engWait _ _ => true
  | .vacq _ _ => true
  | .vrel _ _ => true
  | .vsync _ _ => true
  | .movsr _ _ => true
  | .vecFpAdd v => okVec v
  | .vecFpSub v => okVec v
  | .vecFpMul v => okVec v
  | .vecFpFma v => okVec v
  | .vecFpMin v => okVec v
  | .vecFpMax v => okVec v
  | .vecFpAbs v => okVec v
  | .vecFpNeg v => okVec v
  | .vecFpCopysign v => okVec v
  | .vecFpSel v => okVec v
  | .vecIntAdd v => okVec v
  | .vecIntSub v => okVec v
  | .vecIntMullo v => okVec v
  | .vecIntMin v => okVec v
  | .vecIntMax v => okVec v
  | .vecIntShl v => okVec v
  | .vecIntShr v => okVec v
  | .vecIntSar v => okVec v
  | .vecIntAnd v => okVec v
  | .vecIntOr v => okVec v
  | .vecIntXor v => okVec v
  | .vecIntNot v => okVec v
  | .vecIntSel v => okVec v
  | .vecCmpEq v => okVec v
  | .vecCmpNe v => okVec v
  | .vecCmpLt v => okVec v
  | .vecCmpLe v => okVec v
  | .vecCmpIsnan v => okVec v
  | .vecCmpIsinf v => okVec v
  | .vecCmpIsfinite v => okVec v
  | .vecDiv v => okVec v
  | .vecSqrt v => okVec v
  | .vecRsqrt v => okVec v
  | .vecRecip v => okVec v
  | .vecExp2 v => okVec v
  | .vecLog2 v => okVec v
  | .vecRedSum v => okVec v
  | .vecRedMin v => okVec v
  | .vecRedMax v => okVec v
  | .vecRedAnd v => okVec v
  | .vecRedOr v => okVec v
  | .vecRedXor v => okVec v
  | .vecScanAddIncl v => okVec v
  | .vecScanMinIncl v => okVec v
  | .vecScanMaxIncl v => okVec v
  | .vecScanAddExcl v => okVec v
  | .vecScanMinExcl v => okVec v
  | .vecScanMaxExcl v => okVec v
  | .vecLd v => okVec v
  | .vecSt v => okVec v
  | .vecLds v => okVec v
  | .vecSts v => okVec v
  | .vecGather v => okVec v
  | .vecScatter v => okVec v
  | .vecCvt v => okVec v
  | .randU32 v => okVec v
  | .randUni v => okVec v
  | .randBern v => okVec v
  | .dropFwd v => okVec v
  | .dropBwd v => okVec v
  | .cb10Grant die reqs => okDie die && reqs.all fun e => decide (e.unit < 16)
  | .zcCompress src => okStream src
  | .s24Compress src => okStream src
  | .prune24t src => okStream src
  | .nnzHist src => okStream src
  | .powerGood _ _ _ _ _ => true
  | .inputLoss => true
  | .inputUndervoltageFault _ => true
  | .inputOvervoltageFault _ => true
  | .bootImageCheckDone _ => true
  | .firmwareStartDone => true
  | .stackTrainingDone => true
  | .laneSelfTestDone bad => bad.all fun e => decide (e.1 < 8 * Config.laneDies)
  | .dramWipeDone => true
  | .sramWipeDone => true
  | .hostLinkTrained => true
  | .hostPerstAssert => true
  | .hostPerstDeassert => true
  | .cxlHotReset => true
  | .linkBDown => true
  | .linkBRetrain => true
  | .refclkLost => true
  | .refclkStable => true
  | .configRead => true
  | .sealCheck _ => true
  | .presenceButtonHold => true
  | .presenceWindowExpiry => true
  | .thermalSample temps _ => temps.all fun e => decide (e.1 < 64)
  | .tripHoldExpiry => true
  | .sensorUpdate which _ => okSensor which
  | .grantEpoch _ _ => true
  | .sleepEntry => true
  | .unitClockGate u => okUnit u
  | .diePllOff die => okDie die
  | .unitWakeDone w => okWake w
  | .diePowerUpDone d => okDieId d
  | .tapInstructionLoad _ => true
  | .tapTrst => true
  | .mctpMessage _ _ => true
  | .dynamicAddressAssign _ => true
  | .setEndpointId _ => true
  | .spdmKeyExchange _ _ => true
  | .getMeasurements => true
  | .pldmSensorRead which => okSensor which
  | .ideKm _ => true
  | .firmwareUpdateTransfer _ _ => true
  | .flashWriteDone => true
  | .recoveryImageLoad _ => true
  | .mgmtCommandArrival _ _ => true
  | .ctxCreate _ _ _ _ _ => true
  | .ctxOpen _ _ => true
  | .ctxFreeze _ _ => true
  | .ctxKill _ _ => true
  | .ctxDestroy _ _ => true
  | .teardownRecordsDrained ctx => okCtx ctx
  | .teardownScrubDone ctx => okCtx ctx
  | .ctxSet _ _ _ => true
  | .map _ _ _ => true
  | .unmap _ _ _ => true
  | .share _ _ _ _ _ _ _ => true
  | .unshare _ _ _ => true
  | .hdmBind _ _ _ _ => true
  | .grant _ _ _ _ => true
  | .sliceCreate _ _ _ => true
  | .sliceChange _ _ _ => true
  | .sliceDestroy _ _ => true
  | .dieCacheFlushDone die => okDie die
  | .pwrSet _ _ _ _ => true
  | .topoSet _ _ _ => true
  | .reelSysSet _ _ => true
  | .snapshot _ => true
  | .snapshotTaken => true
  | .resume _ => true
  | .reelReset _ => true
  | .idePolicy _ _ => true
  | .logRead _ => true
  | .cmdStatus _ => true
  | .lcTransition _ _ _ => true
  | .debugUnlock _ => true
  | .ownerKeyRotate _ _ _ => true
  | .presenceClose _ => true
  | .warmReset _ => true
  | .registerWrite ws => ws.all okWrite
  | .enableWriteOne _ b => okBlock b
  | .enableWriteZero _ b => okBlock b
  | .blockStarted b => okBlock b
  | .blockStopped b => okBlock b
  | .ringEnable _ ctx => okCtx ctx
  | .ringDisable _ ctx => okCtx ctx
  | .pportEnable _ port => okPort port
  | .reHaltRequest die k _ => okDie die && okEngine k
  | .engineDebugHalt die k _ => okDie die && okEngine k
  | .coreHaltRequest die core _ => okDie die && okCore core
  | .coreDebugHalt die core => okDie die && okCore core
  | .cntSelWrite ctx => okCtx ctx
  | .cntSnapTake => true
  | .cntSnapRelease => true
  | .cntClear => true
  | .cntTraceWrite _ => true
  | .sqTailWrite ctx _ _ => okCtx ctx
  | .cqHeadWrite ctx _ => okCtx ctx
  | .doorbellPageOtherWrite ctx _ _ => okCtx ctx
  | .hostMemAccess window offset op => okWindow window && okHdm offset op
  | .descriptorFetch ctx _ _ => okCtx ctx
  | .itemDispatch ctx _ => okCtx ctx
  | .itemComplete ctx _ => okCtx ctx
  | .completionRecordWrite ctx => okCtx ctx
  | .msixMessage vector => okVector vector
  | .contextFault ctx faults => okCtx ctx && faults.all okFault
  | .itemNop ctx _ => okCtx ctx
  | .reProduct ctx _ => okCtx ctx
  | .vecList ctx _ => okCtx ctx
  | .kernel ctx _ => okCtx ctx
  | .normUpdate ctx _ => okCtx ctx
  | .layerWriteStart ctx _ _ _ => okCtx ctx
  | .layerSwap ctx _ => okCtx ctx
  | .cacheCtlPin ctx _ => okCtx ctx
  | .pinScanDone slice => okSlice slice
  | .cacheCtlDiscard ctx _ => okCtx ctx
  | .eventAdd ctx _ => okCtx ctx
  | .eventSet ctx _ => okCtx ctx
  | .eventWaitGe ctx _ => okCtx ctx
  | .eventMonitorReread ctx _ _ => okCtx ctx
  | .eventPoll ctx _ _ => okCtx ctx
  | .cancel ctx _ => okCtx ctx
  | .reelBarrier ctx _ => okCtx ctx
  | .reelBroadcast ctx _ => okCtx ctx
  | .reelReduce ctx _ => okCtx ctx
  | .reelArrival ctx _ => okCtx ctx
  | .reelMessageReceive port m => okPort port && okReel m
  | .reelInstanceComplete group => okGroup group
  | .reelAbort group _ => okGroup group
  | .jkfTranslationDone ctx _ => okCtx ctx
  | .tileDeal ctx _ => okCtx ctx
  | .tileStart die k rep => okDie die && okEngine k && okReport rep
  | .tileDrainDone die k rep => okDie die && okEngine k && okReport rep
  | .splitCombine die k _ rep => okDie die && okEngine k && okReport rep
  | .stealAttempt die k => okDie die && okEngine k
  | .tilePark die k _ => okDie die && okEngine k
  | .parkedTileResume die k => okDie die && okEngine k
  | .txbTurnDone die k _ _ _ => okDie die && okEngine k
  | .demandMissFill die _ _ _ => okDie die
  | .prefetchFill die _ _ _ => okDie die
  | .patrolScrubRead half _ => okHalf half
  | .combinerAtomic ctx _ req => okCtx ctx && okAtom req
  | .hostLineAtomic ctx _ req => okCtx ctx && okAtom req
  | .blockPlace ctx _ => okCtx ctx
  | .packMove die core rep => okDie die && okCore core && okReport rep
  | .pathReconverge _ => true
  | .barrierInstanceComplete _ id => okBarrier id
  | .barrierTimeout _ id => okBarrier id
  | .portTrainingDone port _ => okPort port
  | .portHandshake port partner => okPort port && okPartner partner
  | .noPartnerTimeout port => okPort port
  | .flitReceive port f => okPort port && okFlit f
  | .flitNak port _ => okPort port
  | .ackTimeout port => okPort port
  | .blockLockLoss port => okPort port
  | .linkDown port => okPort port
  | .peerRequestReceive port req => okPort port && okPeer req
  | .peerResponseReceive path _ _ => okNodes path.src path.dst
  | .zcFrameReceive port f => okPort port && okFrame f
  | .powerOn _ _ => true
  | .msixTableWrite _ _ => true
  | .cxlCacheSnoop _ _ => true
  | .backInvalidationResponse _ => true
  | .ppBtnNRelease => true

end Sys2Proof
end

