-- ==== Sys2Proof/Decode.lean ====
section
/-! DEFINITION. The table of commands gives no row any bits, so no word spells a command. Beside it, the decoder and
encoder of JKF instruction words (R192 to R198), which the load translator validates images with (R202). -/

namespace Sys2Proof

/-- The command a word spells by the table's bits: the table gives no row bits. -/
def decodeTableWord (_nbits _w : Nat) : Option Instr := none

/-! ### Body layouts (R194) -/

/-- INT and FP. -/
def AluBody.bits (b : AluBody) : BitVec 46 := b.dst ++ b.a ++ b.b ++ b.c ++ b.fmt ++ b.cvt
/-- INT and FP. -/
def AluBody.ofBits (w : BitVec 46) : AluBody :=
  ⟨w.extractLsb' 38 8, w.extractLsb' 30 8, w.extractLsb' 22 8, w.extractLsb' 14 8, w.extractLsb' 8 6, w.extractLsb' 0 8⟩
/-- PRED; bits 15 to 0 are reserved. -/
def PredBody.bits (b : PredBody) : BitVec 46 := b.pd ++ b.a ++ b.b ++ b.fmt ++ b.ps ++ b.comb ++ (0 : BitVec 16)
/-- PRED. -/
def PredBody.ofBits (w : BitVec 46) : PredBody :=
  ⟨w.extractLsb' 43 3, w.extractLsb' 35 8, w.extractLsb' 27 8, w.extractLsb' 21 6, w.extractLsb' 18 3, w.extractLsb' 16 2⟩
/-- Predicate logic; bits 36 to 0 are reserved. -/
def PlogBody.bits (b : PlogBody) : BitVec 46 := b.pd ++ b.pa ++ b.pb ++ (0 : BitVec 37)
/-- Predicate logic. -/
def PlogBody.ofBits (w : BitVec 46) : PlogBody := ⟨w.extractLsb' 43 3, w.extractLsb' 40 3, w.extractLsb' 37 3⟩
/-- MEM. -/
def MemBody.bits (b : MemBody) : BitVec 46 := b.data ++ b.addr ++ b.fmt ++ b.space ++ b.off
/-- MEM. -/
def MemBody.ofBits (w : BitVec 46) : MemBody :=
  ⟨w.extractLsb' 38 8, w.extractLsb' 30 8, w.extractLsb' 24 6, w.extractLsb' 22 2, w.extractLsb' 0 22⟩
/-- ATOM; bits 4 to 0 are reserved. -/
def AtomBody.bits (b : AtomBody) : BitVec 46 :=
  b.dst ++ b.addr ++ b.opnd ++ b.cmp ++ b.fmt ++ b.scope ++ b.space ++ (0 : BitVec 5)
/-- ATOM. -/
def AtomBody.ofBits (w : BitVec 46) : AtomBody :=
  ⟨w.extractLsb' 38 8, w.extractLsb' 30 8, w.extractLsb' 22 8, w.extractLsb' 14 8, w.extractLsb' 8 6, w.extractLsb' 6 2,
    w.extractLsb' 5 1⟩
/-- BRA. -/
def BraBody.bits (b : BraBody) : BitVec 46 := b.target ++ b.recon
/-- BRA. -/
def BraBody.ofBits (w : BitVec 46) : BraBody := ⟨w.extractLsb' 23 23, w.extractLsb' 0 23⟩
/-- SYNC; bits 41 to 0 are reserved. -/
def SyncBody.bits (b : SyncBody) : BitVec 46 := b.scope ++ b.kind ++ (0 : BitVec 42)
/-- SYNC. -/
def SyncBody.ofBits (w : BitVec 46) : SyncBody := ⟨w.extractLsb' 44 2, w.extractLsb' 42 2⟩
/-- ENG; bits 23 to 0 are reserved. -/
def EngBody.bits (b : EngBody) : BitVec 46 := b.result ++ b.src ++ b.kind ++ b.k ++ (0 : BitVec 24)
/-- ENG. -/
def EngBody.ofBits (w : BitVec 46) : EngBody :=
  ⟨w.extractLsb' 38 8, w.extractLsb' 30 8, w.extractLsb' 28 2, w.extractLsb' 24 4⟩
/-- SPEC; bits 21 to 0 are reserved. -/
def SpecBody.bits (b : SpecBody) : BitVec 46 := b.dst ++ b.sr ++ b.idx ++ (0 : BitVec 22)
/-- SPEC. -/
def SpecBody.ofBits (w : BitVec 46) : SpecBody := ⟨w.extractLsb' 38 8, w.extractLsb' 30 8, w.extractLsb' 22 8⟩
/-- VEC; bits 7 to 0 are reserved. -/
def VecBody.bits (b : VecBody) : BitVec 46 :=
  b.k ++ b.vd ++ b.va ++ b.vb ++ b.vc ++ b.vm ++ b.vmx ++ b.ub ++ b.fmt ++ (0 : BitVec 8)
/-- VEC. -/
def VecBody.ofBits (w : BitVec 46) : VecBody :=
  ⟨w.extractLsb' 42 4, w.extractLsb' 38 4, w.extractLsb' 34 4, w.extractLsb' 30 4, w.extractLsb' 26 4, w.extractLsb' 23 3,
    w.extractLsb' 20 3, w.extractLsb' 14 6, w.extractLsb' 8 6⟩

/-! ### Operations (R197, R198) -/

/-- Class 0x0 (R197). -/
def jkfInt (op : Nat) : Option (Issue → AluBody → Instr) :=
  match op with
  | 0x00 => some .intAdd
  | 0x01 => some .intSub
  | 0x02 => some .intMullo
  | 0x03 => some .intMulhi
  | 0x04 => some .intDiv
  | 0x05 => some .intRem
  | 0x06 => some .intMin
  | 0x07 => some .intMax
  | 0x08 => some .intAnd
  | 0x09 => some .intOr
  | 0x0a => some .intXor
  | 0x0b => some .intNot
  | 0x0c => some .intShl
  | 0x0d => some .intShr
  | 0x0e => some .intSar
  | 0x0f => some .intPopc
  | 0x10 => some .intClz
  | 0x11 => some .intBrev
  | 0x12 => some .intMov
  | 0x13 => some .intSel
  | _ => none

/-- Class 0x1 (R197). -/
def jkfFp (op : Nat) : Option (Issue → AluBody → Instr) :=
  match op with
  | 0x00 => some .fpAdd
  | 0x01 => some .fpSub
  | 0x02 => some .fpMul
  | 0x03 => some .fpFma
  | 0x04 => some .fpMin
  | 0x05 => some .fpMax
  | 0x06 => some .fpAbs
  | 0x07 => some .fpNeg
  | 0x08 => some .fpCopysign
  | 0x09 => some .fpDiv
  | 0x0a => some .fpSqrt
  | 0x0b => some .fpRsqrt
  | 0x0c => some .fpRecip
  | 0x0d => some .fpExp2
  | 0x0e => some .fpLog2
  | 0x10 => some .cvtF2i
  | 0x11 => some .cvtF2u
  | 0x12 => some .cvtI2f
  | 0x13 => some .cvtU2f
  | 0x14 => some .cvtF2n
  | 0x15 => some .cvtN2f
  | _ => none

/-- Class 0x2, compares (R197). -/
def jkfPred (op : Nat) : Option (Issue → PredBody → Instr) :=
  match op with
  | 0x00 => some .predEq
  | 0x01 => some .predNe
  | 0x02 => some .predLt
  | 0x03 => some .predLe
  | 0x04 => some .predGt
  | 0x05 => some .predGe
  | 0x06 => some .predIsnan
  | 0x07 => some .predIsinf
  | 0x08 => some .predIsfinite
  | _ => none

/-- Class 0x2, predicate logic (R197). -/
def jkfPlog (op : Nat) : Option (Issue → PlogBody → Instr) :=
  match op with
  | 0x10 => some .pand
  | 0x11 => some .por
  | 0x12 => some .pxor
  | 0x13 => some .pnot
  | 0x14 => some .pmov
  | _ => none

/-- Class 0x4 (R197). -/
def jkfAtom (op : Nat) : Option (Issue → AtomBody → Instr) :=
  match op with
  | 0x00 => some .atomAdd
  | 0x01 => some .atomMin
  | 0x02 => some .atomMax
  | 0x03 => some .atomAnd
  | 0x04 => some .atomOr
  | 0x05 => some .atomXor
  | 0x06 => some .atomXchg
  | 0x07 => some .atomCas
  | _ => none

/-- Class 0x7 (R197). -/
def jkfEng (op : Nat) : Option (Issue → EngBody → Instr) :=
  match op with
  | 0x00 => some .engIssue
  | 0x01 => some .engWait
  | 0x02 => some .vacq
  | 0x03 => some .vrel
  | 0x04 => some .vsync
  | _ => none

/-- Class 0x8 (R198): the constructor, and whether the code is a segmented scan. -/
def jkfVec (op : Nat) : Option ((VecArgs → Instr) × Bool) :=
  match op with
  | 0x00 => some (.vecFpAdd, false)
  | 0x01 => some (.vecFpSub, false)
  | 0x02 => some (.vecFpMul, false)
  | 0x03 => some (.vecFpFma, false)
  | 0x04 => some (.vecFpMin, false)
  | 0x05 => some (.vecFpMax, false)
  | 0x06 => some (.vecFpAbs, false)
  | 0x07 => some (.vecFpNeg, false)
  | 0x08 => some (.vecFpCopysign, false)
  | 0x09 => some (.vecFpSel, false)
  | 0x10 => some (.vecIntAdd, false)
  | 0x11 => some (.vecIntSub, false)
  | 0x12 => some (.vecIntMullo, false)
  | 0x13 => some (.vecIntMin, false)
  | 0x14 => some (.vecIntMax, false)
  | 0x15 => some (.vecIntShl, false)
  | 0x16 => some (.vecIntShr, false)
  | 0x17 => some (.vecIntSar, false)
  | 0x18 => some (.vecIntAnd, false)
  | 0x19 => some (.vecIntOr, false)
  | 0x1a => some (.vecIntXor, false)
  | 0x1b => some (.vecIntNot, false)
  | 0x1c => some (.vecIntSel, false)
  | 0x20 => some (.vecCmpEq, false)
  | 0x21 => some (.vecCmpNe, false)
  | 0x22 => some (.vecCmpLt, false)
  | 0x23 => some (.vecCmpLe, false)
  | 0x24 => some (.vecCmpIsnan, false)
  | 0x25 => some (.vecCmpIsinf, false)
  | 0x26 => some (.vecCmpIsfinite, false)
  | 0x28 => some (.vecDiv, false)
  | 0x29 => some (.vecSqrt, false)
  | 0x2a => some (.vecRsqrt, false)
  | 0x2b => some (.vecRecip, false)
  | 0x2c => some (.vecExp2, false)
  | 0x2d => some (.vecLog2, false)
  | 0x30 => some (.vecRedSum, false)
  | 0x31 => some (.vecRedMin, false)
  | 0x32 => some (.vecRedMax, false)
  | 0x33 => some (.vecRedAnd, false)
  | 0x34 => some (.vecRedOr, false)
  | 0x35 => some (.vecRedXor, false)
  | 0x38 => some (.vecScanAddIncl, false)
  | 0x39 => some (.vecScanMinIncl, false)
  | 0x3a => some (.vecScanMaxIncl, false)
  | 0x3c => some (.vecScanAddExcl, false)
  | 0x3d => some (.vecScanMinExcl, false)
  | 0x3e => some (.vecScanMaxExcl, false)
  | 0x40 => some (.vecScanAddIncl, true)
  | 0x41 => some (.vecScanMinIncl, true)
  | 0x42 => some (.vecScanMaxIncl, true)
  | 0x44 => some (.vecScanAddExcl, true)
  | 0x45 => some (.vecScanMinExcl, true)
  | 0x46 => some (.vecScanMaxExcl, true)
  | 0x48 => some (.vecLd, false)
  | 0x49 => some (.vecSt, false)
  | 0x4a => some (.vecLds, false)
  | 0x4b => some (.vecSts, false)
  | 0x4c => some (.vecGather, false)
  | 0x4d => some (.vecScatter, false)
  | 0x50 => some (.vecCvt, false)
  | 0x58 => some (.randU32, false)
  | 0x59 => some (.randUni, false)
  | 0x5a => some (.randBern, false)
  | 0x5b => some (.dropFwd, false)
  | 0x5c => some (.dropBwd, false)
  | _ => none

/-- Class 0x8, stream operations (R198). -/
def jkfStream (op : Nat) : Option (StreamSrc → Instr) :=
  match op with
  | 0x60 => some .zcCompress
  | 0x61 => some .s24Compress
  | 0x62 => some .prune24t
  | 0x63 => some .nnzHist
  | _ => none

/-- The class, operation, issue fields and body of the instruction a command stands for (R192 to R198); none for a
command that is no JKF instruction. -/
def jkfParts (c : Instr) : Option (Nat × Nat × Issue × BitVec 46) :=
  match c with
  | .intAdd i b => some (0, 0x00, i, b.bits)
  | .intSub i b => some (0, 0x01, i, b.bits)
  | .intMullo i b => some (0, 0x02, i, b.bits)
  | .intMulhi i b => some (0, 0x03, i, b.bits)
  | .intDiv i b => some (0, 0x04, i, b.bits)
  | .intRem i b => some (0, 0x05, i, b.bits)
  | .intMin i b => some (0, 0x06, i, b.bits)
  | .intMax i b => some (0, 0x07, i, b.bits)
  | .intAnd i b => some (0, 0x08, i, b.bits)
  | .intOr i b => some (0, 0x09, i, b.bits)
  | .intXor i b => some (0, 0x0a, i, b.bits)
  | .intNot i b => some (0, 0x0b, i, b.bits)
  | .intShl i b => some (0, 0x0c, i, b.bits)
  | .intShr i b => some (0, 0x0d, i, b.bits)
  | .intSar i b => some (0, 0x0e, i, b.bits)
  | .intPopc i b => some (0, 0x0f, i, b.bits)
  | .intClz i b => some (0, 0x10, i, b.bits)
  | .intBrev i b => some (0, 0x11, i, b.bits)
  | .intMov i b => some (0, 0x12, i, b.bits)
  | .intSel i b => some (0, 0x13, i, b.bits)
  | .fpAdd i b => some (1, 0x00, i, b.bits)
  | .fpSub i b => some (1, 0x01, i, b.bits)
  | .fpMul i b => some (1, 0x02, i, b.bits)
  | .fpFma i b => some (1, 0x03, i, b.bits)
  | .fpMin i b => some (1, 0x04, i, b.bits)
  | .fpMax i b => some (1, 0x05, i, b.bits)
  | .fpAbs i b => some (1, 0x06, i, b.bits)
  | .fpNeg i b => some (1, 0x07, i, b.bits)
  | .fpCopysign i b => some (1, 0x08, i, b.bits)
  | .fpDiv i b => some (1, 0x09, i, b.bits)
  | .fpSqrt i b => some (1, 0x0a, i, b.bits)
  | .fpRsqrt i b => some (1, 0x0b, i, b.bits)
  | .fpRecip i b => some (1, 0x0c, i, b.bits)
  | .fpExp2 i b => some (1, 0x0d, i, b.bits)
  | .fpLog2 i b => some (1, 0x0e, i, b.bits)
  | .cvtF2i i b => some (1, 0x10, i, b.bits)
  | .cvtF2u i b => some (1, 0x11, i, b.bits)
  | .cvtI2f i b => some (1, 0x12, i, b.bits)
  | .cvtU2f i b => some (1, 0x13, i, b.bits)
  | .cvtF2n i b => some (1, 0x14, i, b.bits)
  | .cvtN2f i b => some (1, 0x15, i, b.bits)
  | .predEq i b => some (2, 0x00, i, b.bits)
  | .predNe i b => some (2, 0x01, i, b.bits)
  | .predLt i b => some (2, 0x02, i, b.bits)
  | .predLe i b => some (2, 0x03, i, b.bits)
  | .predGt i b => some (2, 0x04, i, b.bits)
  | .predGe i b => some (2, 0x05, i, b.bits)
  | .predIsnan i b => some (2, 0x06, i, b.bits)
  | .predIsinf i b => some (2, 0x07, i, b.bits)
  | .predIsfinite i b => some (2, 0x08, i, b.bits)
  | .pand i b => some (2, 0x10, i, b.bits)
  | .por i b => some (2, 0x11, i, b.bits)
  | .pxor i b => some (2, 0x12, i, b.bits)
  | .pnot i b => some (2, 0x13, i, b.bits)
  | .pmov i b => some (2, 0x14, i, b.bits)
  | .memLd i b _ => some (3, 0x00, i, b.bits)
  | .memSt i b _ => some (3, 0x01, i, b.bits)
  | .memDiscard i b => some (3, 0x03, i, b.bits)
  | .atomAdd i b => some (4, 0x00, i, b.bits)
  | .atomMin i b => some (4, 0x01, i, b.bits)
  | .atomMax i b => some (4, 0x02, i, b.bits)
  | .atomAnd i b => some (4, 0x03, i, b.bits)
  | .atomOr i b => some (4, 0x04, i, b.bits)
  | .atomXor i b => some (4, 0x05, i, b.bits)
  | .atomXchg i b => some (4, 0x06, i, b.bits)
  | .atomCas i b => some (4, 0x07, i, b.bits)
  | .bra i b => some (5, 0x00, i, b.bits)
  | .exitThreads i => some (5, 0x02, i, 0)
  | .bar i d => some (5, 0x03, i, d ++ (0 : BitVec 42))
  | .flowNop i => some (5, 0x04, i, 0)
  | .fence i b _ => some (6, 0x00, i, b.bits)
  | .engIssue i b => some (7, 0x00, i, b.bits)
  | .engWait i b => some (7, 0x01, i, b.bits)
  | .vacq i b => some (7, 0x02, i, b.bits)
  | .vrel i b => some (7, 0x03, i, b.bits)
  | .vsync i b => some (7, 0x04, i, b.bits)
  | .vecFpAdd ⟨.pack p _, b, _⟩ => some (8, 0x00, ⟨p, none, none, 0⟩, b.bits)
  | .vecFpSub ⟨.pack p _, b, _⟩ => some (8, 0x01, ⟨p, none, none, 0⟩, b.bits)
  | .vecFpMul ⟨.pack p _, b, _⟩ => some (8, 0x02, ⟨p, none, none, 0⟩, b.bits)
  | .vecFpFma ⟨.pack p _, b, _⟩ => some (8, 0x03, ⟨p, none, none, 0⟩, b.bits)
  | .vecFpMin ⟨.pack p _, b, _⟩ => some (8, 0x04, ⟨p, none, none, 0⟩, b.bits)
  | .vecFpMax ⟨.pack p _, b, _⟩ => some (8, 0x05, ⟨p, none, none, 0⟩, b.bits)
  | .vecFpAbs ⟨.pack p _, b, _⟩ => some (8, 0x06, ⟨p, none, none, 0⟩, b.bits)
  | .vecFpNeg ⟨.pack p _, b, _⟩ => some (8, 0x07, ⟨p, none, none, 0⟩, b.bits)
  | .vecFpCopysign ⟨.pack p _, b, _⟩ => some (8, 0x08, ⟨p, none, none, 0⟩, b.bits)
  | .vecFpSel ⟨.pack p _, b, _⟩ => some (8, 0x09, ⟨p, none, none, 0⟩, b.bits)
  | .vecIntAdd ⟨.pack p _, b, _⟩ => some (8, 0x10, ⟨p, none, none, 0⟩, b.bits)
  | .vecIntSub ⟨.pack p _, b, _⟩ => some (8, 0x11, ⟨p, none, none, 0⟩, b.bits)
  | .vecIntMullo ⟨.pack p _, b, _⟩ => some (8, 0x12, ⟨p, none, none, 0⟩, b.bits)
  | .vecIntMin ⟨.pack p _, b, _⟩ => some (8, 0x13, ⟨p, none, none, 0⟩, b.bits)
  | .vecIntMax ⟨.pack p _, b, _⟩ => some (8, 0x14, ⟨p, none, none, 0⟩, b.bits)
  | .vecIntShl ⟨.pack p _, b, _⟩ => some (8, 0x15, ⟨p, none, none, 0⟩, b.bits)
  | .vecIntShr ⟨.pack p _, b, _⟩ => some (8, 0x16, ⟨p, none, none, 0⟩, b.bits)
  | .vecIntSar ⟨.pack p _, b, _⟩ => some (8, 0x17, ⟨p, none, none, 0⟩, b.bits)
  | .vecIntAnd ⟨.pack p _, b, _⟩ => some (8, 0x18, ⟨p, none, none, 0⟩, b.bits)
  | .vecIntOr ⟨.pack p _, b, _⟩ => some (8, 0x19, ⟨p, none, none, 0⟩, b.bits)
  | .vecIntXor ⟨.pack p _, b, _⟩ => some (8, 0x1a, ⟨p, none, none, 0⟩, b.bits)
  | .vecIntNot ⟨.pack p _, b, _⟩ => some (8, 0x1b, ⟨p, none, none, 0⟩, b.bits)
  | .vecIntSel ⟨.pack p _, b, _⟩ => some (8, 0x1c, ⟨p, none, none, 0⟩, b.bits)
  | .vecCmpEq ⟨.pack p _, b, _⟩ => some (8, 0x20, ⟨p, none, none, 0⟩, b.bits)
  | .vecCmpNe ⟨.pack p _, b, _⟩ => some (8, 0x21, ⟨p, none, none, 0⟩, b.bits)
  | .vecCmpLt ⟨.pack p _, b, _⟩ => some (8, 0x22, ⟨p, none, none, 0⟩, b.bits)
  | .vecCmpLe ⟨.pack p _, b, _⟩ => some (8, 0x23, ⟨p, none, none, 0⟩, b.bits)
  | .vecCmpIsnan ⟨.pack p _, b, _⟩ => some (8, 0x24, ⟨p, none, none, 0⟩, b.bits)
  | .vecCmpIsinf ⟨.pack p _, b, _⟩ => some (8, 0x25, ⟨p, none, none, 0⟩, b.bits)
  | .vecCmpIsfinite ⟨.pack p _, b, _⟩ => some (8, 0x26, ⟨p, none, none, 0⟩, b.bits)
  | .vecDiv ⟨.pack p _, b, _⟩ => some (8, 0x28, ⟨p, none, none, 0⟩, b.bits)
  | .vecSqrt ⟨.pack p _, b, _⟩ => some (8, 0x29, ⟨p, none, none, 0⟩, b.bits)
  | .vecRsqrt ⟨.pack p _, b, _⟩ => some (8, 0x2a, ⟨p, none, none, 0⟩, b.bits)
  | .vecRecip ⟨.pack p _, b, _⟩ => some (8, 0x2b, ⟨p, none, none, 0⟩, b.bits)
  | .vecExp2 ⟨.pack p _, b, _⟩ => some (8, 0x2c, ⟨p, none, none, 0⟩, b.bits)
  | .vecLog2 ⟨.pack p _, b, _⟩ => some (8, 0x2d, ⟨p, none, none, 0⟩, b.bits)
  | .vecRedSum ⟨.pack p _, b, _⟩ => some (8, 0x30, ⟨p, none, none, 0⟩, b.bits)
  | .vecRedMin ⟨.pack p _, b, _⟩ => some (8, 0x31, ⟨p, none, none, 0⟩, b.bits)
  | .vecRedMax ⟨.pack p _, b, _⟩ => some (8, 0x32, ⟨p, none, none, 0⟩, b.bits)
  | .vecRedAnd ⟨.pack p _, b, _⟩ => some (8, 0x33, ⟨p, none, none, 0⟩, b.bits)
  | .vecRedOr ⟨.pack p _, b, _⟩ => some (8, 0x34, ⟨p, none, none, 0⟩, b.bits)
  | .vecRedXor ⟨.pack p _, b, _⟩ => some (8, 0x35, ⟨p, none, none, 0⟩, b.bits)
  | .vecScanAddIncl ⟨.pack p _, b, g⟩ => some (8, if g then 0x40 else 0x38, ⟨p, none, none, 0⟩, b.bits)
  | .vecScanMinIncl ⟨.pack p _, b, g⟩ => some (8, if g then 0x41 else 0x39, ⟨p, none, none, 0⟩, b.bits)
  | .vecScanMaxIncl ⟨.pack p _, b, g⟩ => some (8, if g then 0x42 else 0x3a, ⟨p, none, none, 0⟩, b.bits)
  | .vecScanAddExcl ⟨.pack p _, b, g⟩ => some (8, if g then 0x44 else 0x3c, ⟨p, none, none, 0⟩, b.bits)
  | .vecScanMinExcl ⟨.pack p _, b, g⟩ => some (8, if g then 0x45 else 0x3d, ⟨p, none, none, 0⟩, b.bits)
  | .vecScanMaxExcl ⟨.pack p _, b, g⟩ => some (8, if g then 0x46 else 0x3e, ⟨p, none, none, 0⟩, b.bits)
  | .vecLd ⟨.pack p _, b, _⟩ => some (8, 0x48, ⟨p, none, none, 0⟩, b.bits)
  | .vecSt ⟨.pack p _, b, _⟩ => some (8, 0x49, ⟨p, none, none, 0⟩, b.bits)
  | .vecLds ⟨.pack p _, b, _⟩ => some (8, 0x4a, ⟨p, none, none, 0⟩, b.bits)
  | .vecSts ⟨.pack p _, b, _⟩ => some (8, 0x4b, ⟨p, none, none, 0⟩, b.bits)
  | .vecGather ⟨.pack p _, b, _⟩ => some (8, 0x4c, ⟨p, none, none, 0⟩, b.bits)
  | .vecScatter ⟨.pack p _, b, _⟩ => some (8, 0x4d, ⟨p, none, none, 0⟩, b.bits)
  | .vecCvt ⟨.pack p _, b, _⟩ => some (8, 0x50, ⟨p, none, none, 0⟩, b.bits)
  | .randU32 ⟨.pack p _, b, _⟩ => some (8, 0x58, ⟨p, none, none, 0⟩, b.bits)
  | .randUni ⟨.pack p _, b, _⟩ => some (8, 0x59, ⟨p, none, none, 0⟩, b.bits)
  | .randBern ⟨.pack p _, b, _⟩ => some (8, 0x5a, ⟨p, none, none, 0⟩, b.bits)
  | .dropFwd ⟨.pack p _, b, _⟩ => some (8, 0x5b, ⟨p, none, none, 0⟩, b.bits)
  | .dropBwd ⟨.pack p _, b, _⟩ => some (8, 0x5c, ⟨p, none, none, 0⟩, b.bits)
  | .zcCompress (.pack p b _) => some (8, 0x60, ⟨p, none, none, 0⟩, b.bits)
  | .s24Compress (.pack p b _) => some (8, 0x61, ⟨p, none, none, 0⟩, b.bits)
  | .prune24t (.pack p b _) => some (8, 0x62, ⟨p, none, none, 0⟩, b.bits)
  | .nnzHist (.pack p b _) => some (8, 0x63, ⟨p, none, none, 0⟩, b.bits)
  | .movsr i b => some (9, 0x00, i, b.bits)
  | _ => none

/-! ### The instruction word (R192) -/

/-- The guard field; g_neg and g_pred of an unguarded word are not looked at. -/
def guardOf (w : Dword) : Option Guard :=
  if w.getLsbD 50 then some ⟨w.getLsbD 49, w.extractLsb' 46 3⟩ else none

/-- The instruction of a class, an operation and a body. A VEC instruction takes neither guard nor immediate word
(R189, R190); reserved body bits must be 0 (R194). -/
def jkfInstr (cls op : Nat) (i : Issue) (w : BitVec 46) : Option Instr :=
  match cls with
  | 0 => (jkfInt op).map fun f => f i (AluBody.ofBits w)
  | 1 => (jkfFp op).map fun f => f i (AluBody.ofBits w)
  | 2 =>
    match jkfPred op with
    | some f => if w.extractLsb' 0 16 = 0 then some (f i (PredBody.ofBits w)) else none
    | none =>
      match jkfPlog op with
      | some f => if w.extractLsb' 0 37 = 0 then some (f i (PlogBody.ofBits w)) else none
      | none => none
  | 3 =>
    match op with
    | 0 => some (.memLd i (MemBody.ofBits w) [])
    | 1 => some (.memSt i (MemBody.ofBits w) [])
    | 3 => some (.memDiscard i (MemBody.ofBits w))
    | _ => none
  | 4 => if w.extractLsb' 0 5 = 0 then (jkfAtom op).map fun f => f i (AtomBody.ofBits w) else none
  | 5 =>
    match op with
    | 0 => some (.bra i (BraBody.ofBits w))
    | 2 => if w = 0 then some (.exitThreads i) else none
    | 3 => if w.extractLsb' 0 42 = 0 then some (.bar i (w.extractLsb' 42 4)) else none
    | 4 => if w = 0 then some (.flowNop i) else none
    | _ => none
  | 6 => if op = 0 ∧ w.extractLsb' 0 42 = 0 then some (.fence i (SyncBody.ofBits w) 0) else none
  | 7 => if w.extractLsb' 0 24 = 0 then (jkfEng op).map fun f => f i (EngBody.ofBits w) else none
  | 8 =>
    if w.extractLsb' 0 8 = 0 ∧ i.guard = none ∧ i.imm = none then
      match jkfVec op with
      | some (f, g) => some (f ⟨.pack i.pack Report.zero, VecBody.ofBits w, g⟩)
      | none => (jkfStream op).map fun f => f (.pack i.pack (VecBody.ofBits w) Report.zero)
    else none
  | 9 => if op = 0 ∧ w.extractLsb' 0 22 = 0 then some (.movsr i (SpecBody.ofBits w)) else none
  | _ => none

/-- The instruction of a word and the immediate word that follows it, issued by a pack; none where the class, the
operation or a reserved bit is illegal, or x and the immediate word do not agree. -/
def jkfDecode (pack : Nat) (w : Dword) (imm : Option Dword) : Option Instr :=
  if w.getLsbD 51 = imm.isSome then
    jkfInstr (w.extractLsb' 60 4).toNat (w.extractLsb' 52 8).toNat ⟨pack, guardOf w, imm, 0⟩ (w.extractLsb' 0 46)
  else none

/-- Bits 50 to 46 of a word. -/
def guardBits : Option Guard → BitVec 5
  | none => 0
  | some g => (1 : BitVec 1) ++ BitVec.ofBool g.neg ++ g.pred

/-- The word and immediate word of a command that is a JKF instruction. -/
def jkfEncode (c : Instr) : Option (Dword × Option Dword) :=
  (jkfParts c).map fun p =>
    (BitVec.ofNat 4 p.1 ++ BitVec.ofNat 8 p.2.1 ++ BitVec.ofBool p.2.2.1.imm.isSome ++ guardBits p.2.2.1.guard ++ p.2.2.2,
      p.2.2.1.imm)

end Sys2Proof
end

