-- ==== Sys2Proof/Machine/Fp.lean ====
section
/-! DEFINITION. Number formats, conversions and exact arithmetic (R21 to R37, R146, R154). -/

namespace Sys2Proof.Machine

/-- An exact value: NaN, an infinity, or (-1)^neg * mant * 2^exp. A zero keeps its sign. -/
inductive Num where
  | nan
  | inf (neg : Bool)
  | fin (neg : Bool) (mant : Nat) (exp : Int)
  deriving DecidableEq, Repr, Inhabited

/-- `2 ^ (hi - lo)` applied to a mantissa when moving it from exponent `hi` down to `lo`. -/
def shiftUp (m : Nat) (hi lo : Int) : Nat := m * 2 ^ (hi - lo).toNat

/-- The mantissa of a finite value at exponent `lo`, with its sign. -/
def signedAt (neg : Bool) (m : Nat) (e lo : Int) : Int :=
  if neg then -(shiftUp m e lo : Nat) else (shiftUp m e lo : Nat)

/-- A signed mantissa at exponent `e`; zero is +0. -/
def ofSigned (v : Int) (e : Int) : Num := .fin (v < 0) v.natAbs e

/-- Exact sum; the sum of zeros is -0 only when both are -0, and an exact cancellation gives +0 (R24; log 22). -/
def Num.add : Num → Num → Num
  | .nan, _ => .nan
  | _, .nan => .nan
  | .inf a, .inf b => if a = b then .inf a else .nan
  | .inf a, _ => .inf a
  | _, .inf b => .inf b
  | .fin na ma ea, .fin nb mb eb =>
    if ma = 0 ∧ mb = 0 then .fin (na && nb) 0 0
    else ofSigned (signedAt na ma ea (min ea eb) + signedAt nb mb eb (min ea eb)) (min ea eb)

/-- The opposite value. -/
def Num.neg : Num → Num
  | .nan => .nan
  | .inf a => .inf (!a)
  | .fin n m e => .fin (!n) m e

/-- Exact product: NaN with a NaN, NaN for zero times infinity (R26). -/
def Num.mul : Num → Num → Num
  | .nan, _ => .nan
  | _, .nan => .nan
  | .inf a, .inf b => .inf (xor a b)
  | .inf a, .fin nb mb _ => if mb = 0 then .nan else .inf (xor a nb)
  | .fin na ma _, .inf b => if ma = 0 then .nan else .inf (xor na b)
  | .fin na ma ea, .fin nb mb eb => .fin (xor na nb) (ma * mb) (ea + eb)

/-- Scaling by a power of two. -/
def Num.scale : Num → Int → Num
  | .fin n m e, k => .fin n m (e + k)
  | x, _ => x

/-- Strict order on values; NaN is below nothing. -/
def Num.lt : Num → Num → Bool
  | .nan, _ => false
  | _, .nan => false
  | .inf a, .inf b => a && !b
  | .inf a, _ => a
  | _, .inf b => !b
  | .fin na ma ea, .fin nb mb eb =>
    decide (signedAt na ma ea (min ea eb) < signedAt nb mb eb (min ea eb))

/-- Equal values; -0 equals +0, NaN equals nothing. -/
def Num.eq : Num → Num → Bool
  | .nan, _ => false
  | _, .nan => false
  | a, b => !Num.lt a b && !Num.lt b a

/-- Is the value a zero of either sign? -/
def Num.isZero : Num → Bool
  | .fin _ 0 _ => true
  | _ => false

/-- The sign a zero or any other value carries. -/
def Num.sign : Num → Bool
  | .nan => false
  | .inf a => a
  | .fin n _ _ => n

/-! ### Formats (R21) -/

/-- How a floating format treats its top exponent (R21). -/
inductive Top where
  | ieee | e4m3 | none
  deriving DecidableEq, Repr

/-- A sign-magnitude format: exponent bits, mantissa bits, bias and top exponent. -/
structure Fmt where
  eb   : Nat
  mb   : Nat
  bias : Nat
  top  : Top

def fp32 : Fmt := ⟨8, 23, 127, .ieee⟩
def bf16 : Fmt := ⟨8, 7, 127, .ieee⟩
def fp16 : Fmt := ⟨5, 10, 15, .ieee⟩
def e4m3 : Fmt := ⟨4, 3, 7, .e4m3⟩
def e5m2 : Fmt := ⟨5, 2, 15, .ieee⟩
def e2m3 : Fmt := ⟨2, 3, 1, .none⟩
def e3m2 : Fmt := ⟨3, 2, 3, .none⟩
def e2m1 : Fmt := ⟨2, 1, 1, .none⟩

/-- Width of a format in bits. -/
def Fmt.width (f : Fmt) : Nat := 1 + f.eb + f.mb

/-- The code of the largest finite magnitude (R21). -/
def Fmt.maxCode (f : Fmt) : Nat :=
  match f.top with
  | .ieee => 2 ^ (f.eb + f.mb) - 2 ^ f.mb - 1
  | .e4m3 => 2 ^ (f.eb + f.mb) - 2
  | .none => 2 ^ (f.eb + f.mb) - 1

/-- The canonical NaN (R23); 0 in the formats that have none. -/
def Fmt.nanCode (f : Fmt) : Nat :=
  match f.top with
  | .ieee => (2 ^ f.eb - 1) * 2 ^ f.mb + 2 ^ (f.mb - 1)
  | .e4m3 => 2 ^ (f.eb + f.mb) - 1
  | .none => 0

/-- The value a code stands for (R21). -/
def Fmt.decode (f : Fmt) (x : Nat) : Num :=
  let m := x % 2 ^ f.mb
  let e := x / 2 ^ f.mb % 2 ^ f.eb
  let s := x / 2 ^ (f.mb + f.eb) % 2 == 1
  let qmin : Int := 1 - (f.bias : Int) - f.mb
  if e = 2 ^ f.eb - 1 ∧ f.top = .ieee then (if m = 0 then .inf s else .nan)
  else if e = 2 ^ f.eb - 1 ∧ m = 2 ^ f.mb - 1 ∧ f.top = .e4m3 then .nan
  else if e = 0 then .fin s m qmin
  else .fin s (2 ^ f.mb + m) (qmin + (e : Int) - 1)

/-- Rounding modes of R29; stochastic rounding carries its word (R32). -/
inductive Rnd where
  | nearest | zero | stochastic (w : Word)
  deriving DecidableEq, Repr

/-- Whether a magnitude whose discarded part is `r` of `2 ^ d` rounds up, its kept part being `k` (R29, R32). -/
def roundsUp (mode : Rnd) (k r d : Nat) : Bool :=
  match mode with
  | .nearest => decide (2 * r > 2 ^ d) || (2 * r == 2 ^ d && k % 2 == 1)
  | .zero => false
  | .stochastic w => decide (r * 2 ^ 32 / 2 ^ d + w.toNat ≥ 2 ^ 32)

/-- `m * 2^e` rounded to a multiple of `2^q`, in units of `2^q`. -/
def roundAt (mode : Rnd) (m : Nat) (e q : Int) : Nat :=
  if q ≤ e then m * 2 ^ (e - q).toNat
  else
    let d := (q - e).toNat
    let k := m / 2 ^ d
    if roundsUp mode k (m % 2 ^ d) d then k + 1 else k

/-- The code of the magnitude `m * 2^e` rounded to format `f`, without regard to overflow: codes continue past the
largest finite one. Subnormals are kept (R23). -/
def Fmt.magCode (f : Fmt) (mode : Rnd) (m : Nat) (e : Int) : Nat :=
  let qmin : Int := 1 - (f.bias : Int) - f.mb
  let q := max ((Nat.log2 m : Int) + e - f.mb) qmin
  roundAt mode m e q + (q - qmin).toNat * 2 ^ f.mb

/-- The sign bit of a format. -/
def Fmt.signBit (f : Fmt) (neg : Bool) : Nat := if neg then 2 ^ (f.eb + f.mb) else 0

/-- What an overflow or an infinity becomes (R30). -/
def Fmt.overflow (f : Fmt) (sat neg : Bool) : Nat :=
  match f.top with
  | .none => f.signBit neg + f.maxCode
  | .ieee => f.signBit neg + (if sat then f.maxCode else (2 ^ f.eb - 1) * 2 ^ f.mb)
  | .e4m3 => if sat then f.signBit neg + f.maxCode else f.nanCode

/-- Conversion of a value to format `f` (R29, R30). -/
def Fmt.encode (f : Fmt) (mode : Rnd) (sat : Bool) : Num → Nat
  | .nan => f.nanCode
  | .inf n => f.overflow sat n
  | .fin n 0 _ => f.signBit n
  | .fin n (m + 1) e =>
    let c := f.magCode mode (m + 1) e
    if c ≤ f.maxCode then f.signBit n + c
    else match mode with
      | .zero => f.signBit n + f.maxCode
      | _ => f.overflow sat n

/-- The FP32 value of a register. -/
def toNum (x : Word) : Num := fp32.decode x.toNat

/-- FP32, round to nearest even (R146). -/
def ofNum (x : Num) : Word := BitVec.ofNat 32 (fp32.encode .nearest false x)

/-- A result that no operation computes: a NaN becomes the canonical NaN (R23). -/
def canonWord (fmt : Nat) (w : Word) : Word := if fmt = 0x00 then ofNum (toNum w) else w

/-! ### FP32 operations (R146, R129) -/

def Fp.add (a b : Word) : Word := ofNum ((toNum a).add (toNum b))
def Fp.sub (a b : Word) : Word := ofNum ((toNum a).add (toNum b).neg)
def Fp.mul (a b : Word) : Word := ofNum ((toNum a).mul (toNum b))
/-- a * b + c with one rounding (R146). -/
def Fp.fma (a b c : Word) : Word := ofNum (((toNum a).mul (toNum b)).add (toNum c))

/-- Order of R129: -0 below +0. -/
def Num.ltZ (a b : Num) : Bool := Num.lt a b || (a.isZero && b.isZero && a.sign && !b.sign)

/-- FP32 minimum: a NaN operand yields the other, two NaNs the canonical NaN (R129). -/
def Fp.min (a b : Word) : Word :=
  match toNum a, toNum b with
  | .nan, y => ofNum y
  | x, .nan => ofNum x
  | x, y => if Num.ltZ y x then b else a

/-- FP32 maximum (R129). -/
def Fp.max (a b : Word) : Word :=
  match toNum a, toNum b with
  | .nan, y => ofNum y
  | x, .nan => ofNum x
  | x, y => if Num.ltZ x y then b else a

/-- Magnitude; a NaN becomes the canonical NaN (R23). -/
def Fp.abs (a : Word) : Word := if toNum a = .nan then ofNum .nan else a &&& 0x7FFFFFFF#32
/-- Negation; a NaN becomes the canonical NaN (R23). -/
def Fp.neg (a : Word) : Word := if toNum a = .nan then ofNum .nan else a ^^^ 0x80000000#32
/-- Magnitude of `a` with the sign of `b`; a NaN becomes the canonical NaN (R23). -/
def Fp.copysign (a b : Word) : Word :=
  if toNum a = .nan then ofNum .nan else (a &&& 0x7FFFFFFF#32) ||| (b &&& 0x80000000#32)

/-- Integer square root of `n`, bit by bit from bit `i` down. -/
def isqrtAux : Nat → Nat → Nat → Nat
  | 0, _, r => r
  | i + 1, n, r => if (r + 2 ^ i) * (r + 2 ^ i) ≤ n then isqrtAux i n (r + 2 ^ i) else isqrtAux i n r

/-- The largest `r` with `r * r ≤ n`. -/
def isqrt (n : Nat) : Nat := isqrtAux (Nat.log2 n / 2 + 1) n 0

/-- A quotient `m` at exponent `e` whose remainder is not zero when `rest`: one more bit marks the rest, which is all
that rounding to nearest needs below the last kept bit. -/
def withRest (n : Bool) (m : Nat) (e : Int) (rest : Bool) : Num := .fin n (2 * m + bit rest) (e - 1)

/-- The quotient of finite values, the divisor not zero, to at least 64 bits. -/
def divFin (na : Bool) (ma : Nat) (ea : Int) (nb : Bool) (mb : Nat) (eb : Int) : Num :=
  if ma = 0 then .fin (xor na nb) 0 0
  else withRest (xor na nb) (ma * 2 ^ 96 / mb) (ea - eb - 96) (ma * 2 ^ 96 % mb ≠ 0)

/-- The result of an FP32 operation on operands for which the spec states none: free, but a NaN is the canonical one (R23;
log 22). -/
def Fp.unstated (op : Nat) (a b : Word) : Word := ofNum (toNum (Config.freeFp op a b))

/-- FP32 division, correctly rounded; free where the spec states no quotient (log 22). -/
def Fp.div (a b : Word) : Word :=
  match toNum a, toNum b with
  | .nan, _ => ofNum .nan
  | _, .nan => ofNum .nan
  | .inf _, .inf _ => Fp.unstated 0 a b
  | .inf n, .fin m mb _ => if mb = 0 then Fp.unstated 0 a b else ofNum (.inf (xor n m))
  | .fin n _ _, .inf m => ofNum (.fin (xor n m) 0 0)
  | .fin na ma ea, .fin nb mb eb =>
    if mb = 0 then Fp.unstated 0 a b else ofNum (divFin na ma ea nb mb eb)

/-- FP32 reciprocal, correctly rounded. -/
def Fp.recip (a : Word) : Word :=
  match toNum a with
  | .nan => ofNum .nan
  | .inf n => ofNum (.fin n 0 0)
  | .fin n m e => if m = 0 then Fp.unstated 1 a 0 else ofNum (divFin false 1 0 n m e)

/-- The root of a positive finite value to at least 32 bits. -/
def sqrtFin (m : Nat) (e : Int) : Num :=
  let e' := if e % 2 = 0 then e else e - 1
  let m' := (if e % 2 = 0 then m else 2 * m) * 2 ^ 128
  let r := isqrt m'
  withRest false r ((e' - 128) / 2) (r * r ≠ m')

/-- FP32 square root, correctly rounded. The root of -0 is a zero, its sign left open; of other negative values the spec states
none (log 22). -/
def Fp.sqrt (a : Word) : Word :=
  match toNum a with
  | .nan => ofNum .nan
  | .inf n => if n then Fp.unstated 2 a 0 else ofNum (.inf false)
  | .fin n m e =>
    if m = 0 then (if n && (Config.freeFp 2 a 0).msb then a else 0)
    else if n then Fp.unstated 2 a 0 else ofNum (sqrtFin m e)

/-- The reciprocal root of a positive finite value to at least 64 bits: isqrt of 2^320 / m. -/
def rsqrtFin (m : Nat) (e : Int) : Num :=
  let e' := if e % 2 = 0 then e else e - 1
  let m' := if e % 2 = 0 then m else 2 * m
  let r := isqrt (2 ^ 320 / m')
  withRest false r (-e' / 2 - 160) (r * r * m' ≠ 2 ^ 320)

/-- FP32 reciprocal square root, correctly rounded. -/
def Fp.rsqrt (a : Word) : Word :=
  match toNum a with
  | .nan => ofNum .nan
  | .inf n => if n then Fp.unstated 3 a 0 else 0
  | .fin n m e => if n || m == 0 then Fp.unstated 3 a 0 else ofNum (rsqrtFin m e)

/-- The product of the roots 2^(2^-i) of the set bits of a fraction of `w` bits, from its top bit down; all in fixed
point of `w` bits, each step rounded down. `r` is the root of the bit before. -/
def exp2Frac (w : Nat) : Nat → Nat → Nat → Nat → Nat
  | 0, _, _, acc => acc
  | i + 1, f, r, acc =>
    let r' := isqrt (r * 2 ^ w)
    exp2Frac w i f r' (if f / 2 ^ i % 2 = 1 then acc * r' / 2 ^ w else acc)

/-- FP32 power of two, correctly rounded: the fraction's power lies between a lower bound and that bound plus 2^12
units of 2^-160; where the two do not round alike the value is free (log 19). -/
def Fp.exp2 (a : Word) : Word :=
  match toNum a with
  | .nan => ofNum .nan
  | .inf n => if n then 0 else a
  | .fin n m e =>
    if m = 0 then 0x3F800000#32
    else
      let v : Int := if n then -((m * 2 ^ (e + 160).toNat : Nat) : Int) else (m * 2 ^ (e + 160).toNat : Nat)
      let i := v / (2 ^ 160 : Nat)
      let f := (v - i * (2 ^ 160 : Nat)).toNat
      if i ≥ 129 then ofNum (.inf false)
      else if i < -152 then 0
      else if f = 0 then ofNum (.fin false 1 i)
      else
        let lo := exp2Frac 160 160 f (2 * 2 ^ 160) (2 ^ 160)
        let x := ofNum (withRest false lo (i - 160) true)
        let y := ofNum (withRest false (lo + 4096) (i - 160) true)
        if x = y then x else ofNum (toNum (Config.freeExp2 a))

/-- Bits of the fraction of log2 by repeated squaring in fixed point of 256 bits, rounded down; `y` lies in [1, 2). -/
def log2Frac : Nat → Nat → Nat → Nat
  | 0, _, acc => acc
  | i + 1, y, acc =>
    let y2 := y * y / 2 ^ 256
    if y2 ≥ 2 * 2 ^ 256 then log2Frac i (y2 / 2) (2 * acc + 1) else log2Frac i y2 (2 * acc)

/-- FP32 logarithm to base two, correctly rounded between bounds 2^-99 apart (log 19). -/
def Fp.log2 (a : Word) : Word :=
  match toNum a with
  | .nan => ofNum .nan
  | .inf n => if n then Fp.unstated 4 a 0 else a
  | .fin n m e =>
    if n || m == 0 then Fp.unstated 4 a 0
    else
      let l := Nat.log2 m
      let i : Int := (l : Int) + e
      if m = 2 ^ l then ofNum (ofSigned i 0)
      else
        let b := log2Frac 100 (m * 2 ^ (256 - l)) 0
        let lo : Int := i * (2 ^ 100 : Nat) + b
        let x := ofNum (ofSigned lo (-100))
        let y := ofNum (ofSigned (lo + 2) (-100))
        if x = y then x else ofNum (toNum (Config.freeLog2 a))

/-! ### Integers and FP32 -/

/-- The nearest integers to a finite value: rounded by magnitude under the mode. -/
def Num.toInt (mode : Rnd) : Num → Int
  | .fin n m e => if n then -(roundAt mode m e 0 : Nat) else (roundAt mode m e 0 : Nat)
  | _ => 0

/-- Saturating conversion to an integer range; 0 for NaN (R197). -/
def Num.toRange (mode : Rnd) (lo hi : Int) : Num → Int
  | .nan => 0
  | .inf n => if n then lo else hi
  | x => max lo (min hi (x.toInt mode))

def Fp.toS32 (mode : Rnd) (a : Word) : Word := BitVec.ofInt 32 ((toNum a).toRange mode (-(2 ^ 31)) (2 ^ 31 - 1))
def Fp.toU32 (mode : Rnd) (a : Word) : Word := BitVec.ofInt 32 ((toNum a).toRange mode 0 (2 ^ 32 - 1))
def Fp.ofS32 (a : Word) : Word := ofNum (ofSigned a.toInt 0)
def Fp.ofU32 (a : Word) : Word := ofNum (ofSigned a.toNat 0)

/-! ### The fused dot product (R24 to R27) -/

/-- The exponent of the leading bit of a non-zero value. -/
def Num.lead : Num → Int
  | .fin _ m e => (Nat.log2 m : Int) + e
  | _ => 0

/-- A value's contribution to the window whose quantum is 2^q: its magnitude cut to a multiple of the quantum. -/
def Num.quanta (q : Int) : Num → Int
  | .fin n m e =>
    let k : Nat := if q ≤ e then m * 2 ^ (e - q).toNat else m / 2 ^ (q - e).toNat
    if n then -(k : Int) else k
  | _ => 0

/-- The fused sum of an accumulator and exact products (R24). -/
def chunkSum (acc : Word) (p : List Num) : Word :=
  let xs := toNum acc :: p
  if xs.any (· == .nan) then ofNum .nan
  else if xs.any (· == .inf false) && xs.any (· == .inf true) then ofNum .nan
  else if xs.any (· == .inf false) then ofNum (.inf false)
  else if xs.any (· == .inf true) then ofNum (.inf true)
  else
    match xs.filter (fun x => !x.isZero) with
    | [] => if xs.all Num.sign then 0x80000000#32 else 0
    | y :: ys =>
      let emax := ys.foldl (fun m x => max m x.lead) y.lead
      let q := emax - 62
      let total := (y :: ys).foldl (fun t x => t + x.quanta q) 0
      if total = 0 then 0 else ofNum (ofSigned total q)

/-- An integer clamped to 32 bits (R27). -/
def sat32 (v : Int) : Word := BitVec.ofInt 32 (max (-(2 ^ 31)) (min (2 ^ 31 - 1) v))

/-- The INT8 lane step: the exact sum of the products added and saturated (R27). -/
def intSum (acc : Word) (p : List Int) : Word := sat32 (acc.toInt + p.foldl (· + ·) 0)

/-! ### Format codes (R196) -/

/-- Bits an element of a format code takes in memory; raw u8 8, b64 64 (R22, R196). -/
def fmtBits (c : Nat) : Nat :=
  match c with
  | 0x00 => 32 | 0x01 => 32 | 0x02 => 32 | 0x03 => 16 | 0x04 => 16 | 0x05 => 8 | 0x06 => 8 | 0x07 => 8 | 0x08 => 8
  | 0x09 => 8 | 0x0A => 8 | 0x0B => 6 | 0x0C => 6 | 0x0D => 4 | 0x0E => 8 | 0x0F => 64 | 0x10 => 128 | 0x11 => 64
  | _ => 0

/-- Codes of MX formats. -/
def isMx (c : Nat) : Bool := 0x09 ≤ c && c ≤ 0x0E

/-- Two's complement value of the low `n` bits. -/
def signed (n x : Nat) : Int := if x % 2 ^ n < 2 ^ (n - 1) then (x % 2 ^ n : Nat) else (x % 2 ^ n : Nat) - (2 ^ n : Nat)

/-- The value of an element's bits, before any block scale (R21, R22). -/
def elemNum (c x : Nat) : Num :=
  match c with
  | 0x00 => fp32.decode x
  | 0x01 => ofSigned (signed 32 x) 0
  | 0x02 => ofSigned x 0
  | 0x03 => bf16.decode x
  | 0x04 => fp16.decode x
  | 0x05 => e4m3.decode x
  | 0x06 => e5m2.decode x
  | 0x07 => ofSigned (signed 8 x) 0
  | 0x08 => ofSigned x 0
  | 0x09 => e4m3.decode x
  | 0x0A => e5m2.decode x
  | 0x0B => e2m3.decode x
  | 0x0C => e3m2.decode x
  | 0x0D => e2m1.decode x
  | 0x0E => ofSigned (signed 8 x) (-6)
  | _ => .nan

/-- An MX element under its block scale; scale 0xFF makes every element NaN (R22). -/
def mxNum (c x scale : Nat) : Num :=
  if scale = 255 then .nan else (elemNum c x).scale ((scale : Int) - 127)

/-- Is the encoding +0 or -0 (R61, R73)? For MX elements the element bits alone decide. -/
def isZeroCode (c x : Nat) : Bool := (elemNum c x).isZero

/-- The encoding +0 alone: all bits zero (R60). -/
def isPlusZero (x : Nat) : Bool := x == 0

/-- The exponent of an MX element format's largest normal (R31). -/
def emaxElem (c : Nat) : Int :=
  match c with
  | 0x09 => 8 | 0x0A => 15 | 0x0B => 2 | 0x0C => 4 | 0x0D => 2 | _ => 0

/-- The element bits of a value that is finite: converted under the mode, saturating (R31). An MXINT8 element saturates at
-128, the least that R21 lists, on the negative side (log 81). -/
def mxElem (c : Nat) (mode : Rnd) (x : Num) : Nat :=
  match c with
  | 0x09 => e4m3.encode mode true x
  | 0x0A => e5m2.encode mode true x
  | 0x0B => e2m3.encode mode true x
  | 0x0C => e3m2.encode mode true x
  | 0x0D => e2m1.encode mode true x
  | _ => ((x.scale 6).toRange mode (-128) 127 % 256).toNat

/-- The largest magnitude of values that are finite, and whether one is not (R31). -/
def amax (xs : List Num) : Option Num :=
  xs.foldl (fun m x =>
    match m, x with
    | none, _ => none
    | _, .nan => none
    | _, .inf _ => none
    | some a, .fin _ mx ex => if Num.lt a (.fin false mx ex) then some (.fin false mx ex) else some a)
    (some (.fin false 0 0))

/-- The scale of an MX block of values (R31), as stored. -/
def mxScale (c : Nat) (xs : List Num) : Nat :=
  match amax xs with
  | none => 255
  | some a => if a.isZero then 0 else (max (-127) (min 127 (a.lead - emaxElem c)) + 127).toNat

/-- Quantizes a block: its stored scale and its elements, each rounded under the mode of its place (R31). -/
def mxBlock (c : Nat) (modes : Nat → Rnd) (xs : List Num) : Nat × List Nat :=
  let sc := mxScale c xs
  if sc = 255 then (255, xs.map fun _ => 0)
  else (sc, xs.zipIdx.map fun (x, i) => mxElem c (modes i) (x.scale (127 - (sc : Int))))

/-- Quantizes a row of values in blocks of 32, the last block short (R45, R87). -/
def mxRow (c : Nat) (modes : Nat → Rnd) : Nat → Nat → List Num → List Nat × List Nat
  | 0, _, _ => ([], [])
  | _ + 1, _, [] => ([], [])
  | fuel + 1, i, x :: xs =>
    let b := mxBlock c (fun j => modes (i + j)) ((x :: xs).take 32)
    let r := mxRow c modes fuel (i + 32) ((x :: xs).drop 32)
    (b.1 :: r.1, b.2 ++ r.2)

/-- Conversion of a value to a format that is not MX, under rnd and sat (R29, R30); integers clamp. -/
def convert (c : Nat) (mode : Rnd) (sat : Bool) (x : Num) : Nat :=
  match c with
  | 0x00 => fp32.encode mode sat x
  | 0x01 => (x.toRange mode (-(2 ^ 31)) (2 ^ 31 - 1) % 2 ^ 32).toNat
  | 0x02 => (x.toRange mode 0 (2 ^ 32 - 1)).toNat
  | 0x03 => bf16.encode mode sat x
  | 0x04 => fp16.encode mode sat x
  | 0x05 => e4m3.encode mode sat x
  | 0x06 => e5m2.encode mode sat x
  | 0x07 => (x.toRange mode (-128) 127 % 256).toNat
  | 0x08 => (x.toRange mode 0 255).toNat
  | _ => 0

/-! ### The conversion control byte (R29) -/

/-- A control byte without a reserved value: reserved bits clear and rnd not 0b11. -/
def convOk (c : Nat) : Bool := bitsOf c 7 6 == 0 && bitsOf c 2 0 == 0 && bitsOf c 5 4 != 3

/-- The rounding mode of a control byte, its random word given. -/
def convRnd (c : Nat) (w : Word) : Rnd :=
  match bitsOf c 5 4 with
  | 1 => .zero
  | 2 => .stochastic w
  | _ => .nearest

/-- The sat bit. -/
def convSat (c : Nat) : Bool := bitOf c 3

/-! ### CB10 (R154) -/

/-- One round of CB10. -/
def cb10Round (c0 c1 c2 c3 k0 k1 : Word) : Word × Word × Word × Word :=
  let p := 0xD2B74407 * c0.toNat
  let q := 0xCA5A8263 * c2.toNat
  (BitVec.ofNat 32 (q / 2 ^ 32) ^^^ c1 ^^^ k0, BitVec.ofNat 32 q,
    BitVec.ofNat 32 (p / 2 ^ 32) ^^^ c3 ^^^ k1, BitVec.ofNat 32 p)

/-- The rounds of CB10, the keys stepped after each. -/
def cb10Rounds : Nat → Word → Word → Word → Word → Word → Word → Word × Word × Word × Word
  | 0, c0, c1, c2, c3, _, _ => (c0, c1, c2, c3)
  | n + 1, c0, c1, c2, c3, k0, k1 =>
    let r := cb10Round c0 c1 c2 c3 k0 k1
    cb10Rounds n r.1 r.2.1 r.2.2.1 r.2.2.2 (k0 + 0xA54FF53B#32) (k1 + 0x6C8E9CF5#32)

/-- The word of a seed, tensor id, stream id and element index (R154). -/
def cb10 (seed : Dword) (t st : Word) (e : Nat) : Word :=
  let blk := e % 2 ^ 64 / 4
  let r := cb10Rounds 10 (BitVec.ofNat 32 blk) (BitVec.ofNat 32 (blk / 2 ^ 32)) t st
    (seed.extractLsb' 0 32) (seed.extractLsb' 32 32)
  match e % 4 with
  | 0 => r.1
  | 1 => r.2.1
  | 2 => r.2.2.1
  | _ => r.2.2.2

end Sys2Proof.Machine
end

