-- ==== Sys2Proof/Machine/State.lean ====
section
/-! DEFINITION. The state of the part: every register, queue, buffer, counter, mode and pin the spec gives it, as
plain data, and the queue of commands that wait. -/

namespace Sys2Proof.Machine

/-! ### Blocks and stages -/

/-- The four states of a block (R396). -/
inductive BState where
  | off | starting | on | stopping
  deriving DecidableEq, Repr, Inhabited

/-- What every block's CTRL and STATUS registers share: state, enable and wrej (R396, R398). -/
structure Blk where
  st   : BState
  en   : Bool
  wrej : Bool
  deriving DecidableEq, Repr, Inhabited

/-- A block at reset with its enable's reset value (R396). -/
def Blk.reset (en : Bool) : Blk := ⟨.off, en, false⟩

/-- Where the part stands between power and readiness: off below 40 V; waiting for power-good (R369); the stages
of R388; ready; the boot ROM in recovery (R359); held after a trip (R383). -/
inductive Stage where
  | off | waitGood | boot | firmware | stackInit | wipe | link | ready | recovery | tripHold
  deriving DecidableEq, Repr, Inhabited

/-! ### Status codes and records -/

/-- Completion statuses (R340). -/
inductive Status where
  | ok | okPruned | recomputeNeeded | stashFull | structViolation | indexRange | maskNotTransposable | pinRefused
  | eccUncorrectable | linkLost | deadlineMissed | contextKilled | dependencyFailed | cancelled | classBoundUnmet
  deriving DecidableEq, Repr, Inhabited

/-- A completion record that waits in the ring engine (R273, R276). The SQ head is filled in when it is written. -/
structure Record where
  status  : Status
  unmet   : Bool
  tag     : Word
  time    : Word
  sqIndex : Nat
  detail  : Dword
  result  : Dword
  irq     : Bool
  layer   : Nat
  deriving DecidableEq, Repr, Inhabited

/-- The fault record of a context (R341). -/
structure FaultRec where
  code    : BitVec 16
  source  : Byte
  die     : Byte
  unit    : Byte
  pack    : Byte
  sqIndex : BitVec 16
  pc      : Word
  aux     : Word
  addr    : Dword
  time    : Word
  extra   : BitVec 16
  valid   : Bool
  deriving DecidableEq, Repr, Inhabited

/-- The cleared fault record (R341). -/
def FaultRec.clear : FaultRec := ⟨0, 0, 0, 0, 0, 0, 0, 0, 0, 0, 0, false⟩

/-- What an entry of the management log records beside the fields that R368 lays out: the entry index of a fault (R343), the hash of a
requester's certificate (R363; log 93). -/
inductive LogMore where
  | none | sqIndex (ix : Nat) | cert (hash : BitVec 512)
  deriving DecidableEq, Repr, Inhabited

/-- An entry of the management log, or a permanent record (R368). -/
structure LogEntry where
  time  : Dword
  event : BitVec 16
  who   : Byte
  res   : Byte
  arg   : Word
  more  : LogMore
  deriving DecidableEq, Repr, Inhabited

/-- The 8-bit completion codes of management commands (R354). -/
inductive MgmtCode where
  | success | state | presence | auth | invalid | busy | resource
  deriving DecidableEq, Repr, Inhabited

/-- What a management answer carries besides its code. -/
inductive MgmtData where
  | none
  | entries (vol perm : List (List Byte))
  | status (code : Nat) (running : Bool) (res : Option MgmtCode)
  deriving DecidableEq, Repr, Inhabited

/-- A place of one byte that a context's translation leads to (R329): device physical, host physical, or a remote
address of a context of a node. -/
inductive Place where
  | dev (a : Nat) | host (a : Nat) | peer (node ctx va : Nat)
  deriving DecidableEq, Repr, Inhabited

/-- A measurement: a SHA-512 digest, or raw bytes (R356). -/
inductive Meas where
  | digest (d : BitVec 512) | raw (bs : List Byte)
  deriving DecidableEq, Repr, Inhabited

/-- The device identity certificate: the key it names and the part's serial number (R355). -/
structure DevCert where
  key    : Nat
  serial : Nat
  deriving DecidableEq, Repr, Inhabited

/-- What an answer to an MCTP message tells: of PLDM whether an activation is pending, and the vendor id of the FRU record (R350,
R358). -/
inductive MctpBody where
  | plain | pldm (pending : Bool) (vendor : Nat)
  deriving DecidableEq, Repr, Inhabited

/-- What the part sends out of its connectors, as the model records it (log 10). -/
inductive Output where
  | config (ready : Bool)
  | mgmt (sid code : Nat) (res : MgmtCode) (data : MgmtData)
  | mctpUnsupported (typ eid : Nat)
  | mctpAnswer (typ eid : Nat) (body : MctpBody)
  | session (sid : Nat) (granted : Bool) (cert : Option DevCert)
  | measurements (blocks : List Meas) (signature : BitVec 1056)
  | sensor (which : Sensor) (value level : Nat)
  | fwVerify (ok : Bool)
  | hdmData (data : List Byte) (poisoned : Bool)
  | hdmDone
  | record (ctx : Nat) (r : Record) (sqHead : Nat)
  | msix (vector : Nat) (addr : Dword) (data : Word)
  | snoopData (line : Nat) (data : List Byte)
  | backInvalidate (line : Nat)
  | reel (port : Nat) (m : ReelMsg)
  | peerReq (port tag : Nat) (r : PeerReq)
  | peerAns (port tag : Nat) (a : PeerAns) (dst src : Nat)
  | nak (port seq : Nat)
  | replay (port seq : Nat)
  | flit (port seq vc : Nat) (second : Bool) (acked : Nat) (credits : List Nat)
  | handshake (port node : Nat) (topo : Word) (version : Nat)
  | zcFrame (port : Nat) (f : ZcFrame)
  | atomicOld (vals : List Dword)
  | hostLinkDrop
  deriving DecidableEq, Repr, Inhabited

/-! ### Platform: fuses, Sheepdog and Mastiff (always-on domain) -/

/-- The fuses (R355 to R368): they only ever advance. `fusedBad` holds the granules found bad at manufacture. `deviceKey` is the device
identity key; `releaseKey` and `serviceKey` name the keys whose hashes are fused (log 9). -/
structure Fuses where
  life        : Life
  ownerUsed   : Nat
  serviceUsed : Nat
  ownerKey    : Option Nat
  deviceKey   : Option Nat
  releaseKey  : Option Nat
  serviceKey  : Option Nat
  minSvn      : Nat
  debugLocked : Bool
  sealBroken  : Bool
  permLog     : List LogEntry
  fusedBad    : FMap (BitVec 16)
  deriving DecidableEq, Repr, Inhabited

/-- Power, clocks, reset and temperature (R369 to R390, R416). `romWait`: the boot ROM waits for PP_BTN_N (R388);
`sampled`: SVC_JMP_N has been sampled since power-on (R362); `faultLed`: a trip or power fault whose cold reset has not
completed (R417). -/
structure Power where
  alwaysOn   : Bool
  inputMv    : Nat
  current    : Nat
  drawnW     : Nat
  stage      : Stage
  cold       : Bool
  dramWiping : Bool
  sramWiping : Bool
  testing    : Bool
  romWait    : Bool
  sampled    : Bool
  faultLed   : Bool
  perst      : Bool
  refAbsent  : Bool
  refHold    : Bool
  linkUp     : Bool
  linkBUp    : Bool
  twoByEight : Bool
  tap        : TapInstr
  pfaultSeen : Bool
  tripSeen   : Bool
  refclkLost : Bool
  emergency  : Bool
  asleep     : Bool
  wrej       : Bool
  time       : Dword
  coolMs     : Nat
  dieTemp    : FMap Nat
  inlet      : Nat
  moduleCap  : Nat
  sliceCap   : FMap Nat
  sliceFloor : FMap Nat
  sliceGrant : FMap Nat
  sliceDrawn : FMap Nat
  throttled  : FMap Bool
  dieDemand  : FMap Nat
  dieGrant   : FMap Nat
  dieCut     : FMap Nat
  pllIdle    : Nat
  sleepMs    : Nat
  dieLevel   : FMap (BitVec 2)
  hubOff     : FMap Bool
  gated      : FMap Bool
  deriving DecidableEq, Repr, Inhabited

/-- An SPDM session (R352). -/
structure Session where
  sid : Nat
  key : ReqKey
  deriving DecidableEq, Repr, Inhabited

/-- Mastiff (R349 to R368). `flash` is the image that the flash holds whole, `flashBusy` the one in the buffer that it is being written
with (R358); `running` is the command whose effect is not complete, with its session (R353). -/
structure Mastiff where
  lifePending : Option Life
  fwSvn       : Nat
  fwPending   : Option Nat
  flash       : Option ImageCheck
  flashBusy   : Option ImageCheck
  debugMode   : Bool
  debugDue    : Bool
  jumper      : Bool
  button      : Bool
  sessions    : List Session
  queue       : List (Nat × Nat)
  lastLong    : Option (Nat × Bool × Option MgmtCode)
  running     : Option (Nat × Nat)
  addr        : BitVec 3
  dynAddr     : Option (BitVec 7)
  eid         : Option Byte
  idePolicy   : Bool
  ideUp       : Bool
  node        : BitVec 12
  topo        : Word
  sysCfg      : Word
  recoveryLog : Bool
  sensors     : List (Sensor × Nat)
  alert       : Bool
  deriving DecidableEq, Repr, Inhabited

/-- The always-on domain and what Mastiff and Sheepdog hold. -/
structure Platform where
  fuses : Fuses
  pow   : Power
  mas   : Mastiff
  deriving DecidableEq, Repr, Inhabited

/-! ### Contexts and rings -/

/-- Gate states (R326), numbered as CTX_ENTRY.state (R404). -/
inductive CtxState where
  | free | frozen | opened | killed | teardown
  deriving DecidableEq, Repr, Inhabited

/-- A context table entry (R326). `key` is the serial of its key (log 9), `pt` its page-table entries by level and
virtual prefix (log 11), `step` how far a teardown has come (R336). -/
structure Ctx where
  st       : CtxState
  home     : Nat
  resv     : Option Nat
  classes  : BitVec 4
  pinRight : Bool
  portMask : BitVec 6
  quota    : Nat
  policy   : Nat
  ovfBase  : Nat
  ovfSize  : Nat
  root     : BitVec 36
  seed     : Dword
  grants   : List PeerGrant
  key      : Option Nat
  pt       : FMap Dword
  fault    : FaultRec
  step     : Nat
  deriving DecidableEq, Repr, Inhabited

/-- A free context (R327, R404 reset values). -/
def Ctx.free : Ctx :=
  ⟨.free, 0, none, 0, false, 0, 0, 0, 0, 0, 0, 0, [], none, [], FaultRec.clear, 0⟩

/-- The pair of rings of a context (R251, R252, R405). `nextSeq` numbers the items fetched since enable. `phase`
is the phase of the current pass (R273). `bells` pairs the sequence number an accepted doorbell covers up to with
the time it arrived (R291). `outcomes` keeps an ended item's status, the time of its
end, and whether its descriptor reached a partner module (R259, R291, R293). `deferFails` pairs a deadline item's sequence number with the entry of a deferred item that
failed before the deadline item was fetched (R93). -/
structure Ring where
  blk      : Blk
  sqLog    : Nat
  cqLog    : Nat
  sqBase   : Nat
  cqBase   : Nat
  sqHead   : Nat
  sqTail   : Nat
  cqHead   : Nat
  cqTail   : Nat
  nextSeq  : Nat
  phase    : Bool
  waiting  : List Record
  msixDue  : Bool
  killMsix : Bool
  outcomes : FMap (Option (Status × Dword × Bool))
  deferFails : List (Nat × Nat)
  bells    : List (Nat × Dword)
  deriving DecidableEq, Repr, Inhabited

/-- A ring at reset (R405). -/
def Ring.reset : Ring :=
  ⟨Blk.reset false, 6, 6, 0, 0, 0, 0, 0, 0, 0, true, [], false, false, [], [], []⟩

/-- A stash tag (R132). -/
structure Tag where
  ctx    : Nat
  layer  : Nat
  mbatch : Nat
  slot   : Nat
  deriving DecidableEq, Repr, Inhabited

/-- Where an item of the ring engine stands. -/
inductive Phase where
  | fetched | dispatched | running | done
  deriving DecidableEq, Repr, Inhabited

/-- How far the tiles of an RE_PRODUCT item are dealt (R283): next column, width of the current column range, next
split and next row group of it. -/
structure Deal where
  col   : Nat
  width : Nat
  split : Nat
  group : Nat
  ready : Bool
  deriving DecidableEq, Repr, Inhabited

/-- An item fetched and not yet recorded (R255): `shard` and `inst` are the shard it fills and the instance it joins of its
Reel group (R299; log 24); or a work record issued by a kernel (R179): those have sequence
numbers from 2^32 on and name their block and token. `claims` pairs the operand of each claim with the stamp of the stash
entry it binds. `issued` says that the item's work has begun to issue, `bell` from when its start counts (R291),
`waitAt` since when a kernel waits for its translation or a WAIT_GE for its value. -/
structure Item where
  ctx       : Nat
  seq       : Nat
  desc      : List Byte
  phase     : Phase
  slice     : Nat
  cls       : Nat
  oprec     : List Byte
  promoted  : Bool
  covered   : Bool
  unmet     : Nat
  err       : Option (Status × Nat)
  pruned    : Bool
  recompute : Option Nat
  depFail   : Option Nat
  cancelBy  : Option Nat
  killCode  : Option Nat
  result    : Dword
  layerIx   : Nat
  deal      : Deal
  out       : Nat
  drained   : List (Nat × Nat × Nat)
  bAddr     : Option Nat
  holds     : List (Nat × Nat × Nat)
  claims    : List (Nat × Nat)
  save      : Option Tag
  blocks    : Nat
  waitAt    : Option Dword
  issued    : Bool
  bell      : Dword
  shard     : Nat
  inst      : Nat
  arrivedAt : Option Dword
  issuedBy  : Option (Nat × Nat)
  hostNs    : Nat
  mixed     : Bool
  deriving DecidableEq, Repr, Inhabited

/-- An entry of the MSI-X table with its pending bit, and when its last message went (R250). -/
structure Msix where
  addr : Dword
  data : Word
  mask : Bool
  pend : Bool
  last : Option Dword
  deriving DecidableEq, Repr, Inhabited

/-- A vector at reset: masked, as MSI-X defines. -/
def Msix.reset : Msix := ⟨0, 0, true, false, none⟩

/-- A held translation of a kernel image (R202, R205): the image's address and check, its header fields, code words
and constant section. `hot` marks one a class 0 item has used. -/
structure Xlat where
  ctx     : Nat
  addr    : Nat
  check   : Nat
  entry   : Nat
  tregs   : Nat
  packs   : Nat
  blkmem  : Nat
  code    : List Dword
  consts  : List Byte
  hot     : Bool
  stamp   : Nat
  deriving DecidableEq, Repr, Inhabited

/-- The ring engine and the context unit on H0. `monitors` lists the WAIT_GE items that wait: context, sequence number, and
whether it holds an event monitor or polls (R270). `cntSnap` holds a counter snapshot (R426). -/
structure Hub where
  ctxs      : FMap Ctx
  rings     : FMap Ring
  ringWrej  : Bool
  ringSel   : BitVec 12
  items     : List Item
  monitors  : List (Nat × Nat × Bool)
  lastFetch : Nat
  msix      : FMap Msix
  xlats     : List Xlat
  windows   : FMap (Option (Nat × Nat))
  hostErr   : FMap Word
  peerRef   : Word
  glbWrej   : Bool
  rejNext   : Nat
  rejTotal  : Nat
  rejLog    : FMap Word
  ctxSel    : BitVec 12
  ctxWrej   : Bool
  counters  : FMap Dword
  cntSel    : BitVec 12
  cntSnap   : Option (FMap Dword)
  cntTrace  : Word
  cntUnits  : FMap Dword
  cntUnitsSnap : FMap Dword
  cntWrej   : Bool
  workSeq   : Nat
  snapFrozen : List Nat
  deriving DecidableEq, Repr, Inhabited

/-! ### Slices and engines -/

/-- A slice (R279, R406). `pins` holds for each traffic class its ways (R230). `scan` is the pin item whose scan
runs. -/
structure Slice where
  blk       : Blk
  reserved  : Bool
  dies      : List Nat
  bw        : List Nat
  fabWeight : Nat
  ringShare : Nat
  core      : Bool
  coreNow   : Bool
  pins      : List (List Nat)
  scan      : Option (Nat × Nat)
  steal     : List (Nat × Nat × Nat)
  next      : Option SliceParams
  lastPin   : Nat
  deriving DecidableEq, Repr, Inhabited

/-- An index that is no slice (R406 reset values). -/
def Slice.none : Slice :=
  ⟨Blk.reset false, false, [], [], 0, 0, false, false, List.replicate 8 [], Option.none, [], Option.none, 4095⟩

/-- A tile in an engine (R46, R283). -/
structure Tile where
  ctx   : Nat
  seq   : Nat
  row   : Nat
  col   : Nat
  m     : Nat
  w     : Nat
  split : Nat
  rank  : Nat
  deriving DecidableEq, Repr, Inhabited

/-- Bank states of RE_STATUS (R58). -/
inductive BankSt where
  | free | filling | draining | loading
  deriving DecidableEq, Repr, Inhabited

/-- An accumulator bank: its tile, how far that tile has come, and its 64 entries of the presented lanes, entry `row` of
lane `p` under key 512 row + p (R38, R43). `pos` counts the units of K that are reduced, or the rows combined where the
tile is a combine (R48). `loaded` says of a bank that reads as loading that its LOAD has completed and its tile has not started:
a halt came between (R57). -/
structure Bank where
  st   : BankSt
  tile : Option Tile
  comb : Bool
  pos  : Nat
  loaded : Bool
  acc  : FMap Word
  deriving DecidableEq, Repr, Inhabited

/-- A free bank. -/
def Bank.free : Bank := ⟨.free, Option.none, false, 0, false, []⟩

/-- Values of an operand: their positions along the reduction axis and themselves, under their block scales. -/
abbrev Elems := List (Nat × Num)

/-- A stored element of an operand: its position along the reduction axis, its bits, and its block scale, 0 in a format without
scales (R21, R22). -/
structure Elem where
  pos   : Nat
  bits  : Nat
  scale : Nat
  deriving DecidableEq, Repr, Inhabited

/-- The registers of one chunk or window in a lane and its pairing unit: 64 B of stationary elements with up to 4 B of block
scales (R38), 40 B of metadata, position codes in bits 255 to 0 and block scales above them, and a 128 B window (R63). Elements,
codes and scales lie packed from bit 0 on, in increasing K (log 77). -/
structure LaneSet where
  chunk  : BitVec 512
  scales : BitVec 32
  meta_  : BitVec 320
  window : BitVec 1024
  deriving DecidableEq, Repr, Inhabited

/-- The registers of a lane and of its pairing unit: the live ones and their shadows (R38, R39, R63). -/
structure LaneRegs where
  live   : LaneSet
  shadow : LaneSet
  deriving DecidableEq, Repr, Inhabited

/-- A lane's registers at reset: the spec gives them no value, the model holds zero (DESIGN CHOICE, log 77). -/
def LaneRegs.reset : LaneRegs := ⟨⟨0, 0, 0, 0⟩, ⟨0, 0, 0, 0⟩⟩

/-- A panel of B in an operand buffer: a column range of one split of an item (R50, R51). -/
structure Panel where
  ctx   : Nat
  seq   : Nat
  col   : Nat
  w     : Nat
  split : Nat
  cols  : List (List Elem)
  deriving DecidableEq, Repr, Inhabited

/-- What the stream region of an operand buffer holds (R50): the A rows of the chunk that was issued last, the partials of the
row that was combined last, column by column, the LOAD values of the tile that took a bank last, row by row, and what has been
fetched of the panel of the next tile. -/
structure StreamBuf where
  rows  : List (List Elem)
  parts : List (List Word)
  load  : List (List Word)
  next  : Option Panel
  deriving DecidableEq, Repr, Inhabited

/-- A stored tile that a TXB has turned (R85): for which tile of the engine, of which operand, its origin, whether it is MX, and
until when it stays in its slot. -/
structure Turned where
  tile : Tile
  isB  : Bool
  row  : Nat
  col  : Nat
  mx   : Bool
  till : Dword
  deriving DecidableEq, Repr, Inhabited

/-- A row engine (R38 to R58, R63, R85). `turn` is the bank the next tile takes. A free bank keeps the accumulators it
held. `lanes` holds the registers of the presented lanes, those at `LaneRegs.reset` not listed, `panel` the stationary region,
`stream` the stream region, `turned` the turned tiles in the operand buffer, `txb` the two slots of the engine's TXB, `combines` the combines that wait (R48). -/
structure RowEng where
  blk      : Blk
  bad      : BitVec 16
  stealIn  : Bool
  stealOut : Bool
  split    : BitVec 2
  dbgHalt  : Bool
  dbgBank  : Bool
  dbgRow   : BitVec 6
  dbgLane  : BitVec 9
  halted   : Bool
  queue    : List Tile
  bank0    : Bank
  bank1    : Bank
  turn     : Bool
  parked   : Option Bank
  combines : List Tile
  lanes    : FMap LaneRegs
  panel    : Option Panel
  stream   : StreamBuf
  turned   : List Turned
  txb      : List Turned
  deriving DecidableEq, Repr, Inhabited

/-- A row engine at reset (R58). The spec gives the bypass map at reset as the self-test's; before the first self-test the
model holds every granule good, 512 lanes (log 78). -/
def RowEng.reset : RowEng :=
  ⟨Blk.reset true, 0, true, true, 1, false, false, 0, 0, false, [], Bank.free, Bank.free, false,
    Option.none, [], [], Option.none, ⟨[], [], [], Option.none⟩, [], []⟩

/-- A list that has yielded to class 0 work: its item, its position and its registers (R288). -/
structure VecPark where
  item  : Nat × Nat
  pos   : Nat
  stream : Bool
  regs  : FMap Word
  masks : FMap Bool
  deriving DecidableEq, Repr, Inhabited

/-- A vector engine (R142): element i of v_r is key 4096 r + i of `regs`, bit i of vm_j key 4096 j + i of `masks`. -/
structure VecEng where
  regs    : FMap Word
  masks   : FMap Bool
  holder  : Option Nat
  queue   : List (Nat × Nat)
  running : Option (Nat × Nat)
  listPos : Nat
  stream  : Bool
  parked  : Option VecPark
  deriving DecidableEq, Repr, Inhabited

/-- A vector engine with every register zero and no work. -/
def VecEng.reset : VecEng := ⟨[], [], Option.none, [], Option.none, 0, false, Option.none⟩

/-- The blocks a lane die holds one of, with their fields (R102, R159, R186, R242). -/
structure DieBlocks where
  ve      : Blk
  txb     : Blk
  collie  : Blk
  dcache  : Blk
  retr    : Blk
  rng     : Blk
  bFirst  : Bool
  capShift : BitVec 3
  flushing : Bool
  budget  : BitVec 11
  l1En    : Bool
  dcEn    : Bool
  distance : BitVec 7
  rngLast : Nat
  rngWait : BitVec 8
  deriving DecidableEq, Repr, Inhabited

/-- A lane die's blocks at reset. -/
def DieBlocks.reset : DieBlocks :=
  ⟨Blk.reset true, Blk.reset true, Blk.reset true, Blk.reset true, Blk.reset true, Blk.reset true, true, 3,
    false, 1024, true, true, 16, 7, 0⟩

/-- The engines of the lane dies and the slices. Engines are keyed by 8 times the die plus k. -/
structure Engines where
  slices : FMap Slice
  dies   : FMap DieBlocks
  res    : FMap RowEng
  ves    : FMap VecEng
  deriving DecidableEq, Repr, Inhabited

/-! ### Collie cores -/

/-- A mask-stack entry (R169). -/
structure Frame where
  recon : Nat
  mask  : Word
  pc    : Nat
  pend  : Word
  deriving DecidableEq, Repr, Inhabited

/-- What a pack waits for (R166). -/
inductive Wait where
  | miss | memory | barrier | engWait (token : Nat) | queueFull (kind e : Nat) | atomic | vacq (k : Nat) | vsync (k : Nat) | fence
  deriving DecidableEq, Repr, Inhabited

/-- A pack (R161, R162, R169, R188). Thread register r of lane i is key 128 i + r of `regs`. `slot` is its entry of
the active set, or none in the pending set, where `stamp` orders it. `parked` holds the lanes that wait at barriers:
lane, barrier id and the pc they resume at (R173). -/
structure Pack where
  regs   : FMap Word
  uregs  : FMap Word
  preds  : FMap Word
  mask   : Word
  live   : Word
  pc     : Nat
  stack  : List Frame
  slot   : Option Nat
  stamp  : Nat
  wait   : Option Wait
  parked : List (Nat × Nat × Nat)
  deriving DecidableEq, Repr, Inhabited

/-- An absent pack. -/
def Pack.none : Pack := ⟨[], [], [], 0, 0, 0, [], Option.none, 0, Option.none, []⟩

/-- An open barrier (R172, R175): id, cycles of its watchdog. -/
structure Barrier where
  id     : Nat
  cycles : Nat
  deriving DecidableEq, Repr, Inhabited

/-- Work a block has issued (R181): its token and work item, and its status once drained. -/
structure Token where
  tok    : Nat
  seq    : Nat
  status : Option Status
  deriving DecidableEq, Repr, Inhabited

/-- A resident block (R161). -/
structure KBlock where
  die    : Nat
  core   : Nat
  ctx    : Nat
  seq    : Nat
  idx    : Nat
  packs  : Nat
  tregs  : Nat
  memLen : Nat
  mem    : FMap Byte
  consts : List Byte
  bars   : List Barrier
  tokens : List Token
  held   : List Nat
  deriving DecidableEq, Repr, Inhabited

/-- A line of a core's data cache (R168, R211): where it lies, its key, the virtual address it came by, 128 bytes and
which of them are dirty, the items that wrote them, and the context of a prefetch not used yet. -/
structure CLine where
  at_    : Place
  key    : Nat
  va     : Nat
  data   : List Byte
  dirty  : List Bool
  by_    : List (Nat × Nat)
  pref   : Option Nat
  deriving DecidableEq, Repr, Inhabited

/-- A Collie core (R165, R199, R429). -/
structure CoreSt where
  lines   : List CLine
  haltReq : Bool
  halted  : Bool
  sel     : Word
  cycles  : Dword
  last    : Nat
  deriving DecidableEq, Repr, Inhabited

/-- A core at reset. -/
def CoreSt.reset : CoreSt := ⟨[], false, false, 0, 0, 3⟩

/-- The Collie cores: blocks by their number, packs by 16 times the block's number plus the index, cores by 16
times the die plus the core. -/
structure Collie where
  blocks : List (Nat × KBlock)
  packs  : FMap Pack
  cores  : FMap CoreSt
  nextBlk : Nat
  stamp  : Nat
  deriving DecidableEq, Repr, Inhabited

/-! ### Memory -/

/-- Coherence states of a die-cache line (R226). -/
inductive LineSt where
  | modified | exclusive | shared
  deriving DecidableEq, Repr, Inhabited

/-- A die-cache line (R225): which line (device line number, or host line number), way, state, class, order stamp,
and its 128 bytes with the key they are written back under when modified. -/
structure DLine where
  die   : Nat
  host  : Bool
  line  : Nat
  way   : Nat
  st    : LineSt
  tc    : Nat
  stamp : Nat
  key   : Nat
  data  : List Byte
  pref  : Option Nat
  deriving DecidableEq, Repr, Inhabited

/-- A line in the stream region of a stream unit's operand buffer: one that the Retriever put there (R239, R240), or one that an
operation which stalls for others has asked for, there or on its way (R235). Of which unit and for which item, and the context
that counts a prefetched one while it is unused (R241). -/
structure NearLine where
  die  : Nat
  unit : Nat
  ctx  : Nat
  seq  : Nat
  line : Nat
  pref : Option Nat
  deriving DecidableEq, Repr, Inhabited

/-- A miss register (R234, R239): die, requester as R425 numbers it, line, class, waiters, whether the Retriever's, and whether a
discard waits for the fill (R232). `ctx` and `seq` are of the item whose request took it, or started the stream; `key` is the
key its request carries. -/
structure Miss where
  die     : Nat
  unit    : Nat
  line    : Nat
  tc      : Nat
  waiters : List Waiter
  pref    : Bool
  ctx     : Nat
  seq     : Nat
  key     : Nat
  discard : Bool
  deriving DecidableEq, Repr, Inhabited

/-- A stream tracker of the Retriever (R238). -/
structure Tracker where
  die     : Nat
  unit    : Nat
  ctx     : Nat
  last    : Nat
  stride  : Int
  hits    : Nat
  stamp   : Nat
  deriving DecidableEq, Repr, Inhabited

/-- A MEM block (R140). -/
structure MemBlk where
  blk      : Blk
  ueSeen   : Bool
  wiping   : Bool
  selfRef  : Bool
  scrub    : Byte
  stashGib : BitVec 6
  ce       : Word
  ue       : Word
  eccAddr  : Nat
  eccValid : Bool
  deriving DecidableEq, Repr, Inhabited

/-- A MEM block at reset (R140). -/
def MemBlk.reset : MemBlk := ⟨Blk.reset true, false, false, false, 24, 16, 0, 0, 0, false⟩

/-- Where a stash entry's segment lies (R139). -/
inductive SegKind where
  | pool | overflow (base : Nat) | dropped
  deriving DecidableEq, Repr, Inhabited

/-- A stash entry (R132 to R139). `ready` is false while its saving item is in flight. `stamp` tells entries apart.
`data` holds a pool segment's bytes; of an overflow segment, whose bytes lie in the context's memory, it marks those the
save has written. -/
structure Seg where
  tag     : Tag
  kind    : SegKind
  granules : List Nat
  data    : FMap Byte
  len     : Nat
  claims  : Nat
  recomp  : Bool
  ready   : Bool
  saver   : Nat
  claiming : Nat
  stamp   : Nat
  old     : Bool
  deriving DecidableEq, Repr, Inhabited

/-- The memory system: device bytes with the key serial of each line, uncorrectable half-lines, the codewords of which a read
past the miss registers finds an error, 1 corrected and 2 uncorrectable (log 14), dead marks, caches,
stash, and host memory as the part has seen it. `hostHeld` says for a device line whether the host holds it (1) or a
back-invalidation of it is out (2) (R221). -/
structure Mem where
  dram    : List Host.Cell
  lineKey : FMap Nat
  bad     : FMap Bool
  weak    : FMap Nat
  dead    : FMap Bool
  nextKey : Nat
  pages   : FMap Nat
  scrubQ  : FMap Bool
  lines   : List DLine
  misses  : List Miss
  near    : List NearLine
  trackers : List Tracker
  blks    : FMap MemBlk
  poolGib : Nat
  segs    : List Seg
  hostMem : List Host.Cell
  hostHeld : FMap Nat
  deriving DecidableEq, Repr, Inhabited

/-! ### Update sequencer, Reel, partner ports -/

/-- A layer of a weight set in the directory (R115, R116, R433): version, current slot, virtual bases of the two
slots in the owner's space, and the device pages (units of 64 KiB) that hold them. -/
structure WLayer where
  version : Dword
  slot    : Bool
  base0   : Nat
  base1   : Nat
  pages0  : List Nat
  pages1  : List Nat
  deriving DecidableEq, Repr, Inhabited

/-- An entry of the weight-set directory (R433). `recAt` is the record's device address, `recPages` are the 64 KiB device
pages it lies in; `published` and each layer's `version` and `slot` are as the sequencer last knew them. -/
structure WSet where
  recAt  : Nat
  recVa  : Nat
  owner  : Nat
  recPages : List Nat
  published : Dword
  layers : List WLayer
  deriving DecidableEq, Repr, Inhabited

/-- Phases of UPS_STATUS (R119). -/
inductive UpsPhase where
  | idle | norm | layers | undoing
  deriving DecidableEq, Repr, Inhabited

/-- A norm-and-update item under way (R105): its Step Record's fields, its partial sum, the scale, the layer it has
reached, whether that layer is being written, and the layers it has swapped. `summed` says that the partial sum is formed:
until then the item waits for gradients in partner memory, the record read. -/
structure Update where
  ctx     : Nat
  seq     : Nat
  phase   : UpsPhase
  set     : Nat
  clipEn  : Bool
  skip    : Bool
  step    : Dword
  eta     : Word
  clip    : Word
  qShard  : Word
  summed  : Bool
  norm    : Word
  scale   : Word
  layer   : Nat
  writing : Bool
  swapped : List Nat
  deriving DecidableEq, Repr, Inhabited

/-- The update sequencer (R119, R433). -/
structure Ups where
  blk  : Blk
  dir  : List WSet
  runs : List Update
  deriving DecidableEq, Repr, Inhabited

/-- States of a group entry (R308). -/
inductive GState where
  | idle | active | down
  deriving DecidableEq, Repr, Inhabited

/-- A shard that has arrived (R299). -/
structure Arrival where
  shard  : Nat
  ctx    : Nat
  seq    : Nat
  params : ReelParams
  values : List Word
  bytes  : List Byte
  deriving DecidableEq, Repr, Inhabited

/-- What a child module has sent up (R301, R302). -/
structure Child where
  port   : Nat
  inst   : Nat
  params : ReelParams
  values : List Word
  shards : Nat
  low    : Nat
  bytes  : Option (List Byte)
  bad    : Option Nat
  deriving DecidableEq, Repr, Inhabited

/-- What has come down from the parent module (R301, R302). -/
structure Down where
  values : List Word
  bytes  : List Byte
  bad    : Option Nat
  deriving DecidableEq, Repr, Inhabited

/-- A group entry with the instance in flight (R297 to R308). `joins` counts the items each shard has had fetched,
`aborting` holds instances, shards that ended without arriving and their parameters, `skipped` later instances that are aborted (R299,
R304). -/
structure Group where
  owner    : BitVec 12
  en       : Bool
  total    : BitVec 16
  base     : BitVec 16
  count    : BitVec 7
  children : BitVec 6
  parent   : BitVec 4
  gst      : GState
  downPort : Nat
  inst     : Nat
  arrived  : List Arrival
  kids     : List Child
  sentUp   : Bool
  down     : Option Down
  joins    : FMap Nat
  aborting : List (Nat × Nat × ReelParams)
  skipped  : List Nat
  deriving DecidableEq, Repr, Inhabited

/-- A group entry at reset (R308). -/
def Group.reset : Group := ⟨0, false, 1, 0, 0, 0, 0xF, .idle, 0, 0, [], [], false, Option.none, [], [], []⟩

/-- The Reel network (R308). `snap` is REEL_STATUS.snap; `reports` the child ports that have reported a drain; `held` the
messages that wait for the block to be ON, with their ports, oldest first. -/
structure Reel where
  blk     : Blk
  snap    : BitVec 2
  sysCfg  : Word
  groups  : FMap Group
  reports : List Nat
  snapRoot : Bool
  held    : List (Nat × ReelMsg)
  deriving DecidableEq, Repr, Inhabited

/-- Link states (R323). -/
inductive Link where
  | down | training | handshake | up
  deriving DecidableEq, Repr, Inhabited

/-- A message that waits to leave by a port: its channel, its flits to go, whether it takes the second half of the channel's buffers
(R315, R317; log 21). -/
structure Sending where
  vc     : Nat
  left   : Nat
  second : Bool
  msg    : Output
  deriving DecidableEq, Repr

/-- A partner port (R310 to R323). `downDue`: the link has gone DOWN and what R322 then does stands out. `replay` is the
replay buffer: sequence number and times replayed. `waiting` holds the messages that wait for credits, oldest first,
`credits` those the partner has given for V0 to V3, `owed` those the next flit gives back, and `lastVc` which of V1 to V3 was
served last (R315); `lastAck` is the number the partner next expects. -/
structure Port where
  blk       : Blk
  link      : Link
  narrow    : Bool
  hsFault   : Bool
  noPartner : Bool
  downSeen  : Bool
  downDue   : Bool
  autoRetrain : Bool
  allowNarrow : Bool
  peerValid : Bool
  peerNode  : BitVec 12
  peerPort  : BitVec 3
  fecUncorr : BitVec 16
  replays   : BitVec 16
  txSeq     : Nat
  rxSeq     : Nat
  replay    : List (Nat × Nat)
  credits   : List Nat
  lastAck   : Nat
  waiting   : List Sending
  owed      : List Nat
  lastVc    : Nat
  deriving DecidableEq, Repr

/-- A port at reset (R323). -/
def Port.reset : Port :=
  ⟨Blk.reset false, .down, false, false, false, false, false, true, false, false, 0, 0, 0, 0, 0, 0, [], [0, 0, 0, 0], 0, [],
    [0, 0, 0, 0], 3⟩

/-- What a peer request's answer is for (R319, R322): a line for the first level of the core of a pack, the lane that names it, and
whether the core may still keep it (R211); the acknowledgement of a pack's store or of another write; a pack's atomic; an
event's word; bytes for another unit. -/
inductive PeerUse where
  | line (pack lane key rctx rva : Nat) (keep : Bool)
  | packStore (pack lane : Nat)
  | store
  | atom (pack : Nat) (lanes : List Nat) (dst : BitVec 8) (fmt : BitVec 6)
  | event
  | fill (rctx rva : Nat)
  deriving DecidableEq, Repr, Inhabited

/-- A peer request that has not been answered: the context and address it names at its target, in `va` the address its own
context used, and the pc of the instruction that sent it. -/
structure PeerOut where
  tag  : Nat
  port : Nat
  ctx  : Nat
  seq  : Nat
  node : Nat
  rctx : Nat
  rva  : Nat
  bytes : Nat
  write : Bool
  va   : Nat
  use  : PeerUse
  pc   : Nat
  deriving DecidableEq, Repr, Inhabited

/-- A byte of partner memory that a stream unit's first level holds for an item (R211, R217). -/
structure PeerByte where
  ctx  : Nat
  seq  : Nat
  node : Nat
  rctx : Nat
  rva  : Nat
  val  : Byte
  deriving DecidableEq, Repr, Inhabited

/-- A request of another module that went on from here: its source, its tag, and the port it left by (R317, R322). -/
structure Passed where
  src  : Nat
  tag  : Nat
  port : Nat
  deriving DecidableEq, Repr, Inhabited

/-- The partner ports and their set-up (R317, R323). -/
structure Ports where
  port  : FMap Port
  node  : BitVec 12
  topo  : Word
  out   : List PeerOut
  buf   : List PeerByte
  nextTag : Nat
  passed : List Passed
  deriving DecidableEq, Repr, Inhabited

/-! ### The whole -/

/-- Everything outside the always-on domain, beside the management log and the model's own fields. -/
structure Device where
  hub    : Hub
  eng    : Engines
  collie : Collie
  mem    : Mem
  ups    : Ups
  reel   : Reel
  ports  : Ports
  log    : List LogEntry
  sent   : List Output
  freeCtr : Nat
  lruTick : Nat
  deriving DecidableEq, Repr, Inhabited

/-- The state of the part, and the commands that wait, first in, first out. -/
structure State where
  pending : List Instr
  plat    : Platform
  dev     : Device
  deriving DecidableEq, Repr

/-- Why the machine stops. -/
inductive Fault where
  /-- A memory step of a base die or of H0 names a device physical address at or above 1,920 GiB, which R122 says
  does not exist. Raised by PATROL_SCRUB_READ, DEMAND_MISS_FILL, PREFETCH_FILL and BACK_INVALIDATION_RESPONSE. Safe. -/
  | noSuchDeviceAddress
  deriving DecidableEq, Repr

/-- Why a command has no meaning in the model. -/
inductive Refusal where
  /-- The command of this mnemonic has no meaning in the model yet. Raised only by an arm of Dispatch. Safe. -/
  | notModelled (mnemonic : String)
  deriving DecidableEq, Repr

/-! ### Reset -/

/-- The ring engine at reset: every table empty (R337, R403 to R405, R427). -/
def Hub.reset : Hub :=
  ⟨[], [], false, 0, [], [], 4095, [], [], [], [], 0, false, 0, 0, [], 0, false, [], 0, none, 0, [], [], false, 0, []⟩

/-- Mem at reset: wiped memory, empty caches, pool of 16 GiB per stack (R337, R140). -/
def Mem.reset : Mem :=
  ⟨[], [], [], [], [], 1, [], [], [], [], [], [], [], 16, [], [], []⟩

/-- The device at reset: every register at its Reset value, every SRAM zero (R337, R386). -/
def Device.reset : Device :=
  ⟨Hub.reset, ⟨[], [], [], []⟩, ⟨[], [], [], 0, 0⟩, Mem.reset, ⟨Blk.reset true, [], []⟩,
    ⟨Blk.reset true, 0, 0xF, [], [], false, []⟩, ⟨[], 0, 0, [], [], 0, []⟩, [], [], 0, 0⟩

/-- The fuses at reset (log 5). -/
def Fuses.reset : Fuses :=
  ⟨.provisioned, 0, 0, none, some 0, some Config.releaseKey, some Config.serviceKey, 0, false, false, [], []⟩

/-- Power at reset: the instant a cold reset takes hold after power-good (log 4). -/
def Power.reset : Power :=
  { alwaysOn := true, inputMv := 0, current := 0, drawnW := 0, stage := .boot, cold := true,
    dramWiping := false, sramWiping := false, testing := false, romWait := false, sampled := true,
    faultLed := false, perst := true, refAbsent := false,
    refHold := false, linkUp := false, linkBUp := true, twoByEight := false, tap := .bypass,
    pfaultSeen := false, tripSeen := false, refclkLost := false, emergency := false, asleep := false,
    wrej := false, time := 0, coolMs := 0, dieTemp := [], inlet := 0, moduleCap := 10400, sliceCap := [],
    sliceFloor := [], sliceGrant := [], sliceDrawn := [], throttled := [], dieDemand := [], dieGrant := [],
    dieCut := [], pllIdle := 20, sleepMs := 10, dieLevel := [], hubOff := [], gated := [] }

/-- Mastiff at reset (logs 5, 6). -/
def Mastiff.reset : Mastiff :=
  { lifePending := none, fwSvn := 0, fwPending := none, flash := some ⟨true, Config.releaseKey, 0, 0, 0⟩, flashBusy := none, debugMode := false,
    debugDue := false, jumper := false, button := false, sessions := [], queue := [], lastLong := none,
    running := none, addr := 7, dynAddr := none, eid := none, idePolicy := false, ideUp := false, node := 0, topo := 0,
    sysCfg := 0xF, recoveryLog := false, sensors := [], alert := false }

/-- The machine right after reset (R385, R386; logs 4, 5, 6). -/
def State.reset : State := ⟨[], ⟨Fuses.reset, Power.reset, Mastiff.reset⟩, Device.reset⟩

end Sys2Proof.Machine
end

