-- ==== Sys2Proof/Machine/Flags.lean ====
section
/-! DEFINITION. Codes, status precedence, detail layouts, byte strings and the predicate computations (R171, R197,
R273 to R275, R340, R354). -/

namespace Sys2Proof.Machine

/-! ### Byte strings, little-endian (R251, R201) -/

/-- The number a byte string stands for, first byte lowest. -/
def leNat : List Byte → Nat
  | [] => 0
  | b :: bs => b.toNat + 256 * leNat bs

/-- The `n` low bytes of a number, lowest first. -/
def leBytes : Nat → Nat → List Byte
  | 0, _ => []
  | n + 1, x => BitVec.ofNat 8 x :: leBytes n (x / 256)

/-- The number in `n` bytes at `off` of a byte string; 0 beyond its end. -/
def field (bs : List Byte) (off n : Nat) : Nat := leNat ((bs.drop off).take n)

/-- Are the `n` bytes at `off` all zero? -/
def zeroField (bs : List Byte) (off n : Nat) : Bool := ((bs.drop off).take n).all (· == 0)

/-- CRC-32C (Castagnoli), reflected, over one byte (R201). -/
def crcByte : Nat → Nat → Nat
  | 0, c => c
  | n + 1, c => crcByte n (if c % 2 = 1 then Nat.xor (c / 2) 0x82F63B78 else c / 2)

/-- CRC-32C of a byte string (R201). -/
def crc32c (bs : List Byte) : Nat :=
  Nat.xor (bs.foldl (fun c b => crcByte 8 (Nat.xor c b.toNat)) 0xFFFFFFFF) 0xFFFFFFFF

/-! ### Codes -/

/-- Status codes (R340). -/
def Status.code : Status → Nat
  | .ok => 0x0000
  | .okPruned => 0x0001
  | .recomputeNeeded => 0x0002
  | .stashFull => 0x0101
  | .structViolation => 0x0102
  | .indexRange => 0x0103
  | .maskNotTransposable => 0x0104
  | .pinRefused => 0x0105
  | .eccUncorrectable => 0x0201
  | .linkLost => 0x0202
  | .deadlineMissed => 0x0203
  | .contextKilled => 0x0301
  | .dependencyFailed => 0x0302
  | .cancelled => 0x0303
  | .classBoundUnmet => 0x0304

/-- Success statuses (R260, R340). -/
def Status.success : Status → Bool
  | .ok => true
  | .okPruned => true
  | .classBoundUnmet => true
  | _ => false

/-- Item errors (R340). -/
def Status.itemError : Status → Bool
  | .stashFull => true
  | .structViolation => true
  | .indexRange => true
  | .maskNotTransposable => true
  | .pinRefused => true
  | .eccUncorrectable => true
  | .linkLost => true
  | .deadlineMissed => true
  | _ => false

/-- Context fault codes (R340). -/
def faultNum : FaultCode → Nat
  | .translation => 0x0401
  | .permission => 0x0402
  | .illegalInstr => 0x0403
  | .misaligned => 0x0404
  | .barrierTimeout => 0x0405
  | .divergenceOverflow => 0x0406

/-- Completion codes of management commands (R354). -/
def MgmtCode.num : MgmtCode → Nat
  | .success => 0
  | .state => 1
  | .presence => 2
  | .auth => 3
  | .invalid => 4
  | .busy => 5
  | .resource => 6

/-- The jkf pc that stands for none (R341). -/
def noPc : Nat := 0x7FFFFF

/-! ### Detail fields (R274) -/

/-- Sparse violation: position and operand. -/
def detailPos (pos operand : Nat) : Nat := pos % 2 ^ 48 + operand * 2 ^ 48

/-- RECOMPUTE_NEEDED: the tag, and whether it was dropped. -/
def detailTag (t : Tag) (dropped : Bool) : Nat := t.slot + t.layer * 2 ^ 6 + t.mbatch * 2 ^ 18 + bit dropped * 2 ^ 28

/-- DEPENDENCY_FAILED: which dependency, and its entry index or the aborting shard. -/
def detailDep (which index : Nat) : Nat := which + index * 2 ^ 16

/-- ECC_UNCORRECTABLE: the half-line's address. -/
def detailHalf (a : Nat) : Nat := a / 64 * 64 % 2 ^ 52

/-! ### The status of an item (R275) -/

/-- Status and detail of an item whose work has ended, by the precedence of R275. -/
def Item.outcome (it : Item) : Status × Nat :=
  match it.killCode, it.cancelBy, it.depFail, it.err, it.recompute with
  | some c, _, _, _, _ => (.contextKilled, c)
  | none, some i, _, _, _ => (.cancelled, i)
  | none, none, some d, _, _ => (.dependencyFailed, d)
  | none, none, none, some e, _ => e
  | none, none, none, none, some d => (.recomputeNeeded, d)
  | none, none, none, none, none =>
    let bits := if it.covered then it.unmet else 0
    if it.pruned then (.okPruned, bits)
    else if bits ≠ 0 then (.classBoundUnmet, bits)
    else (.ok, 0)

/-! ### Predicates (R197) -/

/-- The comparisons of PRED and CMP. -/
inductive CmpOp where
  | eq | ne | lt | le | gt | ge
  deriving DecidableEq, Repr

/-- Integer comparison. -/
def CmpOp.int (o : CmpOp) (a b : Int) : Bool :=
  match o with
  | .eq => a == b
  | .ne => a != b
  | .lt => decide (a < b)
  | .le => decide (a ≤ b)
  | .gt => decide (b < a)
  | .ge => decide (b ≤ a)

/-- FP32 comparison: a NaN is unequal to everything and ordered with nothing (R146). -/
def CmpOp.fp (o : CmpOp) (a b : Word) : Bool :=
  let x := toNum a
  let y := toNum b
  match o with
  | .eq => Num.eq x y
  | .ne => !Num.eq x y
  | .lt => Num.lt x y
  | .le => Num.lt x y || Num.eq x y
  | .gt => Num.lt y x
  | .ge => Num.lt y x || Num.eq x y

/-- A comparison under a format: FP32, s32, u32, or b64 as unsigned (R197; log 28). -/
def CmpOp.run (o : CmpOp) (fmt : Nat) (a b : Dword) : Bool :=
  match fmt with
  | 0x00 => o.fp (a.setWidth 32) (b.setWidth 32)
  | 0x01 => o.int (a.setWidth 32).toInt (b.setWidth 32).toInt
  | 0x02 => o.int (a.setWidth 32).toNat (b.setWidth 32).toNat
  | _ => o.int a.toNat b.toNat

/-- ISNAN, ISINF, ISFINITE. -/
inductive ClassOp where
  | nan | inf | finite
  deriving DecidableEq, Repr

/-- The class test of an FP32 value. -/
def ClassOp.run (o : ClassOp) (a : Word) : Bool :=
  match o, toNum a with
  | .nan, .nan => true
  | .inf, .inf _ => true
  | .finite, .fin _ _ _ => true
  | _, _ => false

/-- The combination of a comparison with a predicate: none, AND, OR, XOR (R194). -/
def combine (comb : BitVec 2) (r p : Bool) : Bool :=
  match comb.toNat with
  | 1 => r && p
  | 2 => r || p
  | 3 => xor r p
  | _ => r

end Sys2Proof.Machine
end

