-- ==== Sys2Proof/Machine/Ops.lean ====
section
/-! DEFINITION. The named operations on the parts of the state: lookups and updates, the log, outputs, counters,
resets, the tick and the shared frame of management commands. -/

namespace Sys2Proof.Machine

/-- What a meaning answers. -/
abbrev Out := Host.Outcome State Fault Refusal

/-- A command of the data plane: it changes the device and leaves the always-on domain as it is. -/
def onDev (f : Platform → Device → Device) (s : State) : Out := .next { s with dev := f s.plat s.dev }

/-- A command that changes the state as a whole. -/
def onState (f : State → State) (s : State) : Out := .next (f s)

/-! ### Parts of the device -/

def Device.mapHub (d : Device) (f : Hub → Hub) : Device := { d with hub := f d.hub }
def Device.mapEng (d : Device) (f : Engines → Engines) : Device := { d with eng := f d.eng }
def Device.mapCollie (d : Device) (f : Collie → Collie) : Device := { d with collie := f d.collie }
def Device.mapMem (d : Device) (f : Mem → Mem) : Device := { d with mem := f d.mem }
def Device.mapUps (d : Device) (f : Ups → Ups) : Device := { d with ups := f d.ups }
def Device.mapReel (d : Device) (f : Reel → Reel) : Device := { d with reel := f d.reel }
def Device.mapPorts (d : Device) (f : Ports → Ports) : Device := { d with ports := f d.ports }

def State.mapPow (s : State) (f : Power → Power) : State := { s with plat := { s.plat with pow := f s.plat.pow } }
def State.mapMas (s : State) (f : Mastiff → Mastiff) : State := { s with plat := { s.plat with mas := f s.plat.mas } }
def State.mapFuses (s : State) (f : Fuses → Fuses) : State :=
  { s with plat := { s.plat with fuses := f s.plat.fuses } }
def State.mapDev (s : State) (f : Device → Device) : State := { s with dev := f s.dev }

/-! ### Lookups and updates of tables -/

def Device.ctx (d : Device) (c : Nat) : Ctx := FMap.get Ctx.free d.hub.ctxs c
def Device.setCtx (d : Device) (c : Nat) (x : Ctx) : Device :=
  d.mapHub fun h => { h with ctxs := FMap.set Ctx.free h.ctxs c x }
def Device.updCtx (d : Device) (c : Nat) (f : Ctx → Ctx) : Device := d.setCtx c (f (d.ctx c))

def Device.ring (d : Device) (c : Nat) : Ring := FMap.get Ring.reset d.hub.rings c
def Device.setRing (d : Device) (c : Nat) (r : Ring) : Device :=
  d.mapHub fun h => { h with rings := FMap.set Ring.reset h.rings c r }
def Device.updRing (d : Device) (c : Nat) (f : Ring → Ring) : Device := d.setRing c (f (d.ring c))

def Device.slice (d : Device) (i : Nat) : Slice := FMap.get Slice.none d.eng.slices i
def Device.setSlice (d : Device) (i : Nat) (x : Slice) : Device :=
  d.mapEng fun e => { e with slices := FMap.set Slice.none e.slices i x }
def Device.updSlice (d : Device) (i : Nat) (f : Slice → Slice) : Device := d.setSlice i (f (d.slice i))

def Device.die (d : Device) (i : Nat) : DieBlocks := FMap.get DieBlocks.reset d.eng.dies i
def Device.updDie (d : Device) (i : Nat) (f : DieBlocks → DieBlocks) : Device :=
  d.mapEng fun e => { e with dies := FMap.upd DieBlocks.reset e.dies i f }

/-- Row engine k of a lane die. -/
def Device.re (d : Device) (die k : Nat) : RowEng := FMap.get RowEng.reset d.eng.res (8 * die + k)
def Device.updRe (d : Device) (die k : Nat) (f : RowEng → RowEng) : Device :=
  d.mapEng fun e => { e with res := FMap.upd RowEng.reset e.res (8 * die + k) f }

/-- Vector engine k of a lane die. -/
def Device.vecEng (d : Device) (die k : Nat) : VecEng := FMap.get VecEng.reset d.eng.ves (8 * die + k)
def Device.updVe (d : Device) (die k : Nat) (f : VecEng → VecEng) : Device :=
  d.mapEng fun e => { e with ves := FMap.upd VecEng.reset e.ves (8 * die + k) f }

def Device.pack (d : Device) (p : Nat) : Pack := FMap.get Pack.none d.collie.packs p
def Device.setPack (d : Device) (p : Nat) (x : Pack) : Device :=
  d.mapCollie fun c => { c with packs := FMap.set Pack.none c.packs p x }
def Device.updPack (d : Device) (p : Nat) (f : Pack → Pack) : Device := d.setPack p (f (d.pack p))

/-- The resident block of a number. -/
def Device.block (d : Device) (b : Nat) : Option KBlock := (d.collie.blocks.find? fun x => x.1 == b).map Prod.snd
def Device.updBlock (d : Device) (b : Nat) (f : KBlock → KBlock) : Device :=
  d.mapCollie fun c => { c with blocks := c.blocks.map fun x => if x.1 == b then (b, f x.2) else x }

def Device.core (d : Device) (die c : Nat) : CoreSt := FMap.get CoreSt.reset d.collie.cores (16 * die + c)
def Device.updCore (d : Device) (die c : Nat) (f : CoreSt → CoreSt) : Device :=
  d.mapCollie fun x => { x with cores := FMap.upd CoreSt.reset x.cores (16 * die + c) f }

def Device.memBlk (d : Device) (i : Nat) : MemBlk := FMap.get MemBlk.reset d.mem.blks i
def Device.updMemBlk (d : Device) (i : Nat) (f : MemBlk → MemBlk) : Device :=
  d.mapMem fun m => { m with blks := FMap.upd MemBlk.reset m.blks i f }

def Device.group (d : Device) (g : Nat) : Group := FMap.get Group.reset d.reel.groups g
def Device.setGroup (d : Device) (g : Nat) (x : Group) : Device :=
  d.mapReel fun r => { r with groups := FMap.set Group.reset r.groups g x }

def Device.port (d : Device) (p : Nat) : Port := FMap.get Port.reset d.ports.port p
def Device.updPort (d : Device) (p : Nat) (f : Port → Port) : Device :=
  d.mapPorts fun x => { x with port := FMap.upd Port.reset x.port p f }

/-- The item of a context with a sequence number. -/
def Device.item (d : Device) (c q : Nat) : Option Item := d.hub.items.find? fun i => i.ctx == c && i.seq == q
def Device.updItem (d : Device) (c q : Nat) (f : Item → Item) : Device :=
  d.mapHub fun h => { h with items := h.items.map fun i => if i.ctx == c && i.seq == q then f i else i }

/-- Does a condition hold of a list's every number below `n`? -/
def allBelow (n : Nat) (f : Nat → Bool) : Bool := (List.range n).all f

/-- A group entry without an instance, its numbering at 0 (R299, R305). -/
def Group.fresh (g : Group) : Group :=
  { g with
    gst := .idle, downPort := 0, inst := 0, arrived := [], kids := [], sentUp := false, down := none, joins := []
    aborting := [], skipped := [] }

/-! ### Outputs, the log, counters -/

/-- The partner port an output leaves by in flits (R316; log 21). -/
def Output.flitPort : Output → Option Nat
  | .reel p _ => some p
  | .peerReq p _ _ => some p
  | .peerAns p _ _ _ _ => some p
  | .zcFrame p _ => some p
  | _ => none

/-- The virtual channel it travels on (R315). -/
def Output.channel : Output → Nat
  | .peerReq _ _ r => r.vc
  | .peerAns _ _ _ _ _ => 2
  | .zcFrame _ f => f.vc
  | _ => 0

/-- The data it carries, in bytes (R129, R300, R310, R321; log 21). -/
def Output.payload : Output → Nat
  | .reel _ (.partialUp _ _ _ vs _ _ bs _) => 4 * vs.length + (bs.getD []).length
  | .reel _ (.resultDown _ _ _ vs bs) => 4 * vs.length + bs.length
  | .peerReq _ _ r => match r.op with
    | .read _ => 0
    | .write bs => bs.length
    | .atomic _ _ os cs => 8 * (os.length + cs.length)
  | .peerAns _ _ (.data bs) _ _ => bs.length
  | .peerAns _ _ (.old vs) _ _ => 8 * vs.length
  | .zcFrame _ f => (f.masks.map fun e => e.2.length).sum + (f.vals.map fun e => e.2.length).sum + 8
  | _ => 0

/-- Flits of a message: each carries 240 bytes (R310; log 21). -/
def Output.flits (o : Output) : Nat := max 1 ((o.payload + 239) / 240)

/-- The nodes a routed message comes from and goes to; a Reel message goes from neighbour to neighbour (R297, R317). -/
def Output.ends : Output → Option (Nat × Nat)
  | .peerReq _ _ r => some (r.srcNode, r.dst)
  | .peerAns _ _ _ dst src => some (src, dst)
  | .zcFrame _ f => some (f.srcNode, f.dst)
  | _ => none

/-- Has a packet crossed between coordinates n - 1 and 0 of a dimension of size `n` once it has gone on from `c`, having entered the
dimension at `s`? -/
def crossed (n s c : Nat) (up : Bool) : Bool :=
  if up then decide ((c + 1) % n < s % n) else decide (s % n < (c + n - 1) % n)

/-- PPORT_TOPO fields (R323): mode, ring size and torus dimension `i`. -/
def topoMode (t : Word) : Nat := bitsOf t.toNat 31 30
def topoRing (t : Word) : Nat := bitsOf t.toNat 27 16 + 1
def topoDim (t : Word) (i : Nat) : Nat := bitsOf t.toNat (4 * i + 3) (4 * i) + 1

/-- The direction along one dimension of size `n`: none at the same coordinate, else whether it is + (R317). -/
def ringStep (n src dst : Nat) : Option Bool :=
  let delta := (dst + n - src) % n
  if delta = 0 then none else some (decide (2 * delta ≤ n))

/-- Coordinate `i` of a torus node. -/
def torusCoord (node i : Nat) : Nat := node / 16 ^ i % 16

/-- Does a message take the second half of its channel's buffers on the link of a port (R317)? -/
def Ports.second (x : Ports) (port : Nat) (o : Output) : Bool :=
  o.ends.any fun e => match topoMode x.topo with
    | 1 => decide (port < 2) && crossed (topoRing x.topo) e.1 x.node.toNat (port == 0)
    | 2 => crossed (topoDim x.topo (port / 2)) (torusCoord e.1 (port / 2)) (torusCoord x.node.toNat (port / 2)) (port % 2 == 0)
    | _ => false

/-- A link goes DOWN: what R322 then does stands out until LINK_DOWN. -/
def Port.fall (x : Port) : Port :=
  if x.link = .up then { x with link := .down, downSeen := true, downDue := true, replay := [], waiting := [] } else x

/-- Does a message of a channel wait that has a credit? -/
def Port.ready (x : Port) (v : Nat) : Bool := (x.waiting.any fun w => w.vc == v) && decide (0 < x.credits.getD v 0)

/-- The channel served next: V0 first, the others in turn, each only with a credit (R315). -/
def Port.nextVc (x : Port) : Option Nat :=
  if x.ready 0 then some 0 else ([0, 1, 2].map fun i => (x.lastVc + i) % 3 + 1).find? x.ready

/-- A flit of a waiting message leaves: it takes the next sequence number and stays in the replay buffer, and its header returns the
credits owed and acknowledges what has come; the message has left with its last flit (R315, R316). -/
def Port.sendFlit (p : Nat) (x : Port) (w : Sending) : Port × List Output :=
  let rest := if w.left ≤ 1 then x.waiting.erase w else x.waiting.replace w { w with left := w.left - 1 }
  ({ x with
    waiting := rest, credits := x.credits.modify w.vc (· - 1), owed := [0, 0, 0, 0], txSeq := x.txSeq + 1
    replay := x.replay ++ [(x.txSeq, 0)], lastVc := if w.vc = 0 then x.lastVc else w.vc },
    (if w.left ≤ 1 then [w.msg] else []) ++ [.flit p x.txSeq w.vc w.second x.rxSeq x.owed])

/-- Up to `n` flits leave while there are credits and the replay buffer has room; what has left is listed newest first. -/
def Port.pump (p : Nat) : Nat → Port → List Output → Port × List Output
  | 0, x, os => (x, os)
  | n + 1, x, os =>
    match x.nextVc.bind fun v => x.waiting.find? fun w => w.vc == v with
    | none => (x, os)
    | some w =>
      if 2048 ≤ x.replay.length then (x, os)
      else
        let r := x.sendFlit p w
        Port.pump p n r.1 (r.2 ++ os)

/-- Flits that wait at a port. -/
def Port.flits (x : Port) : Nat := (x.waiting.map Sending.left).sum

/-- What may leave by a port leaves. -/
def Device.pumpPort (d : Device) (p : Nat) : Device :=
  let r := Port.pump p (d.port p).flits (d.port p) []
  { d.updPort p fun _ => r.1 with sent := r.2 ++ d.sent }

/-- Sends something out of the part: a message for a partner waits at its port for credits, and is lost where the link is not UP
(R313, R315, R322; log 10). -/
def Device.emit (d : Device) (o : Output) : Device :=
  match o.flitPort with
  | none => { d with sent := o :: d.sent }
  | some p =>
    if (d.port p).link = .up then
      (d.updPort p fun x => { x with waiting := x.waiting ++ [⟨o.channel, o.flits, d.ports.second p o, o⟩] }).pumpPort p
    else d

/-- Enters an event in the management log, which holds the newest 4,096 entries, newest first (R368). -/
def logEntry (time : Dword) (event who res arg : Nat) (more : LogMore) : LogEntry :=
  ⟨time, BitVec.ofNat 16 event, BitVec.ofNat 8 who, BitVec.ofNat 8 res, BitVec.ofNat 32 arg, more⟩
def Device.logEvent (d : Device) (time : Dword) (event who res arg : Nat) (more : LogMore := .none) : Device :=
  { d with log := (logEntry time event who res arg more :: d.log).take 4096 }

/-- The 16 bytes of an entry (R368). -/
def LogEntry.bytes (e : LogEntry) : List Byte :=
  leBytes 8 e.time.toNat ++ leBytes 2 e.event.toNat ++ [e.who, e.res] ++ leBytes 4 e.arg.toNat

/-- Enters a permanent record while fewer than 64 are used; the log takes it in every case (R368). -/
def logPerm (s : State) (event who arg : Nat) : State :=
  let e : LogEntry := logEntry s.plat.pow.time event who 0 arg .none
  let s1 := s.mapDev fun d => d.logEvent s.plat.pow.time event who 0 arg
  s1.mapFuses fun f => if f.permLog.length < 64 then { f with permLog := f.permLog ++ [e] } else f

/-- Counter `n` of a context (R423). -/
def Device.counter (d : Device) (c n : Nat) : Dword := FMap.get 0 d.hub.counters (256 * c + n)

/-- Sets a counter. -/
def Device.setCounter (d : Device) (c n : Nat) (v : Dword) : Device :=
  d.mapHub fun h => { h with counters := FMap.set 0 h.counters (256 * c + n) v }

/-- A sum that saturates at 2^64 - 1 (R421). -/
def satAdd64 (a : Dword) (k : Nat) : Dword := BitVec.ofNat 64 (min (a.toNat + k) (2 ^ 64 - 1))

/-- Adds to a counter of a context (R421). -/
def Device.count (d : Device) (c n k : Nat) : Device :=
  if k = 0 then d else d.setCounter c n (satAdd64 (d.counter c n) k)

/-- Adds to a counter of the traced context's array: unit `u` of a die, counter `j` (R425). -/
def Device.countUnit (d : Device) (c die u j k : Nat) : Device :=
  if d.hub.cntTrace.getLsbD 31 && (d.hub.cntTrace.toNat % 4096 == c) && decide (k ≠ 0) then
    d.mapHub fun h => { h with cntUnits := FMap.upd 0 h.cntUnits (512 * die + 16 * u + j) fun v => satAdd64 v k }
  else d

/-- Index of the first counter of a unit kind's stall group: unit number as R425 (R423). -/
def stallBase (u : Nat) : Nat := if u < 8 then 0 else if u < 16 then 16 else 32

/-- The stall causes of a unit kind in order of their priority. SPARSE_PACE, the last of a row engine's, counts where its idle
slots arise, and no report carries it (R55, R82, R158, R185). -/
def stallOrder (u : Nat) : List Nat :=
  if u < 8 then [6, 7, 5, 9, 2, 1, 4, 8, 0] else if u < 16 then [6, 7, 5, 9, 8, 0] else [6, 7, 10, 11, 5, 8, 0]

/-- The one cause that a cycle in which the causes of a set apply counts under: the first of them in the table. -/
def stallCause (u set : Nat) : Option Nat := (stallOrder u).find? fun j => set.testBit j

/-- Stall cycles of a unit under one code, charged to a context (R422, R425). -/
def Device.chargeStall (d : Device) (c die u j n : Nat) : Device := (d.count c (stallBase u + j) n).countUnit c die u j n

/-- The element with the least key, the first of several. -/
def leastBy {α : Type} (key : α → Nat) : List α → Option α
  | [] => none
  | x :: xs => some (xs.foldl (fun a b => if key b < key a then b else a) x)

/-- An arbiter among requesters with ids below `n`, each marked as class 0 or not: class 0 first, and in turn from the lowest id
after the last winner (R286; log 90). -/
def arbiter (n last : Nat) (xs : List (Nat × Bool)) : Option Nat :=
  let first := xs.filter Prod.snd
  (leastBy (fun x : Nat × Bool => (x.1 + 2 * n - 1 - last) % n) (if first.isEmpty then xs else first)).map Prod.fst

/-- Charges what a unit reports to the context of the item it holds: each cycle counts the first cause that applies (R55, R158,
R185, R422). -/
def Device.charge (d : Device) (c die u : Nat) (r : Report) : Device :=
  let base := stallBase u
  let d1 := r.stalls.foldl (fun d e =>
    match stallCause u e.1 with
    | some j => d.chargeStall c die u j e.2
    | none => d) d
  (d1.count c (base + 12) r.busy).countUnit c die u 12 r.busy

/-- The next value of the free counter, and the state with it advanced (log 18). -/
def Device.fresh (d : Device) : Nat × Device := (d.freeCtr, { d with freeCtr := d.freeCtr + 1 })

/-! ### Slices and dies -/

/-- Slices that exist: those that hold dies (R279, R406). -/
def Slice.exists? (x : Slice) : Bool := !x.dies.isEmpty

/-- The slice a lane die belongs to (R11). -/
def Device.sliceOf (d : Device) (die : Nat) : Option Nat :=
  (List.range Config.sliceCount).find? fun i => (d.slice i).dies.contains die

/-- The lane dies of a slice in ascending order. -/
def Slice.dieList (x : Slice) : List Nat := (List.range Config.laneDies).filter x.dies.contains

/-- The slice an item of a class runs in (R11). -/
def Ctx.sliceFor (x : Ctx) (cls : Nat) : Nat :=
  if cls ≤ 1 then x.resv.getD x.home else x.home

/-- Hop distance of two lane dies (R432). -/
def hops (a b : Nat) : Nat :=
  (a % 8 - b % 8) + (b % 8 - a % 8) + (a / 8 - b / 8) + (b / 8 - a / 8)

/-- Is the block ON and accepting work? -/
def Blk.isOn (b : Blk) : Bool := b.st == .on

/-! ### Lanes of a row engine (R52, R53) -/

/-- Granules of 32 lanes that are good. -/
def goodGranules (bad : BitVec 16) : List Nat := (List.range 16).filter fun i => !bad.getLsbD i

/-- Presented width: 32 lanes for each good granule; an engine with fewer than 12 is retired, width 0 (R52, R53). -/
def presented (bad : BitVec 16) : Nat :=
  let n := (goodGranules bad).length
  if n < 12 then 0 else 32 * n

/-! ### Resets (R385, R386) -/

/-- Device memory after a wipe: zero under the new internal key, which key 0 names from then on; a context's key is never given twice,
and host memory is not the part's (R334, R337). -/
def Mem.wiped (m : Mem) : Mem := { Mem.reset with nextKey := m.nextKey, hostMem := m.hostMem }

/-- What a warm or cold reset leaves outside the always-on domain: every register at its reset value; the log, the
record of outputs and the model's own counters go on, and the bypass map stands (R386). -/
def Device.wiped (d : Device) : Device :=
  let bads := d.eng.res.filterMap fun e => if e.2.bad = 0 then none else some (e.1, e.2.bad)
  let res : FMap RowEng := bads.map fun e => (e.1, { RowEng.reset with bad := e.2 })
  { Device.reset with
    log := d.log, sent := d.sent, freeCtr := d.freeCtr, lruTick := d.lruTick
    mem := d.mem.wiped, eng := { Device.reset.eng with res := res } }

/-- MEM blocks at the start or the end of a wipe (R128). -/
def Device.wiping (d : Device) (on : Bool) : Device :=
  (List.range Config.stackCount).foldl (fun d i => d.updMemBlk i fun b => { b with wiping := on }) d

/-- PPORT_NODE, PPORT_TOPO and REEL_SYS_CFG as Mastiff rewrites them (R386). -/
def Device.rewrite (d : Device) (m : Mastiff) : Device :=
  (d.mapPorts fun p => { p with node := m.node, topo := m.topo }).mapReel fun r => { r with sysCfg := m.sysCfg }

/-- Is a full wipe under way? -/
def Power.wiping (p : Power) : Bool := p.dramWiping || p.sramWiping

/-- The window that the button opened closes (R361, R368). -/
def State.closeButton (s : State) : State :=
  if s.plat.mas.button then
    (s.mapMas fun m => { m with button := false }).mapDev fun d => d.logEvent s.plat.pow.time 0x0003 3 0 0
  else s

/-- What Sheepdog holds of a reset's end: no die is powered, nothing is granted, no link is up. -/
def Power.cleared (p : Power) : Power :=
  { p with
    testing := false, romWait := false, linkUp := false, linkBUp := false, asleep := false, dieLevel := [], gated := []
    hubOff := [], sliceGrant := [], sliceDrawn := [], throttled := [], dieDemand := [], dieGrant := [], dramWiping := false
    sramWiping := false }

/-- What a cold reset does not keep of Sheepdog's settings (R386). -/
def Power.coldCleared (p : Power) : Power :=
  { p.cleared with
    moduleCap := Config.ratedW, sliceCap := [], sliceFloor := [], pllIdle := 20, sleepMs := 10, dieCut := []
    emergency := false }

/-! ### Management commands (R352 to R354) -/

/-- Is the presence window open (R361, R362)? -/
def Mastiff.window (m : Mastiff) : Bool := m.jumper || m.button

/-- Does a requester's key satisfy the life-cycle state: one that it accepts, or in PROVISIONED, where the session authenticates the
part alone, any (R352)? -/
def sessionOk (f : Fuses) (k : ReqKey) : Bool :=
  let owner := match k with
    | .owner n => f.ownerKey == some n
    | _ => false
  match f.life with
  | .blank => false
  | .provisioned => true
  | .owned => owner
  | .service => owner || match k with
    | .service n => f.serviceKey == some n
    | _ => false
  | .decommissioned => false

/-- The session of an id. -/
def Mastiff.session (m : Mastiff) (sid : Nat) : Option Session := m.sessions.find? fun x => x.sid == sid

/-- The key of a session. -/
def Mastiff.keyOf (m : Mastiff) (sid : Nat) : ReqKey := ((m.session sid).map Session.key).getD .anonymous

/-- The codes of the command set (R354). -/
def listedCode (code : Nat) : Bool :=
  decide (1 ≤ code ∧ code ≤ 6) || decide (0x10 ≤ code ∧ code ≤ 0x15) || decide (0x20 ≤ code ∧ code ≤ 0x22) || code == 0x30 ||
    decide (0x40 ≤ code ∧ code ≤ 0x44) || code == 0x50 || code == 0x60 || code == 0x62 || decide (0x70 ≤ code ∧ code ≤ 0x74)

/-- Why a command is refused before its own checks: AUTH outside a session or without an accepted key; STATE for 0x0001 to 0x0050
outside OWNED, and for everything but LC_TRANSITION in PROVISIONED. The factory fixture on J10 needs no session for its transition of a
BLANK part (R352, R354, R365; log 94). -/
def State.refusal (s : State) (sid code : Nat) : Option MgmtCode :=
  let f := s.plat.fuses
  if f.life = .blank ∧ code = 0x70 then none
  else match s.plat.mas.session sid with
  | none => some .auth
  | some x =>
    if !sessionOk f x.key then some .auth
    else if decide (1 ≤ code ∧ code ≤ 0x50 ∧ f.life ≠ .owned) || decide (f.life = .provisioned ∧ code ≠ 0x70) then some .state
    else none

/-- What the log records of a requester: its certificate's hash where PRESENCE refuses it (R363). -/
def Mastiff.certOf (m : Mastiff) (sid : Nat) (res : MgmtCode) : LogMore :=
  match res, m.keyOf sid with
  | .presence, .owner k => .cert (Config.certHash 0 k)
  | .presence, .service k => .cert (Config.certHash 1 k)
  | _, _ => .none

/-- Commands that are long: they answer when they begin (R353). -/
def longCode (code : Nat) : Bool := code == 0x05 || code == 0x42 || code == 0x44

/-- Answers a management command and logs it (R353, R354, R368). -/
def mgmtAnswer (s : State) (sid code : Nat) (res : MgmtCode) (data : MgmtData) : State :=
  let s1 := s.mapDev fun d => (d.emit (.mgmt sid code res data)).logEvent s.plat.pow.time 0x0001 1 res.num code
    (s.plat.mas.certOf sid res)
  if longCode code then
    s1.mapMas fun m => { m with lastLong := some (code, res == .success, if res = .success then none else some res) }
  else s1

/-- Does Mastiff run its firmware: after the boot ROM has started it, recovery apart (R349, R359)? -/
def Power.mastiffUp (p : Power) : Bool :=
  p.alwaysOn && p.stage != .off && p.stage != .waitGood && p.stage != .boot && p.stage != .recovery

/-- Is a slice command still running: its slice starts or stops (R353)? -/
def Device.sliceBusy (d : Device) : Bool :=
  d.eng.slices.any fun e => e.2.blk.st == .starting || e.2.blk.st == .stopping

/-- Commands whose effect takes until their slice has started, or has stopped (R353, R406). -/
def sliceCode (code : Nat) : Bool := code == 0x20 || code == 0x21 || code == 0x22

/-- Does a command that began a warm reset run until the reset is over: WARM_RESET, DEBUG_UNLOCK, a transition that was fused (R353,
R365, R367, R385)? -/
def State.resetRuns (s : State) (code : Nat) : Bool :=
  s.plat.pow.stage != .ready && (code == 0x71 || code == 0x74 || (code == 0x70 && s.plat.mas.lifePending.isSome))

/-- A command has done its part at once: it is answered, unless its effect is complete only once a slice has started or stopped, or a
reset is over (R353). -/
def mgmtDone (s : State) (sid code : Nat) (data : MgmtData) : State :=
  if (sliceCode code && s.dev.sliceBusy) || s.resetRuns code then s.mapMas fun m => { m with running := some (sid, code) }
  else mgmtAnswer s sid code .success data

/-- The running command is answered. -/
def State.answerRunning (s : State) (res : MgmtCode) : State :=
  match s.plat.mas.running with
  | none => s
  | some (sid, code) => mgmtAnswer (s.mapMas fun m => { m with running := none }) sid code res .none

/-- The answer of a slice command whose slice has started, or has stopped and is gone (R353). -/
def State.answerSlice (s : State) : State :=
  if s.dev.sliceBusy || !(s.plat.mas.running.any fun e => sliceCode e.2) then s else s.answerRunning .success

/-- A reset overtakes a slice command: no slice is left, which is what SLICE_DESTROY was to do (log 29). -/
def State.cutSlice (s : State) : State :=
  match s.plat.mas.running with
  | some (_, code) => if sliceCode code then s.answerRunning (if code = 0x22 then .success else .state) else s
  | none => s

/-- Commands that act on contexts, slices, memory or links. While a reset has not wiped the part they wait (R337; log 29). -/
def partCode (code : Nat) : Bool := decide (1 ≤ code ∧ code ≤ 0x44)
def Power.wipedOut (p : Power) : Bool := p.stage == .link || p.stage == .ready

/-- Does another command still run? -/
def State.mgmtBusy (s : State) : Bool := s.dev.sliceBusy || s.plat.mas.running.isSome

/-- The frame every management command shares: it runs when it heads Mastiff's queue and no other command is still
running; the checks of AUTH, of the life-cycle state, and of the presence window come first; then the
command's own checks, which answer a code or the new state (R352 to R354, R363). -/
def mgmt (code sid : Nat) (presence : Bool) (body : State → Except MgmtCode (State × MgmtData)) (s : State) : State :=
  match s.plat.mas.queue with
  | [] => s
  | q :: rest =>
    if q != (sid, code) || s.mgmtBusy || !s.plat.pow.mastiffUp || (partCode code && !s.plat.pow.wipedOut) then s
    else
      let s1 := s.mapMas fun m => { m with queue := rest }
      match s1.refusal sid code with
      | some e => mgmtAnswer s1 sid code e .none
      | none =>
        let shut := presence && !s1.plat.mas.window
        match body s1 with
        | .error .auth => mgmtAnswer s1 sid code .auth .none
        | .error .state => mgmtAnswer s1 sid code .state .none
        | .error e => mgmtAnswer s1 sid code (if shut then .presence else e) .none
        | .ok (s2, data) => if shut then mgmtAnswer s1 sid code .presence .none else mgmtDone s2 sid code data

/-! ### Resets (R385 to R389) -/

/-- Starts a warm reset with its full wipe, or joins it to the reset that runs (R385 to R387, R389). The host link
drops. Without the 64 V input, in recovery and after a trip there is nothing to reset. -/
def warmReset (s : State) : State :=
  match s.plat.pow.stage with
  | .ready =>
    let s1 := s.closeButton.cutSlice
    { s1 with
      plat := { s1.plat with
        mas := { s1.plat.mas with debugMode := false, ideUp := false }
        pow := { s1.plat.pow.cleared with
          stage := .wipe, cold := false, dramWiping := true, sramWiping := true } }
      dev := (((s1.dev.wiped.wiping true).rewrite s1.plat.mas).emit .hostLinkDrop) }
  | _ => s

/-- Starts a cold reset at stage 1 of R388. Debug mode never survives it (R387). -/
def coldReset (s : State) : State :=
  let s1 := s.closeButton
  { s1 with
    plat := { s1.plat with
      mas := { s1.plat.mas with
        sessions := [], queue := [], running := none, debugMode := false, debugDue := false, idePolicy := false, ideUp := false }
      pow := { s1.plat.pow.coldCleared with stage := .boot, cold := true } }
    dev := s1.dev.wiped }

/-- Destroys every key and shuts the die rails: a power fault or a trip (R369, R383). The device keeps nothing, the
host link and the partner links drop. -/
def shutDies (s : State) (g : Stage) : State :=
  { s with
    plat := { s.plat with
      mas := { s.plat.mas with debugMode := false, ideUp := false, running := none }
      pow := { s.plat.pow.cleared with stage := g, faultLed := true } }
    dev := s.dev.wiped.emit .hostLinkDrop }

/-- Blocks of H0 and of the base dies with their enable set start when the wipe has ended (R119, R140, R308, R396). -/
def Device.startHub (d : Device) : Device :=
  let go := fun (b : Blk) => if b.en && b.st == .off then { b with st := .starting } else b
  let d1 := (d.mapUps fun u => { u with blk := go u.blk }).mapReel fun r => { r with blk := go r.blk }
  (List.range Config.stackCount).foldl (fun d i => d.updMemBlk i fun b => { b with blk := go b.blk }) d1

/-- A life-cycle state that was fused takes effect (R365, R387). -/
def State.lifeEffect (s : State) : State :=
  match s.plat.mas.lifePending with
  | none => s
  | some l => (s.mapFuses fun f => { f with life := l }).mapMas fun m => { m with lifePending := none }

/-- Does the clock of a lane die run, and is the unit not gated (R378)? -/
def Power.unitRuns (p : Power) (die u : Nat) : Bool :=
  decide ((FMap.get 3 p.dieLevel die).toNat < 2) && !FMap.get false p.gated (64 * die + u)

end Sys2Proof.Machine
end

