-- ==== Sys2Proof/Machine/Memory.lean ====
section
/-! DEFINITION. Translation, device and host memory as the coherent caches show them, the die caches, the partner
routes (R121 to R127, R225 to R233, R314 to R322, R328 to R332). -/

namespace Sys2Proof.Machine

/-! ### Translation (R328 to R331) -/

/-- What an access needs of a page (R329). -/
inductive Acc where
  | read | write | atomic
  deriving DecidableEq, Repr

/-- Why an access does not happen: a context fault, an uncorrectable half-line, one of a stash segment with its device
half-line and its place in the segment, a lost link with its port, bytes of partner memory, read at an address, that have not come yet, or, for a
reader that is traced, a line that is not among those it has named (line number, address, key). -/
inductive MemErr where
  | fault (c : FaultCode) (va : Nat)
  | ecc (va : Nat)
  | stash (half off : Nat)
  | link (port : Nat)
  | away (node rctx rva va : Nat)
  | miss (line va key : Nat)
  deriving DecidableEq, Repr

/-- Key of a page-table entry: level and virtual prefix (log 11). -/
def ptKey (lvl pre : Nat) : Nat := lvl * 2 ^ 40 + pre

/-- The entry of a level for an address (R328). -/
def pte (x : Ctx) (lvl shift va : Nat) : Nat := (FMap.get 0 x.pt (ptKey lvl (va / 2 ^ shift))).toNat

/-- Bits of an entry (R329). -/
def pteV (e : Nat) : Bool := bitOf e 0
def pteLeaf (e : Nat) : Bool := bitOf e 1
def pteKind (e : Nat) : Nat := bitsOf e 5 4

/-- The walk: the leaf and the size of its page as a shift; none raises TRANSLATION (R331). A peer page stands at L3
only (R329). -/
def walk (x : Ctx) (va : Nat) : Option (Nat × Nat) :=
  let e0 := pte x 0 39 va
  let e1 := pte x 1 30 va
  let e2 := pte x 2 21 va
  let e3 := pte x 3 16 va
  if va ≥ 2 ^ 52 then none
  else if !pteV e0 || pteLeaf e0 then none
  else if !pteV e1 || pteLeaf e1 then none
  else if !pteV e2 then none
  else if pteLeaf e2 then (if pteKind e2 ≤ 1 then some (e2, 21) else none)
  else if pteV e3 && pteLeaf e3 && decide (pteKind e3 ≤ 2) then some (e3, 16)
  else none

/-- Where a leaf leads (R329). -/
def leafPlace (e shift va : Nat) : Place :=
  match pteKind e with
  | 0 => .dev (bitsOf e 51 16 * 2 ^ 16 + va % 2 ^ shift)
  | 1 => .host (bitsOf e 51 16 * 2 ^ 16 + va % 2 ^ shift)
  | _ => .peer (bitsOf e 17 6) (bitsOf e 29 18) (bitsOf e 63 30 * 2 ^ 16 + va % 2 ^ 16)

/-- The canonical form of the two memories: each address once, rising, and no byte equal to what an unlisted address reads
as (log 7, log 8). -/
abbrev Memory.wf (m : Mem) : Prop := FMap.wf (0 : Byte) m.dram ∧ FMap.wf (0 : Byte) m.hostMem

/-- Does the leaf grant the access (R329, R178)? -/
def leafGrants (e : Nat) (a : Acc) : Bool :=
  match a with
  | .read => bitOf e 2
  | _ => bitOf e 3

/-- Translation of one byte's address in a context: the place and the serial of the owner's key (R331, R127). -/
def translate (d : Device) (c va : Nat) (a : Acc) : Except MemErr (Place × Nat) :=
  match walk (d.ctx c) va with
  | none => .error (.fault .translation va)
  | some (e, sh) =>
    if leafGrants e a then .ok (leafPlace e sh va, ((d.ctx (bitsOf e 63 52)).key).getD 0)
    else .error (.fault .permission va)

/-! ### Device memory (R122 to R127) -/

/-- Stack, stack offset, channel and bank of a device address (R122). -/
def stackOf (a : Nat) : Nat := a / 4096 % 20
def stackOffset (a : Nat) : Nat := a / 4096 / 20 * 4096 + a % 4096
def channelOf (a : Nat) : Nat := Nat.xor (bitsOf (stackOffset a) 12 8) (bitsOf (stackOffset a) 21 17)
def bankOf (a : Nat) : Nat := Nat.xor (bitsOf (stackOffset a) 18 13) (bitsOf (stackOffset a) 24 19)

/-- The line of some die's cache that holds a line modified. -/
def Mem.modified (m : Mem) (host : Bool) (l : Nat) : Option DLine :=
  m.lines.find? fun x => x.host == host && x.line == l && x.st == .modified

/-- Any die's copy of a line. -/
def Mem.cached (m : Mem) (host : Bool) (l : Nat) : Option DLine :=
  m.lines.find? fun x => x.host == host && x.line == l

/-- The 128 plain bytes of a line as the DRAM holds them. -/
def Mem.rawLine (m : Mem) (l : Nat) : List Byte := (List.range 128).map fun i => FMap.get 0 m.dram (128 * l + i)

/-- A byte of the DRAM read under key `rk` (R127; log 9). -/
def Mem.dramByte (m : Mem) (rk a : Nat) : Byte :=
  let wk := FMap.get 0 m.lineKey (a / 128)
  if wk = rk then FMap.get 0 m.dram a else Config.foreignByte rk wk (a / 128) (m.rawLine (a / 128)) (a % 128)

/-- A byte of device memory as the coherent die caches show it to a reader under key `rk` (R226). -/
def Mem.devByte (m : Mem) (rk a : Nat) : Byte :=
  match m.modified false (a / 128) with
  | some x => if x.key = rk then x.data.getD (a % 128) 0 else Config.foreignByte rk x.key (a / 128) x.data (a % 128)
  | none => m.dramByte rk a

/-- A line of device memory as a reader under key `rk` sees it. -/
def Mem.devLine (m : Mem) (rk l : Nat) : List Byte := (List.range 128).map fun i => m.devByte rk (128 * l + i)

/-- Is half-line `h` uncorrectable and no cache holding its line (R123, R125)? -/
def Mem.halfBad (m : Mem) (h : Nat) : Bool := FMap.get false m.bad h && (m.cached false (h / 2)).isNone

/-- A byte of host memory as the coherent die caches show it (R226; log 8). -/
def Mem.hostByte (m : Mem) (a : Nat) : Byte :=
  match m.modified true (a / 128) with
  | some x => x.data.getD (a % 128) 0
  | none => FMap.get 0 m.hostMem a

/-- The first line number that stands for a host line in a miss register. -/
def hostLineBase : Nat := 2 ^ 45

/-- Was the last response for the half-line of a host address, to an agent without a die cache, marked poisoned (R347; log 73)? -/
def Mem.hostBad (m : Mem) (a : Nat) : Bool := FMap.get false m.bad (2 * hostLineBase + a / 64) && (m.cached true (a / 128)).isNone

/-- A whole line reaches memory under a key: the dead mark goes (R233), and the half-lines are good again. -/
def Mem.dramPut (m : Mem) (k l : Nat) (data : List Byte) : Mem :=
  { m with
    dram := data.zipIdx.foldl (fun t e => FMap.set 0 t (128 * l + e.2) e.1) m.dram
    lineKey := FMap.set 0 m.lineKey l k
    dead := FMap.set false m.dead l false
    bad := FMap.set false (FMap.set false m.bad (2 * l) false) (2 * l + 1) false
    weak := FMap.set 0 (FMap.set 0 m.weak (2 * l) 0) (2 * l + 1) 0 }

/-- A host line is written back. -/
def Mem.hostPut (m : Mem) (l : Nat) (data : List Byte) : Mem :=
  { m with hostMem := data.zipIdx.foldl (fun t e => FMap.set 0 t (128 * l + e.2) e.1) m.hostMem }

/-- A die-cache line goes: written back when modified (R225). -/
def Mem.writeBack (m : Mem) (x : DLine) : Mem :=
  if x.st = .modified then (if x.host then m.hostPut x.line x.data else m.dramPut x.key x.line x.data) else m

/-- Every copy of a line leaves every die cache without write-back. -/
def Mem.dropCopies (m : Mem) (host : Bool) (l : Nat) : Mem :=
  { m with lines := m.lines.filter fun x => !(x.host == host && x.line == l) }

/-- Every cached copy of a line is recalled: a modified one is written back first (R130, R226). -/
def Mem.recall (m : Mem) (host : Bool) (l : Nat) : Mem :=
  match m.modified host l with
  | none => m.dropCopies host l
  | some x => (m.writeBack x).dropCopies host l

/-! ### The die caches (R225 to R230) -/

/-- The set of a line (R225). -/
def cacheSet (l : Nat) : Nat := Nat.xor (l % 2 ^ 14) (l / 2 ^ 14 % 2 ^ 14)

/-- The ways a class may allocate in on the dies of a slice (R230). -/
def Slice.waysOf (x : Slice) (tc : Nat) : List Nat :=
  match x.pins.getD tc [] with
  | [] => (List.range 16).filter fun w => !(x.pins.any fun p => p.contains w)
  | ws => ws

/-- The way a new line takes: an invalid one first, else the least recently used (R225; log 14). -/
def Mem.victim (m : Mem) (die set : Nat) (ways : List Nat) : Nat :=
  let here := m.lines.filter fun x => x.die == die && cacheSet x.line == set && ways.contains x.way
  match ways.find? fun w => !(here.any fun x => x.way == w) with
  | some w => w
  | none =>
    match here with
    | [] => ways.headD 0
    | x :: xs => (xs.foldl (fun b y => if y.stamp < b.stamp then y else b) x).way

/-- Has a die's cache an unused prefetched copy of a device line (R241)? -/
def Device.diePref (d : Device) (die l : Nat) : Bool :=
  d.mem.lines.any fun x => x.die == die && !x.host && x.line == l && x.pref.isSome

/-- Has a first level of a die, an operand buffer or a core's data cache, an unused prefetched copy of a device line (R241)? -/
def Device.nearPref (d : Device) (die l : Nat) : Bool :=
  (d.mem.near.any fun x => x.die == die && x.line == l && x.pref.isSome) ||
    d.collie.cores.any fun e => e.1 / 16 == die && e.2.lines.any fun x => x.at_ == .dev (128 * l) && x.pref.isSome

/-- A prefetched line of a die serves a demand: it counts as useful once for all its copies there (R241). -/
def Device.prefUsed (d : Device) (die l c : Nat) : Device :=
  ((d.mapMem fun m => { m with
    lines := m.lines.map fun x => if x.die == die && !x.host && x.line == l then { x with pref := none } else x
    near := m.near.map fun x => if x.die == die && x.line == l then { x with pref := none } else x }).mapCollie fun y => { y with
      cores := y.cores.map fun e => if e.1 / 16 == die then
        (e.1, { e.2 with lines := e.2.lines.map fun x => if x.at_ = .dev (128 * l) then { x with pref := none } else x })
      else e }).count c 93 1

/-- Puts a line in a die's cache: an own copy is replaced in place, which uses a prefetched one, else the victim goes; an unused
prefetch that goes counts as evicted unused (R225, R241). -/
def Device.cachePut (d : Device) (die : Nat) (host : Bool) (l tc : Nat) (st : LineSt) (key : Nat) (data : List Byte)
    (pref : Option Nat) : Device :=
  let stamp := d.lruTick
  let d := { d with lruTick := stamp + 1 }
  match d.mem.lines.find? fun x => x.die == die && x.host == host && x.line == l with
  | some own =>
    let d1 := d.mapMem fun m => { m with lines := m.lines.map fun x =>
      if x.die == die && x.host == host && x.line == l then
        { x with st := st, tc := tc, stamp := stamp, key := key, data := data, pref := pref } else x }
    match own.pref with
    | none => d1
    | some c => d1.prefUsed die l c
  | none =>
    let ways := match d.sliceOf die with
      | some i => (d.slice i).waysOf tc
      | none => List.range 16
    let w := d.mem.victim die (cacheSet l) ways
    let gone := d.mem.lines.find? fun x => x.die == die && cacheSet x.line == cacheSet l && x.way == w
    let new : DLine := ⟨die, host, l, w, st, tc, stamp, key, data, pref⟩
    match gone with
    | none => d.mapMem fun m => { m with lines := new :: m.lines }
    | some x =>
      let d1 := d.mapMem fun m =>
        let m1 := m.writeBack x
        { m1 with lines := new :: m1.lines.filter fun y => !(y.die == x.die && y.host == x.host && y.line == x.line) }
      match x.pref with
      | none => d1
      | some c => if d1.nearPref die x.line then d1 else d1.count c 95 1

/-- A use of a die's copy: its stamp is renewed, and a prefetched line counts as useful once (R225, R241). -/
def Device.cacheTouch (d : Device) (die : Nat) (host : Bool) (l : Nat) : Device :=
  match d.mem.lines.find? fun x => x.die == die && x.host == host && x.line == l with
  | none => d
  | some x =>
    let stamp := d.lruTick
    let d1 := { d with lruTick := stamp + 1 }
    let d2 := d1.mapMem fun m => { m with lines := m.lines.map fun y =>
      if y.die == die && y.host == host && y.line == l then { y with stamp := stamp } else y }
    match x.pref with
    | none => d2
    | some c => d2.prefUsed die l c

/-- Overflow blocks that a waiter list of a length takes (R235). -/
def chainBlocks (waiters : Nat) : Nat := ceilDiv (waiters - 16) 16

/-- Overflow blocks in use on a die (R235, R242). -/
def Mem.chainsOf (m : Mem) (die : Nat) : Nat :=
  ((m.misses.filter fun x => x.die == die).map fun x => chainBlocks x.waiters.length).sum

/-! ### ECC findings (R124, R125) -/

/-- Counts a corrected codeword on its stack. -/
def Device.eccCe (d : Device) (half : Nat) : Device :=
  d.updMemBlk (stackOf (64 * half)) fun b => { b with ce := BitVec.ofNat 32 (min (b.ce.toNat + 1) (2 ^ 32 - 1)) }

/-- Counts an uncorrectable codeword on its stack and logs its address where none is held. -/
def Device.eccUe (d : Device) (half : Nat) : Device :=
  (d.mapMem fun m => { m with bad := FMap.set false m.bad half true }).updMemBlk (stackOf (64 * half)) fun b =>
    { b with
      ue := BitVec.ofNat 32 (min (b.ue.toNat + 1) (2 ^ 32 - 1)), ueSeen := true
      eccAddr := if b.eccValid then b.eccAddr else stackOffset (64 * half), eccValid := true }

/-- What a read of a codeword finds. -/
def Device.eccFound (d : Device) (half : Nat) (e : Ecc) : Device :=
  match e with
  | .clean => d
  | .corrected => d.eccCe half
  | .uncorrectable => d.eccUe half

/-- What a read of a codeword past the miss registers finds, by H0, a base die's combiner or the host: a correctable error is
counted and gone, an uncorrectable one makes the half-line bad (R124, R125; log 14). -/
def Device.findWeak (d : Device) (half : Nat) : Device :=
  match (if (d.mem.cached false (half / 2)).isSome then 0 else FMap.get 0 d.mem.weak half) with
  | 0 => d
  | n => (if n = 1 then d.eccCe half else d.mapMem fun m => { m with bad := FMap.set false m.bad half true }).mapMem fun m =>
      { m with weak := FMap.set 0 m.weak half 0 }

/-! ### Stores -/

/-- Bytes laid over a line. -/
def overlay (patch : List (Option Byte)) (old : List Byte) : List Byte :=
  List.zipWith (fun p o => p.getD o) patch old

/-- A host that holds the line under HDM-DB is told to give it up before the writer's record is written (R221). -/
def Device.backInval (d : Device) (l : Nat) : Device :=
  if FMap.get 0 d.mem.hostHeld l = 1 then
    (d.mapMem fun m => { m with hostHeld := FMap.set 0 m.hostHeld l 2 }).emit (.backInvalidate l)
  else d

/-- Cached lines that satisfy `f` are about to go: each prefetched one that served nothing counts, unless a first level of its die
still has a copy (R241). -/
def Device.unusedLines (d : Device) (f : DLine → Bool) : Device :=
  (d.mem.lines.filter f).foldl (fun d x => match x.pref with
    | some c => if d.nearPref x.die x.line then d else d.count c 95 1
    | none => d) d

/-- The half-lines a patch touches without covering them. -/
def partialHalves (patch : List (Option Byte)) : List Nat :=
  [0, 1].filter fun h =>
    let p := (patch.drop (64 * h)).take 64
    p.any Option.isSome && !(p.all Option.isSome)

/-- Writes bytes into a line of device memory under a key: through the cache of a die, where the line becomes the one
modified copy, or past the caches for an agent that has none. A partial write of an uncorrectable half-line is not
done (R125); a line with an uncorrectable half left is written past the caches. An agent that has no cache reads the half-lines it
covers in part, with what that finds (R124; log 14). -/
def Device.storeLine (d0 : Device) (die : Option Nat) (tc key l : Nat) (patch : List (Option Byte)) : Option Device :=
  let d := if die.isNone then (partialHalves patch).foldl (fun d h => d.findWeak (2 * l + h)) d0 else d0
  if (partialHalves patch).any fun h => d.mem.halfBad (2 * l + h) then none
  else
    let data := overlay patch (d.mem.devLine key l)
    let left := [0, 1].filter fun h => d.mem.halfBad (2 * l + h) && ((patch.drop (64 * h)).take 64).any Option.isNone
    let d1 := (d.unusedLines fun x => (die != some x.die || !left.isEmpty) && !x.host && x.line == l).backInval l
    match die, left with
    | some i, [] =>
      some ((d1.mapMem fun m => { m with lines := m.lines.filter fun x =>
        !(x.die != i && !x.host && x.line == l) }).cachePut i false l tc .modified key data none)
    | _, _ =>
      some (d1.mapMem fun m =>
        let m1 := (m.dropCopies false l).dramPut key l data
        { m1 with bad := left.foldl (fun t h => FMap.set false t (2 * l + h) true) m1.bad })

/-- Writes bytes into a line of host memory (R226, R249). -/
def Device.storeHostLine (d : Device) (die : Option Nat) (tc l : Nat) (patch : List (Option Byte)) : Device :=
  let data := overlay patch ((List.range 128).map fun i => d.mem.hostByte (128 * l + i))
  match die with
  | some i =>
    (d.mapMem fun m => { m with lines := m.lines.filter fun x =>
      !(x.die != i && x.host && x.line == l) }).cachePut i true l tc .modified 0 data none
  | none => d.mapMem fun m => (m.dropCopies true l).hostPut l data

/-- The patch of a line that bytes at an offset in it make. -/
def patchAt (off : Nat) (bs : List Byte) : List (Option Byte) :=
  (List.range 128).map fun i => if off ≤ i then bs[i - off]? else none

/-! ### Partner routes (R314, R317, R318) -/

/-- May new requests leave by a port: its link is UP and its block ON (R318, R322). -/
def Device.portUp (d : Device) (p : Nat) : Bool := (d.port p).link == .up && (d.port p).blk.isOn

/-- Can traffic have come by a port: its link is UP, or has just gone DOWN (R313, R322)? -/
def Device.carries (d : Device) (p : Nat) : Bool := (d.port p).link == .up || (d.port p).downDue

/-- The port of a link that no neighbour rule governs and whose partner is the destination: of several, the first that is UP, else
the first (R314; log 23). -/
def Device.directPort (d : Device) (first dst : Nat) : Option Nat :=
  let ps := (List.range Config.portCount).filter fun p =>
    decide (first ≤ p) && (d.port p).peerValid && (d.port p).peerNode.toNat == dst
  (ps.find? d.portUp).or ps.head?

/-- The port a request to a node leaves by; none outside the topology and for the module's own node (R317, R318). -/
def Device.route (d : Device) (dst : Nat) : Option Nat :=
  let me := d.ports.node.toNat
  let t := d.ports.topo
  if dst = me then none
  else match topoMode t with
  | 1 =>
    let ring := if dst ≥ topoRing t then none
      else (ringStep (topoRing t) (me % topoRing t) dst).map fun up => if up then 0 else 1
    match d.directPort 2 dst with
    | some p => if d.portUp p then some p else ring.or (some p)
    | none => ring
  | 2 =>
    if dst ≥ 4096 || !([0, 1, 2].all fun i => decide (torusCoord dst i < topoDim t i)) then none
    else
      ([0, 1, 2].findSome? fun i => (ringStep (topoDim t i) (torusCoord me i % topoDim t i) (torusCoord dst i)).map
        fun up => 2 * i + (if up then 0 else 1))
  | _ => d.directPort 0 dst

/-- The checks of a peer access at its source: topology, port mask, link (R318, R319). -/
def Device.peerGate (d : Device) (c node va : Nat) : Except MemErr Nat :=
  match d.route node with
  | none => .error (.link 7)
  | some p =>
    if !(d.ctx c).portMask.getLsbD p then .error (.fault .permission va)
    else if d.portUp p then .ok p else .error (.link p)

/-- The channel of a request of an item: V0 for class 0, else that of its kind (R315). -/
def Device.channelOf (d : Device) (c seq vc : Nat) : Nat := if (d.item c seq).any fun it => it.cls == 0 then 0 else vc

/-- The line of a remote address. -/
def peerLine (rva : Nat) : Nat := rva / 128 * 128

/-- The pack a request is for, with its lane. -/
def PeerUse.pack? : PeerUse → Option (Nat × Nat)
  | .line p l _ _ _ _ => some (p, l)
  | .packStore p l => some (p, l)
  | .atom p ls _ _ => some (p, ls.headD 0)
  | _ => none

/-- Sends a peer request and keeps it until its answer comes (R319); a covered item's bound lapses with it (R293). Bytes that the
item's first level holds take what it writes and are given up to its atomics, and an answer on its way to a line of those bytes is
not kept (R210, R211). -/
def Device.peerSend (d : Device) (c seq port node rctx rva bytes va : Nat) (op : PeerOp) (use : PeerUse) : Device :=
  let tag := d.ports.nextTag
  let write := match op with
    | .read _ => false
    | _ => true
  let q := match d.item c seq with
    | some it => if it.issuedBy.isSome then it.layerIx else seq
    | none => seq
  let mine := fun (b : PeerByte) =>
    b.ctx == c && b.seq == seq && b.node == node && b.rctx == rctx && decide (rva ≤ b.rva ∧ b.rva < rva + bytes)
  let stale := fun (o : PeerOut) => write && o.ctx == c && o.seq == seq && o.node == node && match o.use with
    | .fill rc a => rc == rctx && decide (a < rva + bytes ∧ rva < a + 128)
    | _ => false
  ((d.updItem c q fun it => { it with unmet := Nat.lor it.unmet 16 }).mapPorts fun x => { x with
    out := (x.out.map fun o => if stale o then { o with use := .store } else o) ++
      [⟨tag, port, c, seq, node, rctx, rva, bytes, write, va, use, match use.pack? with
        | some e => (d.pack e.1).pc
        | none => noPc⟩]
    buf := match op with
      | .read _ => x.buf
      | .write bs => x.buf.map fun b => if mine b then { b with val := bs.getD (b.rva - rva) b.val } else b
      | .atomic _ _ _ _ => x.buf.filter fun b => !mine b
    nextTag := tag + 1 }).emit
    (.peerReq port tag ⟨d.ports.node.toNat, c, rctx, rva, tag, op, node, d.channelOf c seq (match op with
      | .write _ => 3
      | _ => 1)⟩)

/-- What the first level of an item's units holds of partner memory goes, and answers on their way are not kept: an acquire of device
scope (R211, R219). -/
def Device.dropBuf (d : Device) (c q : Nat) : Device :=
  d.mapPorts fun x => { x with
    buf := x.buf.filter fun b => !(b.ctx == c && b.seq == q)
    out := x.out.map fun o => match o.use with
      | .fill _ _ => if o.ctx == c && o.seq == q then { o with use := .store } else o
      | _ => o }

/-! ### Accesses of an item's units -/

/-- Who accesses: the item, and the lane die whose cache it goes through; a reader that is traced names the lines it may
read. -/
structure Actor where
  ctx : Nat
  seq : Nat
  die : Option Nat
  held : Option (List Nat)
  deriving DecidableEq, Repr

/-- Does a traced reader lack a line? -/
def Actor.lacks (a : Actor) (l : Nat) : Bool := a.held.any fun ls => !ls.contains l

/-- A byte at a place. -/
def Device.placeByte (d : Device) (a : Actor) (va : Nat) (pl : Place) (key : Nat) : Except MemErr Byte :=
  match pl with
  | .dev x =>
    if a.lacks (x / 128) then .error (.miss (x / 128) va key)
    else if d.mem.halfBad (x / 64) then .error (.ecc va) else .ok (d.mem.devByte key x)
  | .host x =>
    if a.lacks (hostLineBase + x / 128) then .error (.miss (hostLineBase + x / 128) va key)
    else if a.die.isNone && d.mem.hostBad x then .error (.ecc va) else .ok (d.mem.hostByte x)
  | .peer n rc rva =>
    match d.ports.buf.find? fun b => b.ctx == a.ctx && b.seq == a.seq && b.node == n && b.rctx == rc && b.rva == rva with
    | some b => .ok b.val
    | none =>
      match d.peerGate a.ctx n va with
      | .error e => .error e
      | .ok _ => .error (.away n rc rva va)

/-- A byte of the context's space. -/
def Device.readByte (d : Device) (a : Actor) (va : Nat) : Except MemErr Byte :=
  match translate d a.ctx va .read with
  | .error e => .error e
  | .ok (pl, key) => d.placeByte a va pl key

/-- `n` bytes of the context's space. -/
def Device.readBytes (d : Device) (a : Actor) : Nat → Nat → Except MemErr (List Byte)
  | 0, _ => .ok []
  | n + 1, va =>
    match d.readByte a va with
    | .error e => .error e
    | .ok b =>
      match d.readBytes a n (va + 1) with
      | .error e => .error e
      | .ok bs => .ok (b :: bs)

/-- An element of `n` bytes. -/
def Device.readNat (d : Device) (a : Actor) (n va : Nat) : Except MemErr Nat :=
  match d.readBytes a n va with
  | .error e => .error e
  | .ok bs => .ok (leNat bs)

/-- Is a line in a die's cache? -/
def Device.inCache (d : Device) (die : Nat) (host : Bool) (l : Nat) : Bool :=
  d.mem.lines.any fun x => x.die == die && x.host == host && x.line == l

/-- Does a write of bytes through a die's cache need the rest of a line that is not there (R225, R234)? -/
def Device.needsLine (d : Device) (a : Actor) (host : Bool) (l : Nat) (bs : List Byte) : Bool :=
  decide (bs.length < 128) && a.die.any fun i => !d.inCache i host l

/-- A write that goes through a die's cache counts as a hit or a miss of its class there; one that needs the rest of its line
counts as a miss where it asks for it (R243). -/
def Device.countStore (d : Device) (a : Actor) (tc : Nat) (host : Bool) (l : Nat) (bs : List Byte) : Device :=
  match a.die with
  | none => d
  | some i => if d.needsLine a host l bs then d else d.count a.ctx ((if d.inCache i host l then 96 else 104) + tc) 1

/-- Writes bytes that lie in one 128 B line of a place. -/
def Device.writePlace (d : Device) (a : Actor) (tc va : Nat) (pl : Place) (key : Nat) (bs : List Byte) :
    Except MemErr Device :=
  match pl with
  | .dev x =>
    if d.needsLine a false (x / 128) bs && a.lacks (x / 128) then .error (.miss (x / 128) va key)
    else match (d.countStore a tc false (x / 128) bs).storeLine a.die tc key (x / 128) (patchAt (x % 128) bs) with
      | none => .error (.ecc (va / 128 * 128 + 64 *
          (((partialHalves (patchAt (x % 128) bs)).find? fun h => d.mem.halfBad (x / 128 * 2 + h)).getD (x % 128 / 64))))
      | some d1 => .ok d1
  | .host x =>
    if d.needsLine a true (x / 128) bs && a.lacks (hostLineBase + x / 128) then .error (.miss (hostLineBase + x / 128) va key)
    else .ok ((d.countStore a tc true (x / 128) bs).storeHostLine a.die tc (x / 128) (patchAt (x % 128) bs))
  | .peer n rc rva =>
    match d.peerGate a.ctx n va with
    | .error e => .error e
    | .ok p => .ok (d.peerSend a.ctx a.seq p n rc rva bs.length va (.write bs) .store)

/-- Writes bytes to the context's space, line by line. -/
def Device.writeLoop (a : Actor) (tc : Nat) : Nat → Device → Nat → List Byte → Except MemErr Device
  | 0, d, _, _ => .ok d
  | _ + 1, d, _, [] => .ok d
  | f + 1, d, va, b :: bs =>
    let n := 128 - va % 128
    match translate d a.ctx va .write with
    | .error e => .error e
    | .ok (pl, key) =>
      match d.writePlace a tc va pl key ((b :: bs).take n) with
      | .error e => .error e
      | .ok d1 => Device.writeLoop a tc f d1 (va + n) ((b :: bs).drop n)

/-- Writes a byte string to the context's space. -/
def Device.writeVa (d : Device) (a : Actor) (tc va : Nat) (bs : List Byte) : Except MemErr Device :=
  Device.writeLoop a tc (bs.length + 1) d va bs

/-- Asks the partner for the line of bytes that have not come (R319); the requester's command then waits. A line to which writes of
the item are not acknowledged is asked for after them, so that no read passes them (R210, R320). -/
def Device.askAway (d : Device) (a : Actor) (node rctx rva va : Nat) : Except MemErr Device :=
  match d.peerGate a.ctx node va with
  | .error e => .error e
  | .ok p =>
    let mine := fun (o : PeerOut) => o.ctx == a.ctx && o.seq == a.seq && o.node == node
    if d.ports.out.any fun o => mine o && (o.use == .fill rctx (peerLine rva) ||
        (o.write && o.rctx == rctx && decide (o.rva < peerLine rva + 128 ∧ peerLine rva < o.rva + o.bytes))) then .ok d
    else .ok (d.peerSend a.ctx a.seq p node rctx (peerLine rva) 128 va (.read 128) (.fill rctx (peerLine rva)))

/-! ### Atomics (R129, R130, R176, R249) -/

/-- Bytes of an atomic's operand type. -/
def atomBytes : AtomTy → Nat
  | .s64 => 8
  | .u64 => 8
  | .b64 => 8
  | _ => 4

/-- Is the type signed? -/
def atomVal (t : AtomTy) (x : Dword) : Int :=
  match t with
  | .s32 => (x.setWidth 32).toInt
  | .s64 => x.toInt
  | .u64 => x.toNat
  | .b64 => x.toNat
  | _ => (x.setWidth 32).toNat

/-- A result of a 4 B type keeps its low 32 bits. -/
def atomFit (t : AtomTy) (x : Dword) : Dword := if atomBytes t = 4 then (x.setWidth 32).setWidth 64 else x

/-- The value an operation writes (R129). -/
def atomNew (op : AtomOp) (ty : AtomTy) (old x cmp : Dword) : Dword :=
  let fp := ty == .f32
  let o32 : Word := old.setWidth 32
  let x32 : Word := x.setWidth 32
  match op with
  | .add => if fp then (Fp.add o32 x32).setWidth 64 else atomFit ty (old + x)
  | .min => if fp then (Fp.min o32 x32).setWidth 64 else if atomVal ty x < atomVal ty old then atomFit ty x else atomFit ty old
  | .max => if fp then (Fp.max o32 x32).setWidth 64 else if atomVal ty old < atomVal ty x then atomFit ty x else atomFit ty old
  | .and => atomFit ty (old &&& x)
  | .or => atomFit ty (old ||| x)
  | .xor => atomFit ty (old ^^^ x)
  | .xchg => atomFit ty x
  | .cas => if atomFit ty old = atomFit ty cmp then atomFit ty x else atomFit ty old

/-- The steps of one request at its location, in lane order: the value before each step, and the last value (R176). -/
def atomSteps (op : AtomOp) (ty : AtomTy) : Dword → List (Dword × Dword) → List Dword × Dword
  | v, [] => ([], v)
  | v, e :: es =>
    let r := atomSteps op ty (atomNew op ty v e.1 e.2) es
    (v :: r.1, r.2)

/-- Operands of a request paired with their compare values. -/
def atomPairs (q : AtomReq) : List (Dword × Dword) :=
  q.opnds.zipIdx.map fun e => (e.1, q.cmps.getD e.2 0)

/-- Little-endian value of bytes of a device place. -/
def Mem.devNat (m : Mem) (key a n : Nat) : Nat := leNat ((List.range n).map fun i => m.devByte key (a + i))

/-- An atomic at a device address under a key, done at its home base die: cached copies are recalled first (R130).
None where its half-line is uncorrectable (R125). -/
def Device.atomDev (d : Device) (key a : Nat) (op : AtomOp) (ty : AtomTy) (ps : List (Dword × Dword)) :
    Option (List Dword × Device) :=
  let d1 := (d.unusedLines fun x => !x.host && x.line == a / 128).mapMem fun m => m.recall false (a / 128)
  if d1.mem.halfBad (a / 64) then none
  else
    let r := atomSteps op ty (BitVec.ofNat 64 (d1.mem.devNat key a (atomBytes ty))) ps
    match d1.storeLine none 4 key (a / 128) (patchAt (a % 128) (leBytes (atomBytes ty) r.2.toNat)) with
    | none => none
    | some d2 => some (r.1, d2)

/-- An atomic at a device address done in a lane die's cache (block and pack scope). -/
def Device.atomDie (d : Device) (die key a : Nat) (op : AtomOp) (ty : AtomTy) (ps : List (Dword × Dword)) :
    Option (List Dword × Device) :=
  if d.mem.halfBad (a / 64) then none
  else
    let r := atomSteps op ty (BitVec.ofNat 64 (d.mem.devNat key a (atomBytes ty))) ps
    match d.storeLine (some die) 4 key (a / 128) (patchAt (a % 128) (leBytes (atomBytes ty) r.2.toNat)) with
    | none => none
    | some d2 => some (r.1, d2)

/-- The response for a host line that H0 reads, for an agent without a die cache: each is judged by itself (R347; log 73). -/
def Device.hostResponse (d : Device) (l : Nat) : Device :=
  let h := 2 * (hostLineBase + l)
  let mark := fun (m : Mem) (h : Nat) => { m with
    bad := FMap.set false m.bad h (FMap.get 0 m.weak h == 2), weak := FMap.set 0 m.weak h 0 }
  d.mapMem fun m => mark (mark m h) (h + 1)

/-- An atomic on host memory on H0 (R249); none where the response for its half-line was poisoned. -/
def Device.atomHost (d0 : Device) (a : Nat) (op : AtomOp) (ty : AtomTy) (ps : List (Dword × Dword)) :
    Option (List Dword × Device) :=
  let d := d0.hostResponse (a / 128)
  if d.mem.hostBad a then none else
  let d1 := d.mapMem fun m => m.recall true (a / 128)
  let old := leNat ((List.range (atomBytes ty)).map fun i => d1.mem.hostByte (a + i))
  let r := atomSteps op ty (BitVec.ofNat 64 old) ps
  some (r.1, d1.storeHostLine none 4 (a / 128) (patchAt (a % 128) (leBytes (atomBytes ty) r.2.toNat)))

/-- Zeroes device granules under the internal key, with every cached copy dropped (R336, R337). -/
def Mem.scrubLines (m : Mem) (ls : List Nat) : Mem :=
  ls.foldl (fun m l => (m.dropCopies false l).dramPut 0 l (List.replicate 128 0)) m

end Sys2Proof.Machine
end

