-- ==== Sys2Proof/Machine/CoreCache.lean ====
section
/-! DEFINITION. The data caches of the Collie cores: the non-coherent first level (R168, R211, R213, R216, R217). -/

namespace Sys2Proof.Machine

/-- The line a place lies in, and the byte's offset in it. -/
def linePlace : Place → Place
  | .dev a => .dev (a / 128 * 128)
  | .host a => .host (a / 128 * 128)
  | .peer n c va => .peer n c (va / 128 * 128)

/-- Lines a data cache holds: 64 KiB of 128 B. -/
def coreLines : Nat := 512

/-- The line of a core's data cache for a place under a key. -/
def CoreSt.line (c : CoreSt) (pl : Place) (key : Nat) : Option CLine :=
  c.lines.find? fun x => x.at_ == linePlace pl && x.key == key

/-- Writes that a write-back could not carry out: the items that wrote, by context and sequence number, and the address of
the half-line (R125). -/
abbrev Lost := List (Nat × Nat × Nat)

/-- A write-back goes to a die's cache and counts there as a hit or a miss of class TC4, for the context that wrote the line
(R243). -/
def Device.countBack (d : Device) (die : Nat) (x : CLine) : Device :=
  let c := (x.by_.head?.map Prod.fst).getD 0
  let here := match x.at_ with
    | .dev a => d.inCache die false (a / 128)
    | .host a => d.inCache die true (a / 128)
    | .peer _ _ _ => true
  d.count c (if here then 100 else 108) 1

/-- Writes the dirty bytes of a data-cache line to the coherent memory, through its die's cache. A half-line that has
become uncorrectable is not written in part, and the items that wrote the line fail (R125). -/
def Device.writeBackLine (d0 : Device) (die : Nat) (x : CLine) : Device × Lost :=
  if !x.dirty.any id then (d0, [])
  else
    let d := d0.countBack die x
    let patch := List.zipWith (fun b v => if b then some v else none) x.dirty x.data
    match x.at_ with
    | .dev a =>
      match d.storeLine (some die) 4 x.key (a / 128) patch with
      | some d1 => (d1, [])
      | none =>
        let h := ((partialHalves patch).find? fun h => d.mem.halfBad (a / 64 + h)).getD 0
        (d.eccUe (a / 64 + h), x.by_.map fun w => (w.1, w.2, x.va + 64 * h))
    | .host a => (d.storeHostLine (some die) 4 (a / 128) patch, [])
    | .peer _ _ _ => (d, [])

/-- Writes back lines. -/
def Device.writeBackAll (d : Device) (die : Nat) (xs : List CLine) : Device × Lost :=
  xs.foldl (fun r x =>
    let s := r.1.writeBackLine die x
    (s.1, r.2 ++ s.2)) (d, [])

/-- Does a line hold writes of an item not written back yet? -/
def CLine.dirtyBy (x : CLine) (c q : Nat) : Bool := x.dirty.any id && x.by_.contains (c, q)

/-- The line, its writes in memory. -/
def CLine.clean (x : CLine) : CLine := { x with dirty := x.dirty.map fun _ => false, by_ := [] }

/-- Writes back the dirty lines of a core's data cache that satisfy `f`: they stay, clean. -/
def Device.cleanLines (d : Device) (die core : Nat) (f : CLine → Bool) : Device × Lost :=
  let r := d.writeBackAll die ((d.core die core).lines.filter f)
  (r.1.updCore die core fun c => { c with lines := c.lines.map fun x => if f x then x.clean else x }, r.2)

/-- Writes back every dirty line of a core's data cache. -/
def Device.cleanCore (d : Device) (die core : Nat) : Device × Lost := d.cleanLines die core fun _ => true

/-- Lines of a core that satisfy `f` and that a write-back would write. -/
def Device.dirtyLines (d : Device) (die core : Nat) (f : CLine → Bool) : Nat :=
  ((d.core die core).lines.filter fun x => f x && x.dirty.any id).length

/-- A fence's release of device scope or wider: every dirty line is written back, and counted (R211, R224). -/
def Device.releaseCore (d : Device) (c die core : Nat) : Device × Lost :=
  (d.count c 89 (d.dirtyLines die core fun _ => true)).cleanCore die core

/-- Prefetched lines of a core that go without having served a demand, unless its die's cache still has a copy (R241). -/
def Device.unused (d : Device) (die : Nat) (xs : List CLine) : Device :=
  xs.foldl (fun d x => match x.pref, x.at_ with
    | some p, .dev a => if d.diePref die (a / 128) then d else d.count p 95 1
    | _, _ => d) d

/-- Lines of partner memory on their way to a core are delivered, and the core does not keep those of which `f` (node, context,
line address) holds (R211). -/
def Device.unkeep (d : Device) (die core : Nat) (f : Nat → Nat → Nat → Bool) : Device :=
  let here := fun (p : Nat) => match d.block (p / 16) with
    | some k => k.die == die && k.core == core
    | none => false
  d.mapPorts fun x => { x with out := x.out.map fun o => match o.use with
    | .line p l key rc rva _ => if here p && f o.node rc rva then { o with use := .line p l key rc rva false } else o
    | _ => o }

/-- The data cache is invalidated; a line it still holds dirty is written back first (R211, R240, R241; log 36). -/
def Device.emptyCore (d : Device) (die core : Nat) : Device × Lost :=
  let r := d.cleanCore die core
  (((r.1.unused die (r.1.core die core).lines).updCore die core fun c => { c with lines := [] }).unkeep die core
    fun _ _ _ => true, r.2)

/-- A fence's acquire of device scope or wider; the lines it writes back count (R211, R224). -/
def Device.acquireCore (d : Device) (c die core : Nat) : Device × Lost :=
  (d.count c 89 (d.dirtyLines die core fun _ => true)).emptyCore die core

/-- A core's copy of a line goes, written back first when dirty (R216; log 36). -/
def Device.dropCoreLine (d : Device) (die core : Nat) (pl : Place) (key : Nat) : Device × Lost :=
  match (d.core die core).line pl key with
  | none => (d, [])
  | some x =>
    let r := d.writeBackLine die x
    ((r.1.unused die [x]).updCore die core fun c => { c with
      lines := c.lines.filter fun y => !(y.at_ == x.at_ && y.key == x.key) }, r.2)

/-- The end of a kernel item releases its writes in the cores of its slice, and counts their lines (R217, R224). -/
def Device.releaseSlice (d : Device) (c q slice : Nat) : Device × Lost :=
  (d.slice slice).dieList.foldl (fun r i => (List.range Config.coresPerDie).foldl (fun r k =>
    let mine := fun (x : CLine) => x.dirtyBy c q
    let s := (r.1.count c 89 (r.1.dirtyLines i k mine)).cleanLines i k mine
    (s.1, r.2 ++ s.2)) r) (d, [])

/-- A line as a core fetches it from the coherent memory: not where a half of it is uncorrectable. -/
def Device.fetchCoreLine (d : Device) (pl : Place) (key va : Nat) : Option CLine :=
  let clean := List.replicate 128 false
  match linePlace pl with
  | .dev a =>
    if d.mem.halfBad (a / 64) || d.mem.halfBad (a / 64 + 1) then none
    else some ⟨.dev a, key, va / 128 * 128, d.mem.devLine key (a / 128), clean, [], none⟩
  | .host a => some ⟨.host a, key, va / 128 * 128, (List.range 128).map fun i => d.mem.hostByte (a + i), clean, [], none⟩
  | .peer _ _ _ => none

/-- Puts a line into a data cache; beyond its 512 lines the oldest goes, written back. -/
def Device.installCore (d : Device) (die core : Nat) (x : CLine) : Device × Lost :=
  let gone := (d.core die core).lines.drop (coreLines - 1)
  let r := d.writeBackAll die gone
  ((r.1.unused die gone).updCore die core fun c => { c with lines := x :: c.lines.take (coreLines - 1) }, r.2)

/-- Copies of a device line in the data caches of a die go with an uncorrectable fill, what was written into them lost (R125). -/
def Device.dropFilled (d : Device) (die l : Nat) : Device × Lost :=
  (List.range Config.coresPerDie).foldl (fun r core =>
    let gone := (r.1.core die core).lines.filter fun x => x.at_ == .dev (128 * l)
    ((r.1.unused die gone).updCore die core fun c => { c with lines := c.lines.filter fun x => x.at_ != .dev (128 * l) },
      r.2 ++ gone.flatMap fun x => x.by_.map fun w => (w.1, w.2, x.va))) (d, [])

/-- Lines the environment names by position leave the data cache, written back (log 13). -/
def Device.evictCore (d : Device) (die core : Nat) (evicts : List Nat) : Device × Lost :=
  let ls := (d.core die core).lines.zipIdx
  let gone := (ls.filter fun e => evicts.contains e.2).map Prod.fst
  let r := d.writeBackAll die gone
  ((r.1.unused die gone).updCore die core fun c => { c with
    lines := (ls.filter fun e => !evicts.contains e.2).map Prod.fst }, r.2)

/-- A byte as a core reads it: from its data cache where that holds the line, else from the coherent memory. -/
def Device.coreByte (d : Device) (die core : Nat) (a : Actor) (va : Nat) : Except MemErr Byte :=
  match translate d a.ctx va .read with
  | .error e => .error e
  | .ok (pl, key) =>
    match (d.core die core).line pl key with
    | some x => .ok (x.data.getD (va % 128) 0)
    | none => d.placeByte a va pl key

/-- `n` bytes as a core reads them. -/
def Device.coreBytes (d : Device) (die core : Nat) (a : Actor) : Nat → Nat → Except MemErr (List Byte)
  | 0, _ => .ok []
  | n + 1, va =>
    match d.coreByte die core a va with
    | .error e => .error e
    | .ok b =>
      match d.coreBytes die core a n (va + 1) with
      | .error e => .error e
      | .ok bs => .ok (b :: bs)

/-- Lays bytes an item writes at an address over a data-cache line and marks them dirty; a prefetched line has then served. -/
def CLine.put (x : CLine) (c q va : Nat) (bs : List Byte) : CLine :=
  let p := patchAt (va % 128) bs
  { x with
    va := va / 128 * 128
    data := overlay p x.data, dirty := List.zipWith (fun b v => b || v.isSome) x.dirty p, pref := none
    by_ := if x.by_.contains (c, q) then x.by_ else (c, q) :: x.by_ }

end Sys2Proof.Machine
end

