-- ==== Sys2Proof/Machine/Items.lean ====
section
/-! DEFINITION. Items: their descriptors, their ends, the stash entries they hold, their records, faults and kills
(R255 to R277, R131 to R139, R339 to R347). -/

namespace Sys2Proof.Machine

/-! ### Descriptor fields (R256 to R272) -/

def Item.typ (it : Item) : Nat := field it.desc 0 1
def Item.deferBit (it : Item) : Bool := bitOf (field it.desc 1 1) 2
def Item.irqBit (it : Item) : Bool := bitOf (field it.desc 1 1) 3
def Item.deadline (it : Item) : Nat := field it.desc 2 2
/-- Dependency distance i. -/
def Item.dep (it : Item) (i : Nat) : Nat := field it.desc (4 + 2 * i) 2
def Item.tag (it : Item) : Nat := field it.desc 12 4
/-- The 8 B address at 0x10. -/
def Item.addr0 (it : Item) : Nat := field it.desc 0x10 8
/-- Is the entry a work record issued by a kernel? Its `layerIx` then holds the kernel item's sequence number. -/
def Item.isWork (it : Item) : Bool := it.issuedBy.isSome

/-- An item as it is fetched. -/
def newItem (c q slice : Nat) (desc : List Byte) (bell : Dword) : Item :=
  { ctx := c, seq := q, desc := desc, phase := .fetched, slice := slice, cls := field desc 1 1 % 4, oprec := [],
    promoted := false, covered := false, unmet := 0, err := none, pruned := false, recompute := none, depFail := none,
    cancelBy := none, killCode := none, result := 0, layerIx := 0, deal := ⟨0, 0, 0, 0, false⟩, out := 0, drained := [],
    bAddr := none, holds := [], claims := [], save := none, blocks := 0, waitAt := none, issued := false, bell := bell, shard := 0, inst := 0,
    arrivedAt := none, issuedBy := none, hostNs := 0, mixed := false }

/-- Rank of an item's tiles (R94). -/
def Item.rank (it : Item) : Nat :=
  match it.cls with
  | 0 => 1
  | 1 => 2
  | 2 => if it.deferBit && !it.promoted then 4 else 3
  | _ => 5

/-- The actor of an item on H0 or on a lane die. -/
def Item.actor (it : Item) (die : Option Nat) : Actor := ⟨it.ctx, it.seq, die, none⟩

/-- Items of the ring engine's window of a context (R255). -/
def Device.window (d : Device) (c : Nat) : Nat :=
  (d.hub.items.filter fun i => i.ctx == c && !i.isWork).length + (d.ring c).waiting.length

/-- Items of the whole part's window (R255). -/
def Device.windowAll (d : Device) : Nat :=
  (d.hub.items.filter fun i => !i.isWork).length + (d.hub.rings.map fun r => r.2.waiting.length).sum

/-! ### Stash entries (R131 to R139) -/

/-- Bytes a context has charged to its quota (R141). -/
def Device.stashBytes (d : Device) (c : Nat) : Nat :=
  4096 * ((d.mem.segs.filter fun s => s.tag.ctx == c).map fun s => s.granules.length).sum

/-- STASH_BYTES and STASH_PEAK_BYTES follow what is charged (R141, R424). -/
def Device.stashCount (d : Device) (c : Nat) : Device :=
  let b := d.stashBytes c
  let d1 := d.setCounter c 66 (BitVec.ofNat 64 b)
  if (d1.counter c 67).toNat < b then d1.setCounter c 67 (BitVec.ofNat 64 b) else d1

/-- The stash pool's extent in force follows the MEM blocks once all are ON and no segment is held (R131). -/
def Device.poolExtent (d : Device) : Device :=
  if (d.mem.segs.any fun s => s.kind != .dropped) ||
    (List.range Config.stackCount).any fun i => (d.memBlk i).blk.st != .on then d
  else d.mapMem fun m => { m with
    poolGib := (List.range Config.stackCount).foldl (fun a i => min a (d.memBlk i).stashGib.toNat) 48 }

/-- Stash entries that satisfy a condition go, and what they held returns to the pool and the quota. -/
def Device.dropSegs (d : Device) (c : Nat) (f : Seg → Bool) : Device :=
  ((d.mapMem fun m => { m with segs := m.segs.filter fun s => !(s.tag.ctx == c && f s) }).stashCount c).poolExtent

/-- The claims of an item end: each entry has one claim in flight less, and on success its count falls by one; an
entry at zero, or one replaced before, goes when no claim is in flight on it (R135, R137). An entry whose count is zero while
another claim is in flight on it keeps its granules until that claim ends (DESIGN CHOICE, log 83). -/
def Device.endClaims (d : Device) (it : Item) (ok : Bool) : Device :=
  let held := fun (s : Seg) => it.claims.any fun x => x.2 == s.stamp
  let release := fun (s : Seg) =>
    let n := (it.claims.filter fun x => x.2 == s.stamp).length
    if held s then { s with claiming := s.claiming - n, claims := if ok && !s.old then s.claims - n else s.claims } else s
  let d1 := d.mapMem fun m => { m with segs := m.segs.map release }
  let d2 := if ok then d1.count it.ctx 65 it.claims.length else d1
  d2.dropSegs it.ctx fun s => held s && s.claiming == 0 && s.ready && (s.claims == 0 || s.old) &&
    s.kind != .dropped

/-- The save of an item ends: made ready on success, what a compressor leaves unused of its granules returning to the pool and the
quota, else its entry is freed (R134, R136). -/
def Device.endSave (d : Device) (it : Item) (ok : Bool) : Device :=
  match it.save with
  | none => d
  | some t =>
    if ok then
      (d.mapMem fun m => { m with segs := m.segs.map fun s =>
        if s.tag == t && s.saver == it.seq then { s with ready := true, granules := s.granules.take (ceilDiv s.len 4096) }
        else s }).dropSegs it.ctx fun s => s.tag == t && s.saver == it.seq && s.old && s.claiming == 0
    else d.dropSegs it.ctx fun s => s.tag == t && s.saver == it.seq && !s.ready

/-! ### The update sequencer's swaps (R117) -/

/-- The 16 bytes of a layer entry of a weight-set record (R115). -/
def layerEntry (version : Dword) (slot : Bool) : List Byte := leBytes 8 version.toNat ++ leBytes 8 (bit slot)

/-- A layer of a weight set in the directory takes a version and a slot. -/
def setLayer (d : Device) (recAt i : Nat) (version : Dword) (slot : Bool) : Device :=
  d.mapUps fun u => { u with dir := u.dir.map fun w =>
    if w.recAt == recAt then
      { w with layers := w.layers.zipIdx.map fun l => if l.2 == i then { l.1 with version := version, slot := slot } else l.1 }
    else w }

/-- Undoes one swap: slot and version go back and the entry is written; a layer whose entry cannot be written keeps
its swap (R117). -/
def undoSwap (w : WSet) (r : Update) (d : Device) (i : Nat) : Device :=
  match w.layers[i]? with
  | none => d
  | some l =>
    let back := !l.slot
    match d.writeVa ⟨r.ctx, r.seq, none, none⟩ 2 (w.recVa + 0x40 + 16 * i) (layerEntry w.published back) with
    | .error _ => d
    | .ok d1 => (setLayer d1 w.recAt i w.published back).count r.ctx 59 1

/-- Ends an item's run of the update sequencer: its swaps are undone and the run goes (R117). -/
def Device.undoRun (d : Device) (c q : Nat) : Device :=
  let d1 := d.ups.runs.foldl (fun d r =>
    if r.ctx == c && r.seq == q then
      match d.ups.dir.find? fun w => w.recAt == r.set with
      | none => d
      | some w => r.swapped.foldl (undoSwap w r) d
    else d) d
  d1.mapUps fun u => { u with runs := u.runs.filter fun r => !(r.ctx == c && r.seq == q) }

/-! ### Taking an item's work out of the engines -/

/-- Is the tile of the item? -/
def Tile.of (t : Tile) (c q : Nat) : Bool := t.ctx == c && t.seq == q

/-- A bank of an engine. -/
def RowEng.bank (r : RowEng) (which : Bool) : Bank := if which then r.bank1 else r.bank0
def RowEng.setBank (r : RowEng) (which : Bool) (b : Bank) : RowEng :=
  if which then { r with bank1 := b } else { r with bank0 := b }

/-- Entry `row` of lane `p` of a bank. -/
def Bank.get (b : Bank) (row p : Nat) : Word := FMap.get 0 b.acc (512 * row + p)

/-- A bank without an item's tile; it keeps the accumulators it held. -/
def Bank.without (b : Bank) (c q : Nat) : Bank :=
  match b.tile with
  | some t => if t.of c q then { b with st := .free, tile := none, comb := false, pos := 0, loaded := false } else b
  | none => b

/-- Does the engine hold an item (R58)? -/
def RowEng.busy (r : RowEng) : Bool :=
  !r.queue.isEmpty || r.bank0.tile.isSome || r.bank1.tile.isSome || r.parked.isSome || !r.combines.isEmpty

/-- A row engine without an item's tiles; a parked one is discarded (R288). -/
def RowEng.without (r : RowEng) (c q : Nat) : RowEng :=
  { r with
    queue := r.queue.filter fun t => !t.of c q
    bank0 := r.bank0.without c q
    bank1 := r.bank1.without c q
    parked := match r.parked with
      | some b => match b.tile with
        | some t => if t.of c q then none else some b
        | none => some b
      | none => none
    combines := r.combines.filter fun t => !t.of c q
    panel := r.panel.filter fun x => !(x.ctx == c && x.seq == q)
    turned := r.turned.filter fun x => !x.tile.of c q
    txb := r.txb.filter fun x => !x.tile.of c q }

/-- A vector engine without an item's instructions. -/
def VecEng.without (v : VecEng) (c q : Nat) : VecEng :=
  { v with
    queue := v.queue.filter fun x => x != (c, q)
    running := if v.running = some (c, q) then none else v.running
    parked := v.parked.filter fun x => x.item != (c, q)
    stream := if v.running = some (c, q) then false else v.stream }

/-- Does an engine's queue hold class 0 work? -/
def Device.veClass0 (d : Device) (die k : Nat) : Bool :=
  (d.vecEng die k).queue.any fun x => ((d.item x.1 x.2).map Item.rank) == some 1

/-- Parked work goes on once nothing runs and no class 0 work is queued (R288). -/
def Device.veResume (d : Device) (die k : Nat) : Device :=
  let e := d.vecEng die k
  match e.running, e.parked with
  | none, some x =>
    if d.veClass0 die k then d
    else d.updVe die k fun e => { e with
      running := some x.item, listPos := x.pos, regs := x.regs, masks := x.masks, parked := none, stream := x.stream }
  | _, _ => d

/-- Packs of a block: keys 16 b to 16 b + 15. -/
def packsOf (b : Nat) : List Nat := (List.range 16).map fun i => 16 * b + i

/-- A block leaves its core: its packs, its memory and its vector engines are free (R161, R184, R198). -/
def Device.freeBlock (d : Device) (b : Nat) : Device :=
  let held := match d.block b with
    | some k => k.held.map fun e => (k.die, e)
    | none => []
  let d1 := d.mapCollie fun c => { c with
    blocks := c.blocks.filter fun x => x.1 != b
    packs := (packsOf b).foldl (fun m p => FMap.set Pack.none m p Pack.none) c.packs }
  held.foldl (fun d e => d.updVe e.1 e.2 fun v => { v with holder := none }) d1

/-- The blocks of an item. -/
def Device.blocksOf (d : Device) (c q : Nat) : List Nat :=
  (d.collie.blocks.filter fun x => x.2.ctx == c && x.2.seq == q).map Prod.fst

/-- The work records that the blocks of a kernel item have issued and that are not drained. -/
def Device.worksOf (d : Device) (c q : Nat) : List Nat :=
  (d.hub.items.filter fun i => i.ctx == c && i.isWork && i.layerIx == q).map Item.seq

/-- How the work of an item stops: at once; once its issued tiles have drained, without the parked one (R271, R288); or once all
its issued tiles have completed, the parked one among them (R97). -/
inductive Stop where
  | now | drain | complete
  deriving DecidableEq, Repr, Inhabited

/-- The tiles of an item that fill or drain a bank of an engine, or are parked: those it has issued. -/
def RowEng.issued (r : RowEng) (c q : Nat) : Nat :=
  let n := fun (b : Bank) => bit (b.st != .loading && b.tile.any fun t => t.of c q)
  n r.bank0 + n r.bank1 + (r.parked.map n).getD 0

/-- A row engine without an item's tiles but those it has issued, which drain (R97, R271). -/
def RowEng.stop (r : RowEng) (c q : Nat) (how : Stop) : RowEng :=
  let keep := fun (b : Bank) => if b.st == .loading then b.without c q else b
  let stays := fun (b : Bank) => b.tile.any fun t => t.of c q
  let gone := fun (x : Turned) => x.tile.of c q && r.bank0.tile != some x.tile && r.bank1.tile != some x.tile &&
    !(how == .complete && (r.parked.bind Bank.tile) == some x.tile)
  { r.without c q with
    bank0 := keep r.bank0, bank1 := keep r.bank1, panel := r.panel
    parked := if how = .complete then r.parked else r.parked.filter fun b => !stays b
    turned := r.turned.filter fun x => !gone x
    txb := r.txb.filter fun x => !gone x }

/-- The tiles of an item that the engines have issued and that are not drained. -/
def Device.issuedTiles (d : Device) (c q : Nat) : Nat := (d.eng.res.map fun x => x.2.issued c q).sum

/-- Prefetched lines in operand buffers go with their item; those that served nothing count (R240, R241). -/
def Device.unusedNear (d : Device) (c q : Nat) : Device :=
  (d.mem.near.filter fun x => x.ctx == c && x.seq == q).foldl (fun d x => match x.pref with
    | some p => if d.diePref x.die x.line then d else d.count p 95 1
    | none => d) d

/-- Takes one entry's work out of the row engines, the vector engines and the pools; issued tiles stay if they drain, and work that
was parked for it goes on (R288). -/
def Device.purgeOne (d : Device) (c q : Nat) (how : Stop) : Device :=
  let d1 := ((d.unusedNear c q).mapEng fun e => { e with
    res := e.res.map fun x => (x.1, if how = .now then x.2.without c q else x.2.stop c q how)
    ves := e.ves.map fun x => (x.1, x.2.without c q)
    slices := e.slices.map fun x => (x.1, { x.2 with
      steal := x.2.steal.filter fun r => !(r.1 == c && r.2.1 == q)
      scan := if x.2.scan = some (c, q) then none else x.2.scan }) }).mapMem fun m => { m with
        near := m.near.filter fun x => !(x.ctx == c && x.seq == q)
        misses := m.misses.map fun x => { x with waiters := x.waiters.filter fun w => !(w.ctx == c && w.seq == q) } }
  d1.eng.ves.foldl (fun d e => d.veResume (e.1 / 8) (e.1 % 8)) d1

/-- Takes an item out of the units that run it: its tiles, instructions, blocks, event monitor and update run. Its writes to
partner memory stay until they are answered, its reads while issued tiles drain (R217, R271, R276, R277, R288). -/
def Device.leaveUnits (d : Device) (c q : Nat) (how : Stop) : Device :=
  let d1 := ((d.blocksOf c q).foldl Device.freeBlock (d.purgeOne c q how)).undoRun c q
  let n := d1.issuedTiles c q
  let mine := fun (x y : Nat) => x == c && y == q && n == 0
  ((d1.mapHub fun h => { h with monitors := h.monitors.filter fun m => !(m.1 == c && m.2.1 == q) }).mapPorts fun p => { p with
    out := p.out.filter fun o => !(mine o.ctx o.seq) || o.write
    buf := p.buf.filter fun b => !(mine b.ctx b.seq) }).updItem c q fun x => { x with out := n }

/-! ### The destination of an item that fails (R81) -/

/-- Operand-record addresses (R262). -/
def Item.opAddr (it : Item) (off : Nat) : Nat := field it.oprec off 8

/-- Bytes of a row of a ZC value array without omitted elements: to the next 32 B (R72, R151). -/
def zcRowBytes (k fmt : Nat) : Nat := ceilDiv (ceilDiv (k * fmtBits fmt) 8) 32 * 32

/-- The arrays a stream operation writes, in bytes: out0, out1, out2 (R59, R68, R72, R152, R265). -/
def streamSizes (it : Item) : List Nat :=
  let x := it.desc
  let r := field x 0x20 4
  let c := field x 0x24 4
  let f := field x 0x1A 1
  match field x 0x19 1 with
  | 0x60 => [r * zcRowBytes c f, 8 * r * ceilDiv c 64, 8 * r]
  | 0x61 => [ceilDiv (2 * ceilDiv r 4 * c * fmtBits f) 8, 8 * c * ceilDiv r 64, 0]
  | 0x62 => [if bitOf (field x 0x1B 1) 2 then ceilDiv (r * c * fmtBits f) 8 else 0, ceilDiv r 4 * ceilDiv c 4, 0]
  | _ => [4 * r, 4 * r, 1024]

/-- The bytes of `n` elements of an array, from element `i` on: where they start and how many they are. -/
def elemSpan (base fmt i n : Nat) : Nat × Nat :=
  let b := fmtBits fmt
  (base + i * b / 8, ceilDiv ((i + n) * b) 8 - i * b / 8)

/-- Rows of an array with a stride. -/
def rowSpans (base fmt rows cols ld : Nat) (at_ : Nat → Nat) : List (Nat × Nat) :=
  (List.range rows).map fun r => elemSpan base fmt (at_ r * if ld = 0 then cols else ld) cols

/-- Address ranges an item's output goes to (R109, R262, R265): an array whose address is 0 is not written. A row map is
followed where it can be read. -/
def Device.destRows (d : Device) (it : Item) : List (Nat × Nat) :=
  let out0 := it.opAddr 0x30
  let out1 := it.opAddr 0x38
  let out2 := it.opAddr 0x58
  let ldc := field it.oprec 0x68 4
  let only := fun (base : Nat) (xs : List (Nat × Nat)) => if base = 0 then [] else xs
  match it.typ with
  | 1 =>
    let m := field it.desc 0x18 4
    let n := field it.desc 0x1C 4
    let c := field it.desc 0x2B 1
    let row := fun r => if out2 = 0 then r else
      match d.readNat ⟨it.ctx, it.seq, none, none⟩ 4 (out2 + 4 * r) with
      | .ok x => x
      | .error _ => r
    only out0 (rowSpans out0 c m n ldc row ++
      if isMx c then (List.range m).map fun r => (out1 + row r * ceilDiv n 32, ceilDiv n 32) else []) ++
      only (it.opAddr 0x50) [(it.opAddr 0x50, 4 * ceilDiv m 64 * ceilDiv n 32)]
  | 2 =>
    if field it.desc 0x18 1 = 1 then []
    else
      let rows := field it.desc 0x20 4
      let cols := field it.desc 0x24 4
      let f := field it.desc 0x1A 1
      let size := fun i => (streamSizes it).getD i 0
      only out0 (match field it.desc 0x19 1 with
        | 0x61 => rowSpans out0 f (2 * ceilDiv rows 4) cols ldc id
        | 0x62 => if bitOf (field it.desc 0x1B 1) 2 then rowSpans out0 f rows cols ldc id else []
        | _ => [(out0, size 0)]) ++ only out1 [(out1, size 1)] ++ only out2 [(out2, size 2)]
  | _ => []

/-- A byte of a failed destination: its old contents, or a byte of the item's output the model leaves free. -/
def Device.mixByte (a : Actor) (n : Nat) (d : Device) (va : Nat) : Device :=
  if Config.freeMix n va then
    match d.writeVa a 0 va [Config.freeByte n va] with
    | .ok d1 => d1
    | .error _ => d
  else d

/-- Does an address lead to a partner module (R329)? -/
def Device.peerVa (d : Device) (c va : Nat) : Bool := (walk (d.ctx c) va).any fun e => pteKind e.1 == 2

/-- The bytes of a failed item's destination that it may have written in part: of a ZC tensor in partner memory none, since each of
its rows goes there whole, before its row-table entry (R321). -/
def Device.mixBytes (d : Device) (it : Item) : List Nat :=
  let zc := it.typ == 2 && field it.desc 0x18 1 == 0 && field it.desc 0x19 1 == 0x60
  ((d.destRows it).flatMap fun e => (List.range e.2).map fun i => e.1 + i).filter fun va => !(zc && d.peerVa it.ctx va)

/-- A failed item's destination holds an unspecified mix of its old contents and the item's output, once (R81; log 18). -/
def Device.mixDest (d : Device) (it : Item) : Device :=
  let (n, d1) := d.fresh
  (d1.mixBytes it).foldl (Device.mixByte (it.actor none) n) d1

/-- An item that has issued work and ends without success leaves that mix, once: the item then. -/
def Device.mixOnce (d : Device) (it : Item) : Device :=
  if it.outcome.1.success || !it.issued || it.mixed then d
  else (d.mixDest it).updItem it.ctx it.seq fun x => { x with mixed := true }

/-- A work record of a kernel that stops: its issued tiles drain; without any it goes at once, its claims and its save end
without success, as they do once its issued tiles have drained, and its unanswered partner writes are the kernel item's (R136,
R137, R271). -/
def Device.dropWork (d : Device) (c w : Nat) (how : Stop) : Device :=
  let d1 := d.leaveUnits c w how
  match d1.item c w with
  | none => d1
  | some it =>
    if it.out ≠ 0 then d1.updItem c w fun x => { x with phase := .done, cancelBy := some (x.cancelBy.getD 0) }
    else ((((if it.issued && !it.mixed then d1.mixDest it else d1).endClaims it false).endSave it false).mapHub fun h => { h with
      items := h.items.filter fun i => !(i.ctx == c && i.seq == w) }).mapPorts fun p => { p with
        out := p.out.map fun o => if o.ctx == c && o.seq == w then { o with seq := it.layerIx } else o }

/-- Takes an item and the work its blocks issued out of the machine; tiles already issued go on where they drain. -/
def Device.purge (d : Device) (c q : Nat) (how : Stop) : Device :=
  (d.worksOf c q).foldl (fun d w => d.dropWork c w how) (d.leaveUnits c q how)

/-! ### Work records of kernels (R179 to R182) -/

/-- A kernel item is done once all its blocks have been placed and have exited and all work they issued has drained
(R164). -/
def Device.kernelCheck (d : Device) (c q : Nat) : Device :=
  match d.item c q with
  | none => d
  | some it =>
    if it.typ = 3 ∧ it.phase = .running ∧ it.blocks = field it.desc 0x20 4 ∧ d.blocksOf c q = [] ∧ d.worksOf c q = [] then
      d.updItem c q fun x => { x with phase := .done }
    else d

/-- Writes of an item to partner memory that no answer acknowledges yet (R211, R217). -/
def Device.writesAway (d : Device) (c q : Nat) : Bool := d.ports.out.any fun o => o.ctx == c && o.seq == q && o.write

/-- Reads of an item that its die's cache has not answered yet (R125, R234). -/
def Device.readsOut (d : Device) (c q : Nat) : Bool :=
  d.mem.misses.any fun m => m.waiters.any fun w => w.ctx == c && w.seq == q

/-- The kernel item whose drained work ended: it keeps the error of the earliest-issued work that ended with an item error, or
the pruned mark (R182), and what of R293 the work did not meet. -/
def Item.settled (x : Item) (w : Nat) (o : Status × Nat) (unmet : Nat) : Item :=
  let x1 := { x with out := x.out - 1, pruned := x.pruned || o.1 == .okPruned, unmet := Nat.lor x.unmet unmet }
  let first := match x.drained with
    | [] => x.err.isNone
    | e :: _ => decide (w < e.1)
  if o.1.itemError && first then { x1 with err := some o, drained := [(w, 0, 0)] } else x1

/-- A drained work record: its claims and its save end, its token takes its status, and the kernel item hears of it (R136,
R137, R181, R182). -/
def Device.settleWork (d0 : Device) (c q : Nat) : Device :=
  match d0.item c q with
  | none => d0
  | some it =>
    let drained := it.isWork && it.phase == .done && !(d0.writesAway c q || d0.readsOut c q || d0.issuedTiles c q != 0)
    let d := if drained then d0.mixOnce it else d0
    match it.issuedBy, drained && !d.writesAway c q with
    | some (b, tok), true =>
      let o := it.outcome
      let d0 := (d.endClaims it o.1.success).endSave it o.1.success
      let d1 := d0.updBlock b fun k => { k with tokens := k.tokens.map fun t =>
        if t.tok == tok && t.seq == q then { t with status := some o.1 } else t }
      ((d1.updItem c it.layerIx fun x => x.settled q o it.unmet).mapHub fun h => { h with
        items := h.items.filter fun i => !(i.ctx == c && i.seq == q) }).kernelCheck c it.layerIx
    | _, _ => d

/-! ### Instances that items join (R299, R305) -/

/-- Reel group and shard of a NORM_UPDATE or REEL item (R267, R272). -/
def Item.group (it : Item) : Option (Nat × Nat) :=
  match it.typ with
  | 4 => some (field it.desc 0x28 2, it.shard)
  | 8 => some (field it.desc 0x12 2, it.shard)
  | _ => none

/-- The parameters of a shard's item: those of a REEL item, or one FP32 value to sum (R272, R300). -/
def Item.reelParams (it : Item) : ReelParams :=
  if it.typ = 4 then ⟨2, 0x00, 1, 0⟩
  else ⟨field it.desc 0x10 1, field it.desc 0x11 1, field it.desc 0x16 2, field it.desc 0x14 2⟩

/-- The local shard a REEL item fills: the one fewest items have named, the lowest of those (R299; log 24). -/
def Group.nextShard (g : Group) : Nat :=
  let n := g.count.toNat
  (List.range n).foldl (fun a i =>
    let s := g.base.toNat + i
    if FMap.get 0 g.joins s < FMap.get 0 g.joins a then s else a) g.base.toNat

/-- The shard that an item of a group names (R267, R272). -/
def Item.shardOf (it : Item) (g : Group) : Nat := if it.typ = 4 then field it.desc 0x2A 2 else g.nextShard

/-- An item that names a group joins the shard's next instance (R299). -/
def Device.joinReel (d : Device) (it : Item) : Device × Item :=
  match it.group with
  | none => (d, it)
  | some (g, _) =>
    let x := if 255 < g then Group.reset else d.group g
    let sh := it.shardOf x
    if 255 < g || (x.en && x.owner.toNat != it.ctx) then (d, { it with shard := sh })
    else
      (d.setGroup g { x with joins := FMap.upd 0 x.joins sh (· + 1) },
        { it with shard := sh, inst := FMap.get 0 x.joins sh })

/-- An entry that is enabled numbers its instances afresh: the items that name it and are not over join them from 0 in ring
order (R299, R305; log 70). -/
def Device.renumber (d : Device) (g : Nat) : Device :=
  let mine := fun (i : Item) => !i.isWork && i.phase != .done && i.arrivedAt.isNone && (i.group.map Prod.fst) == some g
  d.hub.items.foldl (fun d i =>
    if mine i then
      let (d1, j) := d.joinReel i
      d1.updItem i.ctx i.seq fun _ => j
    else d) d

/-! ### Reel instances of a shard that ends (R304) -/

/-- A shard whose item ends without having arrived, or is killed before its instance is over, leaves the instance to be aborted; one
that is no local shard of the entry, or whose entry is DOWN, has none (R298, R304, R345). -/
def Device.leaveReel (d : Device) (it : Item) : Device :=
  match it.group with
  | none => d
  | some (g, sh) =>
    let x := d.group g
    if (it.arrivedAt.isSome && (it.killCode.isNone || decide (it.inst < x.inst))) || decide (g > 255) || !x.en || x.gst == .down || x.owner.toNat != it.ctx || decide (sh < x.base.toNat) ||
      decide (x.base.toNat + x.count.toNat ≤ sh) then d
    else d.setGroup g { d.group g with aborting := (d.group g).aborting ++ [(it.inst, sh, it.reelParams)] }

/-! ### Completion records (R273, R276) -/

/-- Entries of a submission or completion ring (R251). -/
def Ring.sqSize (r : Ring) : Nat := 2 ^ r.sqLog
def Ring.cqSize (r : Ring) : Nat := 2 ^ r.cqLog

/-- Has the completion ring room (R252)? -/
def Ring.room (r : Ring) : Bool := (r.cqTail + 1) % r.cqSize != r.cqHead

/-- Is a back-invalidation out (R221)? -/
def Device.invalOut (d : Device) : Bool := d.mem.hostHeld.any fun e => e.2 == 2

/-- The 32 bytes of a record (R273). -/
def Record.bytes (r : Record) (phase : Bool) (sqHead : Nat) : List Byte :=
  leBytes 2 r.status.code ++ leBytes 2 (bit phase + 2 * bit r.unmet) ++ leBytes 4 r.tag.toNat ++ leBytes 4 r.time.toNat ++
    leBytes 2 sqHead ++ leBytes 2 r.sqIndex ++ leBytes 8 r.detail.toNat ++ leBytes 8 r.result.toNat

/-- The counters of the status with which an item completes, once its record says it (R103, R141, R243, R278, R344, R348). -/
def Device.countStatus (d : Device) (c : Nat) (s : Status) : Device :=
  let d1 := if s.itemError then d.count c 137 1 else d
  match s with
  | .contextKilled => d1.count c 139 1
  | .dependencyFailed => d1.count c 138 1
  | .eccUncorrectable => d1.count c 140 1
  | .cancelled => d1.count c 122 1
  | .deadlineMissed => d1.count c 57 1
  | .recomputeNeeded => d1.count c 70 1
  | .stashFull => d1.count c 71 1
  | .pinRefused => d1.count c 116 1
  | .linkLost => d1.count c 136 1
  | _ => d1

/-- Writes a record at the tail of its completion ring (R221, R250, R273, R343, R348). -/
def Device.putRecord (d : Device) (c : Nat) (r : Record) : Device :=
  let g := d.ring c
  let a := g.cqBase + 32 * g.cqTail
  let d1 := d.storeHostLine none 6 (a / 128) (patchAt (a % 128) (r.bytes g.phase g.sqHead))
  let tail := (g.cqTail + 1) % g.cqSize
  let killed := r.status == .contextKilled
  let d2 := d1.updRing c fun g => { g with
    cqTail := tail, phase := if tail = 0 then !g.phase else g.phase
    msixDue := g.msixDue || r.irq || (killed && g.killMsix), killMsix := g.killMsix && !killed }
  (d2.countStatus c r.status).emit (.record c r g.sqHead)

/-- Writes the oldest waiting record when the ring has room and no back-invalidation is out (R221, R276). -/
def Device.writeOldest (d : Device) (c : Nat) : Device :=
  match (d.ring c).waiting with
  | [] => d
  | r :: rs =>
    if (d.ring c).room && !d.invalOut then (d.updRing c fun g => { g with waiting := rs }).putRecord c r else d

/-- A record comes to wait, and is written at once when none waits before it and it can be. -/
def Device.pushRecord (d : Device) (c : Nat) (r : Record) : Device :=
  let first := (d.ring c).waiting.isEmpty
  let d1 := d.updRing c fun g => { g with waiting := g.waiting ++ [r] }
  if first then d1.writeOldest c else d1

/-- Does the item name a sequence number as its dependency, and as which (R259)? -/
def Item.names (it : Item) (q : Nat) : Option Nat :=
  (List.range 4).find? fun i => decide (0 < it.dep i ∧ it.dep i ≤ it.seq) && it.seq - it.dep i == q

/-- The outcomes a ring still needs once entry `q` is fetched: those a later entry can name, and those a fetched item names
(R256, R259). -/
def Device.keptOutcomes (d : Device) (c q : Nat) : FMap (Option (Status × Dword × Bool)) :=
  let g := d.ring c
  g.outcomes.filter fun e => decide (q < e.1 + g.sqSize) || d.hub.items.any fun x => x.ctx == c && (x.names e.1).isSome

/-- The ring keeps an item's outcome (R259). -/
def Device.setOutcome (d : Device) (time : Dword) (c q : Nat) (s : Status) (peer : Bool) : Device :=
  d.updRing c fun g => { g with outcomes := FMap.set none g.outcomes q (some (s, time, peer)) }

/-- Addresses that an item's descriptor and operand record name (R261, R262, R264 to R269, R272). -/
def Item.addrs (it : Item) : List Nat :=
  let at_ := fun (offs : List Nat) => offs.map fun o => field it.desc o 8
  match it.typ with
  | 1 => at_ [0x10] ++ (List.range 12).map fun i => it.opAddr (8 * i)
  | 2 => at_ [0x10, 0x30] ++ (List.range 12).map fun i => it.opAddr (8 * i)
  | 3 => at_ [0x10, 0x18]
  | 4 => at_ [0x10, 0x18, 0x20]
  | 5 => at_ [0x18]
  | 6 => at_ [0x18]
  | 8 => at_ [0x18, 0x20]
  | _ => []

/-- Does an operand, event location or Reel group of an item reach a partner module (R293)? -/
def Device.reaches (d : Device) (it : Item) : Bool :=
  (it.addrs.any fun a => a != 0 && d.peerVa it.ctx a) ||
    it.group.any fun g => (d.group g.1).children != 0 || (d.group g.1).parent != 0xF

/-- The counters of a covered item's end (R295). -/
def Device.countEnd (d : Device) (it : Item) : Device :=
  if it.covered then (d.count it.ctx 123 1).count it.ctx 124 (bit (it.unmet != 0)) else d

/-- Is a deferred item one whose deadline item is `it` (R92, R93)? -/
def Item.defers (x it : Item) : Bool := x.ctx == it.ctx && x.deferBit && !x.isWork && x.seq + x.deadline == it.seq

/-- Must an item that is dispatched wait for deferred items that name it (R93, R105)? -/
def Device.deferWait (d : Device) (it : Item) : Bool := !it.isWork && d.hub.items.any fun x => x.defers it

/-- What the end of an item does to another item of its context: dependents of a failure fail (R260), a deferred
item's failure reaches its deadline item (R93), and a deadline item that ends without success stops its deferred
items, those among them whose work is done and that have not completed (R97). -/
def Item.after (fin : Item) (s : Status) (idx : Nat) (x : Item) : Item :=
  if x.ctx != fin.ctx || x.isWork then x
  else
    let x1 := if s.success || x.phase == .done then x else
      match x.names fin.seq with
      | some i => if x.phase = .running then x else { x with depFail := some (x.depFail.getD (detailDep i idx)), phase := .done }
      | none =>
        if fin.deferBit && fin.seq + fin.deadline == x.seq then
          { x with depFail := some (x.depFail.getD (detailDep 4 idx)), phase := .done }
        else x
    if x1.deferBit && x1.seq + x1.deadline == fin.seq && s != .ok && s != .okPruned &&
        s != .recomputeNeeded then
      { x1 with err := some (x1.err.getD (.deadlineMissed, 3)), phase := .done }
    else x1

/-- Does a deferred item's deadline item wait on deferred items alone: it is dispatched and its own dependencies
are met or are deferred items that name it (R95)? -/
def Device.promotable (d : Device) (x : Item) : Bool :=
  x.deferBit && !x.promoted && d.hub.items.any fun y =>
    y.ctx == x.ctx && y.seq == x.seq + x.deadline && !y.isWork && y.phase == .dispatched &&
      (List.range 4).all fun i => y.dep i == 0 || decide (y.seq < y.dep i) ||
        match d.item y.ctx (y.seq - y.dep i) with
        | none => true
        | some z => z.deferBit && z.seq + z.deadline == y.seq

/-- Promotes the deferred items of a context whose deadline item waits on nothing else (R95, R103). -/
def Device.promote (d : Device) (c : Nat) : Device :=
  let n := (d.hub.items.filter fun x => x.ctx == c && d.promotable x).length
  (d.mapHub fun h => { h with items := h.items.map fun x =>
    if x.ctx == c && d.promotable x then { x with promoted := true } else x }).count c 55 n

/-- The record of an item's end. -/
def Item.record (it : Item) (time : Dword) (idx : Nat) : Record :=
  let o := it.outcome
  { status := o.1, unmet := it.covered && it.unmet != 0, tag := BitVec.ofNat 32 it.tag, time := time.setWidth 32
    sqIndex := idx
    detail := BitVec.ofNat 64 (if it.typ = 4 then o.2 % 2 ^ 52 + it.layerIx % 2 ^ 12 * 2 ^ 52 else o.2)
    result := it.result, irq := it.irqBit, layer := if it.typ = 4 then it.layerIx % 2 ^ 12 else 0 }

/-- Ports toward the children and the parent of the system tree (R306, R308). -/
def Reel.childPorts (r : Reel) : List Nat := (List.range Config.portCount).filter fun p => r.sysCfg.getLsbD (8 + p)
def Reel.parentPort (r : Reel) : Nat := r.sysCfg.toNat % 16

/-- Has no context a dispatched item left, have the records of those that the snapshot froze been written, and have all child modules
reported? While it is taken no item runs, of a context FROZEN earlier neither (R306; log 70). -/
def Device.snapDrained (d : Device) : Bool :=
  d.hub.items.all (fun i => i.phase == .fetched || i.isWork) && d.hub.snapFrozen.all (fun c => (d.ring c).waiting.isEmpty) &&
    d.reel.childPorts.all d.reel.reports.contains

/-- A module that is no root reports its drain to its parent once (R306). -/
def Device.drainReport (d : Device) : Device :=
  if d.reel.snap == 1 && !d.reel.snapRoot && !d.reel.reports.contains d.reel.parentPort && d.snapDrained then
    (d.mapReel fun r => { r with reports := r.reports ++ [r.parentPort] }).emit (.reel d.reel.parentPort .drained)
  else d

/-- Cycles of the 1.8 GHz clock in a time of `ns` (R6). -/
def cyclesOf (ns : Nat) : Nat := ns * 9 / 5

/-- The wait of a kernel item for its translation is over, and counts in cycles (R206). -/
def Device.loadWait (d : Device) (time : Dword) (it : Item) : Device :=
  match it.waitAt with
  | some t =>
    if it.typ = 3 ∧ it.phase = .fetched then
      (d.count it.ctx 86 (cyclesOf (time - t).toNat)).updItem it.ctx it.seq fun x => { x with waitAt := none }
    else d
  | none => d

/-- The end of an item reaches the other items of its context; one that misses its deadline by it issues no further tile
(R93, R97, R260). -/
def Device.tellOthers (d : Device) (time : Dword) (fin : Item) (s : Status) (idx : Nat) : Device :=
  let ended := d.hub.items.filter fun x => x.phase != .done && (fin.after s idx x).phase == .done
  let d1 := ended.foldl (fun d x => d.loadWait time x) d
  (ended.filter Item.deferBit).foldl (fun d x => d.purge x.ctx x.seq .complete)
    (d1.mapHub fun h => { h with items := h.items.map (fin.after s idx) })

/-! ### Item errors -/

/-- Ends the work of an item with an item error, unless it has one already (R275, R339). The work that a kernel's blocks have
issued goes on (R347). -/
def Device.itemError (d : Device) (c q : Nat) (s : Status) (detail : Nat) : Device :=
  ((d.leaveUnits c q .now).updItem c q fun it =>
    { it with err := some (it.err.getD (s, detail)), phase := .done }).settleWork c q

/-- The items whose writes a write-back could not carry out fail (R125). -/
def Device.loseWrites (r : Device × Lost) : Device :=
  r.2.foldl (fun d w => d.itemError w.1 w.2.1 .eccUncorrectable (detailHalf w.2.2)) r.1

/-! ### The end of an item -/

/-- Ends an item: what it holds is given up, its dependents are released or failed, its record comes to wait
(R260, R273 to R276, R136, R137, R116). -/
def Device.endNow (time : Dword) (d : Device) (it0 : Item) : Device :=
  let r := if it0.typ = 3 then d.releaseSlice it0.ctx it0.seq it0.slice else (d, [])
  let it := match r.2.find? fun w => w.1 == it0.ctx && w.2.1 == it0.seq with
    | none => it0
    | some w => { it0 with err := some (it0.err.getD (.eccUncorrectable, detailHalf w.2.2)) }
  let o := it.outcome
  let idx := it.seq % (d.ring it.ctx).sqSize
  let ok := o.1.success
  let d0 := (Device.loseWrites (r.1, r.2.filter fun w => !(w.1 == it.ctx && w.2.1 == it.seq))).purge it.ctx it.seq .now
  let d1 := if ok then d0 else d0.leaveReel it
  let d2 := (d1.endClaims it ok).endSave it ok
  let d3 := (d2.mapHub fun h => { h with
    items := h.items.filter fun x => !(x.ctx == it.ctx && x.seq == it.seq) }).tellOthers time it o.1 idx
  let missed := it.deferBit && !ok && !(d3.hub.items.any fun x => x.ctx == it.ctx && x.seq == it.seq + it.deadline)
  let d4 := if missed then d3.updRing it.ctx fun g => { g with deferFails := g.deferFails ++ [(it.seq + it.deadline, idx)] }
    else d3
  let d5 := ((d4.setOutcome time it.ctx it.seq o.1 (d.reaches it)).countEnd it).promote it.ctx
  (d5.pushRecord it.ctx (it.record time idx)).drainReport

/-- An item ends: where it fails after it issued work, the mix of its destination is left first, and writes of it to partner memory
are acknowledged before its record is written (R81, R217, R221, R276). -/
def Device.endItem (time : Dword) (d : Device) (it : Item) : Device :=
  if it.outcome.1.success || !it.issued || it.mixed then d.endNow time it
  else
    let d1 := (d.purge it.ctx it.seq .now).mixDest it
    let it1 := { it with mixed := true, phase := .done }
    if d1.writesAway it.ctx it.seq then
      d1.updItem it.ctx it.seq fun x => { x with mixed := true, phase := .done, killCode := it.killCode }
    else d1.endNow time it1

/-- A sparse violation: the lowest position stands, and the item's other tiles go on; of two kinds at one number the one entered
first stands (R81; log 89). -/
def Device.sparseError (d : Device) (c q : Nat) (s : Status) (detail : Nat) : Device :=
  d.updItem c q fun it => { it with err :=
    match it.err with
    | none => some (s, detail)
    | some (s0, x0) =>
      if (s0 = .structViolation ∨ s0 = .indexRange ∨ s0 = .maskNotTransposable) ∧ detail % 2 ^ 48 < x0 % 2 ^ 48 then
        some (s, detail)
      else some (s0, x0) }

/-- A demand read of an uncorrectable half-line counts on its stack (R125). -/
def Device.noteEcc (d : Device) (c va : Nat) : Device :=
  match translate d c va .read with
  | .ok (.dev x, _) => d.eccUe (x / 64)
  | _ => d

/-! ### Context faults and kills (R277, R327, R341 to R345) -/

/-- One CONTEXT_KILLED record for each unfetched entry that an accepted doorbell covers, in ring order (R277); a shard's entry joins
the instance it would have filled, and leaves it to be aborted (R299, R304, R345). -/
def Device.killUnfetched (time : Dword) (code : Nat) (c : Nat) : Nat → Device → Device
  | 0, d => d
  | n + 1, d =>
    let g := d.ring c
    if g.sqHead = g.sqTail then d
    else
      let a := g.sqBase + 64 * g.sqHead
      let desc := (List.range 64).map fun i => d.mem.hostByte (a + i)
      let r : Record :=
        ⟨.contextKilled, false, BitVec.ofNat 32 (field desc 12 4), time.setWidth 32, g.sqHead, BitVec.ofNat 64 code, 0,
          bitOf (field desc 1 1) 3, 0⟩
      let (d0, it) := d.joinReel { newItem c g.nextSeq 0 desc 0 with killCode := some code }
      let d1 := ((d0.leaveReel it).updRing c fun g => { g with
        sqHead := (g.sqHead + 1) % g.sqSize, nextSeq := g.nextSeq + 1 }).count c 117 1
      Device.killUnfetched time code c n (d1.pushRecord c r)

/-- One item of a killed context: its work stops and its record is written, unless writes of its to partner memory are not
answered yet (R217, R277). -/
def Device.killOne (time : Dword) (code : Nat) (d : Device) (it : Item) : Device :=
  let d1 := (d.loadWait time it).purge it.ctx it.seq .now
  if d1.writesAway it.ctx it.seq then d1.updItem it.ctx it.seq fun x => { x with phase := .done, killCode := some code }
  else d1.endItem time { it with killCode := some code }

/-- Once every item fetched has its record, every unfetched entry receives one, and the context's stash entries are freed
(R277, R136). -/
def Device.lastKilled (d : Device) (time : Dword) (c code : Nat) : Device :=
  if d.hub.items.any fun i => i.ctx == c then d
  else (Device.killUnfetched time code c (d.ring c).sqSize d).dropSegs c fun _ => true

/-- The accounting of a kill (R277, R344, R345): work stops, records that wait turn into CONTEXT_KILLED, every item
fetched and then every unfetched entry receives one. -/
def Device.account (d : Device) (time : Dword) (c code : Nat) : Device :=
  let d1 := d.updRing c fun g => { g with waiting := g.waiting.map fun r =>
    { r with status := .contextKilled, detail := BitVec.ofNat 64 (code + r.layer * 2 ^ 52) } }
  ((d1.hub.items.filter fun i => i.ctx == c && !i.isWork).foldl (Device.killOne time code) d1).lastKilled time c code

/-- The 32-bit pc field of a fault record (R341). -/
def FaultRec.ofInfo (f : FaultInfo) (time : Dword) (extra : Nat) : FaultRec :=
  { code := BitVec.ofNat 16 (faultNum f.code), source := BitVec.ofNat 8 f.source, die := BitVec.ofNat 8 f.die,
    unit := BitVec.ofNat 8 f.unit, pack := BitVec.ofNat 8 (f.lane % 32), sqIndex := BitVec.ofNat 16 f.sqIndex,
    pc := BitVec.ofNat 32 (f.pc % 2 ^ 23 + f.packIx * 2 ^ 23), aux := BitVec.ofNat 32 f.aux,
    addr := BitVec.ofNat 64 f.addr, time := time.setWidth 32, extra := BitVec.ofNat 16 (min extra 0xFFFF), valid := true }

/-- Is a fault recorded before another of the same cycle: lowest die, unit, pack, lane (R342)? -/
def faultBefore (a b : FaultInfo) : Bool :=
  decide (a.die < b.die) || (a.die == b.die && (decide (a.unit < b.unit) || (a.unit == b.unit &&
    (decide (a.packIx < b.packIx) || (a.packIx == b.packIx && decide (a.lane < b.lane))))))

/-- The fault of a cycle that the record takes. -/
def firstFault (f : FaultInfo) (fs : List FaultInfo) : FaultInfo :=
  fs.foldl (fun a b => if faultBefore b a then b else a) f

/-- Context faults of one cycle reach H0: the first is recorded and kills the context, the others and later ones are
counted in extra (R327, R342, R343). -/
def Device.takeFaults (d : Device) (p : Platform) (c : Nat) (fs : List FaultInfo) : Device :=
  match fs with
  | [] => d
  | f :: rest =>
    match (d.ctx c).st with
    | .free => d
    | .killed => d.updCtx c fun x => { x with fault := { x.fault with
        extra := BitVec.ofNat 16 (min (x.fault.extra.toNat + fs.length) 0xFFFF) } }
    | .teardown => d.updCtx c fun x => { x with fault := { x.fault with
        extra := BitVec.ofNat 16 (min (x.fault.extra.toNat + fs.length) 0xFFFF) } }
    | _ =>
      let g := firstFault f rest
      let d1 := d.updCtx c fun x => { x with st := .killed, fault := FaultRec.ofInfo g p.pow.time rest.length }
      let d2 := d1.updRing c fun r => { r with killMsix := true }
      let d3 := d2.logEvent p.pow.time 0x0002 3 0 (faultNum g.code + c % 4096 * 2 ^ 16) (.sqIndex g.sqIndex)
      d3.account p.pow.time c (faultNum g.code)

/-- A kill by management: the record's code is 0 (R341, R344). -/
def Device.killByMgmt (d : Device) (p : Platform) (c : Nat) : Device :=
  let r : FaultRec := { FaultRec.clear with
    source := 7, die := 60, unit := 0xFF, pc := BitVec.ofNat 32 noPc, time := p.pow.time.setWidth 32, valid := true }
  (d.updCtx c fun x => { x with st := .killed, fault := r }).account p.pow.time c 0

/-- The fault of an item's unit. -/
def Device.itemFault (d : Device) (p : Platform) (it : Item) (source die unit : Nat) (code : FaultCode) (va : Nat) :
    Device :=
  let q := if it.isWork then it.layerIx else it.seq
  d.takeFaults p it.ctx [⟨code, source, die, unit, 0, q % (d.ring it.ctx).sqSize, noPc, 0, 0, va⟩]

/-- What becomes of an item when a unit's access fails: a context fault, an item error, or a request to the partner
whose answer the unit waits for (R331, R347, R318, R319). -/
def Device.accessFailed (d : Device) (p : Platform) (it : Item) (source die unit : Nat) (e : MemErr) : Device :=
  match e with
  | .fault c va => d.itemFault p it source die unit c va
  | .ecc va => (d.noteEcc it.ctx va).itemError it.ctx it.seq .eccUncorrectable (detailHalf va)
  | .stash half off => (d.eccUe half).itemError it.ctx it.seq .eccUncorrectable (detailHalf off)
  | .link q => d.itemError it.ctx it.seq .linkLost q
  | .away n rc rva va =>
    match d.askAway (it.actor none) n rc rva va with
    | .ok d1 => d1
    | .error (.fault c va) => d.itemFault p it source die unit c va
    | .error (.link q) => d.itemError it.ctx it.seq .linkLost q
    | .error _ => d
  | .miss _ _ _ => d

/-- The first issue of an item's work: a covered item's start time is measured then (R291, R295). -/
def Device.firstIssue (d : Device) (time : Dword) (c q : Nat) : Device :=
  match d.item c q with
  | none => d
  | some it =>
    if it.issued then d
    else
      let d1 := d.updItem c q fun x => { x with issued := true }
      let t : Dword := time - it.bell
      if it.covered && decide ((d1.counter c 125).toNat < t.toNat) then d1.setCounter c 125 t else d1

end Sys2Proof.Machine
end

