-- ==== Sys2Proof/Machine/Cache.lean ====
section
/-! DEFINITION. Misses, the Retriever, fills, discards, patrol scrub, coherence with the host, and the atomics of base
dies and of H0 (R124 to R130, R221, R225, R226, R232 to R241, R249). -/

namespace Sys2Proof.Machine

/-- Device addresses end at 1,920 GiB (R122): the lines of it. -/
def dramLines : Nat := Config.dramBytes / 128

/-! ### Discards (R232, R233) -/

/-- Discards a line of device memory in every die cache: no write-back, and the dead mark; a miss register that holds
the line discards it at its fill (R232). -/
def Mem.discardLine (m : Mem) (l : Nat) : Mem :=
  if m.misses.any fun x => x.line == l then
    { m with misses := m.misses.map fun x => if x.line == l then { x with discard := true } else x }
  else { (m.dropCopies false l) with dead := FMap.set false m.dead l true }

/-- The discard of a line takes place: its copies go (R232, R241). -/
def Device.dropDead (d : Device) (l : Nat) : Device :=
  let d1 := if d.mem.misses.any fun x => x.line == l then d else d.unusedLines fun x => !x.host && x.line == l
  d1.mapMem fun m => m.discardLine l

/-- Discards a line and counts it for a context. -/
def Device.discardLine (d : Device) (c l : Nat) : Device := (d.dropDead l).count c 112 1

/-! ### Outstanding slots (R236, R237) -/

/-- Outstanding slots of a requester, numbered as R425 does: the stream units of a die jointly (below 16), or a core. -/
def Device.allowance (d : Device) (die unit : Nat) : Nat :=
  let core := match d.sliceOf die with
    | some i => (d.slice i).coreNow
    | none => false
  if unit < 16 then (if core then 11520 else 12288) else if core then 48 else 8

/-- The bank of a line: stack, channel and bank (R122, R237). -/
def bankOfLine (l : Nat) : Nat :=
  (stackOf (128 * l) * 32 + channelOf (128 * l)) * 64 + bankOf (128 * l)

/-- Has a waiter list room for one more: in its own entries, in a block it has, or in a block of the pool (R235)? -/
def Device.listRoom (d : Device) (die : Nat) (x : Miss) : Bool :=
  let n := x.waiters.length
  chainBlocks (n + 1) == chainBlocks n || decide (d.mem.chainsOf die < 2048)

/-- Slots a requester has out, the stream units of a die jointly. -/
def Device.slotsOut (d : Device) (die unit : Nat) : List Miss :=
  d.mem.misses.filter fun m => m.die == die && (m.unit == unit || decide (m.unit < 16 ∧ unit < 16)) && !m.pref

/-- The cause for which a requester's next request for a line stalls: OPERAND_WAIT without a list entry or a slot, BANK_CAP where
the bank of a device line is at the cap (R235 to R237); none where it may issue. -/
def Device.slotStall (d : Device) (die unit l : Nat) : Option Nat :=
  match d.mem.misses.find? fun m => m.die == die && m.line == l with
  | some x => if d.listRoom die x then none else some 0
  | none =>
    let mine := d.slotsOut die unit
    let cap := max 1 (d.allowance die unit / 2 ^ (d.die die).capShift.toNat)
    if d.allowance die unit ≤ mine.length then some 0
    else if l < hostLineBase ∧ cap ≤ (mine.filter fun m =>
        decide (m.line < hostLineBase) && bankOfLine m.line == bankOfLine l).length then some 8
    else none

/-! ### Requests (R234, R235, R239) -/

/-- A demand request for a line joins the miss register that holds it, or takes one (R234, R235, R239, R241, R243). -/
def Device.request (d : Device) (die unit tc key l : Nat) (w : Waiter) : Device :=
  match d.mem.misses.find? fun m => m.die == die && m.line == l with
  | none => d.mapMem fun m => { m with misses := m.misses ++ [⟨die, unit, l, tc, [w], false, w.ctx, w.seq, key, false⟩] }
  | some x =>
    let n := x.waiters.length
    let d1 := d.mapMem fun m => { m with misses := m.misses.map fun y =>
      if y.die == die && y.line == l then { y with waiters := y.waiters ++ [w] } else y }
    let d2 := (d1.count w.ctx 114 1).count w.ctx 115 (chainBlocks (n + 1) - chainBlocks n)
    if x.pref && n == 0 then (d2.count x.ctx 93 1).count x.ctx 94 1 else d2

/-- The traffic class a miss register's request carries: a prefetch TC5, whatever class its line will have (R227, R239). -/
def Miss.reqClass (m : Miss) : Nat := if m.pref then 5 else m.tc

/-- Sends one prefetch request, where the line is neither present nor requested and the budget allows; it is a miss of its own
class (R239, R241, R243). `w` is the demand that the stream has come to. -/
def Device.prefetchLine (d : Device) (die unit tc key : Nat) (w : Waiter) (l : Nat) : Device :=
  let m := d.mem
  if d.inCache die false l || m.misses.any fun x => x.die == die && x.line == l then d.count w.ctx 92 1
  else if (m.misses.filter fun x => x.die == die && x.pref).length < min (d.die die).budget.toNat 1024 then
    let x : Miss := ⟨die, unit, l, tc, [], true, w.ctx, w.seq, key, false⟩
    ((d.mapMem fun m => { m with misses := m.misses ++ [x] }).count w.ctx 91 1).count w.ctx (104 + x.reqClass) 1
  else d

/-- Lines ahead of a stream that lie on its page of `span` lines (R238). -/
def aheadLines (l : Nat) (stride : Int) (distance span : Nat) : List Nat :=
  (List.range distance).filterMap fun j =>
    let x : Int := l + stride * (j + 1 : Nat)
    if 0 ≤ x ∧ x.toNat / span = l / span then some x.toNat else none

/-- A tracker after a demand: it starts with two misses at most 64 lines apart and confirms with a third at the same
stride; until it starts it is the memory of one miss alone (R238; log 34). -/
def Tracker.see (t : Tracker) (l : Nat) (stamp : Nat) : Tracker :=
  let s : Int := (l : Int) - t.last
  if s = t.stride ∧ 2 ≤ t.hits then { t with last := l, hits := t.hits + 1, stamp := stamp }
  else if s ≠ 0 ∧ -64 ≤ s ∧ s ≤ 64 then { t with last := l, stride := s, hits := 2, stamp := stamp }
  else { t with last := l, stride := 0, hits := 1, stamp := stamp }

/-- The trackers without the least recently used one of a die where 64 others have started there, as one more starts (R238). -/
def roomForTracker (ts : List Tracker) (t : Tracker) : List Tracker :=
  let here := ts.filter fun x => x.die == t.die && decide (2 ≤ x.hits) && x != t
  match leastBy Tracker.stamp here with
  | none => ts
  | some old => if here.length < 64 then ts else ts.erase old

/-- Lines of the page that holds an address, where the context may read it (R238). -/
def Device.pageSpan (d : Device) (c va : Nat) : Option Nat :=
  match walk (d.ctx c) va with
  | some (e, sh) => if leafGrants e .read then some (2 ^ (sh - 7)) else none
  | none => none

/-- The Retriever sees a demand on device memory (R238, R239). -/
def Device.retrieve (d : Device) (die unit tc key : Nat) (w : Waiter) (l : Nat) : Device :=
  let c := w.ctx
  if !(d.die die).retr.isOn then d
  else
    let stamp := d.lruTick
    let d := { d with lruTick := stamp + 1 }
    let same := fun (t : Tracker) => t.die == die && t.unit == unit && t.ctx == c && t.last / 16384 == l / 16384
    match d.mem.trackers.find? same with
    | none => d.mapMem fun m => { m with trackers := ⟨die, unit, c, l, 0, 1, stamp⟩ :: m.trackers }
    | some t =>
      let t1 := t.see l stamp
      let d1 := d.mapMem fun m => { m with
        trackers := (if t.hits < 2 ∧ 2 ≤ t1.hits then roomForTracker m.trackers t else m.trackers).map fun x =>
          if same x then t1 else x }
      match d.pageSpan c w.va, decide (3 ≤ t1.hits) with
      | some span, true =>
        (aheadLines l t1.stride (d.die die).distance.toNat span).foldl (Device.prefetchLine · die unit tc key w ·) d1
      | _, _ => d1

/-- A demand that prefetches have made a hit: where it keeps the stride of a confirmed stream, the Retriever goes on ahead of it
(R238). -/
def Device.follow (d : Device) (die unit tc key : Nat) (w : Waiter) (l : Nat) : Device :=
  let next := fun (t : Tracker) => t.die == die && t.unit == unit && t.ctx == w.ctx && t.last / 16384 == l / 16384 &&
    decide (3 ≤ t.hits ∧ (l : Int) - t.last = t.stride)
  if d.mem.trackers.any next then d.retrieve die unit tc key w l else d

/-! ### The lines that reads use (R225 to R227, R233 to R239, R243) -/

/-- Does a read of a line find it marked dead (R233)? -/
def Device.deadRead (d : Device) (c l : Nat) : Device := d.count c 113 (bit (FMap.get false d.mem.dead l))

/-- A demand on a line by a unit of a die, through the die's cache: a hit there renews the line, a miss takes a register or
joins one, and the Retriever sees it; the cause where it must stall instead. The second component says whether it hit. -/
def Device.demand (d : Device) (die unit tc key : Nat) (w : Waiter) (l : Nat) (reads : Bool) : Except Nat (Device × Bool) :=
  let host := decide (hostLineBase ≤ l)
  let n := if host then l - hostLineBase else l
  let d1 := if reads && !host then d.deadRead w.ctx l else d
  if d.inCache die host n then
    let d2 := (d1.cacheTouch die host n).count w.ctx (96 + tc) 1
    .ok (if host then d2 else d2.follow die unit tc key w l, true)
  else match d.slotStall die unit l with
    | some code => .error code
    | none =>
      let d2 := (d1.count w.ctx (104 + tc) 1).request die unit tc key l w
      .ok (if host then d2 else d2.retrieve die unit tc key w l, false)

/-- Lines that a computation reads, in the order of first use: number, address, key. -/
def traceLines {α : Type} (f : Actor → Except MemErr α) (a : Actor) : Nat → List (Nat × Nat × Nat) → List (Nat × Nat × Nat)
  | 0, ls => ls
  | n + 1, ls =>
    match f { a with held := some (ls.map Prod.fst) } with
    | .error (.miss l va key) => traceLines f a n (ls ++ [(l, va, key)])
    | _ => ls

/-- Beyond the lines of any operation. -/
def maxLines : Nat := 2 ^ 32

/-- The line of a stream unit's operand buffer for an item. -/
def NearLine.of (x : NearLine) (die unit c q l : Nat) : Bool :=
  x.die == die && x.unit == unit && x.ctx == c && x.seq == q && x.line == l

/-- A stream unit's use of lines: those in its operand buffer, or on their way there, serve it there, others come through the die's
cache, each once, and are then there too; a line that must stall does not keep the others from being asked for (R235, R237, R239,
R241). The second component is the first cause that stops it. -/
def Device.useLines (d : Device) (die unit : Nat) (cls : Nat → Nat → Nat) (c q : Nat) : List (Nat × Nat × Nat) → Device × Option Nat
  | [] => (d, none)
  | (l, va, key) :: ls =>
    let w : Waiter := ⟨c, q, va, none⟩
    let tc := cls l va
    match d.mem.near.find? fun x => x.of die unit c q l with
    | some x =>
      (match x.pref with
        | some p => ((d.prefUsed die l p).deadRead c l).follow die unit tc key w l
        | none => d).useLines die unit cls c q ls
    | none =>
      match d.demand die unit tc key w l true with
      | .error code => ((d.useLines die unit cls c q ls).1, some code)
      | .ok (d1, _) =>
        (d1.mapMem fun m => { m with near := m.near ++ [⟨die, unit, c, q, l, none⟩] }).useLines die unit cls c q ls

/-- What a unit's reads come to: the value with the requests made, a stall with its cause counted, or an error. -/
inductive Fetch (α : Type) where
  | got (d : Device) (x : α)
  | stall (d : Device)
  | err (e : MemErr)
  deriving DecidableEq

/-- Does a line, used at an address, lie in a stash segment that an item claims or saves to? -/
def Device.stashLine (d : Device) (c q l va : Nat) : Bool :=
  (d.item c q).any fun it => d.mem.segs.any fun s =>
    ((it.claims.any fun x => x.2 == s.stamp) || (it.save == some s.tag && s.saver == q)) && match s.kind with
      | .pool => s.granules.contains (l / 32)
      | .overflow base => decide (base ≤ va ∧ va < base + s.len)
      | .dropped => false

/-- A stream unit of a die reads: every line it needs is in its operand buffer or the die's cache, or is requested; without a slot
for one of them it stalls, and keeps what it has come to (R234 to R237; log 13). A line carries TC1 where it is the stash's, else the
class that its address gives it (R227). -/
def Device.fetch {α : Type} (d : Device) (a : Actor) (die unit : Nat) (tc : Nat → Nat) (f : Actor → Except MemErr α) : Fetch α :=
  match f a with
  | .error e => .err e
  | .ok x =>
    let ls := traceLines f a maxLines []
    match d.useLines die unit (fun l va => if d.stashLine a.ctx a.seq l va then 1 else tc va) a.ctx a.seq ls with
    | (d1, none) => .got (d1.mapMem fun m => { m with
        near := m.near.filter fun x => !(ls.any fun e => x.of die unit a.ctx a.seq e.1) }) x
    | (d1, some code) => .stall (d1.chargeStall a.ctx die unit code 1)

/-! ### Fills (R124, R125, R226, R232, R235, R239) -/

/-- The packs that wait on a fill, and on no other, are ready again (R166). -/
def Device.wakeMiss (d : Device) (ws : List Waiter) : Device :=
  let still := fun (p : Nat) => d.mem.misses.any fun m => m.waiters.any fun w => w.pack == some p
  let wake := fun (e : Nat × Pack) =>
    if (ws.any fun w => w.pack == some e.1) && !still e.1 && e.2.wait == some .miss then (e.1, { e.2 with wait := none }) else e
  d.mapCollie fun c => { c with packs := c.packs.map wake }

/-- The halves of a line that a read finds uncorrectable: known so already, or found so now. -/
def Device.badHalves (d : Device) (l : Nat) (lo hi : Ecc) : List Nat :=
  [(2 * l, lo), (2 * l + 1, hi)].filterMap fun e => if d.mem.halfBad e.1 || e.2 == .uncorrectable then some e.1 else none

/-- An uncorrectable fill fails every waiter's item (R125). -/
def Device.failWaiters (d : Device) (ws : List Waiter) (half : Nat) : Device :=
  ws.foldl (fun d w => d.itemError w.ctx w.seq .eccUncorrectable (detailHalf (w.va / 128 * 128 + half % 2 * 64))) d

/-- A line modified in another die's cache is fetched from it and becomes shared (R226). -/
def Mem.shareLine (m : Mem) (host : Bool) (l : Nat) : Mem :=
  match m.modified host l with
  | none => { m with lines := m.lines.map fun x =>
      if x.host == host && x.line == l then { x with st := .shared } else x }
  | some x =>
    let m1 := m.writeBack x
    { m1 with lines := m1.lines.map fun y => if y.host == host && y.line == l then { y with st := .shared } else y }

/-- Installs a line that arrived in a die's cache, shared with the other dies that hold it, else exclusive; a copy that a store
put there meanwhile stays (R225, R226). -/
def Device.install (d : Device) (die : Nat) (host : Bool) (l tc : Nat) (pref : Option Nat) : Device :=
  if d.inCache die host l then d
  else
    let st := if (d.mem.cached host l).isSome then LineSt.shared else .exclusive
    let d1 := d.mapMem fun m => m.shareLine host l
    let data := if host then (List.range 128).map fun i => d1.mem.hostByte (128 * l + i) else d1.mem.rawLine l
    d1.cachePut die host l tc st (FMap.get 0 d1.mem.lineKey l) data pref

/-- An agent without a die cache reads a device line: one modified in a die is fetched from it, else its codewords are read; a
read of a dead one counts (R124 to R126, R226, R233). -/
def Device.pastCaches (d : Device) (c l : Nat) : Device :=
  (((d.deadRead c l).findWeak (2 * l)).findWeak (2 * l + 1)).mapMem fun m => m.shareLine false l

/-- H0 reads lines for an agent without a die cache, and lines of host memory (R226). -/
def Device.h0Lines (d : Device) (c : Nat) (ls : List (Nat × Nat × Nat)) : Device :=
  ls.foldl (fun d x =>
    if hostLineBase ≤ x.1 then (d.hostResponse (x.1 - hostLineBase)).mapMem fun m => m.shareLine true (x.1 - hostLineBase) else d.pastCaches c x.1) d

/-- The device after an agent without a die cache has read what a computation reads. -/
def Device.h0Read {α : Type} (d : Device) (a : Actor) (f : Actor → Except MemErr α) : Device :=
  d.h0Lines a.ctx (traceLines f a maxLines [])

/-- The device after an agent without a die cache has read `n` bytes. -/
def Device.h0Bytes (d : Device) (a : Actor) (n va : Nat) : Device := d.h0Read a fun b => d.readBytes b n va

/-- Reads the two codewords of a device line that no cache holds modified: their findings are counted (R124, R125). -/
def Device.readHalves (d : Device) (l : Nat) (lo hi : Ecc) : Device :=
  let one := fun (d : Device) (h : Nat) (e : Ecc) =>
    if d.mem.halfBad h then d.eccUe h else d.eccFound h e
  one (one d (2 * l) lo) (2 * l + 1) hi

/-- A demand fill of a device line; a discard that waits for it takes place even where it is uncorrectable (R232; log 74). -/
def Device.fillDevice (d : Device) (die l tc : Nat) (ws : List Waiter) (discard : Bool) (lo hi : Ecc) : Device :=
  if (d.mem.modified false l).any fun x => x.die != die then
    let d1 := d.wakeMiss ws
    if discard then d1.dropDead l else d1.install die false l tc none
  else
    let d1 := d.readHalves l lo hi
    match d.badHalves l lo hi with
    | h :: _ => (if discard then d1.dropDead l else (Device.loseWrites (d1.dropFilled die l)).mapMem fun m => { m with
        lines := m.lines.filter fun x => !(x.die == die && !x.host && x.line == l) }).failWaiters ws h
    | [] =>
      let d2 := d1.wakeMiss ws
      if discard then d2.dropDead l else d2.install die false l tc none

/-- Work of the items whose reads have come may be over. -/
def Device.settleReads (d : Device) (ws : List Waiter) : Device := ws.foldl (fun d w => d.settleWork w.ctx w.seq) d

/-- A slice's new OUTSTANDING_MODE is in force once its dies hold no request (R236). -/
def Device.modeNow (d : Device) (i : Nat) : Device :=
  if d.mem.misses.any fun m => (d.slice i).dies.contains m.die then d
  else d.updSlice i fun x => if x.coreNow == x.core then x else { x with coreNow := x.core }

/-- The slice of a die that had a line filled. -/
def Device.modeCheck (d : Device) (die : Nat) : Device :=
  match d.sliceOf die with
  | none => d
  | some i => d.modeNow i

/-- A demand fill of a host line. A half whose response is marked poisoned fails every waiter's item, and no copy of the line enters
a cache (R347; log 73). -/
def Device.fillHost (d : Device) (die l tc : Nat) (ws : List Waiter) (lo hi : Ecc) : Device :=
  match ([lo, hi].zipIdx.filter fun e => e.1 == .uncorrectable).map Prod.snd with
  | h :: _ => d.failWaiters ws h
  | [] => (d.install die true l tc none).wakeMiss ws

/-- What a finding makes of a codeword that an agent without miss registers reads next. -/
def eccWeak : Ecc → Nat
  | .clean => 0
  | .corrected => 1
  | .uncorrectable => 2

/-- DEMAND_MISS_FILL: the line reaches every waiter of its register (R235). Of a unit that is no lane die and holds no registers, H0
or a base die, it says what the next read of the line's codewords finds (log 14), of a host line how the next response is marked
(log 73). -/
def demandMissFill (die line : Nat) (lo hi : Ecc) (d : Device) : Device :=
  if Config.laneDies ≤ die then
    d.mapMem fun m => { m with weak := FMap.set 0 (FMap.set 0 m.weak (2 * line) (eccWeak lo)) (2 * line + 1) (eccWeak hi) }
  else match d.mem.misses.find? fun m => m.die == die && m.line == line && !m.pref with
  | none => d
  | some x =>
    let d1 := d.mapMem fun t => { t with misses := t.misses.filter fun y => !(y.die == die && y.line == line && !y.pref) }
    let d2 := if line ≥ hostLineBase then d1.fillHost die (line - hostLineBase) x.tc x.waiters lo hi
      else d1.fillDevice die line x.tc x.waiters x.discard lo hi
    (d2.settleReads x.waiters).modeCheck die

/-- DEMAND_MISS_FILL. -/
def execDemandMissFill (die line : Nat) (lo hi : Ecc) (s : State) : Out :=
  if dramLines ≤ line ∧ line < hostLineBase then .fault .noSuchDeviceAddress
  else onDev (fun _ => demandMissFill die line lo hi) s

/-- A prefetched line that serves nothing (R241). -/
def Device.prefetchLost (d : Device) (x : Miss) : Device := d.count x.ctx 95 1

/-- A prefetched line comes to the first level of the unit whose stream it is for: a core's data cache, where the core has no copy
of its own, or the operand buffer of a stream unit while its item is there (R239, R240). -/
def Device.installFirst (d : Device) (x : Miss) : Device :=
  let lost := if d.diePref x.die x.line then d else d.prefetchLost x
  if x.unit < 16 then
    if (d.item x.ctx x.seq).isSome then
      d.mapMem fun m => { m with near := m.near ++ [⟨x.die, x.unit, x.ctx, x.seq, x.line, some x.ctx⟩] }
    else lost
  else if ((d.core x.die (x.unit - 16)).line (.dev (128 * x.line)) x.key).isSome then lost
  else match d.fetchCoreLine (.dev (128 * x.line)) x.key 0 with
    | some y => Device.loseWrites (d.installCore x.die (x.unit - 16) { y with pref := some x.ctx })
    | none => lost

/-- A prefetched line is installed where RETR_CFG says (R239). -/
def Device.installPrefetch (d : Device) (x : Miss) : Device :=
  let b := d.die x.die
  let d1 := if b.dcEn then d.install x.die false x.line x.tc (some x.ctx) else d
  if b.l1En then d1.installFirst x
  else if b.dcEn then d1 else d1.prefetchLost x

/-- PREFETCH_FILL: installed, or delivered to the demands that merged into it, or dropped where it is uncorrectable
(R125, R126, R239, R240). -/
def prefetchFill (die line : Nat) (lo hi : Ecc) (d : Device) : Device :=
  match d.mem.misses.find? fun m => m.die == die && m.line == line && m.pref with
  | none => d
  | some x =>
    let d1 := d.mapMem fun t => { t with misses := t.misses.filter fun y => !(y.die == die && y.line == line && y.pref) }
    if !x.waiters.isEmpty then ((d1.fillDevice die line x.tc x.waiters x.discard lo hi).settleReads x.waiters).modeCheck die
    else
      let clean := (d1.mem.modified false line).isSome
      let d2 := if clean then d1 else d1.readHalves line lo hi
      (if x.discard then (d2.dropDead line).prefetchLost x
        else if !clean && !(d1.badHalves line lo hi).isEmpty then d2.prefetchLost x
        else d2.installPrefetch x).modeCheck die

/-- PREFETCH_FILL. -/
def execPrefetchFill (die line : Nat) (lo hi : Ecc) (s : State) : Out :=
  if dramLines ≤ line then .fault .noSuchDeviceAddress else onDev (fun _ => prefetchFill die line lo hi) s

/-- PATROL_SCRUB_READ: counts and corrects; an uncorrectable codeword fails no item (R124, R126). -/
def execPatrolScrubRead (half : Nat) (e : Ecc) (s : State) : Out :=
  if 2 * dramLines ≤ half then .fault .noSuchDeviceAddress
  else onDev (fun _ d =>
    let b := d.memBlk (stackOf (64 * half))
    if b.scrub = 0 || !b.blk.isOn then d
    else if FMap.get false d.mem.bad half then d.eccUe half else d.eccFound half e) s

/-! ### The host's coherence (R221, R226) -/

/-- CXL_CACHE_SNOOP: the die caches give a host line up, its data going out when modified, or share it (R226). -/
def cxlCacheSnoop (line : Nat) (takes : Bool) (d : Device) : Device :=
  match d.mem.cached true line with
  | none => d
  | some _ =>
    let d1 := match d.mem.modified true line with
      | some x => (d.mapMem fun m => m.shareLine true line).emit (.snoopData line x.data)
      | none => d.mapMem fun m => m.shareLine true line
    if takes then d1.mapMem fun m => m.dropCopies true line else d1

/-- CXL_CACHE_SNOOP. -/
def execCxlCacheSnoop (line : Nat) (takes : Bool) (s : State) : Out := onDev (fun _ => cxlCacheSnoop line takes) s

/-- BACK_INVALIDATION_RESPONSE: the host holds the line no more (R221). -/
def execBackInvalidationResponse (line : Nat) (s : State) : Out :=
  if dramLines ≤ line then .fault .noSuchDeviceAddress
  else onDev (fun _ d =>
    if FMap.get 0 d.mem.hostHeld line = 2 then d.mapMem fun m => { m with hostHeld := FMap.set 0 m.hostHeld line 0 }
    else d) s

/-! ### Atomics at the base dies and on H0 (R129, R130, R249) -/

/-- The operations of R129 with the operand types each takes. -/
def atomLegal (op : AtomOp) (ty : AtomTy) : Bool :=
  match op with
  | .add => ty != .b32 && ty != .b64
  | .min => ty != .b32 && ty != .b64
  | .max => ty != .b32 && ty != .b64
  | _ => ty == .b32 || ty == .b64

/-- A fault of an atomic request at the unit that executes it. -/
def Device.atomFault (d : Device) (p : Platform) (c q die : Nat) (f : FaultCode) (va : Nat) : Device :=
  d.takeFaults p c [⟨f, 2, die, 0xFF, 0, q % (d.ring c).sqSize, noPc, 0, 0, va⟩]

/-- COMBINER_ATOMIC: the request's steps at a device location, in lane order, after every cached copy is recalled
(R130). A location outside device memory is not a base die's. -/
def combinerAtomic (c q : Nat) (r : AtomReq) (p : Platform) (d : Device) : Device :=
  if !atomLegal r.op r.ty then d
  else match translate d c r.addr .atomic with
  | .error (.fault f va) => d.atomFault p c q 60 f va
  | .ok (.dev a, key) =>
    if r.addr % atomBytes r.ty ≠ 0 then d.atomFault p c q (40 + stackOf a) .misaligned r.addr
    else
      let d0 := d.pastCaches c (a / 128)
      match d0.atomDev key a r.op r.ty (atomPairs r) with
      | some (olds, d1) => d1.emit (.atomicOld olds)
      | none => (d0.eccUe (a / 64)).itemError c q .eccUncorrectable (detailHalf r.addr)
  | _ => d

/-- COMBINER_ATOMIC. -/
def execCombinerAtomic (ctx seq : Nat) (req : AtomReq) (s : State) : Out := onDev (combinerAtomic ctx seq req) s

/-- HOST_LINE_ATOMIC: H0 takes the line exclusive and applies the request's steps (R249). -/
def hostLineAtomic (c q : Nat) (r : AtomReq) (p : Platform) (d : Device) : Device :=
  if !atomLegal r.op r.ty then d
  else match translate d c r.addr .atomic with
  | .error (.fault f va) => d.atomFault p c q 60 f va
  | .ok (.host a, _) =>
    if r.addr % atomBytes r.ty ≠ 0 then d.atomFault p c q 60 .misaligned r.addr
    else
      match d.atomHost a r.op r.ty (atomPairs r) with
      | none => (d.hostResponse (a / 128)).itemError c q .eccUncorrectable (detailHalf r.addr)
      | some (olds, d1) => d1.emit (.atomicOld olds)
  | _ => d

/-- HOST_LINE_ATOMIC. -/
def execHostLineAtomic (ctx seq : Nat) (req : AtomReq) (s : State) : Out := onDev (hostLineAtomic ctx seq req) s

end Sys2Proof.Machine
end

