-- ==== Sys2Proof/Machine/Rings.lean ====
section
/-! DEFINITION. Doorbells, descriptor fetch, item ends, completion records and interrupts (R250 to R257, R273 to R278). -/

namespace Sys2Proof.Machine

/-! ### Doorbells (R253, R254) -/

/-- A host write: the host owns the lines it writes, so the part has written back what it held of them; half-lines written whole are
poisoned no longer (R220, R221, R347). -/
def Mem.hostWrites (m : Mem) (w : HostWrite) : Mem :=
  let last := w.addr + w.data.length - 1
  let lines := (List.range (last / 128 + 1 - w.addr / 128)).map fun i => w.addr / 128 + i
  let halves := ((List.range (last / 64 + 1 - w.addr / 64)).map fun i => w.addr / 64 + i).filter fun h =>
    decide (w.addr ≤ 64 * h ∧ 64 * h + 63 ≤ last)
  let m1 := if w.data.isEmpty then m else lines.foldl (fun m l => m.recall true l) m
  { m1 with
    hostMem := w.data.zipIdx.foldl (fun t e => FMap.set 0 t (w.addr + e.2) e.1) m1.hostMem
    bad := if w.data.isEmpty then m1.bad else halves.foldl (fun t h => FMap.set false t (2 * hostLineBase + h) false) m1.bad }

/-- Host writes that become visible to the part (R220; log 8). -/
def Device.see (d : Device) (ws : List HostWrite) : Device := d.mapMem fun m => ws.foldl Mem.hostWrites m

/-- Does the IDE policy keep the host out: it is set, and IDE is not established (R338)? -/
def Platform.ideShut (p : Platform) : Bool := p.mas.idePolicy && !p.mas.ideUp

/-- Does the ring take doorbells: it is ON, its context is not killed, and the IDE policy does not keep the host out
(R254, R277, R338)? -/
def bellsOpen (p : Platform) (d : Device) (c : Nat) : Bool :=
  (d.ring c).blk.isOn && (d.ctx c).st != .killed && (d.ctx c).st != .teardown && !p.ideShut

/-- A doorbell that is ignored is counted (R253, R254). -/
def Device.bellIgnored (d : Device) (c : Nat) : Device := d.count c 118 1

/-- SQ_TAIL: accepted when the tail stays put or moves forward (R254). -/
def sqTail (c : Nat) (v : Word) (seen : List HostWrite) (p : Platform) (d0 : Device) : Device :=
  let d := d0.see seen
  let g := d.ring c
  let t := v.toNat
  let n := g.sqSize
  if bellsOpen p d c && decide (t < n) && decide ((g.sqTail + n - g.sqHead) % n ≤ (t + n - g.sqHead) % n) then
    d.updRing c fun g => { g with
      sqTail := t, bells := g.bells ++ [(g.nextSeq + (t + n - g.sqHead) % n, p.pow.time)] }
  else d.bellIgnored c

/-- SQ_TAIL_WRITE. -/
def execSqTailWrite (ctx : Nat) (v : Word) (seen : List HostWrite) (s : State) : Out := onDev (sqTail ctx v seen) s

/-- CQ_HEAD: accepted when it passes no record not yet written (R254). -/
def cqHead (c : Nat) (v : Word) (p : Platform) (d : Device) : Device :=
  let g := d.ring c
  let h := v.toNat
  let n := g.cqSize
  if bellsOpen p d c && decide (h < 2 ^ 16) && decide ((h + n - g.cqHead) % n ≤ (g.cqTail + n - g.cqHead) % n) then
    d.updRing c fun g => { g with cqHead := h % n }
  else d.bellIgnored c

/-- CQ_HEAD_WRITE. -/
def execCqHeadWrite (ctx : Nat) (v : Word) (s : State) : Out := onDev (cqHead ctx v) s

/-- DOORBELL_PAGE_OTHER_WRITE: any write to the page but an aligned 4 B write of one of its registers (R253). -/
def execDoorbellPageOtherWrite (ctx offset size : Nat) (s : State) : Out :=
  onDev (fun _ d => if size = 4 ∧ (offset = 0 ∨ offset = 8) then d else d.bellIgnored ctx) s

/-! ### Descriptor checks (R257) -/

/-- Format codes of R196 that an operand or an output can hold. -/
def fmtOk (c : Nat) : Bool := c ≤ 0x0F

/-- Checks of an RE_PRODUCT body (R261). -/
def productBodyOk (b : List Byte) : Bool :=
  decide (1 ≤ field b 0x18 4) && decide (1 ≤ field b 0x1C 4) && fmtOk (field b 0x29 1) && fmtOk (field b 0x2A 1) &&
    fmtOk (field b 0x2B 1) && convOk (field b 0x2C 1) && decide (1 ≤ field b 0x2D 1 ∧ field b 0x2D 1 ≤ 64) &&
    zeroField b 0x2E 2 && zeroField b 0x38 8

/-- Checks of a VEC body (R264). -/
def vecBodyOk (b : List Byte) : Bool :=
  let op := field b 0x19 1
  let stream := decide (0x60 ≤ op ∧ op ≤ 0x63) && fmtOk (field b 0x1A 1) && (op == 0x60 || zeroField b 0x28 8)
  let list := op == 0 && decide (1 ≤ field b 0x38 4 ∧ field b 0x38 4 ≤ 4096)
  (field b 0x18 1 == 0 && stream || field b 0x18 1 == 1 && list) && decide (field b 0x1B 1 < 32) && zeroField b 0x1C 4 &&
    zeroField b 0x3C 4

/-- Checks of a REEL body (R300). -/
def reelBodyOk (b : List Byte) : Bool :=
  let count := field b 0x16 2
  let root := field b 0x14 2
  zeroField b 0x28 24 &&
    match field b 0x10 1 with
    | 0 => count == 0 && root == 0
    | 1 => decide (1 ≤ count ∧ count ≤ 256)
    | 2 => decide (1 ≤ count ∧ count ≤ 32) && root == 0 && decide (field b 0x11 1 ≤ 2)
    | _ => false

/-- Checks of a CACHE_CTL body (R268). -/
def cacheBodyOk (b : List Byte) : Bool :=
  zeroField b 0x13 5 && zeroField b 0x28 24 && decide (field b 0x11 1 ≤ 7) && decide (field b 0x12 1 ≤ 12) &&
    match field b 0x10 1 with
    | 0 => zeroField b 0x18 16
    | 1 => zeroField b 0x11 2
    | _ => false

/-- The values a descriptor's fields may hold (R256 to R272). -/
def bodyOk (b : List Byte) : Bool :=
  match field b 0 1 with
  | 0 => zeroField b 0x10 48
  | 1 => productBodyOk b
  | 2 => vecBodyOk b
  | 3 => decide (1 ≤ field b 0x20 4 ∧ field b 0x20 4 ≤ 2 ^ 24) && zeroField b 0x24 28
  | 4 => field b 1 1 % 4 == 2 && zeroField b 0x2C 20
  | 5 => cacheBodyOk b
  | 6 => decide (field b 0x10 1 ≤ 2) && zeroField b 0x11 7 && zeroField b 0x28 24
  | 7 => decide (field b 0x18 1 < 16) && zeroField b 0x19 39
  | 8 => reelBodyOk b
  | _ => false

/-- The header's values (R256, R257). -/
def headerOk (b : List Byte) (sqSize : Nat) : Bool :=
  let h := field b 1 1
  let defer := bitOf h 2
  decide (h < 16) && (!defer || field b 0 1 == 1 && h % 4 == 2) && (defer || zeroField b 2 2) &&
    (List.range 4).all fun i => decide (field b (4 + 2 * i) 2 < sqSize)

/-- A descriptor's address fields: offset and alignment (R257). -/
def alignedFields (b : List Byte) : List (Nat × Nat) :=
  match field b 0 1 with
  | 1 => [(0x10, 64)]
  | 2 => (0x10, 64) :: if field b 0x18 1 = 0 then [] else [(0x30, 64)]
  | 3 => [(0x10, 64), (0x18, 64)]
  | 4 => [(0x10, 64), (0x18, 64), (0x20, 256)]
  | 5 => [(0x18, 128), (0x20, 128)]
  | 6 => [(0x18, 8)]
  | 8 => [(0x18, 4), (0x20, 4)]
  | _ => []

/-- Alignment of a descriptor's address fields. -/
def bodyAligned (b : List Byte) : Bool := (alignedFields b).all fun x => field b x.1 8 % x.2 == 0

/-- The first address of a descriptor that is misaligned (R341). -/
def misalignedAt (b : List Byte) : Nat :=
  match (alignedFields b).find? fun x => field b x.1 8 % x.2 != 0 with
  | some x => field b x.1 8
  | none => 0

/-- The fetch check of a descriptor: the context fault it raises (R12, R257; log 25 for the order). -/
def descFault (x : Ctx) (sqSize : Nat) (b : List Byte) : Option FaultCode :=
  if !headerOk b sqSize || !bodyOk b then some .illegalInstr
  else if !x.classes.getLsbD (field b 1 1 % 4) then some .permission
  else if !bodyAligned b then some .misaligned
  else none

/-- Is the root of a broadcast a shard index of the group it names, as its entry stands at the fetch (R300; log 70)? -/
def Device.rootOk (d : Device) (b : List Byte) : Bool :=
  let g := field b 0x12 2
  !(field b 0 1 == 8 && field b 0x10 1 == 1) || decide (255 < g) || !(d.group g).en ||
    decide (field b 0x14 2 < (d.group g).total.toNat)

/-- The context fault an entry of a ring raises as it is fetched. -/
def Device.entryFault (d : Device) (c : Nat) (b : List Byte) : Option FaultCode :=
  if !d.rootOk b then some .illegalInstr else descFault (d.ctx c) (d.ring c).sqSize b

/-! ### Fetch (R255) -/

/-- The doorbell that covered an entry: when it arrived (R291). -/
def Ring.bellOf (g : Ring) (q : Nat) (now : Dword) : Dword :=
  match g.bells.find? fun b => decide (q < b.1) with
  | some b => b.2
  | none => now

/-- Deferred items in the deferred queue of a slice (R94, R98). -/
def Device.deferred (d : Device) (slice : Nat) : Nat :=
  (d.hub.items.filter fun i => i.deferBit && !i.promoted && i.slice == slice && !i.isWork).length

/-- A deferred item whose deadline distance is 0 or reaches beyond the tail (R97). -/
def Item.badDeadline (it : Item) (left : Nat) : Bool := it.deferBit && (it.deadline == 0 || decide (left ≤ it.deadline))

/-- One entry is fetched (R97, R98, R251, R255, R257, R347): `poison` says that the response was poisoned. The second
component says whether fetching goes on. -/
def Device.fetchOne (d : Device) (p : Platform) (c : Nat) (poison : Bool) (hostNs : Nat) : Device × Bool :=
  let g := d.ring c
  let a := g.sqBase + 64 * g.sqHead
  let q := g.nextSeq
  let left := (g.sqTail + g.sqSize - g.sqHead) % g.sqSize
  let d1 := (d.updRing c fun g => { g with
    sqHead := (g.sqHead + 1) % g.sqSize, nextSeq := q + 1, outcomes := d.keptOutcomes c q
    bells := g.bells.filter fun b => decide (q + 1 < b.1) }).count c 117 1
  if poison then
    let gone := newItem c q 0 [] 0
    (((d1.setOutcome p.pow.time c q .eccUncorrectable false).tellOthers p.pow.time gone .eccUncorrectable (q % g.sqSize)).pushRecord c
      ⟨.eccUncorrectable, false, 0, p.pow.time.setWidth 32, q % g.sqSize, BitVec.ofNat 64 (detailHalf a), 0, false, 0⟩, true)
  else
    let desc := (List.range 64).map fun i => d.mem.hostByte (a + i)
    let it := newItem c q ((d.ctx c).sliceFor (field desc 1 1 % 4)) desc (g.bellOf q p.pow.time)
    let (d2, it1) := d1.joinReel it
    match d.entryFault c desc with
    | some f =>
      ((d2.mapHub fun h => { h with items := h.items ++ [it1] }).takeFaults p c
        [⟨f, 0, 60, 0xFF, 0, q % g.sqSize, noPc, 0, 0, if f = .misaligned then misalignedAt desc else 0⟩], false)
    | none =>
      let full := it.deferBit && decide (1024 ≤ d.deferred it.slice)
      let fails := g.deferFails.find? fun e => e.1 == q
      let it2 := { it1 with
        promoted := full, hostNs := hostNs - 1000
        err := if it1.badDeadline left then some (.deadlineMissed, 1) else none
        depFail := fails.map fun e => detailDep 4 e.2
        phase := if it1.badDeadline left || fails.isSome then .done else .fetched }
      ((d2.mapHub fun h => { h with items := h.items ++ [it2] }).count c 56 (bit full), true)

/-- Has a context accepted entries that can be fetched: it is open, no snapshot is under way, its ring ON, and its tail ahead (R20,
R255, R306)? -/
def Device.hasEntries (d : Device) (c : Nat) : Bool :=
  let g := d.ring c
  (d.ctx c).st == .opened && d.reel.snap == 0 && g.blk.isOn && g.sqHead != g.sqTail

/-- The slice the next entry of a context's ring goes to. -/
def Device.nextSlice (d : Device) (c : Nat) : Nat :=
  let g := d.ring c
  (d.ctx c).sliceFor ((d.mem.hostByte (g.sqBase + 64 * g.sqHead + 1)).toNat % 4)

/-- Entries of the part's window that slices other than `i` hold for entries that wait to be fetched: what is left of their
ring_share (R282, R290; log 91). -/
def Device.heldFor (d : Device) (i : Nat) : Nat :=
  ((List.range Config.sliceCount).map fun j =>
    if j != i && (d.hub.rings.any fun g => d.hasEntries g.1 && d.nextSlice g.1 == j) then
      64 * (d.slice j).ringShare - (d.hub.items.filter fun x => x.slice == j && !x.isWork).length
    else 0).sum

/-- Does the item window hold the next entry of a context back: the context's limit, or, beyond the slice's own share, the part's
limit with the entries other slices hold? A slice takes back its share at once, whatever borrowers hold (R255, R282, R290;
log 91). -/
def Device.windowFull (d : Device) (c : Nat) : Bool :=
  let i := d.nextSlice c
  let own := decide ((d.hub.items.filter fun x => x.slice == i && !x.isWork).length < 64 * (d.slice i).ringShare)
  decide (Config.ctxWindow ≤ d.window c) ||
    (!own && decide (Config.partWindow ≤ d.windowAll + d.heldFor i))

/-- The context whose entries the ring engine fetches next: contexts whose reserved slice permits class 0 are class 0 requesters
(R286). -/
def Device.fetchNext (d : Device) : Option Nat :=
  arbiter Config.contextCount d.hub.lastFetch
    ((d.hub.rings.filter fun g => d.hasEntries g.1 && !d.windowFull g.1).map fun g =>
      (g.1, (d.ctx g.1).resv.isSome && (d.ctx g.1).classes.getLsbD 0))

/-- Up to `n` entries of a read are fetched; a fault ends the read. -/
def Device.fetchLoop (p : Platform) (c : Nat) (poisoned : List Nat) (hostNs : Nat) : Nat → Device → Device
  | 0, d => d
  | n + 1, d =>
    let g := d.ring c
    if g.sqHead = g.sqTail || d.windowFull c then d
    else
      match d.fetchOne p c (poisoned.contains g.sqHead) hostNs with
      | (d1, true) => Device.fetchLoop p c poisoned hostNs n d1
      | (d1, false) => d1

/-- DESCRIPTOR_FETCH: up to 16 entries of the context that the arbiter serves, never beyond the accepted tail and within the
item window; the host took `hostNs` to answer the read (R20, R255, R286, R291). -/
def execDescriptorFetch (ctx : Nat) (poisoned : List Nat) (hostNs : Nat) (s : State) : Out :=
  onDev (fun p d =>
    if d.fetchNext = some ctx then
      Device.fetchLoop p ctx poisoned hostNs 16 (d.mapHub fun h => { h with lastFetch := ctx })
    else d) s

/-! ### Item ends, records, interrupts -/

/-- Is an item over: its work has ended, what it issued has drained, and its writes to partner memory are answered (R164,
R217, R221, R271)? -/
def Device.itemOver (d : Device) (it : Item) : Bool :=
  it.phase == .done && !it.isWork && !d.writesAway it.ctx it.seq && !d.readsOut it.ctx it.seq && d.issuedTiles it.ctx it.seq == 0 &&
    (d.worksOf it.ctx it.seq).isEmpty

/-- ITEM_COMPLETE: an item that is over (R273, R277). -/
def itemComplete (c q : Nat) (p : Platform) (d : Device) : Device :=
  match d.item c q with
  | none => d
  | some it =>
    if d.itemOver it then
      let d1 := d.endItem p.pow.time it
      match it.killCode with
      | some code => d1.lastKilled p.pow.time c code
      | none => d1
    else d

/-- ITEM_COMPLETE. -/
def execItemComplete (ctx seq : Nat) (s : State) : Out := onDev (itemComplete ctx seq) s

/-- COMPLETION_RECORD_WRITE: the oldest waiting record of a ring (R276). -/
def execCompletionRecordWrite (ctx : Nat) (s : State) : Out := onDev (fun _ d => (d.writeOldest ctx).drainReport) s

/-- Sends a vector's message, or sets its pending bit while it is masked (R250). -/
def Device.sendMsix (d : Device) (time : Dword) (v : Nat) : Device :=
  let m := FMap.get Msix.reset d.hub.msix v
  if m.mask then d.mapHub fun h => { h with msix := FMap.set Msix.reset h.msix v { m with pend := true } }
  else (d.mapHub fun h => { h with msix := FMap.set Msix.reset h.msix v { m with pend := false, last := some time } }).emit
    (.msix v m.addr m.data)

/-- MSIX_MESSAGE: the message of a ring that owes one, at most once per microsecond (R250). -/
def execMsixMessage (vector : Nat) (s : State) : Out :=
  onDev (fun p d =>
    let m := FMap.get Msix.reset d.hub.msix vector
    let early := m.last.any fun t => decide (p.pow.time.toNat < t.toNat + 1000)
    if (d.ring vector).msixDue && !early then
      (d.updRing vector fun g => { g with msixDue := false }).sendMsix p.pow.time vector
    else d) s

/-- MSIX_TABLE_WRITE: a host write to BAR4: entry at offset / 16 holds address low, address high, data and vector
control; unmasking a vector whose pending bit is set sends its message (R246, R250). -/
def execMsixTableWrite (offset : Nat) (v : Word) (s : State) : Out :=
  onDev (fun p d =>
    let n := offset / 16
    let m := FMap.get Msix.reset d.hub.msix n
    if offset ≥ 0x10000 ∨ offset % 4 ≠ 0 then d
    else
      let m1 := match offset / 4 % 4 with
        | 0 => { m with addr := BitVec.ofNat 64 (m.addr.toNat / 2 ^ 32 * 2 ^ 32 + v.toNat) }
        | 1 => { m with addr := BitVec.ofNat 64 (m.addr.toNat % 2 ^ 32 + v.toNat * 2 ^ 32) }
        | 2 => { m with data := v }
        | _ => { m with mask := v.getLsbD 0 }
      let d1 := d.mapHub fun h => { h with msix := FMap.set Msix.reset h.msix n m1 }
      if m.mask && !m1.mask && m.pend then d1.sendMsix p.pow.time n else d1) s

/-- CONTEXT_FAULT: the faults of one cycle reach H0 (R342). -/
def execContextFault (ctx : Nat) (faults : List FaultInfo) (s : State) : Out :=
  onDev (fun p d => d.takeFaults p ctx faults) s

end Sys2Proof.Machine
end

