-- ==== Sys2Proof/Machine/Actions.lean ====
section
/-! DEFINITION. Items that the ring engine runs itself: NOP, EVENT, CANCEL and CACHE_CTL; host accesses to HDM windows
(R228 to R233, R247, R248, R258, R268 to R271, R291). -/

namespace Sys2Proof.Machine

/-! ### The start of such an item (R93, R291) -/

/-- A dispatched item of a type whose deferred items are over starts, and the ring engine acts. -/
def Device.act (d : Device) (p : Platform) (c q typ : Nat) (ok : Item → Bool) (go : Item → Device → Device) : Device :=
  match d.item c q with
  | none => d
  | some it =>
    if it.typ ≠ typ ∨ it.isWork ∨ it.phase ≠ .dispatched ∨ d.deferWait it ∨ !ok it then d
    else go it (d.firstIssue p.pow.time c q)

/-- The item's work is done. -/
def Device.finish (d : Device) (it : Item) : Device := d.updItem it.ctx it.seq fun x => { x with phase := .done }

/-- ITEM_NOP. -/
def execItemNop (ctx seq : Nat) (s : State) : Out :=
  onDev (fun p d => d.act p ctx seq 0 (fun _ => true) fun it d => d.finish it) s

/-! ### EVENT (R269, R270) -/

/-- Operation, location and value of an EVENT item. -/
def Item.evOp (it : Item) : Nat := field it.desc 0x10 1
def Item.evLoc (it : Item) : Nat := field it.desc 0x18 8
def Item.evVal (it : Item) : Nat := field it.desc 0x20 8

/-- An atomic add of the value at system scope; one in partner memory goes there, and its answer completes it. -/
def Device.eventAdd (d : Device) (p : Platform) (it : Item) : Device :=
  let v : Dword := BitVec.ofNat 64 it.evVal
  match translate d it.ctx it.evLoc .atomic with
  | .error e => d.accessFailed p it 1 60 0xFF e
  | .ok (.dev a, key) =>
    let d0 := d.pastCaches it.ctx (a / 128)
    match d0.atomDev key a .add .u64 [(v, 0)] with
    | none => d0.accessFailed p it 1 60 0xFF (.ecc it.evLoc)
    | some (_, d1) => d1.finish it
  | .ok (.host a, _) =>
    match d.atomHost a .add .u64 [(v, 0)] with
    | none => (d.hostResponse (a / 128)).accessFailed p it 1 60 0xFF (.ecc it.evLoc)
    | some r => r.2.finish it
  | .ok (.peer n rc rva, _) =>
    match d.peerGate it.ctx n it.evLoc with
    | .error e => d.accessFailed p it 1 60 0xFF e
    | .ok q => (d.peerSend it.ctx it.seq q n rc rva 8 it.evLoc (.atomic .add .u64 [v] []) .event).finish it

/-- EVENT_ADD. -/
def execEventAdd (ctx seq : Nat) (s : State) : Out :=
  onDev (fun p d => d.act p ctx seq 6 (fun it => it.evOp == 0) fun it d => d.eventAdd p it) s

/-- EVENT_SET: a store of the value at system scope. -/
def execEventSet (ctx seq : Nat) (s : State) : Out :=
  onDev (fun p d => d.act p ctx seq 6 (fun it => it.evOp == 1) fun it d =>
    match d.writeVa (it.actor none) 6 it.evLoc (leBytes 8 it.evVal) with
    | .error e => d.accessFailed p it 1 60 0xFF e
    | .ok d1 => d1.finish it) s

/-- A wait is over: the word goes into the record, and what a covered item waited is excluded from its start (R291). -/
def Device.eventOver (d : Device) (time : Dword) (it : Item) (v : Nat) : Device :=
  let t : Dword := match it.waitAt with
    | some t => time - t
    | none => 0
  let d1 := if it.covered then d.count it.ctx 126 t.toNat else d
  let d2 := (d1.mapHub fun h => { h with
    monitors := h.monitors.filter fun m => !(m.1 == it.ctx && m.2.1 == it.seq) }).dropBuf it.ctx it.seq
  d2.updItem it.ctx it.seq fun x => { x with phase := .done, result := BitVec.ofNat 64 v, waitAt := none }

/-- A WAIT_GE reads its word: at or above the value it is over. -/
def Device.eventRead (d0 : Device) (p : Platform) (it : Item) : Device :=
  let d := d0.h0Bytes (it.actor none) 8 it.evLoc
  match d.readNat (it.actor none) 8 it.evLoc with
  | .error e => d.accessFailed p it 1 60 0xFF e
  | .ok v => if it.evVal ≤ v then d.eventOver p.pow.time it v else d.dropBuf it.ctx it.seq

/-- Event monitors in use. -/
def Device.monitorsUsed (d : Device) : Nat := (d.hub.monitors.filter fun m => m.2.2).length

/-- A WAIT_GE begins to wait: on device or host memory with a monitor while one is free, else by polling. -/
def Device.eventWait (d : Device) (time : Dword) (it : Item) : Device :=
  let mon := !d.peerVa it.ctx it.evLoc && decide (d.monitorsUsed < 4096)
  (d.mapHub fun h => { h with monitors := h.monitors ++ [(it.ctx, it.seq, mon)] }).updItem it.ctx it.seq fun x =>
    { x with phase := .running, waitAt := some time }

/-- EVENT_WAIT_GE. -/
def execEventWaitGe (ctx seq : Nat) (s : State) : Out :=
  onDev (fun p d => d.act p ctx seq 6 (fun it => it.evOp == 2) fun it d =>
    (d.eventWait p.pow.time it).eventRead p { it with waitAt := some p.pow.time }) s

/-- Does the item wait, with a monitor or by polling? -/
def Device.waitsBy (d : Device) (c q : Nat) (mon : Bool) : Bool := d.hub.monitors.contains (c, q, mon)

/-- EVENT_MONITOR_REREAD: the monitor's line was written or invalidated. -/
def execEventMonitorReread (ctx seq : Nat) (seen : List HostWrite) (s : State) : Out :=
  onDev (fun p d0 =>
    let d := d0.see seen
    match d.item ctx seq with
    | some it => if d.waitsBy ctx seq true then d.eventRead p it else d
    | none => d) s

/-- EVENT_POLL: a WAIT_GE without a monitor reads its word again; each poll is counted. -/
def execEventPoll (ctx seq : Nat) (seen : List HostWrite) (s : State) : Out :=
  onDev (fun p d0 =>
    let d := d0.see seen
    match d.item ctx seq with
    | some it => if d.waitsBy ctx seq false then (d.count ctx 121 1).eventRead p it else d
    | none => d) s

/-! ### CANCEL (R271) -/

/-- Does a CANCEL item select another item: one fetched before it and not complete? -/
def Item.selects (it x : Item) : Bool :=
  x.ctx == it.ctx && decide (x.seq < it.seq) && !x.isWork && x.cancelBy.isNone && bitOf (field it.desc 0x18 1) x.cls &&
    Nat.land x.tag (field it.desc 0x14 4) == field it.desc 0x10 4

/-- One item is cancelled: it issues nothing further, and what it has issued drains. -/
def Device.cancelOne (time : Dword) (idx : Nat) (d : Device) (x : Item) : Device :=
  ((d.loadWait time x).purge x.ctx x.seq .drain).updItem x.ctx x.seq fun y => { y with cancelBy := some idx, phase := .done }

/-- CANCEL. -/
def execCancel (ctx seq : Nat) (s : State) : Out :=
  onDev (fun p d => d.act p ctx seq 7 (fun _ => true) fun it d =>
    let xs := d.hub.items.filter it.selects
    let d1 := xs.foldl (Device.cancelOne p.pow.time (seq % (d.ring ctx).sqSize)) d
    (d1.updItem ctx seq fun x => { x with result := BitVec.ofNat 64 xs.length }).finish it) s

/-! ### CACHE_CTL (R228 to R233, R268) -/

/-- Ways of a slice pinned to no class, highest first. -/
def Slice.freeWays (x : Slice) : List Nat :=
  ((List.range 16).filter fun w => !(x.pins.any fun p => p.contains w)).reverse

/-- The ways a class has once its count is `w`: it keeps its own, takes the highest free ones, or gives its lowest up. -/
def Slice.newWays (x : Slice) (tc w : Nat) : List Nat :=
  let own := x.pins.getD tc []
  if own.length ≤ w then own ++ x.freeWays.take (w - own.length)
  else ((List.range 16).filter own.contains).drop (own.length - w)

/-- Gives a class its ways. -/
def Slice.pin (x : Slice) (tc : Nat) (ws : List Nat) : Slice := { x with pins := x.pins.set tc ws }

/-- Sum of the pinned way counts of the other classes. -/
def Slice.otherPins (x : Slice) (tc : Nat) : Nat :=
  ((List.range 8).filter fun t => t != tc).foldl (fun n t => n + (x.pins.getD t []).length) 0

/-- CACHE_CTL_PIN: refused without the right or above 12 ways; a count that does not grow stands at once; one that grows
waits for the scan of its new ways. -/
def pinStart (it : Item) (d : Device) : Device :=
  let s := d.slice it.slice
  let tc := field it.desc 0x11 1
  let w := field it.desc 0x12 1
  if !(d.ctx it.ctx).pinRight then d.itemError it.ctx it.seq .pinRefused 1
  else if 12 < s.otherPins tc + w then d.itemError it.ctx it.seq .pinRefused 2
  else if w ≤ (s.pins.getD tc []).length then
    (d.updSlice it.slice fun x => x.pin tc (x.newWays tc w)).finish it
  else (d.updSlice it.slice fun x => { x with scan := some (it.ctx, it.seq) }).updItem it.ctx it.seq fun x =>
    { x with phase := .running }

/-- The pin item that comes first of those that have reached a slice: class 0 items, then in turn from the lowest context after the
one that last won; of one context the earlier (R231, R286). -/
def Device.pinNext (d : Device) (slice : Nat) : Option (Nat × Nat) :=
  let xs := d.hub.items.filter fun i =>
    i.typ == 5 && !i.isWork && i.slice == slice && i.phase == .dispatched && field i.desc 0x10 1 == 0 && !d.deferWait i
  (arbiter Config.contextCount (d.slice slice).lastPin (xs.map fun i => (i.ctx, i.cls == 0))).bind fun c =>
    let mine := xs.filter fun i => i.ctx == c
    let first := mine.filter fun i => i.cls == 0
    (leastBy Item.seq (if first.isEmpty then mine else first)).map fun i => (c, i.seq)

/-- CACHE_CTL_PIN. -/
def execCacheCtlPin (ctx seq : Nat) (s : State) : Out :=
  onDev (fun p d => d.act p ctx seq 5 (fun it => field it.desc 0x10 1 == 0 && (d.slice it.slice).scan.isNone &&
    d.pinNext it.slice == some (ctx, seq)) fun it d =>
      pinStart it (d.updSlice it.slice fun x => { x with lastPin := ctx })) s

/-- Does the scan of newly pinned ways meet a dirty line of another class (R230)? -/
def DLine.scanHit (dies ways : List Nat) (tc : Nat) (x : DLine) : Bool :=
  dies.contains x.die && ways.contains x.way && x.tc != tc && x.st == .modified

/-- The scan of newly pinned ways: a dirty line of another class is written back and invalidated (R230). -/
def Mem.scanWays (m : Mem) (dies ways : List Nat) (tc : Nat) : Mem :=
  let m1 := (m.lines.filter (DLine.scanHit dies ways tc)).foldl Mem.writeBack m
  { m1 with lines := m1.lines.filter fun x => !x.scanHit dies ways tc }

/-- PIN_SCAN_DONE: every die of the slice has finished, and the class has its ways. -/
def pinScanDone (slice : Nat) (d : Device) : Device :=
  let s := d.slice slice
  match s.scan.bind fun e => d.item e.1 e.2 with
  | none => d
  | some it =>
    let tc := field it.desc 0x11 1
    let ws := s.newWays tc (field it.desc 0x12 1)
    let new := ws.filter fun w => !(s.pins.getD tc []).contains w
    (((d.unusedLines fun x => x.scanHit s.dies new tc).mapMem fun m => m.scanWays s.dies new tc).updSlice slice fun x => { x.pin tc ws with scan := none }).finish it

/-- PIN_SCAN_DONE. -/
def execPinScanDone (slice : Nat) (s : State) : Out := onDev (fun _ => pinScanDone slice) s

/-- Discards the lines of a range one after another; the first one the context may not write ends it. -/
def Device.discardRange (c : Nat) : Nat → Nat → Device → Device × Option MemErr
  | 0, _, d => (d, none)
  | n + 1, va, d =>
    match translate d c va .write with
    | .error e => (d, some e)
    | .ok (.dev a, _) => Device.discardRange c n (va + 128) (d.discardLine c (a / 128))
    | .ok _ => Device.discardRange c n (va + 128) d

/-- Does a miss register hold a line of a range for a discard that waits for its fill (R232)? -/
def Device.discardsWait (d : Device) (c n va : Nat) : Bool :=
  d.mem.misses.any fun m => m.discard && !(allBelow n fun i => match translate d c (va + 128 * i) .write with
    | .ok (.dev a, _) => a / 128 != m.line
    | _ => true)

/-- CACHE_CTL_DISCARD: every line of the range. The item is done when every line is discarded: where a miss register holds one, the
command comes again after its fill (R268; log 74). -/
def cacheDiscard (c q : Nat) (p : Platform) (d : Device) : Device :=
  let n := fun (it : Item) => field it.desc 0x20 8 / 128
  let va := fun (it : Item) => field it.desc 0x18 8
  match d.item c q with
  | none => d
  | some it =>
    if it.typ = 5 ∧ it.phase = .running ∧ field it.desc 0x10 1 = 1 then
      if d.discardsWait c (n it) (va it) then d else d.finish it
    else d.act p c q 5 (fun it => field it.desc 0x10 1 == 1) fun it d =>
      match Device.discardRange c (n it) (va it) d with
      | (d1, none) =>
        if d1.discardsWait c (n it) (va it) then d1.updItem c q fun x => { x with phase := .running } else d1.finish it
      | (d1, some e) => d1.accessFailed p it 1 60 0xFF e

/-- CACHE_CTL_DISCARD. -/
def execCacheCtlDiscard (ctx seq : Nat) (s : State) : Out := onDev (cacheDiscard ctx seq) s

/-! ### HOST_MEM_ACCESS (R127, R221, R247, R248) -/

/-- An access that is zeroed or dropped is counted for its window. -/
def Device.hostDropped (d : Device) (w : Nat) (op : HdmOp) : Device :=
  let d1 := d.mapHub fun h => { h with
    hostErr := FMap.upd 0 h.hostErr w fun n => BitVec.ofNat 32 (min (n.toNat + 1) (2 ^ 32 - 1)) }
  match op with
  | .read n => d1.emit (.hdmData (List.replicate n 0) false)
  | .write _ => d1.emit .hdmDone

/-- The host holds a line it has accessed under HDM-DB. -/
def Device.hostTakes (d : Device) (l : Nat) : Device :=
  if FMap.get 0 d.mem.hostHeld l = 2 then d
  else d.mapMem fun m => { m with hostHeld := FMap.set 0 m.hostHeld l 1 }

/-- A run of bytes of a host access in one line of device memory: address, key, offset in the access, length. -/
structure HdmPiece where
  addr : Nat
  key  : Nat
  off  : Nat
  len  : Nat
  deriving DecidableEq, Repr

/-- The lines of local device memory that an access of a context's space covers; none where a page of it cannot be reached
(R247). -/
def Device.hdmPieces (d : Device) (c va n : Nat) (acc : Acc) : Option (List HdmPiece) :=
  (List.range ((va + n - 1) / 128 + 1 - va / 128)).mapM fun i =>
    let lo := max va ((va / 128 + i) * 128)
    match translate d c lo acc with
    | .ok (.dev a, key) => some ⟨a, key, lo - va, min (va + n) ((va / 128 + i + 1) * 128) - lo⟩
    | _ => none

/-- The half-lines a piece reads: those it touches, of a write those it does not cover whole. -/
def HdmPiece.halves (write : Bool) (x : HdmPiece) : List Nat :=
  ((List.range ((x.addr + x.len - 1) / 64 + 1 - x.addr / 64)).map fun i => x.addr / 64 + i).filter fun h =>
    !(write && decide (x.addr ≤ 64 * h ∧ 64 * h + 64 ≤ x.addr + x.len))

/-- The half-lines a piece reads that are uncorrectable. -/
def Device.hdmBad (d : Device) (write : Bool) (x : HdmPiece) : List Nat := (x.halves write).filter d.mem.halfBad

/-- A host read of device memory: uncorrectable half-lines are counted, and the answer is poisoned, its data free (R248;
log 18). -/
def Device.hostRead (d0 : Device) (c : Nat) (xs : List HdmPiece) (n : Nat) : Device :=
  let d := xs.foldl (fun d x => d.pastCaches c (x.addr / 128)) d0
  match xs.flatMap (d.hdmBad false) with
  | [] =>
    (xs.foldl (fun d x => d.hostTakes (x.addr / 128)) d).emit
      (.hdmData (xs.flatMap fun x => (List.range x.len).map fun i => d.mem.devByte x.key (x.addr + i)) false)
  | bad =>
    let (k, d1) := (bad.foldl Device.eccUe d).fresh
    d1.emit (.hdmData ((List.range n).map (Config.freeByte k)) true)

/-- A host write to a line of device memory. -/
def Device.hostPut (bs : List Byte) (d : Device) (x : HdmPiece) : Device :=
  let l := x.addr / 128
  let held := FMap.get 0 d.mem.hostHeld l
  let d1 := d.mapMem fun m => { m with hostHeld := FMap.set 0 m.hostHeld l 0 }
  match d1.storeLine none 6 x.key l (patchAt (x.addr % 128) ((bs.drop x.off).take x.len)) with
  | none => d
  | some d2 => (d2.mapMem fun m => { m with hostHeld := FMap.set 0 m.hostHeld l held }).hostTakes l

/-- A host write of device memory: one that covers part of an uncorrectable half-line is dropped, the finding counted and logged,
and completes like any other (R248). -/
def Device.hostWrite (d0 : Device) (xs : List HdmPiece) (bs : List Byte) : Device :=
  let d := xs.foldl (fun d x => (x.halves true).foldl Device.findWeak d) d0
  (match xs.flatMap (d.hdmBad true) with
    | [] => xs.foldl (Device.hostPut bs) d
    | bad => bad.foldl Device.eccUe d).emit .hdmDone

/-- The binding of a window; while the IDE policy keeps the host out windows behave as unbound (R247, R338). -/
def Device.boundTo (d : Device) (p : Platform) (w : Nat) : Option (Nat × Nat) :=
  if p.ideShut then none else FMap.get none d.hub.windows w

/-- HOST_MEM_ACCESS: through the window's context, in its space and under its rights. -/
def hostMemAccess (w offset : Nat) (op : HdmOp) (p : Platform) (d : Device) : Device :=
  if 32 ≤ w && p.pow.twoByEight && !p.pow.linkBUp then d
  else match d.boundTo p w with
    | none => d.hostDropped w op
    | some (c, base) =>
      match op with
      | .read n =>
        (match d.hdmPieces c (base + offset) n .read with
          | some xs => d.hostRead c xs n
          | none => d.hostDropped w op)
      | .write bs =>
        (match d.hdmPieces c (base + offset) bs.length .write with
          | some xs => d.hostWrite xs bs
          | none => d.hostDropped w op)

/-- HOST_MEM_ACCESS. -/
def execHostMemAccess (window offset : Nat) (op : HdmOp) (s : State) : Out := onDev (hostMemAccess window offset op) s

end Sys2Proof.Machine
end

