-- ==== Sys2Proof/Machine/Tensor.lean ====
section
/-! DEFINITION. Operands and outputs of products and stream operations as tensors: packed elements, MX scales, 2:4 and ZC
forms, turned operands, stash segments (R21, R22, R36, R59, R60, R67 to R73, R80, R83 to R89, R137, R262, R434). -/

namespace Sys2Proof.Machine

/-! ### Stash segments (R134, R137, R139, R434) -/

/-- The stash entry of a stamp. -/
def Device.segAt (d : Device) (stamp : Nat) : Option Seg := d.mem.segs.find? fun s => s.stamp == stamp

/-- The device half-line that holds a byte of a pool segment. -/
def Seg.half (s : Seg) (i : Nat) : Option Nat := (s.granules[i / 4096]?).map fun g => g * 64 + i % 4096 / 64

/-- A byte of a segment: what its save wrote, and zero beyond (R137). -/
def Device.segByte (d : Device) (a : Actor) (stamp i : Nat) : Except MemErr Byte :=
  match d.segAt stamp with
  | none => .ok 0
  | some s =>
    match s.kind with
    | .pool =>
      match (s.half i).filter fun h => a.lacks (h / 2) with
      | some h => .error (.miss (h / 2) i ((d.ctx s.tag.ctx).key.getD 0))
      | none =>
      match (s.half i).filter d.mem.halfBad with
      | some h => .error (.stash h i)
      | none => .ok (FMap.get 0 s.data i)
    | .overflow base => if FMap.get 0 s.data i = 0 then .ok 0 else d.readByte a (base + i)
    | .dropped => .ok 0

/-- The writes of a save to its pool granules, line by line, through the die's cache as TC1 (R134, R225, R227). -/
def Device.poolWrite (a : Actor) (key : Nat) (s : Seg) : Nat → Device → Nat → List Byte → Except MemErr Device
  | 0, d, _, _ => .ok d
  | _ + 1, d, _, [] => .ok d
  | f + 1, d, i, b :: bs =>
    let n := 128 - i % 128
    match s.granules[i / 4096]? with
    | none => .ok d
    | some g =>
      match d.writePlace a 1 i (.dev (4096 * g + i % 4096)) key ((b :: bs).take n) with
      | .error (.ecc _) => .error (.stash (64 * g + i % 4096 / 64) i)
      | .error e => .error e
      | .ok d1 => Device.poolWrite a key s f d1 (i + n) ((b :: bs).drop n)

/-- Writes bytes of the save of an item: into the pool, or into the overflow area (R134, R139). A write of part of an
uncorrectable half-line fails, one of all of it corrects it (R125). -/
def Device.saveBytes (d : Device) (it : Item) (a : Actor) (i : Nat) (bs : List Byte) : Except MemErr Device :=
  match it.save with
  | none => .ok d
  | some t =>
    match d.mem.segs.find? fun s => s.tag == t && s.saver == it.seq with
    | none => .ok d
    | some s =>
      let put := fun (f : Byte → Byte) (data : FMap Byte) => bs.zipIdx.foldl (fun m e => FMap.set 0 m (i + e.2) (f e.1)) data
      let upd := fun (d : Device) (f : Seg → Seg) => d.mapMem fun m => { m with
        segs := m.segs.map fun x => if x.stamp == s.stamp then f x else x }
      let grown := fun (x : Seg) => { x with len := max x.len (i + bs.length) }
      match s.kind with
      | .pool =>
        let ts := (List.range (ceilDiv (i + bs.length) 64 - i / 64)).map fun j => i / 64 + j
        let whole := fun (t : Nat) => decide (i ≤ 64 * t ∧ 64 * t + 64 ≤ i + bs.length)
        match ts.findSome? fun t => if whole t then none else ((s.half (64 * t)).filter d.mem.halfBad).map fun h => (h, t) with
        | some (h, t) => .error (.stash h (64 * t))
        | none =>
          match Device.poolWrite a ((d.ctx s.tag.ctx).key.getD 0) s (bs.length + 1) d i bs with
          | .error e => .error e
          | .ok d1 => .ok (upd d1 fun x => grown { x with data := put id x.data })
      | .overflow base =>
        match d.writeVa a 1 (base + i) bs with
        | .error e => .error e
        | .ok d1 => .ok (upd d1 fun x => grown { x with data := put (fun _ => 1) x.data })
      | .dropped => .ok d

/-! ### Sources -/

/-- Where an array lies: at a virtual address, or in the segment of a stamp from an offset. -/
inductive Src where
  | va (a : Nat)
  | seg (stamp off : Nat)
  deriving DecidableEq, Repr, Inhabited

/-- Byte `i` of an array. -/
def Device.srcByte (d : Device) (a : Actor) (s : Src) (i : Nat) : Except MemErr Byte :=
  match s with
  | .va x => d.readByte a (x + i)
  | .seg st off => d.segByte a st (off + i)

/-- A little-endian number of `n` bytes of an array. -/
def Device.srcNat (d : Device) (a : Actor) (s : Src) : Nat → Nat → Except MemErr Nat
  | 0, _ => .ok 0
  | n + 1, i => do
    let b ← d.srcByte a s i
    let r ← d.srcNat a s n (i + 1)
    pure (b.toNat + 256 * r)

/-- The bits of element `i` of a packed array of a format (R22). -/
def Device.srcElem (d : Device) (a : Actor) (s : Src) (fmt i : Nat) : Except MemErr Nat := do
  let o := i * fmtBits fmt
  let x ← d.srcNat a s (ceilDiv (o % 8 + fmtBits fmt) 8) (o / 8)
  pure (x / 2 ^ (o % 8) % 2 ^ fmtBits fmt)

/-! ### Packed output (R22, R45, R262) -/

/-- The number that element codes form, lowest first. -/
def packNum (bits : Nat) : List Nat → Nat
  | [] => 0
  | x :: xs => x % 2 ^ bits + 2 ^ bits * packNum bits xs

/-- The bytes that element codes take from a bit position on, where the byte at each end keeps its other bits. `old` gives
the first and the last byte as they stand. -/
def packBytes (bits start : Nat) (codes : List Nat) (old : Nat × Nat) : List Byte :=
  let lo := start % 8
  let total := lo + bits * codes.length
  let n := ceilDiv total 8
  let x := old.1 % 2 ^ lo + 2 ^ lo * packNum bits codes
  let y := if total % 8 = 0 then x else x + old.2 / 2 ^ (total % 8) * 2 ^ total
  leBytes n y

/-- Writes element codes from element `i` of a packed array at a virtual address. -/
def Device.putElems (d : Device) (a : Actor) (tc base fmt i : Nat) (codes : List Nat) : Except MemErr Device := do
  let b := fmtBits fmt
  let start := i * b
  let stop := start + b * codes.length
  let first ← if start % 8 = 0 then pure 0 else d.srcNat a (.va base) 1 (start / 8)
  let last ← if stop % 8 = 0 then pure 0 else d.srcNat a (.va base) 1 (stop / 8)
  d.writeVa a tc (base + start / 8) (packBytes b start codes (first, last))

/-- Saves element codes from element `i` of the array at an offset of the item's segment. -/
def Device.saveElems (d : Device) (it : Item) (a : Actor) (off fmt i : Nat) (codes : List Nat) : Except MemErr Device := do
  let b := fmtBits fmt
  let start := i * b
  let stop := start + b * codes.length
  let src := match it.save.bind fun t => d.mem.segs.find? fun s => s.tag == t && s.saver == it.seq with
    | some s => Src.seg s.stamp off
    | none => .va 0
  if it.save.isNone then pure d
  else
    let first ← if start % 8 = 0 then pure 0 else d.srcNat a src 1 (start / 8)
    let last ← if stop % 8 = 0 then pure 0 else d.srcNat a src 1 (stop / 8)
    d.saveBytes it a (off + start / 8) (packBytes b start codes (first, last))

/-! ### Dense tensors and MX scales (R22, R36, R262) -/

/-- A tensor as it is stored: its form's arrays, format, stored rows and their length, row stride, and whether its MX
blocks run along the stored rows. -/
structure Ten where
  vals : Src
  aux  : Src
  fmt  : Nat
  rows : Nat
  len  : Nat
  ld   : Nat
  along : Bool
  deriving Repr

/-- The stride in force: 0 stands for the packed row length. -/
def Ten.stride (t : Ten) : Nat := if t.ld = 0 then t.len else t.ld

/-- The bits of stored element (r, c). -/
def Device.tenBits (d : Device) (a : Actor) (t : Ten) (r c : Nat) : Except MemErr Nat :=
  d.srcElem a t.vals t.fmt (r * t.stride + c)

/-- Where the scale of element (r, c) lies in the scale array; a row of a 2:4 value array stands for two dense rows. -/
def Ten.scaleAt (t : Ten) (r c : Nat) : Nat :=
  if t.along then r * ceilDiv t.len 32 + c / 32 else r / 32 * t.len + c

/-- The value of a stored element of a format. -/
def Elem.num (fmt : Nat) (e : Elem) : Num := if isMx fmt then mxNum fmt e.bits e.scale else elemNum fmt e.bits

/-- The values of stored elements. -/
def elemVals (fmt : Nat) (xs : List Elem) : Elems := xs.map fun e => (e.pos, e.num fmt)

/-- The block scale of dense position (r, c); 0 in a format without scales. -/
def Device.tenScale (d : Device) (a : Actor) (t : Ten) (r c : Nat) : Except MemErr Nat :=
  if isMx t.fmt then d.srcNat a t.aux 1 (t.scaleAt r c) else .ok 0

/-- The value of element bits under the scale of dense position (r, c). -/
def Device.tenNum (d : Device) (a : Actor) (t : Ten) (r c bits : Nat) : Except MemErr Num := do
  let sc ← d.tenScale a t r c
  pure (Elem.num t.fmt ⟨0, bits, sc⟩)

/-- Stored element (r, c) of a dense tensor, at position `p` of the reduction axis. -/
def Device.tenElem (d : Device) (a : Actor) (t : Ten) (p r c : Nat) : Except MemErr Elem := do
  let x ← d.tenBits a t r c
  let sc ← d.tenScale a t r c
  pure ⟨p, x, sc⟩

/-- Elements grouped in new blocks of 32 positions and requantized, nearest even and saturating (R36). -/
def requant (fmt : Nat) (xs : List Elem) : List Elem :=
  xs.map fun e =>
    let blk := xs.filter fun y => y.pos / 32 == e.pos / 32
    let q := mxBlock fmt (fun _ => .nearest) (blk.map (Elem.num fmt))
    match (blk.zip q.2).find? fun z => z.1.pos == e.pos with
    | some z => ⟨e.pos, z.2, q.1⟩
    | none => e

/-- Elements as a turn emits them: MX ones requantized, others unchanged (R87). -/
def turnedElems (fmt : Nat) (xs : List Elem) : List Elem := if isMx fmt then requant fmt xs else xs

/-! ### The ZC form (R71 to R73, R80) -/

/-- A ZC tensor: masks, row table, values, format and row length. -/
structure Zc where
  masks : Src
  rowtab : Src
  vals  : Src
  fmt   : Nat
  len   : Nat
  deriving Repr

/-- The 64 bits of a mask. -/
def Device.zcMask (d : Device) (a : Actor) (z : Zc) (r j : Nat) : Except MemErr Nat :=
  d.srcNat a z.masks 8 ((r * ceilDiv z.len 64 + j) * 8)

/-- The stored positions of a row, ascending, those at or beyond its end among them. -/
def Device.zcStored (d : Device) (a : Actor) (z : Zc) (r : Nat) : Except MemErr (List Nat) := do
  let ms ← (List.range (ceilDiv z.len 64)).mapM fun j => d.zcMask a z r j
  pure (ms.zipIdx.flatMap fun e => ((List.range 64).filter fun i => bitOf e.1 i).map fun i => 64 * e.2 + i)

/-- Does a row break R80: a mask bit at or beyond its end, or a length below its stored bytes? -/
def Device.zcBad (d : Device) (a : Actor) (z : Zc) (r : Nat) : Except MemErr Bool := do
  let ps ← d.zcStored a z r
  let t ← d.srcNat a z.rowtab 8 (8 * r)
  pure (ps.any (fun p => decide (z.len ≤ p)) || decide (t / 2 ^ 32 * 32 < ps.length * fmtBits z.fmt / 8))

/-- The stored elements of a row. -/
def Device.zcRow (d : Device) (a : Actor) (z : Zc) (r : Nat) : Except MemErr (List Elem) := do
  let ps ← d.zcStored a z r
  let t ← d.srcNat a z.rowtab 8 (8 * r)
  ps.zipIdx.mapM fun e => do
    let x ← d.srcElem a z.vals z.fmt (t % 2 ^ 32 * 32 * 8 / fmtBits z.fmt + e.2)
    pure ⟨e.1, x, 0⟩

/-! ### The 2:4 form (R59, R60, R67, R70, R80) -/

/-- A 2:4 tensor of K rows and N columns: its value tensor and its metadata. -/
structure S24 where
  ten  : Ten
  meta_ : Src
  k    : Nat
  n    : Nat
  deriving Repr

/-- The code of group g of column c: positions p0 and p1. -/
def Device.s24Code (d : Device) (a : Actor) (s : S24) (c g : Nat) : Except MemErr (Nat × Nat) := do
  let w ← d.srcNat a s.meta_ 8 ((c * ceilDiv s.k 64 + g / 16) * 8)
  let x := w / 2 ^ (4 * (g % 16)) % 16
  pure (x % 4, x / 4)

/-- Bits of stored value `i` (0 or 1) of group g of column c. -/
def Device.s24Bits (d : Device) (a : Actor) (s : S24) (c g i : Nat) : Except MemErr Nat := d.tenBits a s.ten (2 * g + i) c

/-- The stored elements of group g of column c, at their K positions. -/
def Device.s24Group (d : Device) (a : Actor) (s : S24) (c g : Nat) : Except MemErr (List Elem) := do
  let (p0, p1) ← d.s24Code a s c g
  let x0 ← d.s24Bits a s c g 0
  let x1 ← d.s24Bits a s c g 1
  let sc ← d.tenScale a s.ten (4 * g) c
  pure [⟨4 * g + p0, x0, sc⟩, ⟨4 * g + p1, x1, sc⟩]

/-- Does a group's code break R60? -/
def Device.s24Bad (d : Device) (a : Actor) (s : S24) (c g : Nat) : Except MemErr Bool := do
  let (p0, p1) ← d.s24Code a s c g
  let x0 ← d.s24Bits a s c g 0
  let x1 ← d.s24Bits a s c g 1
  pure (decide (p1 ≤ p0) || (decide (s.k ≤ 4 * g + p0) && !isPlusZero x0) || (decide (s.k ≤ 4 * g + p1) && !isPlusZero x1))

/-- Is 4 × 4 block (a, b) whole and each position in exactly two of its columns' codes (R67, R88)? -/
def Device.s24Turns (d : Device) (act : Actor) (s : S24) (a b : Nat) : Except MemErr Bool := do
  if s.k < 4 * a + 4 ∨ s.n < 4 * b + 4 then pure false
  else
    let cs ← (List.range 4).mapM fun j => d.s24Code act s (4 * b + j) a
    pure ((List.range 4).all fun p => (cs.filter fun c => c.1 == p || c.2 == p).length == 2)

/-- The group b along N that a turn makes of K position 4a + q: the two columns whose codes hold q, their stored values
unmoved (R70). -/
def Device.s24TurnedGroup (d : Device) (act : Actor) (s : S24) (a q b : Nat) : Except MemErr (List Elem) := do
  let js := (List.range 4).filter fun j => decide (4 * b + j < s.n)
  let es ← js.mapM fun j => do
    let (p0, p1) ← d.s24Code act s (4 * b + j) a
    if p0 = q ∨ p1 = q then
      let x ← d.s24Bits act s (4 * b + j) a (if p0 = q then 0 else 1)
      let sc ← d.tenScale act s.ten (4 * a) (4 * b + j)
      pure [⟨4 * b + j, x, sc⟩]
    else pure []
  pure es.flatten

/-! ### Admissible patterns (R68) -/

/-- The two positions of a pair. -/
def pairPos (p : Nat) : List Nat :=
  match p with
  | 0 => [0, 1]
  | 1 => [0, 2]
  | 2 => [0, 3]
  | 3 => [1, 2]
  | 4 => [1, 3]
  | _ => [2, 3]

/-- Is a tuple of four pairs admissible? -/
def admissible (t : List Nat) : Bool :=
  (List.range 4).all fun p => (t.filter fun c => (pairPos c).contains p).length == 2

/-- The admissible tuples in ascending lexicographic order; a tuple's place is its index. -/
def patterns : List (List Nat) :=
  ((List.range 1296).map fun i => [i / 216, i / 36 % 6, i / 6 % 6, i % 6]).filter admissible

/-- The positions a pattern keeps for column `j` of its block. -/
def patternKeeps (idx j : Nat) : List Nat := pairPos ((patterns.getD idx []).getD j 0)

end Sys2Proof.Machine
end

