-- ==== Sys2Proof/Machine/Product.lean ====
section
/-! DEFINITION. Products on the row engines: the item's fields and checks, the tiles, their accumulators and drains, split-K
(R24 to R27, R34, R38 to R51, R54, R64 to R66, R74 to R82, R83 to R90, R108, R109, R261, R262). -/

namespace Sys2Proof.Machine

/-! ### The fields of a product (R261, R262) -/

/-- A product as its descriptor and its operand record give it: extents, mode, formats, conversion, split count, ids, the
arrays of its operands and its destinations. -/
structure Prod where
  m      : Nat
  n      : Nat
  k      : Nat
  mode   : Nat
  load   : Bool
  turnA  : Bool
  turnB  : Bool
  tap    : Bool
  grad   : Bool
  aFmt   : Nat
  bFmt   : Nat
  cFmt   : Nat
  conv   : Nat
  split  : Nat
  srT    : Word
  srS    : Word
  a      : Src
  aAux   : Src
  aRow   : Src
  b      : Src
  bAux   : Src
  bMeta  : Src
  init   : Src
  lda    : Nat
  ldb    : Nat
  ldi    : Nat
  aZc    : Bool
  b24    : Bool
  deriving Repr

/-- The stash entry an operand is claimed from (R263). -/
def Item.claimOf (it : Item) (operand : Nat) : Option Nat := (it.claims.find? fun c => c.1 == operand).map Prod.snd

/-- Bytes of an array of elements, up to the next 64 B boundary. -/
def alignedBytes (elems fmt : Nat) : Nat := ceilDiv (ceilDiv (elems * fmtBits fmt) 8) 64 * 64

/-- Where the masks of a claimed ZC operand begin: its segment ends with the row table, and the masks come before it, each
from a 64 B boundary (R434). -/
def zcSegOffsets (len rows rowLen : Nat) : Nat × Nat :=
  let tab := len - 8 * rows
  (tab - ceilDiv (8 * rows * ceilDiv rowLen 64) 64 * 64, tab)

/-- The product of an item. -/
def Device.prod (d : Device) (it : Item) : Prod :=
  let x := it.desc
  let w := field x 0x28 1
  let mode := w % 4
  let m := field x 0x18 4
  let n := field x 0x1C 4
  let k := field x 0x20 8
  let turnA := bitOf w 3
  let aFmt := field x 0x29 1
  let bFmt := field x 0x2A 1
  let aZc := decide (2 ≤ mode) || mode == 0 && it.opAddr 0x10 != 0
  let b24 := mode % 2 == 1 || mode == 0 && it.opAddr 0x28 != 0
  let rows := if turnA then k else m
  let segLen := fun (st : Nat) => match d.segAt st with
    | some s => s.len
    | none => 0
  let claim := fun (op off : Nat) => match it.claimOf op with
    | some st => Src.seg st off
    | none => .va 0
  let aClaim := (it.claimOf 0).isSome
  let bClaim := (it.claimOf 1).isSome
  let zo := zcSegOffsets (segLen ((it.claimOf 0).getD 0)) rows (if turnA then m else k)
  let bRows := if bitOf w 4 then (if b24 then 2 * ceilDiv n 4 else n) else if b24 then 2 * ceilDiv k 4 else k
  let bLen := if bitOf w 4 then k else n
  { m := m, n := n, k := k, mode := mode, load := bitOf w 2, turnA := turnA, turnB := bitOf w 4, tap := bitOf w 6
    grad := bitOf w 7, aFmt := aFmt, bFmt := bFmt, cFmt := field x 0x2B 1, conv := field x 0x2C 1, split := field x 0x2D 1
    srT := BitVec.ofNat 32 (field x 0x30 4), srS := BitVec.ofNat 32 (field x 0x34 4)
    a := if aClaim then claim 0 0 else .va (it.opAddr 0)
    aAux := if aClaim then claim 0 (if aZc then zo.1 else alignedBytes (m * k) aFmt) else .va (it.opAddr 8)
    aRow := if aClaim then claim 0 zo.2 else .va (it.opAddr 0x10)
    b := if bClaim then claim 1 0 else .va (it.bAddr.getD (it.opAddr 0x18))
    bAux := if bClaim then claim 1 (alignedBytes (bRows * bLen) bFmt) else .va (it.opAddr 0x20)
    bMeta := .va (it.opAddr 0x28)
    init := if (it.claimOf 2).isSome then claim 2 0 else .va (it.opAddr 0x40)
    lda := if aClaim then 0 else field it.oprec 0x60 4
    ldb := if bClaim then 0 else field it.oprec 0x64 4
    ldi := if (it.claimOf 2).isSome then 0 else field it.oprec 0x6C 4
    aZc := aZc, b24 := b24 }

/-- Does the product accumulate in INT32 (R27)? -/
def Prod.int (p : Prod) : Bool := p.aFmt == 0x07 && p.bFmt == 0x07

/-- MXFP8 and MXFP6 formats. -/
def mx86 (f : Nat) : Bool := decide (0x09 ≤ f ∧ f ≤ 0x0C)

/-- The chunk length of a pair of formats; none for a pair no engine takes (R40). -/
def pairLen (a b : Nat) : Option Nat :=
  let h := fun (f : Nat) => f == 0x03 || f == 0x04
  let e := fun (f : Nat) => f == 0x05 || f == 0x06
  if h a && h b then some 32
  else if e a && e b then some 64
  else if mx86 a && mx86 b then some 64
  else if a == 0x0D && mx86 b then some 64
  else if mx86 a && b == 0x0D then some 64
  else if a == 0x0D && b == 0x0D then some 128
  else if a == 0x0E && b == 0x0E then some 64
  else if a == 0x07 && b == 0x07 then some 64
  else none

/-- Chunk length of a product. -/
def Prod.chunk (p : Prod) : Nat := (pairLen p.aFmt p.bFmt).getD 64

/-- Positions of a unit of K (R34). -/
def Prod.unit (p : Prod) : Nat := if p.mode = 0 then p.chunk else 2 * p.chunk

/-- Units of K. -/
def Prod.units (p : Prod) : Nat := ceilDiv p.k p.unit

/-- Formats an accumulator drains to (R45). -/
def drainOk (int : Bool) (c : Nat) : Bool :=
  if int then [0x00, 0x01, 0x07].contains c else [0x00, 0x03, 0x04, 0x05, 0x06].contains c || isMx c

/-- Formats of a ZC operand (R73). -/
def zcFmt (f : Nat) : Bool := [0x03, 0x04, 0x05, 0x06, 0x07].contains f

/-- The save and claim words are legal (R263). -/
def saveOk (oprec : List Byte) : Bool :=
  let save := field oprec 0x70 8
  let claim := fun (w : Nat) => !bitOf w 30 && !(bitOf w 31 && bitsOf w 29 28 == 3)
  decide (save < 2 ^ 34) && !(bitOf save 33 && bitsOf save 31 28 == 0) && claim (field oprec 0x78 4) &&
    claim (field oprec 0x7C 4)

/-- Does the operand record claim an operand? -/
def claims? (oprec : List Byte) (operand : Nat) : Bool :=
  [field oprec 0x78 4, field oprec 0x7C 4].any fun w => bitOf w 31 && bitsOf w 29 28 == operand

/-- Does the item save its output? -/
def saves? (oprec : List Byte) : Bool := bitOf (field oprec 0x70 8) 33

/-- The checks of a product's pair, mode, formats and addresses: an address that is not used is 0 (R40, R41, R45, R73, R89,
R262, R434). -/
def prodLegal (it : Item) (p : Prod) : Bool :=
  let claimed := claims? it.oprec
  let zero := fun (used : Bool) (off : Nat) => used || it.opAddr off == 0
  (pairLen p.aFmt p.bFmt).isSome && drainOk p.int p.cFmt && (p.mode < 2 || !p.turnA && !isMx p.aFmt) &&
    (!p.aZc || zcFmt p.aFmt) &&
    (zero (isMx p.aFmt || p.aZc || claimed 0) 0x08 && zero (p.aZc || claimed 0) 0x10 &&
      zero (isMx p.bFmt || claimed 1) 0x20 && zero p.b24 0x28 && zero (isMx p.cFmt) 0x38 && zero (p.load || claimed 2) 0x40 &&
      zero (decide (1 < p.split)) 0x48 && zero p.tap 0x50) &&
    (it.opAddr 0x30 != 0 || saves? it.oprec)

/-- The alignments of a product's sparse operands (R59, R72). -/
def prodAligned (it : Item) (p : Prod) : Bool :=
  (!p.aZc || claims? it.oprec 0 || it.opAddr 0x08 % 64 == 0 && it.opAddr 0x10 % 64 == 0 && it.opAddr 0 % 32 == 0) &&
    (!p.b24 || it.opAddr 0x28 % 64 == 0)

/-! ### Operand values (R59, R70 to R75, R83 to R89) -/

/-- +0. -/
def numZero : Num := .fin false 0 0

/-- The value at a position of a list of stored ones, +0 elsewhere. -/
def atPos (xs : List (Nat × Num)) (p : Nat) : Num :=
  match xs.find? fun e => e.1 == p with
  | some e => e.2
  | none => numZero

/-- Positions of a range that lie below an extent. -/
def posRange (lo hi k : Nat) : List Nat := (List.range (min hi k - lo)).map fun i => lo + i

/-- A's ZC tensor: its stored rows are the product's rows, or positions of the reduction when turned. -/
def Prod.zc (p : Prod) : Zc := ⟨p.aAux, p.aRow, p.a, p.aFmt, if p.turnA then p.m else p.k⟩

/-- B's 2:4 tensor. -/
def Prod.s24 (p : Prod) : S24 :=
  if p.turnB then ⟨⟨p.b, p.bAux, p.bFmt, 2 * ceilDiv p.n 4, p.k, p.ldb, false⟩, p.bMeta, p.n, p.k⟩
  else ⟨⟨p.b, p.bAux, p.bFmt, 2 * ceilDiv p.k 4, p.n, p.ldb, false⟩, p.bMeta, p.k, p.n⟩

/-- The element at a position of a list of stored ones, +0 elsewhere. -/
def atElem (xs : List Elem) (p : Nat) : Elem := (xs.find? fun e => e.pos == p).getD ⟨p, 0, 0⟩

/-- The elements of row `r` of A at positions `lo` to `hi - 1`: the stored ones of a ZC operand in a ZC mode, else all. -/
def Prod.rowElems (p : Prod) (d : Device) (a : Actor) (r lo hi : Nat) : Except MemErr (List Elem) :=
  if p.aZc then
    if p.turnA then (posRange lo hi p.k).mapM fun i => do
      let row ← d.zcRow a p.zc i
      pure { atElem row r with pos := i }
    else do
      let row ← d.zcRow a p.zc r
      pure (row.filter fun e => decide (lo ≤ e.pos ∧ e.pos < min hi p.k))
  else if p.turnA then do
    let xs ← (posRange lo hi p.k).mapM fun i => d.tenElem a ⟨p.a, p.aAux, p.aFmt, p.k, p.m, p.lda, true⟩ i i r
    pure (turnedElems p.aFmt xs)
  else (posRange lo hi p.k).mapM fun i => d.tenElem a ⟨p.a, p.aAux, p.aFmt, p.m, p.k, p.lda, true⟩ i r i

/-- The elements of column `c` of B at positions `lo` to `hi - 1`: the stored ones of a 2:4 operand, else all. -/
def Prod.colElems (p : Prod) (d : Device) (a : Actor) (c lo hi : Nat) : Except MemErr (List Elem) :=
  let groups := (List.range (ceilDiv (min hi p.k) 4 - lo / 4)).map fun g => lo / 4 + g
  if p.b24 then
    if p.turnB then do
      let xs ← groups.mapM fun g => d.s24TurnedGroup a p.s24 (c / 4) (c % 4) g
      pure (turnedElems p.bFmt xs.flatten)
    else do
      let xs ← groups.mapM fun g => d.s24Group a p.s24 c g
      pure xs.flatten
  else if p.turnB then do
    let xs ← (posRange lo hi p.k).mapM fun i => d.tenElem a ⟨p.b, p.bAux, p.bFmt, p.n, p.k, p.ldb, false⟩ i c i
    pure (turnedElems p.bFmt xs)
  else (posRange lo hi p.k).mapM fun i => d.tenElem a ⟨p.b, p.bAux, p.bFmt, p.k, p.n, p.ldb, false⟩ i i c

/-- The values of a row of A. -/
def Prod.rowOf (p : Prod) (d : Device) (a : Actor) (r lo hi : Nat) : Except MemErr Elems :=
  (p.rowElems d a r lo hi).map (elemVals p.aFmt)

/-- The values of a column of B. -/
def Prod.colOf (p : Prod) (d : Device) (a : Actor) (c lo hi : Nat) : Except MemErr Elems :=
  (p.colElems d a c lo hi).map (elemVals p.bFmt)

/-! ### Lane steps (R24 to R27, R65, R75, R78) -/

/-- One lane step. -/
def laneStep (int : Bool) (acc : Word) (ps : List Num) : Word :=
  if int then intSum acc (ps.map (Num.toInt .zero)) else chunkSum acc ps

/-- Products padded with +0 to a chunk (R25). -/
def padTo (n : Nat) (ps : List Num) : List Num := ps ++ List.replicate (n - ps.length) numZero

/-- A list cut into pieces of `n`. -/
def pieces {α : Type} (n : Nat) : Nat → List α → List (List α)
  | 0, _ => []
  | _ + 1, [] => []
  | f + 1, x :: xs => (x :: xs).take n :: pieces n f ((x :: xs).drop n)

/-- What a lane adds in one unit of K, from position `lo` on. -/
def Prod.laneUnit (p : Prod) (acc : Word) (row col : List (Nat × Num)) (lo : Nat) : Word :=
  let inWin := fun (e : Nat × Num) => decide (lo ≤ e.1 ∧ e.1 < lo + p.unit)
  match p.mode with
  | 0 =>
    laneStep p.int acc (padTo p.chunk ((posRange lo (lo + p.unit) p.k).map fun i => (atPos row i).mul (atPos col i)))
  | 1 => laneStep p.int acc (padTo p.chunk ((col.filter inWin).map fun e => (atPos row e.1).mul e.2))
  | 2 =>
    (pieces p.chunk p.unit (row.filter inWin)).foldl (fun acc es =>
      laneStep p.int acc (es.map fun e => e.2.mul (atPos col e.1))) acc
  | _ =>
    let stored := row.filter inWin
    if stored.isEmpty then acc
    else laneStep p.int acc ((col.filter fun e => inWin e && stored.any fun s => s.1 == e.1).map fun e =>
      (atPos stored e.1).mul e.2)

/-! ### Tiles (R34, R46, R80) -/

/-- The units of K that a split reduces (R34). -/
def Prod.splitUnits (p : Prod) (s : Nat) : Nat × Nat := (s * p.units / p.split, (s + 1) * p.units / p.split)

/-- The initial accumulator of a place (R34, R43). Split 0 starts from it even where it is empty, S being greater than C (log 88). -/
def Prod.initial (p : Prod) (d : Device) (a : Actor) (split r c : Nat) : Except MemErr Word :=
  if p.load && split == 0 then do
    let x ← d.srcNat a p.init 4 (4 * (r * (if p.ldi = 0 then p.n else p.ldi) + c))
    pure (BitVec.ofNat 32 x)
  else .ok 0

/-- Units of K that a tile reduces. -/
def Prod.length (p : Prod) (t : Tile) : Nat := (p.splitUnits t.split).2 - (p.splitUnits t.split).1

/-- The positions of K from unit `i` of a tile up to unit `j`. -/
def Prod.reach (p : Prod) (t : Tile) (i j : Nat) : Nat × Nat :=
  (((p.splitUnits t.split).1 + i) * p.unit, ((p.splitUnits t.split).1 + j) * p.unit)

/-- The initial accumulators of a tile, row by row (R43). -/
def Prod.initials (p : Prod) (d : Device) (a : Actor) (t : Tile) : Except MemErr (List (List Word)) :=
  (List.range t.m).mapM fun i => (List.range t.w).mapM fun j => p.initial d a t.split (t.row + i) (t.col + j)

/-- The positions of a list at which a check fails. -/
def failing (xs : List Nat) (bad : Nat → Except MemErr Bool) : Except MemErr (List Nat) := do
  let ys ← xs.mapM fun x => do
    let b ← bad x
    pure (if b then [x] else [])
  pure ys.flatten

/-- The sparse violations of a turned 2:4 operand in the blocks of K rows `a0` to `a1 - 1` and columns `b0` to `b1 - 1` of
4: blocks that do not turn, and codes out of range (R60, R80, R88). -/
def Device.turnChecks (d : Device) (act : Actor) (s : S24) (a0 a1 b0 b1 : Nat) : Except MemErr (List (Status × Nat)) := do
  let as := (List.range (a1 - a0)).map fun i => a0 + i
  let bs := (List.range (b1 - b0)).map fun i => b0 + i
  let blocks ← as.mapM fun a => failing bs fun b => do
    let ok ← d.s24Turns act s a b
    pure !ok
  let codes ← as.mapM fun a => failing ((bs.flatMap fun b => (List.range 4).map fun j => 4 * b + j).filter
    fun c => decide (c < s.n)) fun c => d.s24Bad act s c a
  pure (((as.zip blocks).flatMap fun e => e.2.map fun b =>
      (Status.maskNotTransposable, detailPos (e.1 * ceilDiv s.n 4 + b) 1)) ++
    (as.zip codes).flatMap fun e => e.2.map fun c => (Status.indexRange, detailPos (c * ceilDiv s.k 4 + e.1) 1))

/-- The sparse violations in what a tile consumes, with their details; a turned 2:4 operand is checked by the TXB (R80, R81,
R88, R274). -/
def Prod.tileChecks (p : Prod) (d : Device) (a : Actor) (t : Tile) : Except MemErr (List (Status × Nat)) := do
  let (u0, u1) := p.splitUnits t.split
  let lo := u0 * p.unit
  let hi := min (u1 * p.unit) p.k
  let zs ← if p.aZc then
      failing (if p.turnA then posRange lo hi p.k else (List.range t.m).map fun i => t.row + i) fun r => d.zcBad a p.zc r
    else pure []
  let bs ← if p.b24 && !p.turnB then do
      let gs := (List.range (ceilDiv hi 4 - lo / 4)).map fun g => lo / 4 + g
      let xs ← (List.range t.w).mapM fun j => failing gs fun g => d.s24Bad a p.s24 (t.col + j) g
      pure (xs.zipIdx.flatMap fun e => e.1.map fun g =>
        (Status.indexRange, detailPos ((t.col + e.2) * ceilDiv p.k 4 + g) 1))
    else pure []
  pure (zs.map (fun r => (Status.indexRange, detailPos r 3)) ++ bs)

/-- What the windows of a row group count: beats, skipped windows, fall-backs, and slots that idle (SPARSE_PACE). -/
structure ZcCounts where
  beats   : Nat
  skipped : Nat
  falls   : Nat
  idle    : Nat
  deriving DecidableEq, Repr, Inhabited

/-- What a row group counts in the windows of a split (R74, R78, R82). -/
def Prod.zcCounts (p : Prod) (d : Device) (a : Actor) (t : Tile) : Except MemErr ZcCounts :=
  if p.mode < 2 then .ok ⟨0, 0, 0, 0⟩
  else do
    let (u0, u1) := p.splitUnits t.split
    let rows ← (List.range t.m).mapM fun i => p.rowOf d a (t.row + i) (u0 * p.unit) (u1 * p.unit)
    let stored := fun (u : Nat) => rows.map fun r =>
      (r.filter fun e => decide (u * p.unit ≤ e.1 ∧ e.1 < (u + 1) * p.unit)).length
    let us := (List.range (u1 - u0)).map fun i => stored (u0 + i)
    let live := us.filter fun w => w.any (· != 0)
    let skipped := us.length - live.length
    if p.mode = 2 then
      let beats := fun (w : List Nat) => w.foldl (fun b x => max b (ceilDiv x p.chunk)) 0
      pure ⟨(live.map beats).sum, skipped, 0, (live.map fun w => (w.map fun x => beats w - ceilDiv x p.chunk).sum).sum⟩
    else pure ⟨0, skipped, (live.map fun w => (w.filter fun x => decide (p.chunk < x)).length).sum,
      (live.map fun w => (w.filter fun x => x == 0).length).sum⟩

/-! ### RE_PRODUCT (R40, R41, R89, R137, R138) -/

/-- Do the saves that the item's claims wait for still run? -/
def Device.claimWaits (d : Device) (it : Item) : Bool :=
  it.claims.any fun c => (d.segAt c.2).any fun s => !s.ready

/-- A claim word's tag (R263). -/
def claimTag (c w : Nat) : Tag := ⟨c, bitsOf w 11 0, bitsOf w 21 12, bitsOf w 27 22⟩

/-- The first claim whose save has failed since, or whose segment was dropped: the detail that names its tag (R138). -/
def Device.claimLost (d : Device) (it : Item) : Option Nat :=
  (it.claims.zip ([field it.oprec 0x78 4, field it.oprec 0x7C 4].filter fun w => bitOf w 31)).findSome? fun e =>
    match d.segAt e.1.2 with
    | none => some (detailTag (claimTag it.ctx e.2) false)
    | some s => if s.kind = .dropped then some (detailTag (claimTag it.ctx e.2) true) else none

/-- Starts a dispatched item once its claims stand: it waits for deferred items that name it and for running saves, ends with
RECOMPUTE_NEEDED where a claim finds no data, and else goes on. -/
def Device.startClaimed (d : Device) (it : Item) (go : Device → Device) : Device :=
  if d.claimWaits it || d.deferWait it then d
  else match d.claimLost it with
    | some x => (d.updItem it.ctx it.seq fun y => { y with recompute := some x, phase := .done }).settleWork it.ctx it.seq
    | none => go d

/-- RE_PRODUCT: the record is checked and the item's tiles can be dealt. -/
def reProduct (c q : Nat) (p : Platform) (d : Device) : Device :=
  match d.item c q with
  | none => d
  | some it =>
    if it.typ ≠ 1 ∨ it.phase ≠ .dispatched then d
    else
      let pr := d.prod it
      if !prodLegal it pr then d.itemFault p it 1 60 0xFF .illegalInstr 0
      else if !prodAligned it pr then d.itemFault p it 1 60 0xFF .misaligned 0
      else d.startClaimed it fun d => d.updItem c q fun x => { x with phase := .running, deal := ⟨0, 0, 0, 0, true⟩ }

/-- RE_PRODUCT. -/
def execReProduct (ctx seq : Nat) (s : State) : Out := onDev (reProduct ctx seq) s

/-! ### TILE_DEAL (R46, R47, R54, R94, R102, R283) -/

/-- Inserts a tile behind those of equal or better rank (R284). -/
def insertTile (t : Tile) : List Tile → List Tile
  | [] => [t]
  | x :: xs => if t.rank < x.rank then t :: x :: xs else x :: insertTile t xs

/-- Tiles an engine holds, queued or in its banks. -/
def RowEng.tiles (r : RowEng) : List Tile :=
  r.queue ++ r.bank0.tile.toList ++ r.bank1.tile.toList ++ (r.parked.bind Bank.tile).toList

/-- Can an engine run a tile of an item, `w` columns wide: it is ON, wide enough, and its die's TXB is ON where the item turns
an operand (R47, R54, R102)? -/
def Device.fitsTile (d : Device) (it : Item) (w die k : Nat) : Bool :=
  let r := d.re die k
  let turned := bitOf (field it.desc 0x28 1) 3 || bitOf (field it.desc 0x28 1) 4
  r.blk.isOn && decide (max w 1 ≤ presented r.bad) && (!turned || (d.die die).txb.isOn)

/-- Is an item with tiles left to deal? -/
def Item.dealing (it : Item) : Bool :=
  it.phase == .running && it.deal.ready && decide (it.deal.col < field it.desc 0x1C 4) && it.typ == 1

/-- Are the tiles of an item dealt before another's of the slice: work of a better rank, and at rank 3 promoted items in
ring order before the rest of class 2 (R91, R94, R95)? `older` says that it comes first in the order of fetch. -/
def Item.dealtBefore (x it : Item) (older : Bool) : Bool :=
  x.slice == it.slice && x.dealing && !x.isWork &&
    (decide (x.rank < it.rank) || (x.rank == 3 && it.rank == 3 && x.promoted && (!it.promoted || older)))

/-- Does another item of the slice have tiles left that an engine could run and that are dealt first? -/
def Device.dealsFirst (d : Device) (it : Item) (die k : Nat) : Bool :=
  let isIt := fun (x : Item) => x.ctx == it.ctx && x.seq == it.seq
  (d.hub.items.takeWhile fun x => !isIt x).any (fun x => x.dealtBefore it true && d.fitsTile x x.deal.width die k) ||
    d.hub.items.any fun x => !isIt x && x.dealtBefore it false && d.fitsTile x x.deal.width die k

/-- May an engine be dealt a tile of an item, `w` columns wide: it can run it and has room, no tile goes first, and a filler
tile finds neither ranks 1 to 3 nor another filler tile there (R54, R91, R94, R102)? -/
def Device.dealable (d : Device) (it : Item) (w die k : Nat) : Bool :=
  let r := d.re die k
  d.fitsTile it w die k && decide (r.queue.length < 64) && !d.dealsFirst it die k &&
    (it.rank != 4 || (!(r.queue.any fun t => decide (t.rank ≤ 3)) && !(r.tiles.any fun t => t.rank == 4)))

/-- The engine with the shortest queue, the first of those in die and engine order. -/
def Device.shortest (d : Device) (es : List (Nat × Nat)) : Option (Nat × Nat) :=
  match es with
  | [] => none
  | e :: rest => some (rest.foldl (fun a b =>
      if (d.re b.1 b.2).queue.length < (d.re a.1 a.2).queue.length then b else a) e)

/-- Row engines of a slice in die and engine order. -/
def Device.sliceEngines (d : Device) (slice : Nat) : List (Nat × Nat) :=
  (d.slice slice).dieList.flatMap fun i => (List.range Config.enginesPerDie).map fun k => (i, k)

/-- Does an older deferred item of the slice have tiles left (R94)? The queue keeps each ring's order; between rings the model
takes the order of fetch (log 79). -/
def Device.olderFiller (d : Device) (it : Item) : Bool :=
  (d.hub.items.takeWhile fun x => !(x.ctx == it.ctx && x.seq == it.seq)).any fun x =>
    x.slice == it.slice && x.rank == 4 && x.dealing

/-- The next place of a deal after `len` row groups. -/
def Deal.next (x : Deal) (w groups splits len : Nat) : Deal :=
  if x.group + len < groups then { x with width := w, group := x.group + len }
  else if x.split + 1 < splits then { x with width := w, group := 0, split := x.split + 1 }
  else { x with col := x.col + w, width := 0, group := 0, split := 0 }

/-- Deals one run of an item's tiles (R283). -/
def Device.dealRun (d : Device) (it : Item) (pr : Prod) (e : Nat × Nat) : Device :=
  let r := d.re e.1 e.2
  let x := it.deal
  let w := if x.width = 0 then min (presented r.bad) (pr.n - x.col) else x.width
  let groups := ceilDiv pr.m 64
  let len := if it.rank = 4 then 1 else min (min 8 (64 - r.queue.length)) (groups - x.group)
  let ts := (List.range len).map fun i =>
    (⟨it.ctx, it.seq, 64 * (x.group + i), x.col, min 64 (pr.m - 64 * (x.group + i)), w, x.split, it.rank⟩ : Tile)
  let d1 := d.updRe e.1 e.2 fun r => { r with queue := ts.foldl (fun q t => insertTile t q) r.queue }
  d1.updItem it.ctx it.seq fun y => { y with deal := x.next w groups pr.split len, out := y.out + len }

/-- The tiles of a work record: row groups of 64 of its whole width, split by split (R46, R179; log 26). -/
def workTiles (it : Item) (pr : Prod) : List Tile :=
  (List.range pr.split).flatMap fun s => (List.range (ceilDiv pr.m 64)).map fun i =>
    ⟨it.ctx, it.seq, 64 * i, 0, min 64 (pr.m - 64 * i), pr.n, s, it.rank⟩

/-- Queues a work record's next tiles on an engine, as far as its queue has room: 64 tiles (R181, R284); none while other tiles
are dealt there first, such as those of a promoted item (R94, R95). `deal.group` counts those queued, and `blocks` names the
engine. -/
def Device.queueWork (d : Device) (it : Item) (die k : Nat) : Device :=
  let all := workTiles it (d.prod it)
  let n := it.deal.group
  let ts := if d.dealsFirst it die k then [] else (all.drop n).take (64 - (d.re die k).queue.length)
  (d.updRe die k fun r => { r with queue := ts.foldl (fun q t => insertTile t q) r.queue }).updItem it.ctx it.seq fun x =>
    { x with
      phase := .running, deal := ⟨0, (d.prod it).n, 0, n + ts.length, decide (n + ts.length < all.length)⟩
      blocks := 8 * die + k, out := x.out + ts.length }

/-- The tiles of a work record that its engine's queue had no room for go there, or while it is not ON to an engine of its die
that can run them (R180). -/
def Device.dealWork (d : Device) (it : Item) : Device :=
  let die := it.blocks / 8
  let here := fun (k : Nat) => d.fitsTile it (d.prod it).n die k && decide ((d.re die k).queue.length < 64)
  if here (it.blocks % 8) then d.queueWork it die (it.blocks % 8)
  else if (d.re die (it.blocks % 8)).blk.isOn then d
  else match d.shortest (((List.range Config.enginesPerDie).filter here).map fun k => (die, k)) with
    | none => d
    | some e => d.queueWork it e.1 e.2

/-- TILE_DEAL: the next run goes to the eligible engine with the fewest tiles. -/
def tileDeal (c q : Nat) (d : Device) : Device :=
  match d.item c q with
  | none => d
  | some it =>
    if !it.dealing || it.rank == 4 && d.olderFiller it then d
    else if it.isWork then d.dealWork it
    else
      let pr := d.prod it
      match d.shortest ((d.sliceEngines it.slice).filter fun e => d.dealable it it.deal.width e.1 e.2) with
      | none => d
      | some e => d.dealRun it pr e

/-- TILE_DEAL. -/
def execTileDeal (ctx seq : Nat) (s : State) : Out := onDev (fun _ => tileDeal ctx seq) s

/-! ### Banks, panels and the registers of the lanes (R38, R39, R42, R43, R50, R51, R63) -/

/-- May an engine issue: it is ON or finishing its work, not halted, and its clock runs (R54, R57, R378)? -/
def Device.engineRuns (d : Device) (p : Platform) (die k : Nat) : Bool :=
  let r := d.re die k
  (r.blk.st == .on || r.blk.st == .stopping) && !r.halted && p.pow.unitRuns die k

/-- The bank the next tile takes. -/
def RowEng.nextBank (r : RowEng) : Bank := r.bank r.turn

/-- Sets the next bank, the other one draining from now on. -/
def RowEng.fill (r : RowEng) (b : Bank) : RowEng :=
  let go := fun (x : Bank) => if x.st = .filling then { x with st := .draining } else x
  if r.turn then { r with bank1 := b, bank0 := go r.bank0, turn := false }
  else { r with bank0 := b, bank1 := go r.bank1, turn := true }

/-- A bank is free again; it keeps the accumulators it held. -/
def RowEng.freeBank (r : RowEng) (which : Bool) : RowEng :=
  r.setBank which { r.bank which with st := .free, tile := none, comb := false, pos := 0, loaded := false }

/-- May work take a bank: it is free, or it loads for a tile that has not started, whose LOAD is then begun anew (R43, R48)? -/
def Bank.ready (b : Bank) : Bool := b.st == .free || b.st == .loading

/-- The bank that drains, else the one that fills. -/
def RowEng.drainBank (r : RowEng) : Option (Bool × Bank) :=
  match [(false, r.bank0), (true, r.bank1)].find? fun b => b.2.st == .draining with
  | some b => some b
  | none => [(false, r.bank0), (true, r.bank1)].find? fun b => b.2.st == .filling

/-- The accumulators of a tile's rows and columns. -/
def Bank.rows (b : Bank) (t : Tile) : List (List Word) :=
  (List.range t.m).map fun i => (List.range t.w).map fun j => b.get i j

/-- Entries of a bank take the values of rows from row `i` on; the others keep theirs. -/
def Bank.put (b : Bank) (i : Nat) (rows : List (List Word)) : Bank :=
  { b with acc := rows.zipIdx.foldl (fun m r => r.1.zipIdx.foldl (fun m x => FMap.set 0 m (512 * (i + r.2) + x.2) x.1) m) b.acc }

/-- Bytes of the stream region, of which 128 KiB stay free for a parked bank (R50, R288). -/
def RowEng.streamBytes (r : RowEng) : Nat :=
  (if r.split = 0 then 3 * 2 ^ 19 else if r.split = 2 then 2 ^ 19 else 2 ^ 20) - 2 ^ 17

/-- Bytes of the stationary region (R58). -/
def RowEng.region (r : RowEng) : Nat := if r.split = 0 then 2 ^ 19 else if r.split = 2 then 3 * 2 ^ 19 else 2 ^ 20

/-- Bytes of a tile's panel as the stationary region holds it: values, codes and block scales; a 2:4 operand of a DENSE
product lies there expanded (R50, R51, R66, R79). A tile narrower than the engine is measured and fetched at its own width
(DESIGN CHOICE, log 99). -/
def Prod.panelBytes (p : Prod) (t : Tile) : Nat :=
  let (lo, hi) := p.reach t 0 (p.length t)
  let ks := min hi p.k - lo
  let vals := if p.mode % 2 = 1 then ceilDiv ks 4 * 2 else ks
  ceilDiv (vals * t.w * fmtBits p.bFmt) 8 + (if p.mode % 2 = 1 then ceilDiv (ks * t.w) 8 else 0) +
    (if isMx p.bFmt then ceilDiv ks 32 * t.w else 0)

/-- The panel that the stationary region holds for a tile (R51). -/
def RowEng.resident (r : RowEng) (t : Tile) : Option Panel :=
  r.panel.filter fun x => x.ctx == t.ctx && x.seq == t.seq && x.col == t.col && x.w == t.w && x.split == t.split

/-- Does the tile's panel fit the stationary region? -/
def Prod.panelFits (p : Prod) (r : RowEng) (t : Tile) : Bool := decide (p.panelBytes t ≤ r.region)

/-- The range of K that a tile's columns are fetched for as it comes from unit `i` to unit `j`: all of its split where the panel
stays. -/
def Prod.fetched (p : Prod) (r : RowEng) (t : Tile) (i j : Nat) : Nat × Nat :=
  if p.panelFits r t then p.reach t 0 (p.length t) else p.reach t i j

/-- Origins of stored tiles of 128 that meet a range. -/
def origins (a n : Nat) : List Nat :=
  if n = 0 then [] else (List.range (ceilDiv (a + n) 128 - a / 128)).map fun i => (a / 128 + i) * 128

/-- The stored tiles of its turned operands that a tile needs as it comes from unit `i` to unit `j`: operand and origin
(R85). -/
def Prod.turns (p : Prod) (r : RowEng) (t : Tile) (i j : Nat) : List (Bool × Nat × Nat) :=
  let (alo, ahi) := p.reach t i j
  let (blo, bhi) := p.fetched r t i j
  (if p.turnA then (origins alo (min ahi p.k - alo)).flatMap fun x => (origins t.row t.m).map fun y => (false, x, y)
    else []) ++
    if p.turnB && (r.resident t).isNone then
      (origins t.col t.w).flatMap fun x => (origins blo (min bhi p.k - blo)).map fun y => (true, x, y)
    else []

/-- Has the TXB turned a stored tile for a tile? -/
def RowEng.hasTurned (r : RowEng) (t : Tile) (x : Bool × Nat × Nat) : Bool :=
  r.turned.any fun y => y.tile == t && y.isB == x.1 && y.row == x.2.1 && y.col == x.2.2

/-- The chunk of a column at a unit of K: every position of a dense chunk or window, the stored elements of a 2:4 one
(R38, R63, R65, R74). -/
def Prod.chunkOf (p : Prod) (col : List Elem) (u : Nat) : List Elem :=
  let lo := u * p.unit
  if p.mode % 2 = 0 then (posRange lo (lo + p.unit) p.k).map (atElem col)
  else col.filter fun e => decide (lo ≤ e.pos ∧ e.pos < lo + p.unit)

/-- A lane's registers once unit `u` of its column has entered them (R38, R63, R74). -/
def Prod.fillLane (p : Prod) (col : List Elem) (u : Nat) (x : LaneSet) : LaneSet :=
  let es := p.chunkOf col u
  let vals := packNum (fmtBits p.bFmt) (es.map Elem.bits)
  let scales := packNum 8 ((List.range (p.unit / 32)).map fun b =>
    ((es.find? fun e => e.pos / 32 == u * p.unit / 32 + b).map Elem.scale).getD 0)
  if p.mode = 0 then { x with chunk := BitVec.ofNat 512 vals, scales := BitVec.ofNat 32 scales }
  else if p.mode = 2 then { x with window := BitVec.ofNat 1024 vals }
  else
    { x with
      chunk := BitVec.ofNat 512 vals
      meta_ := BitVec.ofNat 320 (packNum 2 (es.map fun e => e.pos % 4) % 2 ^ 256 + scales * 2 ^ 256) }

/-- The next two units of a tile, from unit `i` of its split on, that the lanes load; at the tile's end the last one. A window in
which every row is empty is skipped (R74, R78). -/
def Prod.loadedUnits (p : Prod) (d : Device) (a : Actor) (t : Tile) (i : Nat) : List Nat :=
  let us := ((List.range (p.length t)).drop (min i (p.length t - 1))).map fun j => (p.splitUnits t.split).1 + j
  let skipped := fun (u : Nat) => (List.range t.m).all fun r =>
    match p.rowElems d a (t.row + r) (u * p.unit) ((u + 1) * p.unit) with
    | .ok xs => xs.isEmpty
    | .error _ => false
  (if p.mode < 2 then us else us.filter fun u => !skipped u).take 2

/-- The columns of a tile's panel: those the stationary region holds, else fetched. -/
def Prod.panelCols (p : Prod) (d : Device) (a : Actor) (r : RowEng) (t : Tile) (i j : Nat) : Except MemErr (List (List Elem)) :=
  match r.resident t with
  | some x => .ok x.cols
  | none => (List.range t.w).mapM fun c => p.colElems d a (t.col + c) (p.fetched r t i j).1 (p.fetched r t i j).2

/-- What enters the lanes from unit `i` of a tile on: for each unit that is loaded, what it makes of each lane's registers. -/
def Device.laneLoads (d : Device) (die k : Nat) (t : Tile) (i : Nat) : List (List (LaneSet → LaneSet)) :=
  match d.item t.ctx t.seq with
  | none => []
  | some it =>
    let pr := d.prod it
    let a := it.actor (some die)
    (pr.loadedUnits d a t i).filterMap fun u =>
      match pr.panelCols d a (d.re die k) t (u - (pr.splitUnits t.split).1) (u + 1 - (pr.splitUnits t.split).1) with
      | .ok cols => some (cols.map fun c => pr.fillLane c u)
      | .error _ => none

/-- What the stream region holds of the next tile's panel: all of it, or its first chunk where it has no room for more; nothing
where the stationary region has it already (R50). -/
def Device.nextPanel (d : Device) (die k : Nat) (t : Tile) : Option Panel :=
  let r := d.re die k
  match d.item t.ctx t.seq, r.resident t with
  | some it, none =>
    let pr := d.prod it
    let n := if pr.panelBytes t ≤ r.streamBytes then pr.length t else 1
    let (lo, hi) := pr.reach t 0 n
    match (List.range t.w).mapM fun c => pr.colElems d (it.actor (some die)) (t.col + c) lo hi with
    | .ok cols => some ⟨t.ctx, t.seq, t.col, t.w, t.split, cols⟩
    | .error _ => none
  | _, _ => none

/-- The registers of the lanes as a tile stands at unit `i`: that unit is live, and the next one is in the shadow; at the tile's
last unit it is the first of the tile that heads the queue, whose panel the stream region takes (R39, R42, R74; log 77). -/
def Device.setLanes (d : Device) (die k : Nat) (t : Tile) (i : Nat) : Device :=
  let own := d.laneLoads die k t i
  let head := (d.re die k).queue.head?
  let next := match head with
    | some x => d.laneLoads die k x 0
    | none => []
  let enter := fun (f : (LaneSet → LaneSet) → LaneRegs → LaneRegs) (xs : List (LaneSet → LaneSet)) (m : FMap LaneRegs) =>
    xs.zipIdx.foldl (fun m x => FMap.upd LaneRegs.reset m x.2 (f x.1)) m
  d.updRe die k fun r => { r with
    lanes := enter (fun g y => { y with shadow := g y.shadow }) ((own.drop 1 ++ next).head?.getD [])
      (enter (fun g y => { y with live := g y.live }) (own.head?.getD []) r.lanes)
    stream := { r.stream with next := if own.length ≤ 1 then head.bind (d.nextPanel die k) else none } }

/-- The rows of a bank reduced from unit `b.pos` of its tile up to unit `stop`, in increasing K (R25). -/
def Prod.reduced (p : Prod) (t : Tile) (b : Bank) (stop : Nat) (rows cols : List Elems) : List (List Word) :=
  let u0 := (p.splitUnits t.split).1
  rows.zipIdx.map fun r => cols.zipIdx.map fun c =>
    (List.range (stop - b.pos)).foldl (fun acc u => p.laneUnit acc r.1 c.1 ((u0 + b.pos + u) * p.unit)) (b.get r.2 c.2)

/-- The engine once the tile of a bank has come to unit `stop`. -/
def Prod.advanced (p : Prod) (r : RowEng) (which : Bool) (t : Tile) (stop : Nat) (rows cols : List (List Elem)) : RowEng :=
  let b := r.bank which
  let last := (p.reach t (stop - 1) stop).1
  { (r.setBank which { b.put 0 (p.reduced t b stop (rows.map (elemVals p.aFmt)) (cols.map (elemVals p.bFmt))) with
      pos := stop }) with
    panel := if p.panelFits r t then some ⟨t.ctx, t.seq, t.col, t.w, t.split, cols⟩ else none
    stream := { r.stream with rows := rows.map fun x => x.filter fun e => decide (last ≤ e.pos) }
    turned := if stop = p.length t then r.turned.filter fun y => y.tile != t else r.turned }

/-- Where a partial of a split lies in the scratch area, of which the spec gives the size alone: split by split, row by row,
packed (R48; log 80). -/
def scratchAt (it : Item) (pr : Prod) (s r c : Nat) : Nat := it.opAddr 0x48 + 4 * ((s * pr.m + r) * pr.n + c)

/-- The combination of the partials of one place (R34). -/
def combineParts (int : Bool) (xs : List Word) : Word :=
  if int then sat32 ((xs.map BitVec.toInt).foldl (· + ·) 0) else chunkSum 0 (xs.map toNum)

/-- The partials of rows `i` to `j - 1` of a tile, read from the scratch area: by row, column and split (R48). -/
def Prod.partials (pr : Prod) (d : Device) (it : Item) (a : Actor) (t : Tile) (i j : Nat) :
    Except MemErr (List (List (List Word))) :=
  (List.range (j - i)).mapM fun r => (List.range t.w).mapM fun c => (List.range pr.split).mapM fun s => do
    let x ← d.srcNat a (.va (scratchAt it pr s (t.row + i + r) (t.col + c))) 4 0
    pure (BitVec.ofNat 32 x)

/-- Counts the traffic of a tile's sparse operands, and enters its violations (R55, R74, R78, R81, R82). -/
def Device.noteSparse (d : Device) (die k : Nat) (t : Tile) (z : ZcCounts) (bad : List (Status × Nat)) : Device :=
  let d1 := ((d.count t.ctx 49 z.beats).count t.ctx 50 z.skipped).count t.ctx 51 z.falls
  bad.foldl (fun d e => d.sparseError t.ctx t.seq e.1 e.2) (d1.chargeStall t.ctx die k 3 z.idle)

/-- Why a tile does not come further: a stored tile that it needs is not turned yet, a request for a line of its operands stalls,
or an access of its item failed. -/
inductive Held where
  | turn
  | stall (d : Device)
  | err (it : Item) (e : MemErr)

/-- A combine comes to row `stop`. -/
def Device.advanceComb (d : Device) (die k : Nat) (which : Bool) (it : Item) (t : Tile) (stop : Nat) : Except Held Device :=
  let b := (d.re die k).bank which
  match d.fetch (it.actor (some die)) die k (fun _ => 0) fun a => (d.prod it).partials d it a t b.pos stop with
  | .err e => .error (.err it e)
  | .stall d1 => .error (.stall d1)
  | .got d1 parts => .ok (d1.updRe die k fun r =>
      { r.setBank which { b.put b.pos (parts.map fun row => row.map (combineParts (d.prod it).int)) with pos := stop } with
        stream := { r.stream with parts := parts.getLast?.getD r.stream.parts } })

/-- The traffic class of an operand's reads: TC1 where it is claimed, TC2 for a B operand marked as weights, turned or not, else
TC0 (R227). The table names no class for a B operand that is not marked as weights, and two for one that is turned and marked
(DESIGN CHOICE, log 99). -/
def Item.operandClass (it : Item) (operand : Nat) : Nat :=
  if (it.claimOf operand).isSome then 1 else if operand = 1 && bitOf (field it.desc 0x28 1) 5 then 2 else 0

/-- The operands of a tile's units from its position to `stop`: A rows and columns of B, as their lines come (R225, R227). -/
def Device.tileReads (d : Device) (die k : Nat) (r : RowEng) (it : Item) (t : Tile) (pos stop : Nat) :
    Fetch (List (List Elem) × List (List Elem)) :=
  let pr := d.prod it
  let a := it.actor (some die)
  match d.fetch a die k (fun _ => it.operandClass 1) fun a => pr.panelCols d a r t pos stop with
  | .stall d1 => .stall d1
  | .err e => .err e
  | .got d1 cols =>
    match d1.fetch a die k (fun _ => it.operandClass 0) fun a => (List.range t.m).mapM fun i =>
        pr.rowElems d a (t.row + i) (pr.reach t pos stop).1 (pr.reach t pos stop).2 with
    | .stall d2 => .stall d2
    | .err e => .err e
    | .got d2 rows => .got d2 (rows, cols)

/-- The tile of a bank comes to unit `stop`; at its end its operands' traffic is counted and their violations are entered. -/
def Device.advanceTile (d : Device) (die k : Nat) (which : Bool) (it : Item) (t : Tile) (stop : Nat) : Except Held Device :=
  let r := d.re die k
  let b := r.bank which
  let pr := d.prod it
  let a := it.actor (some die)
  if b.pos = stop then .ok d
  else if (pr.turns r t b.pos stop).any fun x => !r.hasTurned t x then .error .turn
  else
    match d.tileReads die k r it t b.pos stop with
    | .err e => .error (.err it e)
    | .stall d1 => .error (.stall d1)
    | .got d0 (rows, cols) =>
      let d1 := (d0.updRe die k fun r => pr.advanced r which t stop rows cols).setLanes die k t stop
      if stop = pr.length t then
        match pr.tileChecks d a t, pr.zcCounts d a t with
        | .error e, _ => .error (.err it e)
        | _, .error e => .error (.err it e)
        | .ok bad, .ok z => .ok (d1.noteSparse die k t z bad)
      else .ok d1

/-- The work of a filling bank comes to a chunk boundary, a combine to a row: to its end where `upTo` lies beyond it. Its first
chunk is the first shared issue of its item (R291). -/
def Device.advance (d : Device) (p : Platform) (die k : Nat) (which : Bool) (upTo : Nat) : Except Held Device :=
  let b := (d.re die k).bank which
  match b.tile.bind fun t => (d.item t.ctx t.seq).map fun it => (t, it) with
  | none => .ok d
  | some (t, it) =>
    if b.comb then d.advanceComb die k which it t (max b.pos (min upTo t.m))
    else
      let stop := max b.pos (min upTo ((d.prod it).length t))
      match d.advanceTile die k which it t stop with
      | .error h => .error h
      | .ok d1 => .ok (if b.pos < stop then d1.firstIssue p.pow.time t.ctx t.seq else d1)

/-- Beyond every tile's end. -/
def toEnd : Nat := 2 ^ 64

/-- A tile that is held waits, or its item fails. -/
def Device.heldUp (d : Device) (p : Platform) (die k : Nat) : Held → Device
  | .turn => d
  | .stall d1 => d1
  | .err it e => d.accessFailed p it 3 die k e

/-- The bank beside the next one ends its reduction, as its last issue comes before the next tile's first (R42). -/
def Device.finishOther (d : Device) (p : Platform) (die k : Nat) : Except Held Device :=
  let r := d.re die k
  if (r.bank !r.turn).st = .filling then d.advance p die k (!r.turn) toEnd else .ok d

/-! ### TILE_START (R42, R43, R47, R48, R57, R103, R288) -/

/-- The next bank takes a tile's initial accumulators (R43); in error the device while it cannot: the LOAD waits for its lines or
for partner memory and the bank reads as loading, or the item failed. -/
def Device.loadBank (d : Device) (p : Platform) (die k : Nat) (it : Item) (t : Tile) : Except Device (Device × Bank) :=
  let b := (d.re die k).nextBank
  let wait := fun (d : Device) => d.updRe die k fun r =>
    r.setBank r.turn { b with st := .loading, tile := some t, comb := false, pos := 0, loaded := false }
  if b.loaded && b.tile == some t then .ok (d, b)
  else match d.fetch (it.actor (some die)) die k (fun _ => it.operandClass 2) fun a => (d.prod it).initials d a t with
  | .stall d1 => .error (wait d1)
  | .err (.away n rc rva va) => .error ((wait d).accessFailed p it 3 die k (.away n rc rva va))
  | .err e => .error (d.accessFailed p it 3 die k e)
  | .got d1 init =>
    .ok (if (d.prod it).load && t.split == 0 then d1.updRe die k fun r => { r with stream := { r.stream with load := init } }
      else d1, b.put 0 init)

/-- The tile that heads the queue takes the next bank with its initial accumulators, and its first chunk is live. -/
def Device.startTile (d : Device) (p : Platform) (die k : Nat) (rep : Report) (it : Item) (t : Tile) (rest : List Tile) : Device :=
  match d.loadBank p die k it t with
  | .error d1 => d1
  | .ok (d0, b) =>
    let d1 := (d0.charge t.ctx die k rep).updRe die k fun r =>
      { r with queue := rest }.fill { b with st := .filling, tile := some t, comb := false, pos := 0, loaded := false }
    (d1.setLanes die k t 0).count t.ctx 54 (bit (t.rank == 4))

/-- TILE_START: the tile that heads the queue begins in the next bank. A kernel's work waits there for saves that it claims, and ends
with RECOMPUTE_NEEDED where one finds no data (R137 to R139). -/
def tileStart (die k : Nat) (rep : Report) (p : Platform) (d : Device) : Device :=
  let r := d.re die k
  match r.queue with
  | [] => d
  | t :: rest =>
    let b := r.nextBank
    if !d.engineRuns p die k || r.dbgHalt || !b.ready ||
        (r.combines.any fun x => decide (x.rank ≤ t.rank)) || (r.parked.isSome && t.rank != 1) then d
    else match d.item t.ctx t.seq with
      | none => d.updRe die k fun r => { r with queue := rest }
      | some it =>
        if it.isWork && d.claimWaits it then d
        else match if it.isWork then d.claimLost it else none with
        | some x => ((d.purgeOne it.ctx it.seq .drain).updItem it.ctx it.seq fun y =>
            { y with recompute := some x, phase := .done, out := d.issuedTiles it.ctx it.seq }).settleWork it.ctx it.seq
        | none =>
          match d.finishOther p die k with
          | .error h => d.heldUp p die k h
          | .ok d1 => d1.startTile p die k rep it t rest

/-- TILE_START. -/
def execTileStart (die k : Nat) (rep : Report) (s : State) : Out := onDev (tileStart die k rep) s

/-! ### Drains (R29 to R32, R44, R45, R48, R108, R109, R262, R434) -/

/-- The value of an accumulator. -/
def accNum (int : Bool) (w : Word) : Num := if int then ofSigned w.toInt 0 else toNum w

/-- The rounding mode of an output element: its random word is that of its place (R32). -/
def drainRnd (seed : Dword) (pr : Prod) (e : Nat) : Rnd := convRnd pr.conv (cb10 seed pr.srT pr.srS e)

/-- The scales and codes of a drained row piece whose element indices start at `e` (R45). -/
def drainCodes (seed : Dword) (pr : Prod) (e : Nat) (ws : List Word) : List Nat × List Nat :=
  let xs := ws.map (accNum pr.int)
  if isMx pr.cFmt then mxRow pr.cFmt (fun j => drainRnd seed pr (e + j)) (xs.length + 1) 0 xs
  else ([], xs.zipIdx.map fun x => convert pr.cFmt (drainRnd seed pr (e + x.2)) (convSat pr.conv) x.1)

/-- The row an output row is written at (R262). -/
def Device.outRow (d : Device) (it : Item) (a : Actor) (r : Nat) : Except MemErr Nat :=
  if it.opAddr 0x58 = 0 then .ok r else d.srcNat a (.va (it.opAddr 0x58)) 4 (4 * r)

/-- CB10 blocks that elements `e` to `e + n - 1` need. -/
def rngBlocks (e n : Nat) : Nat := if n = 0 then 0 else (e + n - 1) / 4 - e / 4 + 1

/-- Does the conversion draw random words? -/
def stochastic (conv : Nat) : Bool := bitsOf conv 5 4 == 2

/-- Drains one row of a tile to the destination and to the save's segment. -/
def Device.drainRow (it : Item) (pr : Prod) (a : Actor) (t : Tile) (d : Device) (i : Nat) (ws : List Word) :
    Except MemErr Device := do
  let r := t.row + i
  let r' ← d.outRow it a r
  let e := r' * pr.n + t.col
  let (scales, codes) := drainCodes (d.ctx it.ctx).seed pr e ws
  let tc := if pr.grad then 3 else 0
  let ldc := field it.oprec 0x68 4
  let per := ceilDiv pr.n 32
  let d1 ← if it.opAddr 0x30 = 0 then pure d
    else d.putElems a tc (it.opAddr 0x30) pr.cFmt (r' * (if ldc = 0 then pr.n else ldc) + t.col) codes
  let d2 ← if it.opAddr 0x30 = 0 ∨ scales = [] then pure d1
    else d1.writeVa a tc (it.opAddr 0x38 + r' * per + t.col / 32) (scales.map (BitVec.ofNat 8))
  let d3 ← d2.saveElems it a 0 pr.cFmt (r * pr.n + t.col) codes
  if scales = [] then pure d3
    else d3.saveBytes it a (alignedBytes (pr.m * pr.n) pr.cFmt + r * per + t.col / 32) (scales.map (BitVec.ofNat 8))

/-- Applies a step to each row of a tile's accumulators. -/
def eachRow (f : Device → Nat → List Word → Except MemErr Device) : Nat → List (List Word) → Device → Except MemErr Device
  | _, [], d => .ok d
  | i, ws :: rest, d => do
    let d1 ← f d i ws
    eachRow f (i + 1) rest d1

/-- The square sum of a block, element by element in row-major order (R108). -/
def squareSum (xs : List Word) : Word := xs.foldl (fun q x => Fp.fma x x q) 0

/-- Writes the square sums of the blocks a tile covers (R109). -/
def Device.writeTap (it : Item) (pr : Prod) (a : Actor) (t : Tile) (acc : List (List Word)) (d : Device) :
    Except MemErr Device :=
  let fp := fun (w : Word) => if pr.int then Fp.ofS32 w else w
  (List.range (ceilDiv t.w 32)).foldlM (fun d b =>
    let q := squareSum (acc.flatMap fun row => ((row.drop (32 * b)).take 32).map fp)
    d.writeVa a 3 (it.opAddr 0x50 + 4 * (t.row / 64 * ceilDiv pr.n 32 + t.col / 32 + b)) (leBytes 4 q.toNat)) d

/-- Drains a tile's final accumulators. -/
def Device.drainTile (d : Device) (it : Item) (pr : Prod) (a : Actor) (t : Tile) (acc : List (List Word)) :
    Except MemErr Device := do
  let d1 ← eachRow (Device.drainRow it pr a t) 0 acc d
  if pr.tap then d1.writeTap it pr a t acc else pure d1

/-- Drains a split tile's partials. -/
def Device.drainPartial (d : Device) (it : Item) (pr : Prod) (a : Actor) (t : Tile) (acc : List (List Word)) :
    Except MemErr Device :=
  eachRow (fun d i ws => d.writeVa a 0 (scratchAt it pr t.split (t.row + i) t.col) (ws.flatMap fun w => leBytes 4 w.toNat)) 0
    acc d

/-- A product is done once its tiles are all dealt and none is out (R273). -/
def Device.productCheck (d : Device) (c q : Nat) : Device :=
  match d.item c q with
  | none => d
  | some it =>
    if it.phase = .running ∧ it.out = 0 ∧ !it.dealing then
      (d.updItem c q fun x => { x with phase := .done }).settleWork c q
    else d.settleWork c q

/-- A drained tile: a split one waits for its siblings, and the engine that drained the last of them combines (R48). -/
def Device.tileDrained (d : Device) (die k : Nat) (pr : Prod) (t : Tile) : Device :=
  let stopped := (d.item t.ctx t.seq).any fun x => x.phase == .done
  if pr.split ≤ 1 || stopped then (d.updItem t.ctx t.seq fun x => { x with out := x.out - 1 }).productCheck t.ctx t.seq
  else
    let here := fun (e : Nat × Nat × Nat) => e.1 == t.row && e.2.1 == t.col
    let n := match d.item t.ctx t.seq with
      | some it => (it.drained.filter here).length + 1
      | none => 0
    if n < pr.split then d.updItem t.ctx t.seq fun x =>
      { x with out := x.out - 1, drained := x.drained ++ [(t.row, t.col, t.split)] }
    else
      (d.updRe die k fun r => { r with combines := r.combines ++ [t] }).updItem t.ctx t.seq fun x =>
        { x with drained := x.drained.filter fun e => !here e }

/-- A drained combine ends its places. -/
def Device.combineDrained (d : Device) (t : Tile) : Device :=
  (d.updItem t.ctx t.seq fun x => { x with out := x.out - 1 }).productCheck t.ctx t.seq

/-- What a bank's drain writes: its tile's elements and tap, or its partials. -/
def Device.drainWrites (d : Device) (it : Item) (pr : Prod) (a : Actor) (b : Bank) (t : Tile) : Except MemErr Device :=
  if b.comb || decide (pr.split ≤ 1) then d.drainTile it pr a t (b.rows t) else d.drainPartial it pr a t (b.rows t)

/-- The class of a drain's access at an address: norm taps TC3, a row map and partials TC0, elements TC3 of a weight gradient, else
TC0 (R227). -/
def Prod.drainClass (pr : Prod) (it : Item) (va : Nat) : Nat :=
  let in_ := fun (base n : Nat) => base != 0 && decide (base ≤ va ∧ va < base + n)
  if in_ (it.opAddr 0x50) (4 * (ceilDiv pr.m 64 * ceilDiv pr.n 32)) then 3
  else if in_ (it.opAddr 0x58) (4 * pr.m) || in_ (it.opAddr 0x48) (4 * pr.split * pr.m * pr.n) then 0
  else if pr.grad then 3 else 0

/-- The bank's accumulators are converted and written, and the bank is free. The lines of its row map, and those that it writes in
part, come first (R225, R234). -/
def Device.drainOut (d : Device) (p : Platform) (die k : Nat) (which : Bool) (it : Item) (t : Tile) : Device :=
  let b := (d.re die k).bank which
  let pr := d.prod it
  let a := it.actor (some die)
  match d.fetch a die k (pr.drainClass it) fun a => (d.drainWrites it pr a b t).map fun _ => () with
  | .stall d1 => d1
  | .err e => d.accessFailed p it 3 die k e
  | .got d1 _ =>
    match d1.drainWrites it pr a b t with
    | .error e => d1.accessFailed p it 3 die k e
    | .ok d2 =>
      let d3 := (d2.firstIssue p.pow.time t.ctx t.seq).updRe die k fun r => r.freeBank which
      if b.comb then d3.combineDrained t else d3.tileDrained die k pr t

/-- TILE_DRAIN_DONE: the accumulator rows of the bank that drains, its reduction having ended, are converted and written. A
drain that draws random words waits while the die's generator is not ON (R159). -/
def tileDrainDone (die k : Nat) (rep : Report) (p : Platform) (d : Device) : Device :=
  let r := d.re die k
  match r.drainBank with
  | none => d
  | some (which, b) =>
    match b.tile with
    | none => d
    | some t =>
      match d.item t.ctx t.seq with
      | none => d.updRe die k fun r => r.freeBank which
      | some it =>
        let pr := d.prod it
        if !d.engineRuns p die k || (r.dbgHalt && b.st == .filling) ||
            ((b.comb || decide (pr.split ≤ 1)) && stochastic pr.conv && !(d.die die).rng.isOn) then d
        else match if b.st = .filling then d.advance p die k which toEnd else .ok d with
          | .error h => d.heldUp p die k h
          | .ok d1 => (d1.charge t.ctx die k rep).drainOut p die k which it t

/-- TILE_DRAIN_DONE. -/
def execTileDrainDone (die k : Nat) (rep : Report) (s : State) : Out := onDev (tileDrainDone die k rep) s

/-! ### SPLIT_COMBINE (R34, R48, R288) -/

/-- The combine an engine performs next: of the best rank, the first among equals. -/
def RowEng.nextCombine (r : RowEng) : Option Tile :=
  match r.combines with
  | [] => none
  | t :: ts => some (ts.foldl (fun a b => if b.rank < a.rank then b else a) t)

/-- Begins a combine in the next bank. -/
def Device.startCombine (d : Device) (p : Platform) (die k : Nat) (t : Tile) : Except Held Device :=
  match d.finishOther p die k with
  | .error h => .error h
  | .ok d1 => .ok (d1.updRe die k fun r =>
      { r with combines := r.combines.erase t }.fill
        { r.nextBank with st := .filling, tile := some t, comb := true, pos := 0, loaded := false })

/-- The combine in a bank comes to row `rows`, and once it has combined every row it drains. -/
def Device.runCombine (d : Device) (p : Platform) (die k rows : Nat) (rep : Report) (which : Bool) : Device :=
  match ((d.re die k).bank which).tile.bind fun t => (d.item t.ctx t.seq).map fun it => (t, it) with
  | none => d
  | some (t, it) =>
    match d.advance p die k which rows with
    | .error h => d.heldUp p die k h
    | .ok d1 =>
      let d2 := d1.charge t.ctx die k rep
      if ((d2.re die k).bank which).pos < t.m || (stochastic (d.prod it).conv && !(d.die die).rng.isOn) then d2
      else d2.drainOut p die k which it t

/-- SPLIT_COMBINE: a combine that fills a bank goes on; else the next combine, unless a tile of better rank is queued, begins
and comes to row `rows`. -/
def splitCombine (die k rows : Nat) (rep : Report) (p : Platform) (d : Device) : Device :=
  let r := d.re die k
  let last := r.bank !r.turn
  if !d.engineRuns p die k || r.dbgHalt then d
  else if last.comb && last.st == .filling then d.runCombine p die k rows rep (!r.turn)
  else match r.nextCombine with
    | none => d
    | some t =>
      match d.item t.ctx t.seq with
      | none => d.updRe die k fun r => { r with combines := r.combines.erase t }
      | some _ =>
        if !r.nextBank.ready || (r.queue.any fun x => decide (x.rank < t.rank)) || (r.parked.isSome && t.rank != 1) then d
        else match d.startCombine p die k t with
          | .error h => d.heldUp p die k h
          | .ok d1 => d1.runCombine p die k rows rep r.turn

/-- SPLIT_COMBINE. -/
def execSplitCombine (die k rows : Nat) (rep : Report) (s : State) : Out := onDev (splitCombine die k rows rep) s

end Sys2Proof.Machine
end

