-- ==== Sys2Proof/Machine/Weights.lean ====
section
/-! DEFINITION. Weight-set records, coefficient tables and the weight-set directory (R106, R112, R115, R433). -/

namespace Sys2Proof.Machine

/-! ### The weight-set record (R115) -/

/-- What tells a weight-set record apart: its device address, or a place outside device memory (log 42). -/
def Place.key : Place → Nat
  | .dev a => a
  | .host a => 2 ^ 52 + a
  | .peer _ _ va => 2 ^ 53 + va

/-- The record a NORM_UPDATE item names. -/
def Item.wsVa (it : Item) : Nat := field it.desc 0x18 8

/-- Its key. -/
def Device.wsKey (d : Device) (it : Item) : Option Nat :=
  match translate d it.ctx it.wsVa .read with
  | .ok (pl, _) => some pl.key
  | .error _ => none

/-- The context that owns a page. -/
def Device.pageOwner (d : Device) (c va : Nat) : Nat :=
  match walk (d.ctx c) va with
  | some (e, _) => bitsOf e 63 52
  | none => c

/-- Is a record's header legal? -/
def wsHeaderOk (h : List Byte) : Bool := decide (1 ≤ field h 8 4 ∧ field h 8 4 ≤ 4096) && zeroField h 0x0C 52

/-! ### The coefficient table (R112) -/

/-- Fields of an entry's ctrl word. -/
def coefConv (e : List Byte) : Nat := field e 3 1
def coefN (e : List Byte) : Nat := bitsOf (field e 0 4) 19 16
def coefWFmt (e : List Byte) : Nat := bitsOf (field e 0 4) 9 8
def coefFreeze (e : List Byte) : Bool := bitOf (field e 0 4) 3
def coefNorm (e : List Byte) : Bool := bitOf (field e 0 4) 2
def coefM2 (e : List Byte) : Bool := bitOf (field e 0 4) 1
def coefRows (e : List Byte) : Nat := field e 4 4
def coefCols (e : List Byte) : Nat := field e 8 4
def coefElems (e : List Byte) : Nat := coefRows e * coefCols e
def coefSplit (e : List Byte) : Nat := field e 0x0C 1

/-- The format code of a layer's weights. -/
def coefFmt (e : List Byte) : Nat :=
  match coefWFmt e with
  | 0 => 0x00
  | 1 => 0x03
  | _ => 0x04

/-- An FP32 field, and an address. -/
def coefWord (e : List Byte) (off : Nat) : Word := BitVec.ofNat 32 (field e off 4)
def coefAddr (e : List Byte) (off : Nat) : Nat := field e off 8

/-- Is an entry legal? -/
def coefOk (e : List Byte) : Bool :=
  let c := field e 0 4
  bitsOf c 23 20 == 0 && bitsOf c 15 10 == 0 && bitsOf c 7 4 == 0 && bitsOf c 0 0 == 0 && convOk (coefConv e) &&
    coefWFmt e != 3 && decide (coefN e ≤ 8) && decide (1 ≤ coefRows e) && decide (1 ≤ coefCols e) &&
    (!coefNorm e || coefM2 e) && (coefN e == 0 || decide (1 ≤ coefSplit e ∧ coefSplit e ≤ 64)) &&
    decide (coefElems e < 2 ^ 32) && zeroField e 0x0D 3 && zeroField e 0x28 24 && zeroField e 0xF0 16

/-- Are its addresses aligned? Those it ignores are not looked at. -/
def coefAligned (e : List Byte) : Bool :=
  let al := fun (off : Nat) => coefAddr e off % 64 == 0
  al 0x40 && al 0x48 && al 0x50 && al 0x58 && al 0x70 && al 0x88 && (!coefM2 e || al 0x60 && al 0x68) &&
    (!coefFreeze e || al 0x78) && (coefN e == 0 || al 0x80)

/-- Bytes of a layer's weights. -/
def coefBytes (e : List Byte) : Nat := ceilDiv (coefElems e * fmtBits (coefFmt e)) 8

/-! ### The directory (R433) -/

/-- Device pages of a range of a context's space, 64 KiB each. -/
def Device.pagesOf (d : Device) (c va len : Nat) : Except MemErr (List Nat) := do
  let n := (va + len - 1) / 2 ^ 16 - va / 2 ^ 16 + 1
  let ps ← (List.range n).mapM fun i => do
    let (pl, _) ← translate d c (va / 2 ^ 16 * 2 ^ 16 + i * 2 ^ 16) .read
    match pl with
    | .dev x => pure [x / 2 ^ 16]
    | _ => pure []
  pure ps.flatten

/-- A layer's entry in the directory. A coefficient entry that is both illegal and misaligned is illegal (log 82). -/
def Device.readLayer (d : Device) (a : Actor) (it : Item) (i : Nat) : Except MemErr WLayer := do
  let h ← d.readBytes a 16 (it.wsVa + 0x40 + 16 * i)
  let e ← d.readBytes a 256 (field it.desc 0x20 8 + 256 * i)
  if !coefOk e then .error (.fault .illegalInstr 0)
  else if !coefAligned e then .error (.fault .misaligned 0)
  else do
    let p0 ← d.pagesOf it.ctx (coefAddr e 0x40) (coefBytes e)
    let p1 ← d.pagesOf it.ctx (coefAddr e 0x48) (coefBytes e)
    pure ⟨BitVec.ofNat 64 (field h 0 8), bitOf (field h 8 8) 0, coefAddr e 0x40, coefAddr e 0x48, p0, p1⟩

/-- The directory entry of the record an item names. -/
def Device.readSet (d : Device) (a : Actor) (it : Item) : Except MemErr WSet := do
  let (pl, _) ← translate d it.ctx it.wsVa .read
  let h ← d.readBytes a 64 it.wsVa
  if !wsHeaderOk h then .error (.fault .illegalInstr 0)
  else do
    let ls ← (List.range (field h 8 4)).mapM (d.readLayer a it)
    let n := 64 + 16 * field h 8 4
    let ps ← d.pagesOf it.ctx it.wsVa n
    let pages := if ps.length = (it.wsVa + n - 1) / 2 ^ 16 - it.wsVa / 2 ^ 16 + 1 then ps else []
    pure ⟨pl.key, it.wsVa, d.pageOwner it.ctx it.wsVa, pages, BitVec.ofNat 64 (field h 0 8), ls⟩

/-- A field of a weight-set record as device memory holds it now, the host's repair of R117 included; where it cannot be read
there, as the sequencer last knew it (R116, R117; log 42). -/
def Device.recNat (d : Device) (w : WSet) (off n known : Nat) : Nat :=
  let a := w.recVa % 2 ^ 16 + off
  match w.recPages[a / 2 ^ 16]? with
  | none => known
  | some p =>
    let x := p * 2 ^ 16 + a % 2 ^ 16
    if d.mem.halfBad (x / 64) then known else d.mem.devNat (((d.ctx w.owner).key).getD 0) x n

/-- A set, and its layer `i`, as their record holds them now. -/
def Device.liveSet (d : Device) (w : WSet) : WSet :=
  { w with published := BitVec.ofNat 64 (d.recNat w 0 8 w.published.toNat) }
def Device.liveLayer (d : Device) (w : WSet) (i : Nat) (l : WLayer) : WLayer :=
  { l with
    version := BitVec.ofNat 64 (d.recNat w (0x40 + 16 * i) 8 l.version.toNat)
    slot := bitOf (d.recNat w (0x48 + 16 * i) 8 (bit l.slot)) 0 }

/-- Makes or refreshes a directory entry. -/
def Device.putSet (d : Device) (w : WSet) : Device :=
  d.mapUps fun u => { u with
    dir := if u.dir.any fun x => x.recAt == w.recAt then u.dir.map fun x => if x.recAt == w.recAt then w else x
      else u.dir ++ [w] }

/-- Is another item that names the record of a norm-and-update item in flight (R106)? -/
def Device.recordBusy (d : Device) (it : Item) : Bool :=
  let key := d.wsKey it
  d.hub.items.any fun y => y.typ == 4 && y.phase != .fetched && key.isSome && d.wsKey y == key

/-- Must a norm-and-update item wait at dispatch: UPS is not ON, another item that names its record is in flight, or the
directory has no room (R106, R119)? -/
def Device.normWaits (d : Device) (it : Item) : Bool :=
  let key := d.wsKey it
  !d.ups.blk.isOn || d.recordBusy it ||
    (!(d.ups.dir.any fun w => some w.recAt == key) && decide (64 ≤ d.ups.dir.length))

end Sys2Proof.Machine
end

