-- ==== Sys2Proof/Machine/Stash.lean ====
section
/-! DEFINITION. What an item takes before it runs: its operand record, its weight slot, the stash entries it claims and the
segment it saves to (R116, R132 to R139, R262, R263, R434). -/

namespace Sys2Proof.Machine

/-! ### Places in the stash (R131 to R133) -/

/-- Base die of a tag's directory entry (R132). -/
def Tag.home (t : Tag) : Nat := (t.ctx + t.layer + 3 * t.mbatch + 7 * t.slot) % 20

/-- The entry that stands for a tag now. -/
def Device.segOf (d : Device) (t : Tag) : Option Seg := d.mem.segs.find? fun s => s.tag == t && !s.old

/-- First granule of the pool, and granules in it: the top of every stack (R131). -/
def Mem.poolBase (m : Mem) : Nat := 20 * (Config.stackGib - m.poolGib) * 2 ^ 18
def Mem.poolSize (m : Mem) : Nat := 20 * m.poolGib * 2 ^ 18

/-- The first `n` granules from `g` on that are not used (log 12). -/
def freeFrom (used : List Nat) : Nat → Nat → Nat → Option (List Nat)
  | _, 0, _ => some []
  | 0, _ + 1, _ => none
  | f + 1, n + 1, g =>
    if used.contains g then freeFrom used f (n + 1) (g + 1) else (freeFrom used f n (g + 1)).map fun gs => g :: gs

/-- Granules in the pool for a segment of `n`, within the context's quota; none where it does not fit (R131, R139). -/
def Device.poolFit (d : Device) (c n : Nat) : Option (List Nat) :=
  let m := d.mem
  let used := m.segs.flatMap fun s => s.granules
  if (d.ctx c).quota * 4096 < d.stashBytes c + n * 4096 || m.poolSize < used.length + n then none
  else freeFrom used m.poolSize n m.poolBase

/-- Does a range of bytes meet an overflow segment of the context? -/
def Device.ovfTaken (d : Device) (c lo n : Nat) : Option Nat :=
  d.mem.segs.findSome? fun s =>
    match s.kind with
    | .overflow b =>
      let e := b + ceilDiv s.len 4096 * 4096
      if s.tag.ctx = c ∧ lo < e ∧ b < lo + n then some e else none
    | _ => none

/-- The first free range of the overflow area, from `lo` on (R139; log 12). -/
def Device.ovfFrom (d : Device) (c n stop : Nat) : Nat → Nat → Option Nat
  | 0, _ => none
  | f + 1, lo =>
    if stop < lo + n then none
    else match d.ovfTaken c lo n with
      | none => some lo
      | some e => d.ovfFrom c n stop f e

/-- A place for a segment of `len` bytes in the overflow area. -/
def Device.ovfFit (d : Device) (c len : Nat) : Option Nat :=
  let x := d.ctx c
  d.ovfFrom c (ceilDiv len 4096 * 4096) (x.ovfBase + x.ovfSize) (d.mem.segs.length + 1) x.ovfBase

/-! ### Saves (R134, R135, R139) -/

/-- Adds an entry for a tag, its save in flight. -/
def Device.addSeg (d : Device) (it : Item) (t : Tag) (w len : Nat) (kind : SegKind) (gs : List Nat) : Device :=
  let s : Seg := ⟨t, kind, gs, [], len, bitsOf w 31 28, bitOf w 32, false, it.seq, 0, d.lruTick, false⟩
  let d1 := { d with lruTick := d.lruTick + 1 }
  (d1.mapMem fun m => { m with segs := m.segs ++ [s] }).stashCount t.ctx

/-- The stored recomputable segment of a context saved last, without a claim in flight; of two, the one reserved later counts as saved
later (R139; DESIGN CHOICE, log 41). -/
def Device.dropCandidate (d : Device) (c : Nat) : Option Seg :=
  (d.mem.segs.filter fun s =>
    s.tag.ctx == c && s.kind == .pool && s.recomp && s.ready && s.claiming == 0 && !s.old).getLast?

/-- Drops a segment: its granules return and its entry is a dropped mark. -/
def Device.dropStored (d : Device) (s : Seg) : Device :=
  ((d.mapMem fun m => { m with segs := m.segs.map fun x =>
    if x.stamp == s.stamp then { x with kind := .dropped, granules := [], data := [], len := 0 } else x }).stashCount
      s.tag.ctx).count s.tag.ctx 69 1

/-- Drops segments until one of `n` granules fits. -/
def Device.makeRoom (c n : Nat) : Nat → Device → Device × Option (List Nat)
  | 0, d => (d, d.poolFit c n)
  | f + 1, d =>
    match d.poolFit c n with
    | some gs => (d, some gs)
    | none =>
      match d.dropCandidate c with
      | none => (d, none)
      | some s => Device.makeRoom c n f (d.dropStored s)

/-- The entry a save replaces goes, or waits for the claims in flight on it (R135). -/
def Device.replaceSeg (d : Device) (t : Tag) : Device :=
  match d.segOf t with
  | none => d
  | some s =>
    let d1 := d.count t.ctx 72 1
    if s.claiming = 0 then d1.dropSegs t.ctx fun x => x.stamp == s.stamp
    else d1.mapMem fun m => { m with segs := m.segs.map fun x => if x.stamp == s.stamp then { x with old := true } else x }

/-- Reserves the segment of a save of `len` bytes under its word; false where the save fails with STASH_FULL (R132, R134,
R139). -/
def Device.reserve (d : Device) (it : Item) (w len : Nat) : Device × Bool :=
  let t := claimTag it.ctx w
  let n := ceilDiv len 4096
  let full := (d.segOf t).isNone && decide (8192 ≤ (d.mem.segs.filter fun s => s.tag.home == t.home && !s.old).length)
  if full then (d, false)
  else
    let d1 := (d.replaceSeg t).updItem it.ctx it.seq fun x => { x with save := some t }
    match d1.poolFit it.ctx n with
    | some gs => ((d1.addSeg it t w len .pool gs).count it.ctx 64 1, true)
    | none =>
      match (d.ctx it.ctx).policy with
      | 0 =>
        match d1.ovfFit it.ctx len with
        | some b => (((d1.addSeg it t w len (.overflow b) []).count it.ctx 64 1).count it.ctx 68 1, true)
        | none => (d1, false)
      | 1 =>
        if bitOf w 32 then ((d1.addSeg it t w 0 .dropped []).count it.ctx 69 1, true)
        else match Device.makeRoom it.ctx n (d1.mem.segs.length + 1) d1 with
          | (d2, some gs) => ((d2.addSeg it t w len .pool gs).count it.ctx 64 1, true)
          | (d2, none) => (d2, false)
      | _ => (d1, false)

/-- Bytes of arrays that follow one another, each from a 64 B boundary. -/
def stacked (parts : List Nat) : Nat := parts.foldl (fun a n => ceilDiv a 64 * 64 + n) 0

/-- Bytes of the segment an item saves (R134, R434). -/
def Item.saveLen (it : Item) : Nat :=
  let x := it.desc
  if it.typ = 1 then
    let m := field x 0x18 4
    let n := field x 0x1C 4
    let c := field x 0x2B 1
    if isMx c then alignedBytes (m * n) c + m * ceilDiv n 32 else ceilDiv (m * n * fmtBits c) 8
  else if field x 0x18 1 = 1 then field x 0x28 8
  else stacked (streamSizes it)

/-! ### Claims (R137, R138) -/

/-- The active claim words of an operand record. -/
def claimWords (oprec : List Byte) : List Nat := [field oprec 0x78 4, field oprec 0x7C 4].filter fun w => bitOf w 31

/-- The first claim that finds no data: its tag, and whether it was dropped. -/
def Device.claimGap (d : Device) (c : Nat) (ws : List Nat) : Option Nat :=
  ws.findSome? fun w =>
    match d.segOf (claimTag c w) with
    | none => some (detailTag (claimTag c w) false)
    | some s => if s.kind = .dropped ∧ s.ready then some (detailTag (claimTag c w) true) else none

/-- Binds the claims of an item to the entries that stand for their tags. -/
def Device.bindClaims (d : Device) (it : Item) (ws : List Nat) : Device :=
  let bound := ws.filterMap fun w => (d.segOf (claimTag it.ctx w)).map fun s => (bitsOf w 29 28, s.stamp)
  (d.mapMem fun m => { m with segs := m.segs.map fun s =>
    { s with claiming := s.claiming + (bound.filter fun b => b.2 == s.stamp).length } }).updItem it.ctx it.seq fun x =>
      { x with claims := bound }

/-! ### Weight operands (R13, R116) -/

/-- The layer of a weight set whose slot holds a device page: set, layer index, slot. Where parts of both slots or of several
layers share a page, the first set, the lowest layer and slot 0 stand (log 85). -/
def Device.slotAt (d : Device) (page : Nat) : Option (WSet × Nat × WLayer × Bool) :=
  d.ups.dir.findSome? fun w => w.layers.zipIdx.findSome? fun l =>
    if l.1.pages0.contains page then some (w, l.2, l.1, false)
    else if l.1.pages1.contains page then some (w, l.2, l.1, true)
    else none

/-- The slot an item of a class reads: the current one, or the one that holds the published version. -/
def resolveSlot (cls : Nat) (w : WSet) (l : WLayer) : Bool :=
  if 2 ≤ cls then l.slot else if l.version = w.published + 1 then !l.slot else l.slot

/-- Does a leaf of a context's page table map a 64 KiB page of device memory? -/
def Ctx.sees (x : Ctx) (page : Nat) : Bool :=
  x.pt.any fun e =>
    let v := e.2.toNat
    pteV v && pteLeaf v && pteKind v == 0 &&
      (e.1 / 2 ^ 40 == 3 && bitsOf v 51 16 == page || e.1 / 2 ^ 40 == 2 && bitsOf v 51 16 / 32 == page / 32)

/-- The slots a kernel item pins when it is dispatched: of each layer that its context can read, the one an item of its class
reads (R13, R116; log 84). -/
def Device.kernelPins (d : Device) (it : Item) : List (Nat × Nat × Nat) :=
  let x := d.ctx it.ctx
  d.ups.dir.flatMap fun w => w.layers.zipIdx.filterMap fun l =>
    if (l.1.pages0 ++ l.1.pages1).any x.sees then
      some (w.recAt, l.2, bit (resolveSlot it.cls (d.liveSet w) (d.liveLayer w l.2 l.1)))
    else none

/-- The slot of a layer that an item reads: for work of a kernel, the one its kernel has pinned. -/
def Device.slotFor (d : Device) (it : Item) (w : WSet) (i : Nat) (l : WLayer) : Bool :=
  let pinned := if it.isWork then (d.item it.ctx it.layerIx).bind fun k =>
      k.holds.find? fun h => h.1 == w.recAt && h.2.1 == i
    else none
  match pinned with
  | some h => h.2.2 == 1
  | none => resolveSlot it.cls (d.liveSet w) (d.liveLayer w i l)

/-- The device page an address leads to. -/
def Device.pageOf (d : Device) (c va : Nat) : Option Nat :=
  match translate d c va .read with
  | .ok (.dev x, _) => some (x / 2 ^ 16)
  | _ => none

/-- Resolves the weight operand of an item: the address it reads and the slot it holds. -/
def Device.weight (d : Device) (it : Item) : Except MemErr (Option (Nat × Nat × Nat × Nat)) :=
  if it.typ ≠ 1 ∨ !bitOf (field it.desc 0x28 1) 5 ∨ claims? it.oprec 1 then .ok none
  else
    let va := it.opAddr 0x18
    match (d.pageOf it.ctx va).bind d.slotAt with
    | none => .ok none
    | some (w, i, l, slot) =>
      let r := d.slotFor it w i l
      let base := fun (s : Bool) => if s then l.base1 else l.base0
      let va1 := if r = slot then va else va + base r - base slot
      let pages := if r then l.pages1 else l.pages0
      if (d.pageOf it.ctx va1).any pages.contains then .ok (some (va1, w.recAt, i, bit r))
      else .error (.fault .translation va1)

/-! ### The whole -/

/-- An item whose claims or save cannot stand ends before it runs (R138, R139). -/
def Device.endEarly (d : Device) (it : Item) (f : Item → Item) : Device :=
  (d.updItem it.ctx it.seq fun x => { f x with phase := .done }).settleWork it.ctx it.seq

/-- An item that reads an operand record takes what it needs: the record is legal, its weight operand is resolved, its claims
are bound and its save is reserved; it is dispatched, or ends. -/
def Device.take (d0 : Device) (p : Platform) (it0 : Item) (oprec : List Byte) : Device :=
  let it := { it0 with oprec := oprec }
  let peer := it.covered && d0.reaches it
  let d := d0.updItem it.ctx it.seq fun x => { x with
    oprec := oprec, unmet := if peer then Nat.lor x.unmet 16 else x.unmet }
  let ws := claimWords oprec
  if !saveOk oprec then d.itemFault p it 1 60 0xFF .illegalInstr 0
  else match d.weight it with
    | .error e => d.accessFailed p it 1 60 0xFF e
    | .ok w =>
      let d1 := d.updItem it.ctx it.seq fun x => { x with
        bAddr := w.map Prod.fst, holds := (w.map fun y => (y.2.1, y.2.2.1, y.2.2.2)).toList }
      match d1.claimGap it.ctx ws with
      | some g => d1.endEarly it fun x => { x with recompute := some g }
      | none =>
        let d2 := d1.bindClaims it ws
        let d3 := if saves? oprec then d2.reserve it (field oprec 0x70 8) it.saveLen else (d2, true)
        if d3.2 then d3.1.updItem it.ctx it.seq fun x => { x with phase := .dispatched }
        else d3.1.endEarly it fun x => { x with err := some (.stashFull, 0) }

/-- Reads an item's operand record and takes what it names (R262). -/
def Device.takeRecord (d0 : Device) (p : Platform) (it : Item) : Device :=
  let d := d0.h0Bytes (it.actor none) 128 it.addr0
  match d.readBytes (it.actor none) 128 it.addr0 with
  | .error e => d.accessFailed p it 1 60 0xFF e
  | .ok r => d.take p it r

end Sys2Proof.Machine
end

