-- ==== Sys2Proof/Machine/Admit.lean ====
section
/-! DEFINITION. Dispatch: dependencies, order, Reel groups, held translations and the class 0 bound (R11, R13, R20, R94, R95,
R106, R202, R205, R255, R259, R260, R290 to R293, R298, R299). -/

namespace Sys2Proof.Machine

/-! ### Dependencies (R93, R259, R260) -/

/-- Does the item name an earlier one as its `i`-th dependency, and which? -/
def Item.depSeq (it : Item) (i : Nat) : Option Nat :=
  if it.dep i = 0 ∨ it.seq < it.dep i then none else some (it.seq - it.dep i)

/-- How an item that is recorded ended: status, time, whether it reached a partner module. -/
def Device.outcomeOf (d : Device) (c q : Nat) : Option (Status × Dword × Bool) :=
  if (d.item c q).isSome then none else FMap.get none (d.ring c).outcomes q

/-- The outcomes of an item's dependencies that are complete. -/
def Device.depOutcomes (d : Device) (it : Item) : List (Nat × Status × Dword × Bool) :=
  (List.range 4).filterMap fun i => (it.depSeq i).bind fun q => (d.outcomeOf it.ctx q).map fun o => (i, o)

/-- The first dependency that ended without success: which, and its entry's index. -/
def Device.depLost (d : Device) (it : Item) : Option Nat :=
  ((d.depOutcomes it).find? fun o => !o.2.1.success).map fun o =>
    detailDep o.1 (((it.depSeq o.1).getD 0) % (d.ring it.ctx).sqSize)

/-- Are all dependencies complete, but for deferred items that name the item: those it waits for once dispatched (R95,
R105)? -/
def Device.depsOver (d : Device) (it : Item) : Bool :=
  (List.range 4).all fun i => match (it.depSeq i).bind (d.item it.ctx) with
    | none => true
    | some x => x.defers it

/-! ### Reel groups (R298, R299, R304) -/

/-- The group entry an item names, where the item may wait for it: it exists, is enabled and not DOWN. -/
def Device.liveGroup (d : Device) (it : Item) : Option Group :=
  match it.group with
  | none => none
  | some (g, _) => if g ≤ 255 ∧ (d.group g).en ∧ (d.group g).gst ≠ .down then some (d.group g) else none

/-- Has the item's instance been aborted, and by which shard? -/
def Device.abortedBy (d : Device) (it : Item) : Option Nat :=
  match d.liveGroup it with
  | none => none
  | some g =>
    if it.inst < g.inst ∨ g.skipped.contains it.inst then
      some (((g.aborting.find? fun a => a.1 == it.inst).map fun a => a.2.1).getD 0)
    else none

/-- Must the item wait for the previous instance of its shard? -/
def Device.reelWaits (d : Device) (it : Item) : Bool := (d.liveGroup it).any fun g => decide (g.inst < it.inst)

/-- The checks of an item's use of its group, before it goes on (R298). -/
def Device.reelCheck (d : Device) (p : Platform) (it : Item) (go : Device → Device) : Device :=
  match it.group with
  | none => go d
  | some (g, sh) =>
    let x := d.group g
    let ports := (List.range Config.portCount).filter fun q => x.children.getLsbD q || x.parent.toNat == q
    if 255 < g || !x.en || decide (sh < x.base.toNat) || decide (x.base.toNat + x.count.toNat ≤ sh) then
      d.endEarly it fun y => { y with err := some (.indexRange, detailPos sh 4) }
    else if x.owner.toNat != it.ctx || !(ports.all fun q => (d.ctx it.ctx).portMask.getLsbD q) then
      d.itemFault p it 1 60 0xFF .permission 0
    else if x.gst = .down then d.endEarly it fun y => { y with err := some (.linkLost, x.downPort) }
    else match d.abortedBy it with
      | some s => d.endEarly it fun y => { y with depFail := some (detailDep 5 s) }
      | none => go d

/-! ### Which item may be dispatched (R20, R94, R255) -/

/-- Does a ready item wait at dispatch? -/
def Device.waitsThere (d : Device) (it : Item) : Bool :=
  d.reelWaits it || (it.typ == 4 && d.normWaits it) || (it.typ == 3 && it.waitAt.isSome)

/-- Is an item ready: fetched, its context open and no snapshot under way (R306), its slice there, its dependencies over, and nothing holds it? -/
def Device.ready (d : Device) (it : Item) : Bool :=
  it.phase == .fetched && !it.isWork && (d.ctx it.ctx).st == .opened && d.reel.snap == 0 && (d.slice it.slice).blk.isOn && d.depsOver it &&
    !d.waitsThere it

/-- Does class rank, or ring order within a class, put another ready item first? -/
def Device.outranked (d : Device) (it : Item) : Bool :=
  d.hub.items.any fun y =>
    ((y.slice == it.slice && decide (y.rank < it.rank)) || (y.ctx == it.ctx && y.rank == it.rank && decide (y.seq < it.seq))) &&
      d.ready y

/-! ### The class 0 bound (R290, R291, R293) -/

/-- Can a run of tiles be dealt until none is left? -/
def Device.dealsAll (c q : Nat) : Nat → Device → Bool
  | 0, _ => false
  | f + 1, d =>
    match d.item c q with
    | none => false
    | some it =>
      if field it.desc 0x1C 4 ≤ it.deal.col then true
      else match d.shortest ((d.sliceEngines it.slice).filter fun e => d.dealable it it.deal.width e.1 e.2) with
        | none => false
        | some e => Device.dealsAll c q f (d.dealRun it (d.prod it) e)

/-- Do an item's tiles fit the local queues at once? -/
def Device.tilesFit (d : Device) (it : Item) : Bool :=
  it.typ != 1 || Device.dealsAll it.ctx it.seq (64 * 8 * Config.laneDies + 1)
    (d.updItem it.ctx it.seq fun x => { x with deal := ⟨0, 0, 0, 0, true⟩ })

/-- The conditions of R293 that do not hold at dispatch, bit by bit. -/
def Device.unmetAt (d : Device) (p : Platform) (it : Item) : Nat :=
  let s := d.slice it.slice
  let n := s.dieList.length
  let other := d.hub.items.any fun y =>
    y.slice == it.slice && y.cls == 0 && (y.phase != .fetched || y.typ == 3 && y.waitAt.isSome) && !y.isWork && !(y.ctx == it.ctx && y.seq == it.seq)
  let peer := d.reaches it || (d.depOutcomes it).any fun o => o.2.2.2
  bit (decide (FMap.get 0 p.pow.sliceFloor it.slice < 180 * n)) + 2 * bit (decide (n < 2)) +
    4 * bit (!allBelow Config.stackCount fun i => decide (4 ≤ s.bw.getD i 0)) + 8 * bit (other || !d.tilesFit it) +
    16 * bit peer + 32 * bit p.pow.emergency

/-- An item as dispatch marks it: whether the bound covers it, what is unmet, and from when its start counts, the host's response
beyond 1 us on the read of its descriptor excluded (R291). -/
def Device.mark (d : Device) (p : Platform) (it : Item) : Item :=
  let covered := it.cls == 0 && (d.slice it.slice).reserved
  { it with
    covered := covered
    unmet := if covered then Nat.lor it.unmet (d.unmetAt p it) else it.unmet
    bell := (d.depOutcomes it).foldl (fun b o => if b.toNat < o.2.2.1.toNat then o.2.2.1 else b)
      (if covered then it.bell + BitVec.ofNat 64 it.hostNs else it.bell) }

/-! ### Kernels at dispatch (R202, R205) -/

/-- The held translation of an image. -/
def Device.heldXlat (d : Device) (c addr check : Nat) : Option Xlat :=
  d.hub.xlats.find? fun x => x.ctx == c && x.addr == addr && x.check == check

/-- Translations protected for class 0. -/
def Device.hotXlats (d : Device) : Nat := (d.hub.xlats.filter fun x => x.hot).length

/-- A held translation is used: it is the latest, and protected where the item is class 0 and there is room. -/
def Device.useXlat (d : Device) (x : Xlat) (cls : Nat) : Device :=
  let hot := cls == 0 && decide (d.hotXlats < 16384)
  let d1 := d.mapHub fun h => { h with xlats := h.xlats.map fun y =>
    if y.ctx == x.ctx && y.addr == x.addr && y.check == x.check then { y with hot := y.hot || hot, stamp := d.lruTick } else y }
  { d1 with lruTick := d1.lruTick + 1 }

/-- A kernel item is dispatched with its image's check value, by which its translation is known, and pins its slots; deferred items
that it waits for may be promoted (R95). -/
def Device.startKernel (d : Device) (it : Item) (check : Nat) : Device :=
  (d.updItem it.ctx it.seq fun x => { x with
    layerIx := check, waitAt := none, phase := .dispatched, holds := d.kernelPins it }).promote it.ctx

/-- A kernel item at dispatch: its image's header is read, and a held translation used, or the item waits for one. -/
def Device.kernelDispatch (d0 : Device) (p : Platform) (it : Item) : Device :=
  let d := d0.h0Bytes (it.actor none) 64 it.addr0
  match d.readBytes (it.actor none) 64 it.addr0 with
  | .error e => d.accessFailed p it 1 60 0xFF e
  | .ok h =>
    match d.heldXlat it.ctx it.addr0 (field h 0x30 4) with
    | some x => ((d.count it.ctx 85 1).useXlat x it.cls).startKernel it (field h 0x30 4)
    | none => d.updItem it.ctx it.seq fun y => { y with waitAt := some p.pow.time }

/-! ### ITEM_DISPATCH -/

/-- A norm-and-update item reads its record and its table, and holds its weight set in the directory (R115, R433). -/
def Device.normDispatch (d0 : Device) (p : Platform) (it : Item) : Device :=
  let d := d0.h0Read (it.actor none) fun a => d0.readSet a it
  match d.readSet (it.actor none) it with
  | .error e => d.accessFailed p it 1 60 0xFF e
  | .ok w => (d.putSet w).updItem it.ctx it.seq fun x => { x with phase := .dispatched }

/-- What dispatch does for an item that may go. -/
def Device.dispatch (d : Device) (p : Platform) (it0 : Item) : Device :=
  let it := d.mark p it0
  let d1 := (d.updItem it.ctx it.seq fun _ => it).count it.ctx 126 (if it.covered then it.hostNs else 0)
  match it.typ with
  | 1 => d1.takeRecord p it
  | 2 => d1.takeRecord p it
  | 3 => d1.kernelDispatch p it
  | 4 => d1.reelCheck p it fun d => d.normDispatch p it
  | 8 => d1.reelCheck p it fun d => d.updItem it.ctx it.seq fun x => { x with phase := .dispatched }
  | _ => d1.updItem it.ctx it.seq fun x => { x with phase := .dispatched }

/-- ITEM_DISPATCH: an item of which a dependency failed runs nothing, whatever its context's state; a ready one that no other
goes before is dispatched. -/
def itemDispatch (c q : Nat) (p : Platform) (d : Device) : Device :=
  match d.item c q with
  | none => d
  | some it =>
    if it.phase ≠ .fetched ∨ it.isWork then d
    else match d.depLost it with
      | some x => d.endEarly it fun y => { y with depFail := some x }
      | none =>
        if !d.ready it || d.outranked it then d else (d.dispatch p it).promote c

/-- ITEM_DISPATCH. -/
def execItemDispatch (ctx seq : Nat) (s : State) : Out := onDev (itemDispatch ctx seq) s

end Sys2Proof.Machine
end

