-- ==== Sys2Proof/Machine/Operands.lean ====
section
/-! DEFINITION. Operand selectors, guards and the issue of a JKF instruction by a pack (R165, R166, R184, R188 to R194). -/

namespace Sys2Proof.Machine

/-! ### Selectors (R188, R189) -/

/-- Does the selector name a thread register? -/
def selT (s : BitVec 8) : Bool := decide (s.toNat < 0x80)
/-- Does it name a uniform register? -/
def selU (s : BitVec 8) : Bool := decide (0x80 ≤ s.toNat ∧ s.toNat < 0xC0)

/-- Is a selector legal for an operand of `n` registers: within the declared registers, a pair at an even register? -/
def regsOk (tregs : Nat) (s : BitVec 8) (n : Nat) : Bool :=
  (n != 2 || s.toNat % 2 == 0) &&
    ((selT s && decide (s.toNat + n ≤ tregs)) || (selU s && decide (s.toNat + n ≤ 0xC0)))

/-- A source: a register, the immediate word, or zero. The immediate word holds at most 64 bits. -/
def srcOk (tregs : Nat) (s : BitVec 8) (n : Nat) : Bool :=
  regsOk tregs s n || (s == 0xC0#8 && decide (n ≤ 2)) || s == 0xC1#8

/-- A destination: a register, or 0xC1, which discards. -/
def dstOk (tregs : Nat) (s : BitVec 8) (n : Nat) : Bool := regsOk tregs s n || s == 0xC1#8

/-- The operand fields of an instruction: its destination and its sources with their counts of registers, the fields it
does not use, whether it reads or writes something each thread holds besides (a predicate, its lane), and whether the
immediate word has a use of its own. -/
structure Operands where
  dst       : Option (BitVec 8 × Nat)
  srcs      : List (BitVec 8 × Nat)
  unused    : List (BitVec 8)
  perThread : Bool
  immUse    : Bool
  deriving DecidableEq, Repr

/-- Is the instruction uniform (R190)? -/
def Operands.uniform (o : Operands) : Bool :=
  !o.perThread && o.srcs.all (fun s => !selT s.1) && !(o.dst.any fun x => selT x.1)

/-- Are the operand fields legal (R188 to R190)? -/
def Operands.ok (o : Operands) (tregs : Nat) (i : Issue) : Bool :=
  o.srcs.all (fun s => srcOk tregs s.1 s.2) && o.dst.all (fun x => dstOk tregs x.1 x.2) &&
    o.unused.all (· == 0xC1#8) && (i.imm.isSome == (o.immUse || o.srcs.any fun s => s.1 == 0xC0#8)) &&
    !(o.dst.any (fun x => selU x.1) && (o.perThread || o.srcs.any fun s => selT s.1)) &&
    !(o.uniform && i.guard.isSome)

/-! ### Registers -/

/-- Word `j` of the operand a selector names, as a lane reads it. -/
def Pack.word (p : Pack) (imm : Option Dword) (lane : Nat) (s : BitVec 8) (j : Nat) : Word :=
  let n := s.toNat
  if n < 0x80 then FMap.get 0 p.regs (128 * lane + n + j)
  else if n < 0xC0 then FMap.get 0 p.uregs (n - 0x80 + j)
  else if n = 0xC0 then ((imm.getD 0) >>> (32 * j)).setWidth 32
  else 0

/-- An operand of one register, or of a pair with the low word first (R188). -/
def Pack.read (p : Pack) (imm : Option Dword) (lane : Nat) (s : BitVec 8) (n : Nat) : Dword :=
  if n = 2 then p.word imm lane s 1 ++ p.word imm lane s 0 else (p.word imm lane s 0).setWidth 64

/-- Writes word `j` of a destination. -/
def Pack.putWord (p : Pack) (lane : Nat) (s : BitVec 8) (j : Nat) (w : Word) : Pack :=
  let n := s.toNat
  if n < 0x80 then { p with regs := FMap.set 0 p.regs (128 * lane + n + j) w }
  else if n < 0xC0 then { p with uregs := FMap.set 0 p.uregs (n - 0x80 + j) w }
  else p

/-- Writes a destination of one register or a pair. -/
def Pack.write (p : Pack) (lane : Nat) (s : BitVec 8) (n : Nat) (v : Dword) : Pack :=
  let q := p.putWord lane s 0 (v.setWidth 32)
  if n = 2 then q.putWord lane s 1 ((v >>> 32).setWidth 32) else q

/-- Predicate `k` of a lane. -/
def Pack.pred (p : Pack) (k lane : Nat) : Bool := (FMap.get 0 p.preds k).getLsbD lane

/-- A word with bit `i` set to a truth value. -/
def putBit (w : Word) (i : Nat) (b : Bool) : Word :=
  if b then w ||| (1#32 <<< i) else w &&& ~~~(1#32 <<< i)

/-- Writes predicate `k` of a lane. -/
def Pack.putPred (p : Pack) (k lane : Nat) (b : Bool) : Pack :=
  { p with preds := FMap.upd 0 p.preds k fun w => putBit w lane b }

/-- The lanes of a mask, ascending. -/
def lanesOf (m : Word) : List Nat := (List.range 32).filter fun i => m.getLsbD i

/-- The enabled threads that a guard lets pass (R192). -/
def Pack.passing (p : Pack) (g : Option Guard) : Word :=
  match g with
  | .none => p.mask
  | .some g => p.mask &&& (if g.neg then ~~~(FMap.get 0 p.preds g.pred.toNat) else FMap.get 0 p.preds g.pred.toNat)

/-- The lanes an instruction runs for: one lane for a uniform instruction, which runs once whatever the mask (R190). -/
def Pack.lanes (p : Pack) (o : Operands) (g : Option Guard) : List Nat :=
  if o.uniform then [0] else lanesOf (p.passing g)

/-! ### Issue and the running path (R165, R166, R169 to R173, R184) -/

/-- What running an instruction comes to: it is done and the pc advances; it is done and has written the pc; it has
not run and the pack waits; a request of it stalls at issue (R237); it has not run, and what it needs is on its way; a
thread's access fails, and those of `more` other threads with it. -/
inductive Ran where
  | go (d : Device)
  | jump (d : Device)
  | wait (w : Wait) (d : Device)
  | stall
  | hold (d : Device)
  | fail (e : MemErr) (lane : Nat) (more : Nat := 0)

/-- The barrier id that stands for threads released from their barrier (R173). -/
def released : Nat := 16

/-- Lanes as a mask. -/
def laneMask (ls : List Nat) : Word := ls.foldl (fun w i => w ||| (1#32 <<< i)) 0

/-- Released threads that lie in a mask, by the lowest pc they resume at (R173; DEDUCED, log 39). -/
def Pack.freed (p : Pack) (m : Word) : List (Nat × Nat × Nat) :=
  let here := p.parked.filter fun e => e.2.1 == released && m.getLsbD e.1
  match here with
  | [] => []
  | e :: es =>
    let pc := es.foldl (fun a x => min a x.2.2) e.2.2
    here.filter fun x => x.2.2 == pc

/-- Released threads resume as one path. -/
def Pack.resume (p : Pack) (es : List (Nat × Nat × Nat)) : Pack :=
  match es with
  | [] => p
  | e :: _ =>
    { p with mask := laneMask (es.map Prod.fst), pc := e.2.2, parked := p.parked.filter fun x => !es.contains x }

/-- The next path R170 allows a pack that has reached its reconvergence pc, or whose mask is empty: the pending path of
the top entry, else threads released from a barrier, else the entry is popped once every live thread of its restore
mask has come. -/
def Pack.nextPath (p : Pack) : Option Pack :=
  match p.stack with
  | [] =>
    if p.mask = 0 ∧ p.freed p.live ≠ [] then some (p.resume (p.freed p.live)) else Option.none
  | f :: fs =>
    if ¬(p.mask = 0 ∨ f.recon = p.pc) then Option.none
    else if f.pend &&& p.live ≠ 0 then
      some { p with pc := f.pc, mask := f.pend &&& p.live, stack := { f with pend := 0 } :: fs }
    else if p.freed (f.mask &&& p.live) ≠ [] then some (p.resume (p.freed (f.mask &&& p.live)))
    else if p.parked.any fun e => (f.mask &&& p.live).getLsbD e.1 then Option.none
    else some { p with pc := f.recon, mask := f.mask &&& p.live, stack := fs }

/-- Has the running path reached the reconvergence pc of the top entry (R170)? -/
def Pack.atRecon (p : Pack) : Bool :=
  match p.stack with
  | [] => false
  | f :: _ => f.recon == p.pc

/-- Is another path due: the running one has reached a reconvergence pc, or none of its threads is left (R170, R173)? -/
def Pack.pathDue (p : Pack) : Bool := p.atRecon || (p.mask == 0 && p.nextPath.isSome)

/-- Packs resident on a core: their numbers. -/
def Device.residents (d : Device) (die core : Nat) : List Nat :=
  (d.collie.blocks.filter fun b => b.2.die == die && b.2.core == core).flatMap fun b =>
    ((List.range b.2.packs).map fun i => 16 * b.1 + i).filter fun p => (d.pack p).live != 0

/-- Does a pack belong to a class 0 item? -/
def Device.class0Pack (d : Device) (p : Nat) : Bool :=
  match d.block (p / 16) with
  | some k => match d.item k.ctx k.seq with
    | some it => it.cls == 0
    | none => false
  | none => false

/-- Can a pack issue as far as it is concerned: it is active, waits on nothing, and no other path is due? -/
def Pack.canIssue (x : Pack) : Bool := x.live != 0 && x.slot.isSome && x.wait.isNone && !x.pathDue

/-- Does a pack win its core's issue slot: packs of class 0 items go first, and the rest in turn from the lowest active entry after
the last winner (R165)? The others in question are those of `rivals` that can issue. -/
def Device.winsIssue (d : Device) (k : KBlock) (p : Nat) (rivals : BitVec 4) : Bool :=
  let here := (d.residents k.die k.core).filter fun q =>
    (d.pack q).canIssue && (q == p || rivals.getLsbD ((d.pack q).slot.getD 4))
  arbiter 4 (d.core k.die k.core).last (here.map fun q => ((d.pack q).slot.getD 0, d.class0Pack q)) == (d.pack p).slot

/-- May the pack of an instruction issue it: it is resident and can issue, its core runs, and it wins the issue slot? -/
def Device.issuer (d : Device) (pl : Platform) (i : Issue) : Option (KBlock × Pack × Item) :=
  let p := i.pack
  match d.block (p / 16) with
  | none => none
  | some k =>
    let x := d.pack p
    match d.item k.ctx k.seq with
    | none => none
    | some it =>
      if decide (p % 16 < k.packs) && x.canIssue && !(d.core k.die k.core).halted &&
          pl.pow.unitRuns k.die (16 + k.core) && d.winsIssue k p i.rivals then some (k, x, it)
      else none

/-- A context fault of a thread, and of `more` other threads of the instruction in its cycle (R183, R184, R341, R342). -/
def Device.coreFault (d : Device) (pl : Platform) (p : Nat) (k : KBlock) (c : FaultCode) (addr lane more : Nat) : Device :=
  d.takeFaults pl k.ctx (List.replicate (more + 1)
    ⟨c, 2, k.die, k.core, lane, k.seq % (d.ring k.ctx).sqSize, (d.pack p).pc, p % 16, 0, addr⟩)

/-- A thread's access fails: a context fault, or an error of the kernel item (R183, R125, R322). -/
def Device.coreFail (d : Device) (pl : Platform) (p : Nat) (k : KBlock) (e : MemErr) (lane more : Nat) : Device :=
  match e with
  | .fault c va => d.coreFault pl p k c va lane more
  | .ecc va => (d.noteEcc k.ctx va).itemError k.ctx k.seq .eccUncorrectable (detailHalf va)
  | .link q => d.itemError k.ctx k.seq .linkLost q
  | _ => d

/-- The pack leaves the active set and waits (R166). -/
def Device.parkPack (d : Device) (p : Nat) (w : Option Wait) : Device :=
  let t := d.collie.stamp
  (d.mapCollie fun c => { c with stamp := t + 1 }).updPack p fun x => { x with slot := none, wait := w, stamp := t }

/-- Words an instruction takes in the code section (R192). -/
def wordsOf (i : Issue) : Nat := if i.imm.isSome then 2 else 1

/-- An instruction has been issued: it is counted, its cycle is a busy one, and the round-robin moves past its active entry (R165,
R187, R422). -/
def Device.issued (d : Device) (k : KBlock) (slot : Option Nat) : Device :=
  (((d.count k.ctx 78 1).count k.ctx 44 1).countUnit k.ctx k.die (16 + k.core) 12 1).updCore k.die k.core fun c => { c with last := slot.getD c.last }

/-- A pack issues an instruction: an illegal one raises ILLEGAL_INSTR; one that waits is issued again when the pack is
ready (R166, R183, R184). -/
def Device.runJkf (i : Issue) (legal : KBlock → Bool) (body : KBlock → Pack → Device → Ran) (pl : Platform)
    (d : Device) : Device :=
  match d.issuer pl i with
  | none => d
  | some (k, x, _) =>
    if legal k then
      match body k x d with
      | .go d1 => ((d1.updPack i.pack fun y => { y with pc := x.pc + wordsOf i }).issued k x.slot).firstIssue pl.pow.time k.ctx k.seq
      | .jump d1 => (d1.issued k x.slot).firstIssue pl.pow.time k.ctx k.seq
      | .wait w d1 => d1.parkPack i.pack (some w)
      | .stall => d
      | .hold d1 => d1
      | .fail e lane more => d.coreFail pl i.pack k e lane more
    else d.coreFault pl i.pack k .illegalInstr 0 0 0

/-! ### The code a pack runs (R192, R202, R204) -/

/-- The translation a kernel item started with: its image address and the check it found (R202). -/
def Device.xlatOf (d : Device) (it : Item) : Option Xlat :=
  d.hub.xlats.find? fun x => x.ctx == it.ctx && x.addr == it.addr0 && x.check == it.layerIx

/-- The instruction of a block's kernel at a pc: its word, with the immediate word behind it where it has one. -/
def Device.codeAt (d : Device) (k : KBlock) (pc : Nat) : Option Instr :=
  ((d.item k.ctx k.seq).bind d.xlatOf).bind fun x => (x.code[pc]?).bind fun w =>
    jkfDecode 0 w (if w.getLsbD 51 then x.code[pc + 1]? else none)

/-- Are two commands one JKF instruction, whichever packs issue them? -/
def sameCode (a b : Instr) : Bool :=
  match jkfParts a, jkfParts b with
  | some (c1, o1, i1, b1), some (c2, o2, i2, b2) => c1 == c2 && o1 == o2 && i1.guard == i2.guard && i1.imm == i2.imm && b1 == b2
  | _, _ => false

/-- Is a command's instruction the one at the pc of its pack? One that is not a pack's has none to be. -/
def Device.atCode (d : Device) (c : Instr) : Bool :=
  match jkfParts c with
  | none => true
  | some (_, _, i, _) =>
    match d.block (i.pack / 16) with
    | none => true
    | some k => (d.codeAt k (d.pack i.pack).pc).any (sameCode c)

/-- The effect of a command that is an instruction of a pack: none unless the pack's kernel has that instruction at its pc (R204;
log 3, log 26). -/
def onCode (c : Instr) (f : Platform → Device → Device) (s : State) : Out := if s.dev.atCode c then onDev f s else .next s

end Sys2Proof.Machine
end

