-- ==== Sys2Proof/Machine/Alu.lean ====
section
/-! DEFINITION. JKF INT, FP and PRED instructions: arithmetic, conversions, comparisons and predicate logic
(R146, R183, R190, R194, R197). -/

namespace Sys2Proof.Machine

/-! ### INT and FP (R194, R197) -/

/-- An INT or FP operation: how many of a, b and c it uses, whether it selects by a predicate, the formats it allows
and what it computes from the format, the conversion byte, the predicate and its operands. -/
structure AluOp where
  n    : Nat
  sel  : Bool
  fmts : List Nat
  f    : Nat → Nat → Bool → Dword → Dword → Dword → Dword

/-- Registers of an operand of a format: b64 takes a pair (R188). -/
def regsOf (fmt : Nat) : Nat := if fmt = 0x0F then 2 else 1

/-- The operand fields of an INT or FP instruction. -/
def aluFields (o : AluOp) (b : AluBody) : Operands :=
  let w := regsOf b.fmt.toNat
  { dst := some (b.dst, w), srcs := ([b.a, b.b, b.c].take o.n).map fun s => (s, w), unused := [b.a, b.b, b.c].drop o.n
    perThread := o.sel, immUse := false }

/-- Is an INT or FP instruction legal? A reserved value of its cvt byte is not (R29, R194), and stochastic rounding is not, on
a core (R197). -/
def aluOk (o : AluOp) (tregs : Nat) (i : Issue) (b : AluBody) : Bool :=
  o.fmts.contains b.fmt.toNat && bitsOf b.cvt.toNat 5 4 != 2 &&
    convOk (if o.sel then b.cvt.toNat / 8 * 8 else b.cvt.toNat) &&
    (aluFields o b).ok tregs i

/-- What lane `l` computes, every source read before a destination is written. -/
def aluLane (o : AluOp) (i : Issue) (b : AluBody) (x : Pack) (l : Nat) : Dword :=
  let w := regsOf b.fmt.toNat
  o.f b.fmt.toNat b.cvt.toNat (x.pred (b.cvt.toNat % 8) l) (x.read i.imm l b.a w) (x.read i.imm l b.b w)
    (x.read i.imm l b.c w)

/-- Issues an INT or FP instruction. -/
def alu (o : AluOp) (i : Issue) (b : AluBody) : Platform → Device → Device :=
  Device.runJkf i (fun k => aluOk o k.tregs i b) fun _ x d =>
    .go (d.setPack i.pack ((x.lanes (aluFields o b) i.guard).foldl
      (fun y l => y.write l b.dst (regsOf b.fmt.toNat) (aluLane o i b x l)) x))

/-- A result as wide as the format: 32 bits, or 64 for b64. -/
def fitFmt (fmt : Nat) (v : Dword) : Dword := if fmt = 0x0F then v else (v.setWidth 32).setWidth 64

/-- Width of an integer format. -/
def widthOf (fmt : Nat) : Nat := if fmt = 0x0F then 64 else 32

/-- Formats of the integer operations: s32, u32; b64 where the table adds it. -/
def intFmts : List Nat := [0x01, 0x02]
def intFmts64 : List Nat := [0x01, 0x02, 0x0F]

/-- The value of a 32-bit operand under s32 or u32. -/
def intVal (fmt : Nat) (x : Dword) : Int := if fmt = 0x01 then (x.setWidth 32).toInt else (x.setWidth 32).toNat

/-- A 32-bit result of an integer. -/
def ofInt32 (v : Int) : Dword := (BitVec.ofInt 32 v).setWidth 64

/-- The quotient: by zero 0xFFFF_FFFF or -1, else truncated toward zero, wrapping (R183, R197; log 32). -/
def quotient (fmt : Nat) (a b : Dword) : Dword :=
  if intVal fmt b = 0 then ofInt32 (-1) else ofInt32 ((intVal fmt a).tdiv (intVal fmt b))

/-- The remainder: by zero the dividend (R183; log 32). -/
def remainder (fmt : Nat) (a b : Dword) : Dword :=
  if intVal fmt b = 0 then fitFmt fmt a else ofInt32 ((intVal fmt a).tmod (intVal fmt b))

/-- A shift whose amount is below the width; the spec states no result for a larger amount (log 30). -/
def shifted (n fmt : Nat) (a b : Dword) (v : Dword) : Dword :=
  if b.toNat < widthOf fmt then fitFmt fmt v else fitFmt fmt (Config.freeShift n a b)

/-- Bits set in the low `n` bits. -/
def popCount (n : Nat) (x : Dword) : Nat := ((List.range n).filter fun i => x.getLsbD i).length

/-- Zeros above the highest set bit of 32. -/
def leadZeros (x : Dword) : Nat := ((List.range 32).takeWhile fun i => !x.getLsbD (31 - i)).length

/-- The 32 bits in reverse order. -/
def revBits (x : Dword) : Dword := (x.setWidth 32).reverse.setWidth 64

/-- An FP32 function of one, two or three operands. -/
def fp1 (f : Word → Word) (a : Dword) : Dword := (f (a.setWidth 32)).setWidth 64
def fp2 (f : Word → Word → Word) (a b : Dword) : Dword := (f (a.setWidth 32) (b.setWidth 32)).setWidth 64
def fp3 (f : Word → Word → Word → Word) (a b c : Dword) : Dword :=
  (f (a.setWidth 32) (b.setWidth 32) (c.setWidth 32)).setWidth 64

/-- The narrow formats of CVT.F2N and CVT.N2F. -/
def narrowFmts : List Nat := [0x03, 0x04, 0x05, 0x06]

/-- INT ADD: wraps. -/
def opIntAdd : AluOp := ⟨2, false, intFmts64, fun m _ _ a b _ => fitFmt m (a + b)⟩
/-- INT_ADD. -/
def execIntAdd (i : Issue) (b : AluBody) (s : State) : Out := onCode (.intAdd i b) (alu opIntAdd i b) s

/-- INT SUB: wraps. -/
def opIntSub : AluOp := ⟨2, false, intFmts64, fun m _ _ a b _ => fitFmt m (a - b)⟩
/-- INT_SUB. -/
def execIntSub (i : Issue) (b : AluBody) (s : State) : Out := onCode (.intSub i b) (alu opIntSub i b) s

/-- INT MULLO: the low word of the product. -/
def opIntMullo : AluOp := ⟨2, false, intFmts64, fun m _ _ a b _ => fitFmt m (a * b)⟩
/-- INT_MULLO. -/
def execIntMullo (i : Issue) (b : AluBody) (s : State) : Out := onCode (.intMullo i b) (alu opIntMullo i b) s

/-- INT MULHI: the high word of the 64-bit product. -/
def opIntMulhi : AluOp := ⟨2, false, intFmts, fun m _ _ a b _ => ofInt32 (intVal m a * intVal m b / 2 ^ 32)⟩
/-- INT_MULHI. -/
def execIntMulhi (i : Issue) (b : AluBody) (s : State) : Out := onCode (.intMulhi i b) (alu opIntMulhi i b) s

/-- INT DIV. -/
def opIntDiv : AluOp := ⟨2, false, intFmts, fun m _ _ a b _ => quotient m a b⟩
/-- INT_DIV. -/
def execIntDiv (i : Issue) (b : AluBody) (s : State) : Out := onCode (.intDiv i b) (alu opIntDiv i b) s

/-- INT REM. -/
def opIntRem : AluOp := ⟨2, false, intFmts, fun m _ _ a b _ => remainder m a b⟩
/-- INT_REM. -/
def execIntRem (i : Issue) (b : AluBody) (s : State) : Out := onCode (.intRem i b) (alu opIntRem i b) s

/-- INT MIN. -/
def opIntMin : AluOp := ⟨2, false, intFmts, fun m _ _ a b _ => if intVal m b < intVal m a then fitFmt m b else fitFmt m a⟩
/-- INT_MIN. -/
def execIntMin (i : Issue) (b : AluBody) (s : State) : Out := onCode (.intMin i b) (alu opIntMin i b) s

/-- INT MAX. -/
def opIntMax : AluOp := ⟨2, false, intFmts, fun m _ _ a b _ => if intVal m a < intVal m b then fitFmt m b else fitFmt m a⟩
/-- INT_MAX. -/
def execIntMax (i : Issue) (b : AluBody) (s : State) : Out := onCode (.intMax i b) (alu opIntMax i b) s

/-- INT AND. -/
def opIntAnd : AluOp := ⟨2, false, intFmts64, fun m _ _ a b _ => fitFmt m (a &&& b)⟩
/-- INT_AND. -/
def execIntAnd (i : Issue) (b : AluBody) (s : State) : Out := onCode (.intAnd i b) (alu opIntAnd i b) s

/-- INT OR. -/
def opIntOr : AluOp := ⟨2, false, intFmts64, fun m _ _ a b _ => fitFmt m (a ||| b)⟩
/-- INT_OR. -/
def execIntOr (i : Issue) (b : AluBody) (s : State) : Out := onCode (.intOr i b) (alu opIntOr i b) s

/-- INT XOR. -/
def opIntXor : AluOp := ⟨2, false, intFmts64, fun m _ _ a b _ => fitFmt m (a ^^^ b)⟩
/-- INT_XOR. -/
def execIntXor (i : Issue) (b : AluBody) (s : State) : Out := onCode (.intXor i b) (alu opIntXor i b) s

/-- INT NOT. -/
def opIntNot : AluOp := ⟨1, false, intFmts, fun m _ _ a _ _ => fitFmt m (~~~a)⟩
/-- INT_NOT. -/
def execIntNot (i : Issue) (b : AluBody) (s : State) : Out := onCode (.intNot i b) (alu opIntNot i b) s

/-- INT SHL. -/
def opIntShl : AluOp := ⟨2, false, intFmts64, fun m _ _ a b _ => shifted 0 m a b (a <<< b.toNat)⟩
/-- INT_SHL. -/
def execIntShl (i : Issue) (b : AluBody) (s : State) : Out := onCode (.intShl i b) (alu opIntShl i b) s

/-- INT SHR: logical. -/
def opIntShr : AluOp := ⟨2, false, intFmts64, fun m _ _ a b _ => shifted 1 m a b (a >>> b.toNat)⟩
/-- INT_SHR. -/
def execIntShr (i : Issue) (b : AluBody) (s : State) : Out := onCode (.intShr i b) (alu opIntShr i b) s

/-- INT SAR: arithmetic. -/
def opIntSar : AluOp := ⟨2, false, intFmts, fun m _ _ a b _ => shifted 2 m a b (((a.setWidth 32).sshiftRight b.toNat).setWidth 64)⟩
/-- INT_SAR. -/
def execIntSar (i : Issue) (b : AluBody) (s : State) : Out := onCode (.intSar i b) (alu opIntSar i b) s

/-- INT POPC. -/
def opIntPopc : AluOp := ⟨1, false, intFmts, fun _ _ _ a _ _ => BitVec.ofNat 64 (popCount 32 a)⟩
/-- INT_POPC. -/
def execIntPopc (i : Issue) (b : AluBody) (s : State) : Out := onCode (.intPopc i b) (alu opIntPopc i b) s

/-- INT CLZ. -/
def opIntClz : AluOp := ⟨1, false, intFmts, fun _ _ _ a _ _ => BitVec.ofNat 64 (leadZeros a)⟩
/-- INT_CLZ. -/
def execIntClz (i : Issue) (b : AluBody) (s : State) : Out := onCode (.intClz i b) (alu opIntClz i b) s

/-- INT BREV. -/
def opIntBrev : AluOp := ⟨1, false, intFmts, fun _ _ _ a _ _ => revBits a⟩
/-- INT_BREV. -/
def execIntBrev (i : Issue) (b : AluBody) (s : State) : Out := onCode (.intBrev i b) (alu opIntBrev i b) s

/-- INT MOV. -/
def opIntMov : AluOp := ⟨1, false, intFmts64, fun m _ _ a _ _ => fitFmt m a⟩
/-- INT_MOV. -/
def execIntMov (i : Issue) (b : AluBody) (s : State) : Out := onCode (.intMov i b) (alu opIntMov i b) s

/-- INT SEL: a where the predicate holds, else b (log 33). -/
def opIntSel : AluOp := ⟨2, true, intFmts64, fun m _ p a b _ => fitFmt m (if p then a else b)⟩
/-- INT_SEL. -/
def execIntSel (i : Issue) (b : AluBody) (s : State) : Out := onCode (.intSel i b) (alu opIntSel i b) s

/-- FP ADD. -/
def opFpAdd : AluOp := ⟨2, false, [0x00], fun _ _ _ a b _ => fp2 Fp.add a b⟩
/-- FP_ADD. -/
def execFpAdd (i : Issue) (b : AluBody) (s : State) : Out := onCode (.fpAdd i b) (alu opFpAdd i b) s

/-- FP SUB. -/
def opFpSub : AluOp := ⟨2, false, [0x00], fun _ _ _ a b _ => fp2 Fp.sub a b⟩
/-- FP_SUB. -/
def execFpSub (i : Issue) (b : AluBody) (s : State) : Out := onCode (.fpSub i b) (alu opFpSub i b) s

/-- FP MUL. -/
def opFpMul : AluOp := ⟨2, false, [0x00], fun _ _ _ a b _ => fp2 Fp.mul a b⟩
/-- FP_MUL. -/
def execFpMul (i : Issue) (b : AluBody) (s : State) : Out := onCode (.fpMul i b) (alu opFpMul i b) s

/-- FP FMA: one rounding. -/
def opFpFma : AluOp := ⟨3, false, [0x00], fun _ _ _ a b c => fp3 Fp.fma a b c⟩
/-- FP_FMA. -/
def execFpFma (i : Issue) (b : AluBody) (s : State) : Out := onCode (.fpFma i b) (alu opFpFma i b) s

/-- FP MIN. -/
def opFpMin : AluOp := ⟨2, false, [0x00], fun _ _ _ a b _ => fp2 Fp.min a b⟩
/-- FP_MIN. -/
def execFpMin (i : Issue) (b : AluBody) (s : State) : Out := onCode (.fpMin i b) (alu opFpMin i b) s

/-- FP MAX. -/
def opFpMax : AluOp := ⟨2, false, [0x00], fun _ _ _ a b _ => fp2 Fp.max a b⟩
/-- FP_MAX. -/
def execFpMax (i : Issue) (b : AluBody) (s : State) : Out := onCode (.fpMax i b) (alu opFpMax i b) s

/-- FP ABS. -/
def opFpAbs : AluOp := ⟨1, false, [0x00], fun _ _ _ a _ _ => fp1 Fp.abs a⟩
/-- FP_ABS. -/
def execFpAbs (i : Issue) (b : AluBody) (s : State) : Out := onCode (.fpAbs i b) (alu opFpAbs i b) s

/-- FP NEG. -/
def opFpNeg : AluOp := ⟨1, false, [0x00], fun _ _ _ a _ _ => fp1 Fp.neg a⟩
/-- FP_NEG. -/
def execFpNeg (i : Issue) (b : AluBody) (s : State) : Out := onCode (.fpNeg i b) (alu opFpNeg i b) s

/-- FP COPYSIGN. -/
def opFpCopysign : AluOp := ⟨2, false, [0x00], fun _ _ _ a b _ => fp2 Fp.copysign a b⟩
/-- FP_COPYSIGN. -/
def execFpCopysign (i : Issue) (b : AluBody) (s : State) : Out := onCode (.fpCopysign i b) (alu opFpCopysign i b) s

/-- FP DIV. -/
def opFpDiv : AluOp := ⟨2, false, [0x00], fun _ _ _ a b _ => fp2 Fp.div a b⟩
/-- FP_DIV. -/
def execFpDiv (i : Issue) (b : AluBody) (s : State) : Out := onCode (.fpDiv i b) (alu opFpDiv i b) s

/-- FP SQRT. -/
def opFpSqrt : AluOp := ⟨1, false, [0x00], fun _ _ _ a _ _ => fp1 Fp.sqrt a⟩
/-- FP_SQRT. -/
def execFpSqrt (i : Issue) (b : AluBody) (s : State) : Out := onCode (.fpSqrt i b) (alu opFpSqrt i b) s

/-- FP RSQRT. -/
def opFpRsqrt : AluOp := ⟨1, false, [0x00], fun _ _ _ a _ _ => fp1 Fp.rsqrt a⟩
/-- FP_RSQRT. -/
def execFpRsqrt (i : Issue) (b : AluBody) (s : State) : Out := onCode (.fpRsqrt i b) (alu opFpRsqrt i b) s

/-- FP RECIP. -/
def opFpRecip : AluOp := ⟨1, false, [0x00], fun _ _ _ a _ _ => fp1 Fp.recip a⟩
/-- FP_RECIP. -/
def execFpRecip (i : Issue) (b : AluBody) (s : State) : Out := onCode (.fpRecip i b) (alu opFpRecip i b) s

/-- FP EXP2. -/
def opFpExp2 : AluOp := ⟨1, false, [0x00], fun _ _ _ a _ _ => fp1 Fp.exp2 a⟩
/-- FP_EXP2. -/
def execFpExp2 (i : Issue) (b : AluBody) (s : State) : Out := onCode (.fpExp2 i b) (alu opFpExp2 i b) s

/-- FP LOG2. -/
def opFpLog2 : AluOp := ⟨1, false, [0x00], fun _ _ _ a _ _ => fp1 Fp.log2 a⟩
/-- FP_LOG2. -/
def execFpLog2 (i : Issue) (b : AluBody) (s : State) : Out := onCode (.fpLog2 i b) (alu opFpLog2 i b) s

/-- CVT.F2I: rounded under rnd, saturating, 0 for NaN. -/
def opCvtF2i : AluOp := ⟨1, false, [0x00], fun _ v _ a _ _ => fp1 (Fp.toS32 (convRnd v 0)) a⟩
/-- CVT_F2I. -/
def execCvtF2i (i : Issue) (b : AluBody) (s : State) : Out := onCode (.cvtF2i i b) (alu opCvtF2i i b) s

/-- CVT.F2U. -/
def opCvtF2u : AluOp := ⟨1, false, [0x00], fun _ v _ a _ _ => fp1 (Fp.toU32 (convRnd v 0)) a⟩
/-- CVT_F2U. -/
def execCvtF2u (i : Issue) (b : AluBody) (s : State) : Out := onCode (.cvtF2u i b) (alu opCvtF2u i b) s

/-- CVT.I2F. -/
def opCvtI2f : AluOp := ⟨1, false, [0x00], fun _ _ _ a _ _ => fp1 Fp.ofS32 a⟩
/-- CVT_I2F. -/
def execCvtI2f (i : Issue) (b : AluBody) (s : State) : Out := onCode (.cvtI2f i b) (alu opCvtI2f i b) s

/-- CVT.U2F. -/
def opCvtU2f : AluOp := ⟨1, false, [0x00], fun _ _ _ a _ _ => fp1 Fp.ofU32 a⟩
/-- CVT_U2F. -/
def execCvtU2f (i : Issue) (b : AluBody) (s : State) : Out := onCode (.cvtU2f i b) (alu opCvtU2f i b) s

/-- CVT.F2N: the narrow value in the low bits, zeros above (R29, R30). -/
def opCvtF2n : AluOp := ⟨1, false, narrowFmts, fun m v _ a _ _ => BitVec.ofNat 64 (convert m (convRnd v 0) (convSat v) (toNum (a.setWidth 32)))⟩
/-- CVT_F2N. -/
def execCvtF2n (i : Issue) (b : AluBody) (s : State) : Out := onCode (.cvtF2n i b) (alu opCvtF2n i b) s

/-- CVT.N2F: exact. -/
def opCvtN2f : AluOp := ⟨1, false, narrowFmts, fun m _ _ a _ _ => (ofNum (elemNum m (a.toNat % 2 ^ fmtBits m))).setWidth 64⟩
/-- CVT_N2F. -/
def execCvtN2f (i : Issue) (b : AluBody) (s : State) : Out := onCode (.cvtN2f i b) (alu opCvtN2f i b) s

/-! ### PRED (R194, R197) -/

/-- The operand fields of a comparison or a class test, which uses a alone. -/
def predFields (cls : Bool) (b : PredBody) : Operands :=
  let w := regsOf b.fmt.toNat
  if cls then ⟨none, [(b.a, w)], [b.b], true, false⟩ else ⟨none, [(b.a, w), (b.b, w)], [], true, false⟩

/-- Is a PRED instruction legal? -/
def predOk (cls : Bool) (tregs : Nat) (i : Issue) (b : PredBody) : Bool :=
  (if cls then b.fmt == 0 else [0x00, 0x01, 0x02, 0x0F].contains b.fmt.toNat) && (predFields cls b).ok tregs i

/-- Issues a comparison or a class test: the predicate takes the result, combined with ps. -/
def setPred (cls : Bool) (f : Nat → Dword → Dword → Bool) (i : Issue) (b : PredBody) : Platform → Device → Device :=
  Device.runJkf i (fun k => predOk cls k.tregs i b) fun _ x d =>
    let w := regsOf b.fmt.toNat
    .go (d.setPack i.pack ((lanesOf (x.passing i.guard)).foldl (fun y l =>
      y.putPred b.pd.toNat l
        (combine b.comb (f b.fmt.toNat (x.read i.imm l b.a w) (x.read i.imm l b.b w)) (x.pred b.ps.toNat l))) x))

/-- Issues a predicate-logic operation. -/
def setPlog (f : Bool → Bool → Bool) (i : Issue) (b : PlogBody) : Platform → Device → Device :=
  Device.runJkf i (fun _ => i.imm.isNone) fun _ x d =>
    .go (d.setPack i.pack ((lanesOf (x.passing i.guard)).foldl (fun y l =>
      y.putPred b.pd.toNat l (f (x.pred b.pa.toNat l) (x.pred b.pb.toNat l))) x))

/-- PRED_EQ. -/
def execPredEq (i : Issue) (b : PredBody) (s : State) : Out := onCode (.predEq i b) (setPred false (CmpOp.run .eq) i b) s

/-- PRED_NE. -/
def execPredNe (i : Issue) (b : PredBody) (s : State) : Out := onCode (.predNe i b) (setPred false (CmpOp.run .ne) i b) s

/-- PRED_LT. -/
def execPredLt (i : Issue) (b : PredBody) (s : State) : Out := onCode (.predLt i b) (setPred false (CmpOp.run .lt) i b) s

/-- PRED_LE. -/
def execPredLe (i : Issue) (b : PredBody) (s : State) : Out := onCode (.predLe i b) (setPred false (CmpOp.run .le) i b) s

/-- PRED_GT. -/
def execPredGt (i : Issue) (b : PredBody) (s : State) : Out := onCode (.predGt i b) (setPred false (CmpOp.run .gt) i b) s

/-- PRED_GE. -/
def execPredGe (i : Issue) (b : PredBody) (s : State) : Out := onCode (.predGe i b) (setPred false (CmpOp.run .ge) i b) s

/-- PRED_ISNAN. -/
def execPredIsnan (i : Issue) (b : PredBody) (s : State) : Out :=
  onCode (.predIsnan i b) (setPred true (fun _ a _ => ClassOp.run .nan (a.setWidth 32)) i b) s

/-- PRED_ISINF. -/
def execPredIsinf (i : Issue) (b : PredBody) (s : State) : Out :=
  onCode (.predIsinf i b) (setPred true (fun _ a _ => ClassOp.run .inf (a.setWidth 32)) i b) s

/-- PRED_ISFINITE. -/
def execPredIsfinite (i : Issue) (b : PredBody) (s : State) : Out :=
  onCode (.predIsfinite i b) (setPred true (fun _ a _ => ClassOp.run .finite (a.setWidth 32)) i b) s

/-- PAND. -/
def execPand (i : Issue) (b : PlogBody) (s : State) : Out := onCode (.pand i b) (setPlog (fun a b => a && b) i b) s

/-- POR. -/
def execPor (i : Issue) (b : PlogBody) (s : State) : Out := onCode (.por i b) (setPlog (fun a b => a || b) i b) s

/-- PXOR. -/
def execPxor (i : Issue) (b : PlogBody) (s : State) : Out := onCode (.pxor i b) (setPlog (fun a b => xor a b) i b) s

/-- PNOT. -/
def execPnot (i : Issue) (b : PlogBody) (s : State) : Out := onCode (.pnot i b) (setPlog (fun a _ => !a) i b) s

/-- PMOV. -/
def execPmov (i : Issue) (b : PlogBody) (s : State) : Out := onCode (.pmov i b) (setPlog (fun a _ => a) i b) s

end Sys2Proof.Machine
end

