-- ==== Sys2Proof/Machine/RegView.lean ====
section
/-! DEFINITION. The registers of BAR0: where they lie, what they read, which of their bits are written how, and the
rejection of writes (R391 to R406, R58, R102, R119, R140, R159, R186, R242, R308, R323, R390, R427, R429). -/

namespace Sys2Proof.Machine

/-! ### The map (R400, R401) -/

/-- What a BAR0 offset lies in: a block, the global blocks without an enable of their own, a debug window, or a
reserved region. -/
inductive Win where
  | glb | ctx | ring | pwr | cnt | blk (b : Block) | dbg (die core : Nat) | reserved
  deriving DecidableEq, Repr

/-- The window of an offset, and the offset in it. Outside debug mode DBG is reserved (R402). -/
def winOf (debug : Bool) (off : Nat) : Win × Nat :=
  let page := off / 0x1000 % 16
  if off < 0x10000 then (.glb, off)
  else if off < 0x20000 then (.ctx, off - 0x10000)
  else if off < 0x30000 then (.ring, off - 0x20000)
  else if off < 0x40000 then (.blk (.slc page), off % 0x1000)
  else if off < 0x50000 then (.pwr, off - 0x40000)
  else if off < 0x60000 then (.blk .reel, off - 0x50000)
  else if off < 0x66000 then (.blk (.pport page), off % 0x1000)
  else if off < 0x70000 then (.reserved, 0)
  else if off < 0x80000 then (.blk .ups, off - 0x70000)
  else if off < 0x94000 then (.blk (.mem ((off - 0x80000) / 0x1000)), off % 0x1000)
  else if off < 0x100000 then (.reserved, 0)
  else if off < 0x380000 then
    let die := (off - 0x100000) / 0x10000
    let o := off % 0x1000
    if page < 8 then (.blk (.re die page), o)
    else match page with
      | 8 => (.blk (.ve die), o)
      | 9 => (.blk (.txb die), o)
      | 10 => (.blk (.collie die), o)
      | 11 => (.blk (.dcache die), o)
      | 12 => (.blk (.retr die), o)
      | 13 => (.blk (.rng die), o)
      | _ => (.reserved, 0)
  else if off < 0x400000 then (.reserved, 0)
  else if off < 0x800000 then (.cnt, off - 0x400000)
  else if debug && decide (off < 0x800000 + 40 * 0x10000) then
    (.dbg ((off - 0x800000) / 0x10000) page, off % 0x1000)
  else (.reserved, 0)

/-- The BAR0 offset of a block's CTRL register; of RING_QCTRL for a pair of rings (R400, R401, R405). -/
def ctrlOffset : Block → Nat
  | .re d k => 0x100000 + d * 0x10000 + k * 0x1000
  | .ve d => 0x108000 + d * 0x10000
  | .txb d => 0x109000 + d * 0x10000
  | .collie d => 0x10A000 + d * 0x10000
  | .dcache d => 0x10B000 + d * 0x10000
  | .retr d => 0x10C000 + d * 0x10000
  | .rng d => 0x10D000 + d * 0x10000
  | .mem i => 0x80000 + i * 0x1000
  | .ups => 0x70000
  | .reel => 0x50000
  | .pport p => 0x60000 + p * 0x1000
  | .ring _ => 0x20030
  | .slc i => 0x30000 + i * 0x1000

/-! ### Blocks (R396) -/

/-- The lane die of a block that stands on one. -/
def blockDie : Block → Option Nat
  | .re d _ => some d
  | .ve d => some d
  | .txb d => some d
  | .collie d => some d
  | .dcache d => some d
  | .retr d => some d
  | .rng d => some d
  | _ => none

/-- Does the block exist? -/
def blockExists : Block → Bool
  | .re d k => decide (d < Config.laneDies ∧ k < Config.enginesPerDie)
  | .mem i => decide (i < Config.stackCount)
  | .pport p => decide (p < Config.portCount)
  | .ring c => decide (c < Config.contextCount)
  | .slc i => decide (i < Config.sliceCount)
  | b => (blockDie b).all fun d => decide (d < Config.laneDies)

/-- Enable, state and wrej of a block. -/
def Device.blk (d : Device) : Block → Blk
  | .re i k => (d.re i k).blk
  | .ve i => (d.die i).ve
  | .txb i => (d.die i).txb
  | .collie i => (d.die i).collie
  | .dcache i => (d.die i).dcache
  | .retr i => (d.die i).retr
  | .rng i => (d.die i).rng
  | .mem i => (d.memBlk i).blk
  | .ups => d.ups.blk
  | .reel => d.reel.blk
  | .pport p => (d.port p).blk
  | .ring c => (d.ring c).blk
  | .slc i => (d.slice i).blk

/-- Changes enable, state or wrej of a block. -/
def Device.updBlk (d : Device) (b : Block) (f : Blk → Blk) : Device :=
  match b with
  | .re i k => d.updRe i k fun x => { x with blk := f x.blk }
  | .ve i => d.updDie i fun x => { x with ve := f x.ve }
  | .txb i => d.updDie i fun x => { x with txb := f x.txb }
  | .collie i => d.updDie i fun x => { x with collie := f x.collie }
  | .dcache i => d.updDie i fun x => { x with dcache := f x.dcache }
  | .retr i => d.updDie i fun x => { x with retr := f x.retr }
  | .rng i => d.updDie i fun x => { x with rng := f x.rng }
  | .mem i => d.updMemBlk i fun x => { x with blk := f x.blk }
  | .ups => d.mapUps fun x => { x with blk := f x.blk }
  | .reel => d.mapReel fun x => { x with blk := f x.blk }
  | .pport p => d.updPort p fun x => { x with blk := f x.blk }
  | .ring c => d.updRing c fun x => { x with blk := f x.blk }
  | .slc i => d.updSlice i fun x => { x with blk := f x.blk }

/-- Is a lane die power-gated (R378, R380)? -/
def Power.dieOff (p : Power) (die : Nat) : Bool := FMap.get 3 p.dieLevel die == 3

/-- Is the block on a power-gated lane die? -/
def Power.blockOff (p : Power) (b : Block) : Bool := (blockDie b).any fun d => p.dieOff d

/-! ### Field packing -/

def BState.num : BState → Nat
  | .off => 0
  | .starting => 1
  | .on => 2
  | .stopping => 3

def CtxState.num : CtxState → Nat
  | .free => 0
  | .frozen => 1
  | .opened => 2
  | .killed => 3
  | .teardown => 4

def Link.num : Link → Nat
  | .down => 0
  | .training => 1
  | .handshake => 2
  | .up => 3

def GState.num : GState → Nat
  | .idle => 0
  | .active => 1
  | .down => 2

def BankSt.num : BankSt → Nat
  | .free => 0
  | .filling => 1
  | .draining => 2
  | .loading => 3

/-- A bank in RE_STATUS: one whose LOAD is done and whose tile a halt keeps from starting reads as filling (R57, R58; DESIGN
CHOICE, log 99). -/
def Bank.reads (b : Bank) : Nat := if b.loaded then 1 else b.st.num

def UpsPhase.num : UpsPhase → Nat
  | .idle => 0
  | .norm => 1
  | .layers => 2
  | .undoing => 3

/-- Life-cycle states (measurement 4 of R356). -/
def lifeNum : Life → Nat
  | .blank => 0
  | .provisioned => 1
  | .owned => 2
  | .service => 3
  | .decommissioned => 4

def reqNum : Requester → Nat
  | .host => 0
  | .mastiff => 1
  | .sheepdog => 2

/-- A word of fields: each shifted to its place. -/
def fieldsOf (fs : List (Nat × Nat)) : Nat := (fs.map fun f => f.2 * 2 ^ f.1).sum

/-- A mask of register bits `hi` to `lo`. -/
def maskOf (hi lo : Nat) : Nat := (2 ^ (hi - lo + 1) - 1) * 2 ^ lo

/-- A CTRL register. -/
def Blk.ctrl (b : Blk) : Nat := fieldsOf [(4, b.st.num), (0, bit b.en)]

/-- The CTRL register of a block that is always ON. -/
def alwaysOn : Nat := 0x21

/-- Half `h` (0 LO, 1 HI) of a 64-bit value. -/
def half (x h : Nat) : Nat := if h = 0 then x % 2 ^ 32 else x / 2 ^ 32 % 2 ^ 32

/-- A bit for each engine of a die that satisfies a condition. -/
def bitmap (n : Nat) (f : Nat → Bool) : Nat := ((List.range n).map fun i => bit (f i) * 2 ^ i).sum

/-! ### What the registers read -/

/-- The 32 bytes of a fault record (R341). -/
def FaultRec.bytes (f : FaultRec) : List Byte :=
  leBytes 2 f.code.toNat ++ [f.source, f.die, f.unit, f.pack] ++ leBytes 2 f.sqIndex.toNat ++ leBytes 4 f.pc.toNat ++
    leBytes 4 f.aux.toNat ++ leBytes 8 f.addr.toNat ++ leBytes 4 f.time.toNat ++ leBytes 2 f.extra.toNat ++
    leBytes 2 (bit f.valid)

/-- GLB (R403). -/
def glbRead (s : State) (o : Nat) : Nat :=
  let d := s.dev
  let m := s.plat.mas
  let cache := fieldsOf [(51, 256), (44, 64), (32, 2048), (16, 16), (0, 32768)]
  match o with
  | 0x00 => alwaysOn
  | 0x10 => fieldsOf [(16, bit d.hub.glbWrej), (8, bit m.ideUp), (6, bit m.debugMode), (5, bit m.jumper), (4, bit m.window),
      (0, lifeNum s.plat.fuses.life)]
  | 0x20 => 0x64200101
  | 0x30 => fieldsOf [(24, 4), (16, 20), (8, Config.enginesPerDie), (0, Config.laneDies)]
  | 0x40 => fieldsOf [(8, Config.stackGib), (0, Config.stackCount)]
  | 0x50 => half cache 0
  | 0x60 => half cache 1
  | 0x70 => fieldsOf [(21, 4), (16, Config.sliceCount), (0, Config.contextCount)]
  | 0x80 => fieldsOf [(8, 16), (0, Config.portCount)]
  | 0x90 => fieldsOf [(16, min d.hub.rejTotal 0xFFFF), (0, d.hub.rejNext)]
  | 0xA0 => d.hub.peerRef.toNat
  | _ =>
    if 0x100 ≤ o ∧ o < 0x300 then (FMap.get 0 d.hub.rejLog ((o - 0x100) / 16)).toNat
    else if 0x400 ≤ o ∧ o < 0x800 then (FMap.get 0 d.hub.hostErr ((o - 0x400) / 16)).toNat
    else 0

/-- CTX_ENTRY of a context (R404). -/
def Ctx.entry (x : Ctx) : Nat :=
  fieldsOf [(26, x.portMask.toNat), (24, x.policy), (20, bit x.pinRight), (16, x.classes.toNat),
    (8, x.resv.getD 0x1F), (4, x.home), (0, x.st.num)]

/-- CTX: the context that CTX_SEL names (R404). -/
def ctxRead (d : Device) (o : Nat) : Nat :=
  let x := d.ctx d.hub.ctxSel.toNat
  match o with
  | 0x00 => alwaysOn
  | 0x10 => fieldsOf [(16, bit d.hub.ctxWrej), (0, (d.hub.ctxs.filter fun e => e.2.st == .opened).length)]
  | 0x20 => d.hub.ctxSel.toNat
  | 0x30 => x.entry
  | 0x40 => x.quota
  | 0x50 => half x.ovfBase 0
  | 0x60 => half x.ovfBase 1
  | 0x70 => half x.ovfSize 0
  | 0x80 => half x.ovfSize 1
  | _ => if 0x100 ≤ o ∧ o < 0x180 then field x.fault.bytes (4 * ((o - 0x100) / 16)) 4 else 0

/-- RING: the context that RING_SEL names (R405). -/
def ringRead (d : Device) (o : Nat) : Nat :=
  let g := d.ring d.hub.ringSel.toNat
  match o with
  | 0x00 => alwaysOn
  | 0x10 => bit d.hub.ringWrej * 2 ^ 16
  | 0x20 => d.hub.ringSel.toNat
  | 0x30 => g.blk.ctrl
  | 0x40 => fieldsOf [(8, g.cqLog), (0, g.sqLog)]
  | 0x50 => half g.sqBase 0
  | 0x60 => half g.sqBase 1
  | 0x70 => half g.cqBase 0
  | 0x80 => half g.cqBase 1
  | 0x90 => fieldsOf [(16, g.sqTail % 2 ^ 16), (0, g.sqHead % 2 ^ 16)]
  | 0xA0 => fieldsOf [(16, g.cqTail % 2 ^ 16), (0, g.cqHead % 2 ^ 16)]
  | _ => 0

/-- Slice i (R406). -/
def slcRead (d : Device) (i o : Nat) : Nat :=
  let x := d.slice i
  let dies := bitmap Config.laneDies x.dies.contains
  match o with
  | 0x00 => x.blk.ctrl
  | 0x10 => fieldsOf [(16, bit x.blk.wrej), (0, bit x.coreNow)]
  | 0x20 => fieldsOf [(16, x.ringShare), (8, if x.exists? then x.fabWeight - 1 else 0), (1, bit x.core), (0, bit x.reserved)]
  | 0x30 => half dies 0
  | 0x40 => half dies 1
  | _ =>
    if 0x50 ≤ o ∧ o < 0xA0 then
      let j := (o - 0x50) / 16
      fieldsOf ((List.range 4).map fun b => (8 * b, x.bw.getD (4 * j + b) 0))
    else 0

/-- The hottest die: its number and junction. -/
def Power.hottest (p : Power) : Nat × Nat :=
  p.dieTemp.foldl (fun a e => if a.2 < e.2 then e else a) (0, 0)

/-- Has power-good asserted and not been lost? -/
def Power.good (p : Power) : Bool := p.alwaysOn && p.stage != .off && p.stage != .waitGood

/-- Is the input, once measured, outside 58 to 68 V after power-good (R369)? Until then PWR_INPUT reads its Reset value 0 (R390). -/
def Power.rangeWarn (p : Power) : Bool := p.good && decide (p.inputMv ≠ 0 ∧ (p.inputMv < 58000 ∨ 68000 < p.inputMv))

/-- PWR (R390). -/
def pwrRead (p : Power) (o : Nat) : Nat :=
  match o with
  | 0x00 => alwaysOn
  | 0x10 => fieldsOf [(16, bit p.wrej), (11, bit p.refclkLost), (10, bit p.tripSeen), (9, bit p.pfaultSeen),
      (8, bit p.rangeWarn), (3, bit p.emergency), (2, bit p.asleep)]
  | 0x20 => fieldsOf [(18, 10400), (4, 11600)]
  | 0x30 => fieldsOf [(18, 7200), (0, 240)]
  | 0x40 => fieldsOf [(16, p.drawnW), (0, p.moduleCap)]
  | 0x50 => fieldsOf [(16, p.current), (0, p.inputMv / 10)]
  | 0x60 => half p.time.toNat 0
  | 0x70 => half p.time.toNat 1
  | 0x80 => fieldsOf [(8, p.pllIdle), (0, p.sleepMs)]
  | 0x90 => fieldsOf [(26, p.hottest.1), (16, p.hottest.2), (0, p.inlet)]
  | _ =>
    if 0xA0 ≤ o ∧ o < 0xD0 then
      let n := (o - 0xA0) / 16
      fieldsOf ((List.range 16).map fun j =>
        (2 * j, if 16 * n + j < Config.laneDies then (FMap.get 3 p.dieLevel (16 * n + j)).toNat else 0))
    else if 0x100 ≤ o ∧ o < 0x300 then
      let i := (o - 0x100) / 32
      if o / 16 % 2 = 0 then fieldsOf [(16, FMap.get 0 p.sliceCap i), (0, FMap.get 0 p.sliceFloor i)]
      else fieldsOf [(31, bit (FMap.get false p.throttled i)), (16, FMap.get 0 p.sliceDrawn i), (0, FMap.get 0 p.sliceGrant i)]
    else 0

/-- Is an instance of the group in flight (R299, R308)? -/
def Group.busy (g : Group) : Bool := g.gst == .active

/-- REEL (R308). -/
def reelRead (d : Device) (o : Nat) : Nat :=
  let r := d.reel
  match o with
  | 0x00 => r.blk.ctrl
  | 0x10 => fieldsOf [(16, bit r.blk.wrej), (8, r.snap.toNat), (0, min 255 (r.groups.filter fun g => g.2.busy).length)]
  | 0x20 => fieldsOf [(24, 255), (16, 64), (8, 32), (0, 64)]
  | 0x30 => r.sysCfg.toNat
  | _ =>
    if 0x1000 ≤ o ∧ o < 0x5000 then
      let g := d.group ((o - 0x1000) / 0x40)
      match o / 16 % 4 with
      | 0 => fieldsOf [(31, bit g.en), (0, g.owner.toNat)]
      | 1 => fieldsOf [(16, g.total.toNat), (0, g.base.toNat)]
      | 2 => fieldsOf [(30, g.gst.num), (16, g.count.toNat), (8, g.children.toNat), (0, g.parent.toNat)]
      | _ => 0
    else 0

/-- Port p (R323). -/
def pportRead (d : Device) (p o : Nat) : Nat :=
  let x := d.port p
  match o with
  | 0x00 => x.blk.ctrl
  | 0x10 => fieldsOf [(16, bit x.blk.wrej), (11, bit x.noPartner), (10, bit x.hsFault), (9, bit x.narrow),
      (8, bit x.downSeen), (0, x.link.num)]
  | 0x20 => fieldsOf [(24, 16), (12, 2125), (0, 2048)]
  | 0x30 => fieldsOf [(16, bit x.autoRetrain), (4, bit x.allowNarrow)]
  | 0x40 => fieldsOf [(31, bit x.peerValid), (16, x.peerNode.toNat), (0, x.peerPort.toNat)]
  | 0x50 => fieldsOf [(16, x.fecUncorr.toNat), (0, x.replays.toNat)]
  | 0x800 => if p = 0 then d.ports.node.toNat else 0
  | 0x810 => if p = 0 then d.ports.topo.toNat else 0
  | _ => 0

/-- UPS (R119). -/
def upsRead (d : Device) (o : Nat) : Nat :=
  let u := d.ups
  match o with
  | 0x00 => u.blk.ctrl
  | 0x10 =>
    let ph := match u.runs with
      | [] => 0
      | r :: _ => r.phase.num
    fieldsOf [(16, bit u.blk.wrej), (8, ph), (0, u.dir.length)]
  | 0x20 => fieldsOf [(28, 8), (20, 64), (0, 4096)]
  | _ => 0

/-- Pool granules held on a stack (R139, R140). -/
def Device.poolUsed (d : Device) (stack : Nat) : Nat :=
  (d.mem.segs.map fun s =>
    if s.kind = .pool then (s.granules.filter fun g => g % Config.stackCount == stack).length else 0).sum

/-- MEM block i (R140). -/
def memRead (d : Device) (i o : Nat) : Nat :=
  let b := d.memBlk i
  match o with
  | 0x00 => b.blk.ctrl
  | 0x10 => fieldsOf [(16, bit b.blk.wrej), (3, bit b.wiping), (2, bit b.selfRef), (1, bit b.ueSeen)]
  | 0x20 => fieldsOf [(24, 16), (16, 32), (8, 64), (0, 96)]
  | 0x30 => fieldsOf [(16, b.scrub.toNat), (0, b.stashGib.toNat)]
  | 0x40 => b.ce.toNat
  | 0x50 => b.ue.toNat
  | 0x60 => b.eccAddr / 64 * 64 % 2 ^ 32
  | 0x70 => fieldsOf [(31, bit b.eccValid), (0, b.eccAddr / 2 ^ 32 % 32)]
  | 0x80 => d.poolUsed i
  | _ => 0

/-- Row engine k of a die (R56 to R58). -/
def reRead (s : State) (die k o : Nat) : Nat :=
  let r := s.dev.re die k
  let w := presented r.bad
  let debug := s.plat.mas.debugMode
  match o with
  | 0x00 => r.blk.ctrl
  | 0x10 => fieldsOf [(8, bit r.blk.wrej), (6, r.bank1.reads), (4, r.bank0.reads), (3, bit r.halted), (2, bit (w == 0)),
      (1, bit r.busy)]
  | 0x20 => fieldsOf [(16, bit (w == 0)), (0, w)]
  | 0x30 => r.bad.toNat
  | 0x40 => fieldsOf [(5, bit r.stealIn), (4, bit r.stealOut), (0, r.split.toNat)]
  | 0x50 => r.queue.length
  | 0x60 =>
    if debug then fieldsOf [(31, bit r.dbgHalt), (24, bit r.dbgBank), (16, r.dbgRow.toNat), (0, r.dbgLane.toNat)] else 0
  | 0x70 =>
    if debug && r.halted && decide (r.dbgLane.toNat < w) then
      ((r.bank r.dbgBank).get r.dbgRow.toNat r.dbgLane.toNat).toNat
    else 0
  | _ => 0

/-- VE of a die (R159). -/
def veRead (d : Device) (die o : Nat) : Nat :=
  match o with
  | 0x00 => (d.die die).ve.ctrl
  | 0x10 =>
    let busy := bitmap 8 fun k =>
      (d.vecEng die k).running.isSome || !(d.vecEng die k).queue.isEmpty || (d.vecEng die k).parked.isSome
    fieldsOf [(16, bit (d.die die).ve.wrej), (8, bitmap 8 fun k => (d.vecEng die k).stream), (0, busy)]
  | 0x20 => fieldsOf [(24, 128), (18, 16), (14, 8), (0, 4096)]
  | _ => 0

/-- The tiles that unit k of a TXB holds: those turned that are still emitted (R85, R86, R102). -/
def State.txbHolds (s : State) (die k : Nat) : List Turned :=
  (s.dev.re die k).txb.filter fun x => decide (s.plat.pow.time < x.till)

/-- TXB of a die (R102). -/
def txbRead (s : State) (die o : Nat) : Nat :=
  match o with
  | 0x00 => (s.dev.die die).txb.ctrl
  | 0x10 =>
    let busy := bitmap 8 fun k => !(s.txbHolds die k).isEmpty
    let mx := bitmap 8 fun k => (s.txbHolds die k).any fun x => x.mx
    fieldsOf [(16, bit (s.dev.die die).txb.wrej), (8, mx), (0, busy)]
  | 0x20 => fieldsOf [(24, 2), (16, 128), (0, 256)]
  | 0x30 => bit (s.dev.die die).bFirst
  | _ => 0

/-- COLLIE of a die (R186). -/
def collieRead (d : Device) (die o : Nat) : Nat :=
  match o with
  | 0x00 => (d.die die).collie.ctrl
  | 0x10 =>
    let busy := bitmap 16 fun c => d.collie.blocks.any fun b => b.2.die == die && b.2.core == c
    fieldsOf [(16, bit (d.die die).collie.wrej), (0, busy)]
  | 0x20 => fieldsOf [(24, 16), (16, 64), (12, 4), (7, 16), (0, 68)]
  | 0x30 => fieldsOf [(22, 256), (15, 64), (9, 32), (4, 16)]
  | _ => 0

/-- Pinned ways of each class on a die (R229). -/
def Device.pinCounts (d : Device) (die : Nat) : List Nat :=
  match d.sliceOf die with
  | some i => (List.range 8).map fun t => ((d.slice i).pins.getD t []).length
  | none => List.replicate 8 0

/-- DCACHE of a die (R242). -/
def dcacheRead (d : Device) (die o : Nat) : Nat :=
  let b := d.die die
  match o with
  | 0x00 => b.dcache.ctrl
  | 0x10 =>
    let scan := (d.sliceOf die).any fun i => (d.slice i).scan.isSome
    fieldsOf [(16, bit b.dcache.wrej), (5, bit scan), (4, bit b.flushing), (0, (d.pinCounts die).sum)]
  | 0x20 => fieldsOf [(28, 12), (19, 16), (16, 7), (0, 32768)]
  | 0x30 => b.capShift.toNat
  | 0x40 => fieldsOf ((d.pinCounts die).zipIdx.map fun e => (4 * e.2, e.1))
  | 0x50 => fieldsOf [(16, d.mem.chainsOf die),
      (0, (d.mem.misses.filter fun m => m.die == die && !m.pref).length)]
  | _ => 0

/-- Confirmed trackers of a die: three misses with one stride (R238). -/
def Device.confirmed (d : Device) (die : Nat) : Nat :=
  (d.mem.trackers.filter fun t => t.die == die && decide (3 ≤ t.hits)).length

/-- RETR of a die (R242). -/
def retrRead (d : Device) (die o : Nat) : Nat :=
  let b := d.die die
  match o with
  | 0x00 => b.retr.ctrl
  | 0x10 => fieldsOf [(16, bit b.retr.wrej), (0, d.confirmed die)]
  | 0x20 => fieldsOf [(24, 64), (0, 1024)]
  | 0x30 => fieldsOf [(16, b.budget.toNat), (9, bit b.l1En), (8, bit b.dcEn), (0, b.distance.toNat)]
  | _ => 0

/-- RNG of a die (R159). -/
def rngRead (d : Device) (die o : Nat) : Nat :=
  match o with
  | 0x00 => (d.die die).rng.ctrl
  | 0x10 => fieldsOf [(16, bit (d.die die).rng.wrej), (0, (d.die die).rngWait.toNat)]
  | 0x20 => fieldsOf [(24, 10), (16, 32)]
  | _ => 0

/-- Counter `n` as the window shows it (R423, R426). -/
def Device.cntShown (d : Device) (n : Nat) : Dword :=
  match d.hub.cntSnap with
  | some m => FMap.get 0 m n
  | none => if n ≤ 140 then d.counter d.hub.cntSel.toNat n else 0

/-- Counter of a unit's array as the window shows it (R425, R426). -/
def Device.cntUnitShown (d : Device) (k : Nat) : Dword :=
  match d.hub.cntSnap with
  | some _ => FMap.get 0 d.hub.cntUnitsSnap k
  | none => FMap.get 0 d.hub.cntUnits k

/-- CNT (R423, R425, R427). -/
def cntRead (d : Device) (o : Nat) : Nat :=
  let hi := o / 16 % 2
  match o with
  | 0x00 => alwaysOn
  | 0x10 => fieldsOf [(16, bit d.hub.cntWrej), (0, bit d.hub.cntSnap.isSome)]
  | 0x20 => d.hub.cntSel.toNat
  | 0x50 => d.hub.cntTrace.toNat
  | _ =>
    if 0x1000 ≤ o ∧ o < 0x1000 + 141 * 0x20 then half (d.cntShown ((o - 0x1000) / 0x20)).toNat hi
    else if 0x100000 ≤ o ∧ o < 0x100000 + Config.laneDies * 0x4000 then
      let x := o - 0x100000
      let c := x % 0x200 / 0x20
      if c < 13 then half (d.cntUnitShown (512 * (x / 0x4000) + 16 * (x % 0x4000 / 0x200) + c)).toNat hi else 0
    else 0

/-- The resident packs of a core: active ones by their entry, pending ones from entry 4 in the order they came
(R165, R429). -/
def Device.packAt (d : Device) (die core entry : Nat) : Option Nat :=
  let mine := (d.collie.blocks.filter fun b => b.2.die == die && b.2.core == core).flatMap fun b =>
    (List.range b.2.packs).map fun i => 16 * b.1 + i
  if entry < 4 then mine.find? fun p => (d.pack p).slot == some entry
  else
    let rest := mine.filter fun p => (d.pack p).slot.isNone && (d.pack p).live != 0
    (rest.mergeSort fun a b => decide ((d.pack a).stamp ≤ (d.pack b).stamp))[entry - 4]?

/-- The debug window of a core. With an empty entry, or a register index at or above the pack's count, every field but
valid reads 0 (R429). -/
def dbgRead (d : Device) (die core o : Nat) : Nat :=
  let c := d.core die core
  let e := c.sel.toNat
  let held := if c.halted then d.packAt die core (bitsOf e 22 16) else none
  let p := held.filter fun p => decide (bitsOf e 6 0 < ((d.block (p / 16)).map KBlock.tregs).getD 0)
  let shown := fun (f : Nat → Nat) => (p.map f).getD 0
  match o with
  | 0x00 => fieldsOf [(31, bit c.haltReq), (0, bit c.halted)]
  | 0x10 => e
  | 0x20 =>
    fieldsOf [(31, bit held.isSome), (16, shown fun p => ((d.block (p / 16)).map KBlock.ctx).getD 0),
      (0, shown fun p => (d.pack p).stack.length)]
  | 0x30 => shown fun p => (d.pack p).mask.toNat
  | 0x40 => shown fun p => (FMap.get 0 (d.pack p).regs (128 * bitsOf e 12 8 + bitsOf e 6 0)).toNat
  | 0x50 => shown fun p => (d.pack p).pc % 2 ^ 23
  | _ => 0

/-- A block's register in a window. -/
def blockRead (s : State) (b : Block) (o : Nat) : Nat :=
  match b with
  | .slc i => slcRead s.dev i o
  | .reel => reelRead s.dev o
  | .pport p => pportRead s.dev p o
  | .ups => upsRead s.dev o
  | .mem i => memRead s.dev i o
  | .re i k => reRead s i k o
  | .ve i => veRead s.dev i o
  | .txb i => txbRead s i o
  | .collie i => collieRead s.dev i o
  | .dcache i => dcacheRead s.dev i o
  | .retr i => retrRead s.dev i o
  | .rng i => rngRead s.dev i o
  | .ring _ => 0

/-- The configuration register of a block: the offset in its window (R58, R102, R140, R242, R323). -/
def configSlot : Block → Option Nat
  | .re _ _ => some 0x40
  | .txb _ => some 0x30
  | .dcache _ => some 0x30
  | .retr _ => some 0x30
  | .mem _ => some 0x30
  | .pport _ => some 0x30
  | _ => none

/-- What a 4 B read at a BAR0 offset returns (R391 to R393, R402). On a power-gated lane die the enable and the
configuration registers read what is held for them, and every other register reads 0 (R380). -/
def State.regRead (s : State) (off : Nat) : Nat :=
  let w := winOf s.plat.mas.debugMode off
  let o := w.2 / 16 * 16
  match w.1 with
  | .glb => glbRead s o
  | .ctx => ctxRead s.dev o
  | .ring => ringRead s.dev o
  | .pwr => pwrRead s.plat.pow o
  | .cnt => cntRead s.dev o
  | .dbg i c => dbgRead s.dev i c o
  | .reserved => 0
  | .blk b =>
    if s.plat.pow.blockOff b then
      if o = 0 then bit (s.dev.blk b).en else if configSlot b = some o then blockRead s b o else 0
    else blockRead s b o

/-- What a 4 B read of BAR2 returns: every read of a doorbell page returns 0 (R253). -/
def State.doorbellRead (_ : State) (_off : Nat) : Nat := 0

/-- What a 4 B read of BAR4 returns: the MSI-X table, an entry's address low and high, data and vector control; from 0x1_0000
the pending bits, 32 vectors a word (R246, R250). -/
def State.msixRead (s : State) (off : Nat) : Nat :=
  let m := fun v => FMap.get Msix.reset s.dev.hub.msix v
  if off < 0x10000 then
    match off / 4 % 4 with
    | 0 => (m (off / 16)).addr.toNat % 2 ^ 32
    | 1 => (m (off / 16)).addr.toNat / 2 ^ 32
    | 2 => (m (off / 16)).data.toNat
    | _ => bit (m (off / 16)).mask
  else if off < 0x10000 + Config.contextCount / 8 then
    ((List.range 32).map fun i => bit (m ((off - 0x10000) / 4 * 32 + i)).pend * 2 ^ i).sum
  else 0

/-! ### Rejected writes (R398, R403) -/

/-- Sets the wrej bit of a window's block. -/
def State.setWrej (s : State) (w : Win) : State :=
  match w with
  | .glb => s.mapDev fun d => d.mapHub fun h => { h with glbWrej := true }
  | .ctx => s.mapDev fun d => d.mapHub fun h => { h with ctxWrej := true }
  | .ring => s.mapDev fun d => d.mapHub fun h => { h with ringWrej := true }
  | .pwr => s.mapPow fun p => { p with wrej := true }
  | .cnt => s.mapDev fun d => d.mapHub fun h => { h with cntWrej := true }
  | .blk (.ring _) => s.mapDev fun d => d.mapHub fun h => { h with ringWrej := true }
  | .blk b => s.mapDev fun d => d.updBlk b fun x => { x with wrej := true }
  | .dbg _ _ => s
  | .reserved => s

/-- An entry of GLB_REJECT_LOG. -/
def rejectEntry (who : Requester) (off reason : Nat) : Word :=
  BitVec.ofNat 32 (2 ^ 31 + reason * 2 ^ 28 + reqNum who * 2 ^ 26 + off % 2 ^ 24)

/-- A write is rejected: wrej of its block, an entry of GLB_REJECT_LOG, and event 0x0008 for Mastiff (R398). -/
def State.reject (s : State) (w : Win) (who : Requester) (off reason : Nat) : State :=
  let s1 := (s.setWrej w).mapDev fun d => d.mapHub fun h =>
    { h with
      rejLog := FMap.set 0 h.rejLog h.rejNext (rejectEntry who off reason), rejNext := (h.rejNext + 1) % 32
      rejTotal := min (h.rejTotal + 1) 0xFFFF }
  if who = .mastiff then s1.mapDev fun d => d.logEvent s.plat.pow.time 0x0008 1 0 off else s1

end Sys2Proof.Machine
end

