-- ==== Sys2Proof/Machine/Power.lean ====
section
/-! DEFINITION. Input power, resets and bring-up, clocks, gating, temperature, grants, the TAP (R244, R245, R357, R361 to
R364, R369 to R390, R416, R417). -/

namespace Sys2Proof.Machine

/-! ### Input power (R369) -/

/-- The device after a loss of the always-on domain: nothing is left but the model's own fields (R386). The bypass map
then known is the fused one. -/
def Device.lost (d : Device) (fused : FMap (BitVec 16)) : Device :=
  let res : FMap RowEng := fused.map fun e => (e.1, { RowEng.reset with bad := e.2 })
  { Device.reset with
    sent := d.sent, freeCtr := d.freeCtr, lruTick := d.lruTick, mem := d.mem.wiped, eng := { Device.reset.eng with res := res } }

/-- Power of a part that is off; the pins that others drive stay as they are. -/
def Power.dark (p : Power) : Power :=
  { Power.reset with
    alwaysOn := false, inputMv := 0, stage := .off, cold := false, sampled := false, perst := p.perst
    refAbsent := p.refAbsent, refHold := false, linkBUp := false, inlet := p.inlet, dieTemp := p.dieTemp }

/-- Mastiff without power: the flash stays, but is no image while it is erased or written (R359). -/
def Mastiff.dark (m : Mastiff) : Mastiff :=
  { Mastiff.reset with flash := if m.flashBusy.isSome then none else m.flash, fwSvn := m.fwSvn }

/-- Everything without power is lost; a life-cycle state that was fused holds (R365, R369). -/
def powerLost (s : State) : State :=
  let s1 := s.lifeEffect
  { s1 with
    plat := { s1.plat with pow := s1.plat.pow.dark, mas := s1.plat.mas.dark }
    dev := s1.dev.lost s1.plat.fuses.fusedBad }

/-- The seal is found open for the first time: fuses, a permanent record, a full wipe (R364). -/
def sealBreak (s : State) : State :=
  if s.plat.fuses.sealBroken then s
  else
    let s1 := s.mapFuses fun f => { f with sealBroken := true, debugLocked := true }
    warmReset (logPerm s1 0x0005 3 0)

/-- POWER_ON: the always-on domain starts (R364, R369, R376). -/
def powerOn (mv : Nat) (sealOpen : Bool) (s : State) : State :=
  if s.plat.pow.alwaysOn || decide (mv < 40000) then s
  else
    let s1 := s.mapPow fun p => { p with alwaysOn := true, inputMv := mv, stage := .waitGood, time := 0 }
    if sealOpen then sealBreak s1 else s1

/-- POWER_ON. -/
def execPowerOn (mv : Nat) (sealOpen : Bool) (s : State) : Out := onState (powerOn mv sealOpen) s

/-- POWER_GOOD: straps are sampled, the jumper once in a power-on, and a cold reset begins (R362, R369, R388, R413). -/
def powerGood (mv : Nat) (jumper btnLow : Bool) (addr : BitVec 3) (twoByEight : Bool) (s : State) : State :=
  if s.plat.pow.stage != .waitGood || decide (mv < 57000 ∨ 72000 < mv) then s
  else
    let fitted := jumper && !s.plat.pow.sampled
    let s1 := s.mapMas fun m => { m with addr := addr, jumper := m.jumper || fitted }
    let s2 := if fitted then s1.mapDev fun d => d.logEvent s.plat.pow.time 0x0003 3 0 3 else s1
    let s3 := coldReset s2
    s3.mapPow fun p => { p with inputMv := mv, sampled := true, romWait := btnLow, twoByEight := twoByEight }

/-- POWER_GOOD. -/
def execPowerGood (mv : Nat) (jumper btnLow : Bool) (addr : BitVec 3) (twoByEight : Bool) (s : State) : Out :=
  onState (powerGood mv jumper btnLow addr twoByEight) s

/-- INPUT_LOSS: below 40 V the whole part is off. -/
def execInputLoss (s : State) : Out := onState (fun s => if s.plat.pow.alwaysOn then powerLost s else s) s

/-- A power fault: keys and rails go, and the part waits for power-good (R369). -/
def powerFault (mv : Nat) (s : State) : State :=
  (shutDies s .waitGood).mapPow fun p => { p with pfaultSeen := true, inputMv := mv }

/-- INPUT_UNDERVOLTAGE_FAULT: below 55 V for 1 ms. -/
def execInputUndervoltageFault (mv : Nat) (s : State) : Out :=
  onState (fun s => if s.plat.pow.good && decide (40000 ≤ mv ∧ mv < 55000) then powerFault mv s else s) s

/-- INPUT_OVERVOLTAGE_FAULT: above 72 V. -/
def execInputOvervoltageFault (mv : Nat) (s : State) : Out :=
  onState (fun s => if s.plat.pow.good && decide (72000 < mv) then powerFault mv s else s) s

/-! ### Bring-up (R357, R359, R388, R389) -/

/-- Do the four checks of an image hold (R357)? -/
def imageOk (f : Fuses) (img : ImageCheck) : Bool :=
  img.sigOk && f.releaseKey == some img.signer && decide (img.len ≤ Config.imageMax) &&
    decide (f.minSvn ≤ img.svn ∧ img.svn ≤ 31)

/-- The fused minimum follows the first successful boot of a higher SVN (R357). -/
def raiseSvn (svn : Nat) (s : State) : State :=
  if s.plat.fuses.minSvn < svn then
    logPerm (s.mapFuses fun f => { f with minSvn := svn }) 0x0007 2 (svn * 2 ^ 8)
  else s

/-- The boot ROM enters recovery; the log takes the entry once the recovered image runs (R359). -/
def enterRecovery (s : State) : State :=
  (s.mapPow fun p => { p with stage := .recovery, romWait := false }).mapMas fun m => { m with recoveryLog := true }

/-- An image starts to run: its SVN, the raise, and the entry that waits (R357 to R359). -/
def startImage (svn : Nat) (s : State) : State :=
  let s1 := s.mapMas fun m => { m with fwSvn := svn, fwPending := none, recoveryLog := false }
  let s2 := if s.plat.mas.recoveryLog then s1.mapDev fun d => d.logEvent s.plat.pow.time 0x0007 2 0 1 else s1
  raiseSvn svn s2

/-- A long command has ended; the log takes its end (R353, R368). -/
def State.longOver (s : State) (code : Nat) (res : MgmtCode) : State :=
  (s.mapMas fun m => { m with lastLong := some (code, false, some res) }).mapDev fun d =>
    d.logEvent s.plat.pow.time 0x0001 1 res.num code

/-- The long command of a code ends with success; its end is logged (R353). -/
def State.endLong (s : State) (code : Nat) : State :=
  match s.plat.mas.lastLong with
  | some (c, true, _) => if c = code then s.longOver c .success else s
  | _ => s

/-- A long command that a reset overtook has ended: the contexts it destroyed or the reset it started are done; a
snapshot is lost (log 29). -/
def State.endAnyLong (s : State) : State :=
  match s.plat.mas.lastLong with
  | some (c, true, _) => s.longOver c (if c = 0x42 then .state else .success)
  | _ => s

/-- What waits for the end of a reset takes effect: a life-cycle state, a firmware activation, and debug mode, which a cold reset
ends; the commands that began the reset are answered (R353, R387). -/
def resetComplete (s : State) : State :=
  let s1 := s.lifeEffect.mapMas fun m => { m with debugMode := m.debugDue && !s.plat.pow.cold, debugDue := false }
  let s2 := s1.mapPow fun p => { p with faultLed := p.faultLed && !p.cold }
  let s3 := match s2.plat.mas.fwPending with
    | none => s2
    | some v => startImage v s2
  s3.endAnyLong.answerRunning .success

/-- Begins the link stage of the reset once both wipes and the self-test have ended (R388, R389). In DECOMMISSIONED
the host link stays down, so the reset has then run its course (R366). -/
def toLink (s : State) : State :=
  let p := s.plat.pow
  if p.stage = .wipe && !p.dramWiping && !p.sramWiping && !p.testing then
    let s1 := (s.mapPow fun p => { p with stage := .link }).mapDev Device.startHub
    if s1.plat.mas.lifePending = some .decommissioned ∨ s1.plat.fuses.life = .decommissioned then resetComplete s1 else s1
  else s

/-- BOOT_IMAGE_CHECK_DONE: stage 1 ends. The image checked is the one the flash holds; a flash without a whole one fails (R357,
R359). -/
def bootImageCheckDone (img : ImageCheck) (s : State) : State :=
  if s.plat.pow.stage != .boot || s.plat.pow.romWait || (s.plat.mas.flash.any fun f => f != img) then s
  else if s.plat.mas.flash.isSome && imageOk s.plat.fuses img then
    startImage img.svn (s.mapPow fun p => { p with stage := .firmware })
  else enterRecovery s

/-- BOOT_IMAGE_CHECK_DONE. -/
def execBootImageCheckDone (img : ImageCheck) (s : State) : Out := onState (bootImageCheckDone img) s

/-- PP_BTN_N_RELEASE: the ROM goes on to check the image. -/
def execPpBtnNRelease (s : State) : Out := onState (fun s => s.mapPow fun p => { p with romWait := false }) s

/-- FIRMWARE_START_DONE: stage 2 ends: Mastiff rewrites the registers whose settings it holds (R386). -/
def execFirmwareStartDone (s : State) : Out :=
  onState (fun s =>
    if s.plat.pow.stage = .firmware then
      (s.mapPow fun p => { p with stage := .stackInit }).mapDev fun d => d.rewrite s.plat.mas
    else s) s

/-- STACK_TRAINING_DONE: stage 3 ends: the wipe and the self-test run in parallel. -/
def execStackTrainingDone (s : State) : Out :=
  onState (fun s =>
    if s.plat.pow.stage = .stackInit then
      (s.mapPow fun p => { p with stage := .wipe, dramWiping := true, sramWiping := true, testing := true }).mapDev
        fun d => d.wiping true
    else s) s

/-- A bypass that the self-test changed is logged (R53, R368). -/
def logBypass (time : Dword) (d : Device) (key : Nat) (old new : BitVec 16) : Device :=
  if old = new then d
  else d.logEvent time 0x0004 3 0 (key / 8 + key % 8 * 2 ^ 6 + new.toNat * 2 ^ 9)

/-- The bypass map of an engine: what the fuses and the self-test find bad (R52). -/
def setBypass (p : Platform) (bad : List (Nat × BitVec 16)) (d : Device) (key : Nat) : Device :=
  let found := ((bad.find? fun e => e.1 == key).map Prod.snd).getD 0
  let new := FMap.get 0 p.fuses.fusedBad key ||| found
  let old := (FMap.get RowEng.reset d.eng.res key).bad
  logBypass p.pow.time (d.updRe (key / 8) (key % 8) fun r => { r with bad := new }) key old new

/-- LANE_SELF_TEST_DONE: the bypass map is fixed and every lane die is power-gated. -/
def laneSelfTestDone (bad : List (Nat × BitVec 16)) (s : State) : State :=
  if s.plat.pow.stage = .wipe && s.plat.pow.testing then
    let s1 := s.mapDev fun d =>
      (List.range (Config.laneDies * Config.enginesPerDie)).foldl (setBypass s.plat bad) d
    toLink (s1.mapPow fun p => { p with testing := false, dieLevel := [] })
  else s

/-- LANE_SELF_TEST_DONE. -/
def execLaneSelfTestDone (bad : List (Nat × BitVec 16)) (s : State) : Out := onState (laneSelfTestDone bad) s

/-- DRAM_WIPE_DONE: held while the reference is awaited (R377). -/
def dramWipeDone (s : State) : State :=
  if s.plat.pow.dramWiping && !s.plat.pow.refHold then
    toLink ((s.mapPow fun p => { p with dramWiping := false }).mapDev fun d => d.wiping false)
  else s

/-- DRAM_WIPE_DONE. -/
def execDramWipeDone (s : State) : Out := onState dramWipeDone s

/-- SRAM_WIPE_DONE. -/
def sramWipeDone (s : State) : State :=
  if s.plat.pow.sramWiping && !s.plat.pow.refHold then toLink (s.mapPow fun p => { p with sramWiping := false }) else s

/-- SRAM_WIPE_DONE. -/
def execSramWipeDone (s : State) : Out := onState sramWipeDone s

/-- Does the TAP hold the pins (R416)? -/
def tapHolds (i : TapInstr) : Bool := i == .extest || i == .clamp || i == .highz

/-- HOST_LINK_TRAINED: stage 5 ends: the part is ready (R245, R366, R388). -/
def hostLinkTrained (s : State) : State :=
  let p := s.plat.pow
  if p.stage = .link && !p.perst && !p.refHold && !tapHolds p.tap && s.plat.fuses.life != .decommissioned then
    resetComplete (s.mapPow fun p => { p with stage := .ready, linkUp := true, linkBUp := true })
  else s

/-- HOST_LINK_TRAINED. -/
def execHostLinkTrained (s : State) : Out := onState hostLinkTrained s

/-- HOST_PERST_ASSERT: a warm reset starts, or the link stage of the reset that runs waits (R245, R387). -/
def execHostPerstAssert (s : State) : Out := onState (fun s => (warmReset s).mapPow fun p => { p with perst := true }) s

/-- HOST_PERST_DEASSERT. -/
def execHostPerstDeassert (s : State) : Out := onState (fun s => s.mapPow fun p => { p with perst := false }) s

/-- CXL_HOT_RESET: as an assertion of HOST_PERST_N (R245). -/
def execCxlHotReset (s : State) : Out := onState warmReset s

/-- LINK_B_DOWN: in 2 × 8 mode windows 32 to 63 are unreachable, and nothing else happens (R245). -/
def execLinkBDown (s : State) : Out :=
  onState (fun s => s.mapPow fun p => { p with linkBUp := p.linkBUp && !p.twoByEight }) s

/-- LINK_B_RETRAIN. -/
def execLinkBRetrain (s : State) : Out :=
  onState (fun s => s.mapPow fun p => { p with linkBUp := p.linkBUp || p.twoByEight && p.linkUp }) s

/-- REFCLK_LOST: the part begins a warm reset and holds it (R377). -/
def execRefclkLost (s : State) : Out :=
  onState (fun s =>
    if s.plat.pow.alwaysOn then
      (warmReset s).mapPow fun p => { p with refAbsent := true, refHold := true, refclkLost := true }
    else s) s

/-- REFCLK_STABLE: the held reset proceeds. -/
def execRefclkStable (s : State) : Out :=
  onState (fun s => s.mapPow fun p => { p with refAbsent := false, refHold := false }) s

/-- CONFIG_READ: retry status until the part is ready (R245). -/
def execConfigRead (s : State) : Out :=
  onState (fun s => s.mapDev fun d => d.emit (.config (s.plat.pow.stage == .ready))) s

/-! ### Seal and presence (R361, R364) -/

/-- SEAL_CHECK. -/
def execSealCheck (opened : Bool) (s : State) : Out :=
  onState (fun s => if opened && s.plat.pow.alwaysOn then sealBreak s else s) s

/-- The button opens or renews a window (R361). -/
def openButton (s : State) : State :=
  if s.plat.mas.button then s
  else (s.mapMas fun m => { m with button := true }).mapDev fun d => d.logEvent s.plat.pow.time 0x0003 3 0 1

/-- PRESENCE_BUTTON_HOLD: a window opens; a hold from power-good makes the ROM enter recovery (R359, R361). -/
def presenceButtonHold (s : State) : State :=
  if !s.plat.pow.alwaysOn then s
  else if s.plat.pow.stage = .boot && s.plat.pow.romWait then openButton (enterRecovery s)
  else openButton s

/-- PRESENCE_BUTTON_HOLD. -/
def execPresenceButtonHold (s : State) : Out := onState presenceButtonHold s

/-- PRESENCE_WINDOW_EXPIRY: the window that the button opened closes. -/
def execPresenceWindowExpiry (s : State) : Out := onState State.closeButton s

/-! ### Temperature (R382, R383) -/

/-- Covered class 0 items in flight lose condition 5 of the bound (R293). -/
def Device.emergencyUnmet (d : Device) : Device :=
  d.mapHub fun h => { h with items := h.items.map fun i =>
    if i.covered && i.phase != .fetched then { i with unmet := Nat.lor i.unmet 32 } else i }

/-- A number set in a sparse table of percent cuts: 5 more for each cause, at most 100 (R382; log 20). -/
def moreCut (n : Nat) (m : FMap Nat) (die : Nat) : FMap Nat := FMap.upd 0 m die fun c => min 100 (c + 5 * n)

/-- Cuts of one sample of an emergency. -/
def Power.cuts (p : Power) : FMap Nat :=
  let hotInlet := decide (450 < p.inlet)
  (List.range 64).foldl (fun m i =>
    let causes := bit (decide (100 ≤ FMap.get 0 p.dieTemp i)) + bit (hotInlet && decide (i < Config.laneDies))
    if causes = 0 then m else moreCut causes m i) p.dieCut

/-- Do all junctions and the inlet stay at or below limits? -/
def Power.coolAt (p : Power) (tj inlet : Nat) : Bool := p.dieTemp.all (fun e => decide (e.2 ≤ tj)) && decide (p.inlet ≤ inlet)

/-- An emergency begins, goes on, ends after 100 ms below its limits, and afterwards the grants rise again (R382). -/
def Power.emergencyStep (p : Power) : Power :=
  let hot := p.dieTemp.any (fun e => decide (100 ≤ e.2)) || decide (450 < p.inlet)
  if hot then { p with emergency := true, coolMs := 0, dieCut := p.cuts }
  else if p.emergency then
    let ms := if p.coolAt 95 440 then p.coolMs + 1 else 0
    if 100 ≤ ms then { p with emergency := false, coolMs := 0 } else { p with coolMs := ms }
  else { p with dieCut := (p.dieCut.map fun e => (e.1, e.2 - 5)).filter fun e => e.2 != 0 }

/-- The readings of a sample. -/
def Power.sampled? (p : Power) (temps : List (Nat × Nat)) (inlet : Option Nat) : Power :=
  { p with
    dieTemp := temps.foldl (fun m e => if e.1 < 64 then FMap.set 0 m e.1 e.2 else m) p.dieTemp
    inlet := inlet.getD p.inlet }

/-- THERMAL_SAMPLE: a trip at 105 °C, else a step of the emergency; after a trip the time below the release limits is
counted (R382, R383). -/
def thermalSample (temps : List (Nat × Nat)) (inlet : Option Nat) (s : State) : State :=
  if !s.plat.pow.alwaysOn then s
  else
    let s1 := s.mapPow fun p => p.sampled? temps inlet
    let p := s1.plat.pow
    let tripHot := p.dieTemp.any fun e => decide (105 ≤ e.2)
    if p.stage = .tripHold then
      s1.mapPow fun p => { p with coolMs := if p.coolAt 85 450 then p.coolMs + 1 else 0 }
    else if tripHot && p.good then
      (shutDies s1 .tripHold).mapPow fun p => { p with tripSeen := true, coolMs := 0 }
    else
      let s2 := s1.mapPow Power.emergencyStep
      if s2.plat.pow.emergency then s2.mapDev Device.emergencyUnmet else s2

/-- THERMAL_SAMPLE. -/
def execThermalSample (temps : List (Nat × Nat)) (inlet : Option Nat) (s : State) : Out :=
  onState (thermalSample temps inlet) s

/-- TRIP_HOLD_EXPIRY: after 1 s below the release limits a cold reset follows (R383). -/
def execTripHoldExpiry (s : State) : Out :=
  onState (fun s => if s.plat.pow.stage = .tripHold && decide (1000 ≤ s.plat.pow.coolMs) then coldReset s else s) s

/-! ### Sensors (R351, R384) -/

/-- Presented lanes of the part, and its retired engines (R53, R356). -/
def Device.lanes (d : Device) : Nat × Nat :=
  let ws := (List.range (Config.laneDies * Config.enginesPerDie)).map fun i => presented (d.re (i / 8) (i % 8)).bad
  (ws.sum, (ws.filter (· == 0)).length)

/-- What a sensor shows: what the part counts itself, else what is measured. -/
def sensorNow (s : State) (w : Sensor) (measured : Nat) : Nat :=
  match w with
  | .lanes => s.dev.lanes.1
  | .eccCe i => (s.dev.memBlk i).ce.toNat
  | .eccUe i => (s.dev.memBlk i).ue.toNat
  | .lifeCycle => lifeNum s.plat.fuses.life
  | _ => measured

/-- The thresholds of R384: a reading's warning, critical and fatal ranges. Junctions in °C, inlet and current in tenths, voltage in
mV, power in W. A power fault is fatal, and nothing answers during one. -/
def warningAt (p : Power) (w : Sensor) (v : Nat) : Bool :=
  match w with
  | .inlet => decide (v < 200 ∨ 430 < v)
  | .junction _ => decide (95 ≤ v)
  | .voltage => decide (v < 58000 ∨ 68000 < v)
  | .current => decide (1625 ≤ v)
  | .power => decide (p.moduleCap ≤ v)
  | _ => false
def criticalAt (w : Sensor) (v : Nat) : Bool :=
  match w with
  | .inlet => decide (450 < v)
  | .junction _ => decide (100 ≤ v)
  | .voltage => decide (v < 55000 ∨ 72000 < v)
  | .current => decide (1900 ≤ v)
  | .power => decide (10400 ≤ v)
  | .lanes => decide (v < 155648)
  | _ => false
def fatalAt (w : Sensor) (v : Nat) : Bool :=
  match w with
  | .junction _ => decide (105 ≤ v)
  | _ => false

/-- The threshold a reading has passed: 0 none, 1 warning, 2 critical, 3 fatal (R384). -/
def sensorLevel (p : Power) (w : Sensor) (v : Nat) : Nat :=
  if fatalAt w v then 3 else if criticalAt w v then 2 else if warningAt p w v then 1 else 0

/-- SENSOR_UPDATE: the reading stands, and MGMT_ALERT_N is low while any is past its warning threshold (R413). -/
def sensorUpdate (w : Sensor) (value : Nat) (s : State) : State :=
  let v := sensorNow s w value
  let readings := (w, v) :: s.plat.mas.sensors.filter fun e => e.1 != w
  let s1 := s.mapMas fun m =>
    { m with sensors := readings, alert := readings.any fun e => sensorLevel s.plat.pow e.1 e.2 != 0 }
  match w with
  | .voltage => s1.mapPow fun p => { p with inputMv := v }
  | .current => s1.mapPow fun p => { p with current := v }
  | .power => s1.mapPow fun p => { p with drawnW := v }
  | _ => s1

/-- SENSOR_UPDATE. -/
def execSensorUpdate (which : Sensor) (value : Nat) (s : State) : Out :=
  onState (fun s => if s.plat.pow.alwaysOn then sensorUpdate which value s else s) s

/-! ### Grants (R371 to R373) -/

/-- One agent's need and weight. -/
structure Need where
  key    : Nat
  weight : Nat
  need   : Nat
  deriving DecidableEq, Repr

/-- Divides `total` by weight, up to each need; what satisfied agents leave is divided again (R372). Each round settles
at least one agent or ends, so as many rounds as agents suffice. -/
def divide : Nat → Nat → List Need → List (Nat × Nat)
  | 0, _, ns => ns.map fun n => (n.key, 0)
  | r + 1, total, ns =>
    let w := (ns.map Need.weight).sum
    let full := ns.filter fun n => decide (n.need * w ≤ total * n.weight)
    if full.isEmpty then ns.map fun n => (n.key, total * n.weight / w)
    else
      let rest := ns.filter fun n => !decide (n.need * w ≤ total * n.weight)
      (full.map fun n => (n.key, n.need)) ++ divide r (total - (full.map Need.need).sum) rest

/-- The lane-die share S of the budget, in mW (R371). -/
def Power.laneShare (p : Power) : Nat := 940 * p.moduleCap - 2380000

/-- A die's demand under the ceiling, in mW. -/
def Power.demand (p : Power) (die : Nat) : Nat := min (FMap.get 0 p.dieDemand die) 240000

/-- A slice's demand, cut by its cap, in mW. -/
def Power.sliceDemand (p : Power) (i : Nat) (dies : List Nat) : Nat :=
  let d := (dies.map p.demand).sum
  let cap := FMap.get 0 p.sliceCap i
  if cap = 0 then d else min d (1000 * cap)

/-- The grants of the slices, in mW (R372 steps 1 to 3). -/
def Power.sliceGrants (p : Power) (slices : List (Nat × List Nat)) : List (Nat × Nat) :=
  let base := fun (x : Nat × List Nat) => min (1000 * FMap.get 0 p.sliceFloor x.1) (p.sliceDemand x.1 x.2)
  let rest := p.laneShare - (slices.map base).sum
  let more := divide (slices.length + 1) rest
    (slices.map fun x => ⟨x.1, x.2.length, p.sliceDemand x.1 x.2 - base x⟩)
  slices.map fun x => (x.1, base x + ((more.find? fun e => e.1 == x.1).map Prod.snd).getD 0)

/-- The grants of a slice's dies, in mW, with the emergency's cuts (R372 step 4, R382). -/
def Power.dieGrants (p : Power) (grant : Nat) (dies : List Nat) : List (Nat × Nat) :=
  let raw := if (dies.map p.demand).sum ≤ grant then dies.map fun i => (i, p.demand i)
    else divide (dies.length + 1) grant (dies.map fun i => ⟨i, 1, p.demand i⟩)
  raw.map fun e => (e.1, e.2 * (100 - FMap.get 0 p.dieCut e.1) / 100)

/-- Writes a list of pairs in a table of numbers. -/
def tableOf (xs : List (Nat × Nat)) : FMap Nat := xs.foldl (fun m e => FMap.set 0 m e.1 e.2) []

/-- GRANT_EPOCH: `demands` of the lane dies in mW, `drawn` the draws of the slices in W. -/
def grantEpoch (demands drawn : List (Nat × Nat)) (s : State) : State :=
  let slices := ((List.range Config.sliceCount).filter fun i => (s.dev.slice i).exists?).map fun i =>
    (i, (s.dev.slice i).dieList)
  s.mapPow fun p0 =>
    let p := { p0 with dieDemand := tableOf demands }
    let grants := p.sliceGrants slices
    let dies := slices.map fun x => (x.1, p.dieGrants (((grants.find? fun e => e.1 == x.1).map Prod.snd).getD 0) x.2)
    { p with
      sliceGrant := tableOf (grants.map fun e => (e.1, e.2 / 1000))
      dieGrant := tableOf (dies.flatMap Prod.snd)
      throttled := dies.foldl (fun m x =>
        FMap.set false m x.1 (x.2.any fun e => decide (e.2 < FMap.get 0 p.dieDemand e.1))) []
      sliceDrawn := tableOf drawn }

/-- GRANT_EPOCH. -/
def execGrantEpoch (demands drawn : List (Nat × Nat)) (s : State) : Out :=
  onState (fun s => if s.plat.pow.stage = .ready then grantEpoch demands drawn s else s) s

/-! ### Sleep, gating and wake (R378 to R381) -/

/-- Have the three conditions of sleep held together (R381)? -/
def sleepReady (s : State) : Bool :=
  s.plat.pow.stage == .ready && !s.plat.pow.asleep && s.plat.pow.sleepMs != 0 &&
    !((List.range Config.sliceCount).any fun i => (s.dev.slice i).exists?) &&
    (s.dev.hub.ctxs.all fun e => e.2.st == .free) &&
    (List.range Config.portCount).all fun p => (s.dev.port p).blk.st == .off

/-- SLEEP_ENTRY: lane dies and H1 to H3 are power-gated, the stacks are in self-refresh. -/
def sleepEntry (s : State) : State :=
  if sleepReady s then
    { s with
      plat := { s.plat with pow := { s.plat.pow with
        asleep := true, dieLevel := [], gated := [], hubOff := [(1, true), (2, true), (3, true)] } }
      dev := (List.range Config.stackCount).foldl (fun d i => d.updMemBlk i fun b => { b with selfRef := true }) s.dev }
  else s

/-- SLEEP_ENTRY. -/
def execSleepEntry (s : State) : Out := onState sleepEntry s

/-- Does a unit hold work: a row engine, vector engine, core or TXB unit (R378, R425)? -/
def Device.unitBusy (d : Device) (u : UnitId) : Bool :=
  if u.unit < 8 then (d.re u.die u.unit).busy
  else if u.unit < 16 then
    let v := d.vecEng u.die (u.unit - 8)
    v.running.isSome || !v.queue.isEmpty
  else if u.unit < 32 then d.collie.blocks.any fun b => b.2.die == u.die && b.2.core == u.unit - 16
  else !(d.re u.die (u.unit - 32)).txb.isEmpty

/-- Is every unit of a die clock-gated? -/
def Power.allGated (p : Power) (die : Nat) : Bool := allBelow 40 fun u => FMap.get false p.gated (64 * die + u)

/-- UNIT_CLOCK_GATE: an idle unit is gated; with every unit gated the die reads 0b01 (R378, R390). -/
def unitClockGate (u : UnitId) (s : State) : State :=
  if decide (u.unit < 40) && decide ((FMap.get 3 s.plat.pow.dieLevel u.die).toNat < 2) && !s.dev.unitBusy u then
    s.mapPow fun p =>
      let p1 := { p with gated := FMap.set false p.gated (64 * u.die + u.unit) true }
      if p1.allGated u.die then { p1 with dieLevel := FMap.set 3 p1.dieLevel u.die 1 } else p1
  else s

/-- UNIT_CLOCK_GATE. -/
def execUnitClockGate (u : UnitId) (s : State) : Out := onState (unitClockGate u) s

/-- DIE_PLL_OFF: every unit gated, the die in a slice that is not RESERVED. -/
def diePllOff (die : Nat) (s : State) : State :=
  let ordinary := (s.dev.sliceOf die).any fun i => !(s.dev.slice i).reserved
  if s.plat.pow.pllIdle != 0 && FMap.get 3 s.plat.pow.dieLevel die == 1 && s.plat.pow.allGated die && ordinary then
    s.mapPow fun p => { p with dieLevel := FMap.set 3 p.dieLevel die 2 }
  else s

/-- DIE_PLL_OFF. -/
def execDiePllOff (die : Nat) (s : State) : Out := onState (diePllOff die) s

/-- A unit's clock runs again. -/
def Power.ungate (p : Power) (die unit : Nat) : Power :=
  { p with
    gated := FMap.set false p.gated (64 * die + unit) false
    dieLevel := if FMap.get 3 p.dieLevel die = 1 then FMap.set 3 p.dieLevel die 0 else p.dieLevel }

/-- Has work been dealt to a unit, or to a steal pool from which it takes work (R379)? -/
def Device.unitWoken (d : Device) (u : UnitId) : Bool :=
  d.unitBusy u || (decide (u.unit < 16) && (d.sliceOf u.die).any fun i => !(d.slice i).steal.isEmpty)

/-- Has an item been dispatched to the slice of a die (R379)? -/
def Device.dieWoken (d : Device) (die : Nat) : Bool :=
  (d.sliceOf die).any fun i => d.hub.items.any fun x => x.slice == i && (x.phase == .dispatched || x.phase == .running)

/-- UNIT_WAKE_DONE: what work has woken: a unit's clock runs; or a die's PLL runs, and with it the units that hold work (R379). -/
def unitWakeDone (w : WakeOf) (s : State) : State :=
  match w with
  | .unit u =>
    if decide (u.unit < 40) && decide ((FMap.get 3 s.plat.pow.dieLevel u.die).toNat < 2) && s.dev.unitWoken u then
      s.mapPow fun p => p.ungate u.die u.unit
    else s
  | .die i =>
    if FMap.get 3 s.plat.pow.dieLevel i = 2 ∧ s.dev.dieWoken i then
      let busy := (List.range 40).filter fun u => s.dev.unitBusy ⟨i, u⟩
      s.mapPow fun p => busy.foldl (fun p u => p.ungate i u) { p with dieLevel := FMap.set 3 p.dieLevel i 1 }
    else s

/-- UNIT_WAKE_DONE. -/
def execUnitWakeDone (w : WakeOf) (s : State) : Out := onState (unitWakeDone w) s

/-- A block that starts with its die. -/
def Blk.powerUp (b : Blk) : Blk := { b with st := if b.en then .starting else .off }

/-- The blocks of a lane die start with the settings held for them; a retired engine stays OFF (R53, R380). -/
def Device.startDie (d : Device) (i : Nat) : Device :=
  let d1 := d.updDie i fun b => { b with
    ve := b.ve.powerUp, txb := b.txb.powerUp, collie := b.collie.powerUp, dcache := b.dcache.powerUp
    retr := b.retr.powerUp, rng := b.rng.powerUp }
  (List.range 8).foldl (fun d k => d.updRe i k fun r =>
    if presented r.bad = 0 then r else { r with blk := r.blk.powerUp }) d1

/-- DIE_POWER_UP_DONE: a lane die of a slice, or, once the part has left sleep, a hub die whose enabled ports then train (R310, R380,
R381). -/
def diePowerUpDone (w : DieId) (s : State) : State :=
  match w with
  | .lane i =>
    if s.plat.pow.dieOff i && (s.dev.sliceOf i).isSome && decide (i < Config.laneDies) then
      (s.mapPow fun p => { p with dieLevel := FMap.set 3 p.dieLevel i 0 }).mapDev fun d => d.startDie i
    else s
  | .hub h =>
    if FMap.get false s.plat.pow.hubOff h && !s.plat.pow.asleep then
      let train := fun (x : Port) => if x.blk.st = .starting && x.link = .down then { x with link := .training } else x
      (s.mapPow fun p => { p with hubOff := FMap.set false p.hubOff h false }).mapDev fun d =>
        (d.updPort (2 * h - 2) train).updPort (2 * h - 1) train
    else s

/-- DIE_POWER_UP_DONE. -/
def execDiePowerUpDone (d : DieId) (s : State) : Out := onState (diePowerUpDone d) s

/-! ### The TAP (R416) -/

/-- TAP_INSTRUCTION_LOAD: a debug instruction outside debug mode behaves as BYPASS. -/
def tapInstructionLoad (i : TapInstr) (s : State) : State :=
  if !s.plat.pow.alwaysOn then s
  else
    let s1 := s.mapPow fun p => { p with tap := if i = .debug && !s.plat.mas.debugMode then .bypass else i }
    if tapHolds i then warmReset s1 else s1

/-- TAP_INSTRUCTION_LOAD. -/
def execTapInstructionLoad (i : TapInstr) (s : State) : Out := onState (tapInstructionLoad i) s

/-- TAP_TRST: the TAP is reset, and a held warm reset goes on. -/
def execTapTrst (s : State) : Out := onState (fun s => s.mapPow fun p => { p with tap := .bypass }) s

/-- IDCODE's fields that the spec gives: version and part. -/
def tapIdcode : Nat := 0x1 * 2 ^ 28 + 0x6420 * 2 ^ 12

/-! ### Pins (R413, R417) -/

/-- Patterns of the LEDs. -/
inductive Led where
  | off | on | blink1 | blink2 | blink4 | blinkHalf | doubleFlash
  deriving DecidableEq, Repr

/-- LED_PWR. -/
def ledPwr (s : State) : Led :=
  if !s.plat.pow.alwaysOn then .off else if s.plat.pow.rangeWarn then .blink1 else .on

/-- LED_FAULT. -/
def ledFault (s : State) : Led :=
  let p := s.plat.pow
  if !p.alwaysOn then .off
  else if p.faultLed then .on
  else if p.emergency then .blink4
  else if p.stage = .recovery then .blink1
  else if s.plat.fuses.sealBroken then .doubleFlash else .off

/-- LED_STAT: whether it is amber, and its pattern. -/
def ledStat (s : State) : Bool × Led :=
  let p := s.plat.pow
  if !p.alwaysOn then (false, .off)
  else if s.plat.mas.window then (true, .blink2)
  else if p.stage != .ready then (false, .blink1)
  else if p.asleep then (true, .on)
  else if s.plat.fuses.life = .owned then (false, .on) else (true, .blinkHalf)

/-- MGMT_ALERT_N is driven low. -/
def alertLow (s : State) : Bool := s.plat.mas.alert

end Sys2Proof.Machine
end

