-- ==== Sys2Proof/Machine/Mastiff.lean ====
section
/-! DEFINITION. The management port, sessions, attestation, firmware, and the management commands that act on the whole
part (R349 to R368, R306, R307). -/

namespace Sys2Proof.Machine

/-! ### The port (R349 to R351) -/

/-- Message types that Mastiff takes; in recovery MCTP control and PLDM alone (R350, R359); in DECOMMISSIONED no
management command set (R366). -/
def mctpTaken (s : State) (typ : Nat) : Bool :=
  if s.plat.pow.stage = .recovery then typ == 0x00 || typ == 0x01
  else if s.plat.fuses.life = .decommissioned then typ == 0x00 || typ == 0x01 || typ == 0x05
  else typ == 0x00 || typ == 0x01 || typ == 0x05 || typ == 0x06 || typ == 0x7F

/-- Does something answer on J9: the firmware, or the ROM in recovery? -/
def Power.portUp (p : Power) : Bool := p.mastiffUp || p.stage == .recovery

/-- The endpoint id Mastiff answers at: the null EID until it has one (R350). -/
def Mastiff.source (m : Mastiff) : Nat := (m.eid.map BitVec.toNat).getD 0

/-- MCTP_MESSAGE: dispatched by its type, or answered as an unsupported one; types 0x06 and 0x7F need a session. -/
def mctpMessage (typ sid : Nat) (s : State) : State :=
  if !s.plat.pow.portUp then s
  else if !mctpTaken s typ then s.mapDev fun d => d.emit (.mctpUnsupported typ s.plat.mas.source)
  else if (typ == 0x06 || typ == 0x7F) && (s.plat.mas.session sid).isNone then s
  else s.mapDev fun d => d.emit (.mctpAnswer typ s.plat.mas.source
    (if typ == 0x01 then .pldm s.plat.mas.fwPending.isSome Config.vendorId else .plain))

/-- MCTP_MESSAGE. -/
def execMctpMessage (typ sid : Nat) (s : State) : Out := onState (mctpMessage typ sid) s

/-- DYNAMIC_ADDRESS_ASSIGN: the port changes to I3C. -/
def execDynamicAddressAssign (addr : BitVec 7) (s : State) : Out :=
  onState (fun s => if s.plat.pow.alwaysOn then s.mapMas fun m => { m with dynAddr := some addr } else s) s

/-- The static address of the port (R349). -/
def Mastiff.staticAddr (m : Mastiff) : Nat := 0x58 + m.addr.toNat

/-- SET_ENDPOINT_ID. -/
def execSetEndpointId (eid : Byte) (s : State) : Out :=
  onState (fun s => if s.plat.pow.portUp then s.mapMas fun m => { m with eid := some eid } else s) s

/-- PLDM_SENSOR_READ. -/
def execPldmSensorRead (which : Sensor) (s : State) : Out :=
  onState (fun s =>
    let held := ((s.plat.mas.sensors.find? fun e => e.1 == which).map Prod.snd).getD 0
    let v := if which = .lifeCycle then lifeNum s.plat.fuses.life else held
    if s.plat.pow.mastiffUp then s.mapDev fun d => d.emit (.sensor which v (sensorLevel s.plat.pow which v)) else s) s

/-! ### Sessions and attestation (R352, R355, R356) -/

/-- The certificate chain of SPDM slot `i`: slot 0 holds the device identity certificate, the others are empty (R355). -/
def Fuses.certSlot (f : Fuses) (i : Nat) : Option DevCert :=
  if i = 0 then f.deviceKey.map fun k => ⟨k, Config.serialNumber⟩ else none

/-- May a session be set up with a requester's key: the part has a device identity key to authenticate itself with, and the state
accepts the key, or authenticates the part alone (R352)? -/
def sessionGranted (f : Fuses) (k : ReqKey) : Bool := f.deviceKey.isSome && sessionOk f k

/-- The requester that a session authenticates: none in PROVISIONED (R352). -/
def Fuses.authenticated (f : Fuses) (k : ReqKey) : ReqKey := if f.life = .provisioned then .anonymous else k

/-- SPDM_KEY_EXCHANGE. -/
def spdmKeyExchange (sid : Nat) (key : ReqKey) (s : State) : State :=
  if !s.plat.pow.mastiffUp then s
  else
    let ok := sessionGranted s.plat.fuses key
    let s1 := s.mapDev fun d => d.emit (.session sid ok (s.plat.fuses.certSlot 0))
    if ok then s1.mapMas fun m => { m with
      sessions := (m.sessions.filter fun x => x.sid != sid) ++ [⟨sid, s.plat.fuses.authenticated key⟩] }
    else s1

/-- SPDM_KEY_EXCHANGE. -/
def execSpdmKeyExchange (sid : Nat) (key : ReqKey) (s : State) : Out := onState (spdmKeyExchange sid key) s

/-- Measurement 5 (R356). -/
def measFlags (s : State) : Nat :=
  fieldsOf [(0, bit s.plat.fuses.sealBroken), (1, bit s.plat.mas.debugMode), (2, bit s.plat.fuses.debugLocked)]

/-- The image that the flash holds, or is being written with. -/
def Mastiff.flashImg (m : Mastiff) : Nat := ((m.flashBusy.or m.flash).map ImageCheck.image).getD 0

/-- The eight measurements in order; raw values are little-endian (R356). -/
def measBlocks (s : State) : List Meas :=
  let l := s.dev.lanes
  [.digest Config.romDigest, .digest (Config.imageDigest s.plat.mas.flashImg),
    .raw (leBytes 1 s.plat.mas.fwSvn ++ leBytes 1 s.plat.fuses.minSvn), .raw (leBytes 1 (lifeNum s.plat.fuses.life)),
    .raw (leBytes 1 (measFlags s)), .raw (leBytes 4 l.1 ++ leBytes 2 l.2), .raw (leBytes 1 (bit s.plat.mas.idePolicy)),
    .digest ((s.plat.fuses.ownerKey.map Config.keyDigest).getD 0)]

/-- The bytes that a signature covers. -/
def Meas.bytes : Meas → List Byte
  | .digest d => leBytes 64 d.toNat
  | .raw bs => bs

/-- GET_MEASUREMENTS, signed with the device identity key: a BLANK part has none to sign with (R355, R356). -/
def getMeasurements (s : State) : State :=
  match s.plat.fuses.deviceKey with
  | none => s
  | some k =>
    if !s.plat.pow.mastiffUp then s
    else s.mapDev fun d => d.emit (.measurements (measBlocks s) (Config.sign k ((measBlocks s).flatMap Meas.bytes)))

/-- GET_MEASUREMENTS. -/
def execGetMeasurements (s : State) : Out := onState getMeasurements s

/-- IDE_KM: in an established session (R338). -/
def execIdeKm (sid : Nat) (s : State) : Out :=
  onState (fun s =>
    if s.plat.pow.mastiffUp && (s.plat.mas.session sid).isSome && s.plat.pow.linkUp && s.plat.fuses.life != .decommissioned then
      s.mapMas fun m => { m with ideUp := true }
    else s) s

/-! ### Firmware (R357 to R359) -/

/-- Is the session the owner's, in a state that accepts it (R352, R366)? -/
def ownerSession (s : State) (sid : Nat) : Bool :=
  (s.plat.fuses.life == .owned || s.plat.fuses.life == .service) && match s.plat.mas.session sid with
  | some x =>
    match x.key with
    | .owner n => s.plat.fuses.ownerKey == some n
    | _ => false
  | none => false

/-- FIRMWARE_UPDATE_TRANSFER: an image that passes the checks has the flash erased and written; another is refused at
VerifyComplete (R358). -/
def firmwareUpdateTransfer (sid : Nat) (img : ImageCheck) (s : State) : State :=
  if !s.plat.pow.mastiffUp || !ownerSession s sid || s.plat.mas.flashBusy.isSome then s
  else
    let ok := imageOk s.plat.fuses img
    let s1 := s.mapDev fun d => d.emit (.fwVerify ok)
    if ok then s1.mapMas fun m => { m with flashBusy := some img, flash := none } else s1

/-- FIRMWARE_UPDATE_TRANSFER. -/
def execFirmwareUpdateTransfer (sid : Nat) (img : ImageCheck) (s : State) : Out :=
  onState (firmwareUpdateTransfer sid img) s

/-- FLASH_WRITE_DONE: the image is pending activation at the next reset. -/
def flashWriteDone (s : State) : State :=
  match s.plat.mas.flashBusy with
  | none => s
  | some v => s.mapMas fun m => { m with flashBusy := none, flash := some v, fwPending := some v.svn }

/-- FLASH_WRITE_DONE. -/
def execFlashWriteDone (s : State) : Out := onState flashWriteDone s

/-- RECOVERY_IMAGE_LOAD: inside a presence window a checked image is written and a cold reset follows. The ROM answers no SPDM and a
cold reset keeps no session, so the window alone is the authority (R359; log 94). -/
def recoveryImageLoad (img : ImageCheck) (s : State) : State :=
  if s.plat.pow.stage != .recovery || !s.plat.mas.window then s
  else if imageOk s.plat.fuses img then
    coldReset (s.mapMas fun m => { m with flash := some img, flashBusy := none, fwPending := none })
  else s.mapDev fun d => d.emit (.fwVerify false)

/-- RECOVERY_IMAGE_LOAD. -/
def execRecoveryImageLoad (img : ImageCheck) (s : State) : Out := onState (recoveryImageLoad img) s

/-! ### Commands (R353, R354) -/

/-- MGMT_COMMAND_ARRIVAL: one runs, eight wait, the next is refused with BUSY. A code that R354 does not list is no command and is
answered at once (log 94). -/
def mgmtCommandArrival (sid code : Nat) (s : State) : State :=
  if !s.plat.pow.mastiffUp then s
  else if !listedCode code then mgmtAnswer s sid code ((s.refusal sid code).getD .invalid) .none
  else if s.plat.mas.queue.length < (if s.plat.mas.running.isSome then 8 else 9) then s.mapMas fun m => { m with queue := m.queue ++ [(sid, code)] }
  else s.mapDev fun d => (d.emit (.mgmt sid code .busy .none)).logEvent s.plat.pow.time 0x0001 1 MgmtCode.busy.num code

/-- MGMT_COMMAND_ARRIVAL. -/
def execMgmtCommandArrival (sid code : Nat) (s : State) : Out := onState (mgmtCommandArrival sid code) s

/-- A command without an answer but its code. -/
def done (s : State) : Except MgmtCode (State × MgmtData) := .ok (s, .none)

/-- LOG_READ: oldest first (R368). -/
def execLogRead (sid : Nat) (s : State) : Out :=
  onState (mgmt 0x60 sid false fun s =>
    .ok (s, .entries (s.dev.log.reverse.map LogEntry.bytes) (s.plat.fuses.permLog.map LogEntry.bytes))) s

/-- CMD_STATUS: the state of the last long command (R353). -/
def execCmdStatus (sid : Nat) (s : State) : Out :=
  onState (mgmt 0x62 sid false fun s =>
    match s.plat.mas.lastLong with
    | none => .ok (s, .status 0 false none)
    | some (c, r, x) => .ok (s, .status c r x)) s

/-- IDE_POLICY (R338). -/
def execIdePolicy (sid : Nat) (required : Bool) (s : State) : Out :=
  onState (mgmt 0x50 sid false fun s => done (s.mapMas fun m => { m with idePolicy := required })) s

/-- WARM_RESET (R385). -/
def execWarmReset (sid : Nat) (s : State) : Out := onState (mgmt 0x74 sid false fun s => done (warmReset s)) s

/-- PRESENCE_CLOSE: only a window that the button opened closes (R363). -/
def execPresenceClose (sid : Nat) (s : State) : Out := onState (mgmt 0x73 sid false fun s => done s.closeButton) s

/-- Is every context FREE? -/
def Device.allFree (d : Device) : Bool := d.hub.ctxs.all fun e => e.2.st == .free

/-- May the key make the transition; none where the table has no such one (R365)? -/
def transitionBy (source dest : Life) (k : ReqKey) : Option Bool :=
  match source, dest with
  | .blank, .provisioned => some true
  | .provisioned, .owned => some true
  | .owned, .service => some true
  | .service, .owned => some (match k with
    | .service _ => false
    | _ => true)
  | .service, .provisioned => some true
  | .owned, .provisioned => some true
  | .blank, .decommissioned => none
  | .decommissioned, _ => none
  | _, .decommissioned => some true
  | _, _ => none

/-- What a transition fuses: owner slots, entries into SERVICE, the owner key; from BLANK the generated device identity key and the
hashes of Suteto's release and service keys (R365). -/
def Fuses.transition (f : Fuses) (dest : Life) (key fresh : Nat) : Except MgmtCode Fuses :=
  match f.life, dest with
  | .provisioned, .owned =>
    if f.ownerUsed < 8 then .ok { f with ownerUsed := f.ownerUsed + 1, ownerKey := some key } else .error .resource
  | _, .service => if f.serviceUsed < 16 then .ok { f with serviceUsed := f.serviceUsed + 1 } else .error .resource
  | .blank, .provisioned => .ok { f with
      deviceKey := some (Config.freeKey fresh), releaseKey := some Config.releaseKey, serviceKey := some Config.serviceKey }
  | _, .provisioned => .ok { f with ownerKey := none }
  | _, _ => .ok f

/-- LC_TRANSITION: the state is fused, and a warm reset with the full wipe follows, but from BLANK (R365). -/
def lcTransition (sid : Nat) (target : Life) (key : Nat) (s : State) : Except MgmtCode (State × MgmtData) :=
  let f := s.plat.fuses
  match transitionBy f.life target (s.plat.mas.keyOf sid) with
  | none => .error .state
  | some false => .error .auth
  | some true =>
    if !s.dev.allFree || s.plat.mas.lifePending.isSome then .error .state
    else match f.transition target key s.dev.freeCtr with
      | .error e => .error e
      | .ok f1 =>
        let s1 := logPerm (s.mapFuses fun _ => f1) 0x0006 1 (lifeNum f.life + lifeNum target * 16)
        if f.life = .blank then
          done ((s1.mapFuses fun f => { f with life := target }).mapDev fun d => { d with freeCtr := d.freeCtr + 1 })
        else done (warmReset (s1.mapMas fun m => { m with lifePending := some target }))

/-- LC_TRANSITION: a presence window is needed, but at the factory, where the fixture on J10 asks for it (R365; log 94). -/
def execLcTransition (sid : Nat) (target : Life) (key : Nat) (s : State) : Out :=
  onState (mgmt 0x70 sid (s.plat.fuses.life != .blank) (lcTransition sid target key)) s

/-- DEBUG_UNLOCK: a warm reset, after which the part comes up in debug mode (R367). -/
def debugUnlock (s : State) : Except MgmtCode (State × MgmtData) :=
  let f := s.plat.fuses
  if !(f.life == .owned || f.life == .service) || f.debugLocked || !s.dev.allFree then .error .state
  else done (warmReset (s.mapMas fun m => { m with debugDue := true }))

/-- DEBUG_UNLOCK. -/
def execDebugUnlock (sid : Nat) (s : State) : Out := onState (mgmt 0x71 sid true debugUnlock) s

/-- OWNER_KEY_ROTATE: the new key signed by the old one stands, and the sessions of the old one end (R360). -/
def ownerKeyRotate (key : Nat) (sigOk : Bool) (s : State) : Except MgmtCode (State × MgmtData) :=
  let old := s.plat.fuses.ownerKey
  if s.plat.fuses.life != .owned then .error .state
  else if !sigOk then .error .invalid
  else
    let keep := fun (x : Session) => match x.key with
      | .owner n => old != some n
      | _ => true
    done ((s.mapFuses fun f => { f with ownerKey := some key }).mapMas fun m =>
      { m with sessions := m.sessions.filter keep })

/-- OWNER_KEY_ROTATE. -/
def execOwnerKeyRotate (sid key : Nat) (sigOk : Bool) (s : State) : Out :=
  onState (mgmt 0x72 sid true (ownerKeyRotate key sigOk)) s

/-! ### The system tree (R306, R307, R308, R323) -/

/-- TOPO_SET: only while all six ports are OFF (R323). -/
def topoSet (node : Nat) (topo : Word) (s : State) : Except MgmtCode (State × MgmtData) :=
  if (List.range Config.portCount).any fun p => (s.dev.port p).blk.st != .off then .error .state
  else if 4096 ≤ node then .error .invalid
  else
    let v := topo &&& 0xCFFF0FFF#32
    let t : Word := if v.extractLsb' 30 2 = 3 then v &&& 0x3FFFFFFF#32 else v
    done ((s.mapMas fun m => { m with node := BitVec.ofNat 12 node, topo := t }).mapDev fun d =>
      d.mapPorts fun p => { p with node := BitVec.ofNat 12 node, topo := t })

/-- TOPO_SET. -/
def execTopoSet (sid node : Nat) (topo : Word) (s : State) : Out := onState (mgmt 0x40 sid false (topoSet node topo)) s

/-- REEL_SYS_SET: parent values 6 to 0xE are stored as 0xF (R308). -/
def reelSysSet (cfg : Word) (s : State) : Except MgmtCode (State × MgmtData) :=
  let parent := if cfg.toNat % 16 > 5 then 0xF else cfg.toNat % 16
  let v : Word := BitVec.ofNat 32 (bitsOf cfg.toNat 13 8 * 2 ^ 8 + parent)
  done ((s.mapMas fun m => { m with sysCfg := v }).mapDev fun d => d.mapReel fun r => { r with sysCfg := v })

/-- REEL_SYS_SET. -/
def execReelSysSet (sid : Nat) (cfg : Word) (s : State) : Out := onState (mgmt 0x41 sid false (reelSysSet cfg)) s

/-- Sends a message to every child of the system tree. -/
def Device.toChildren (d : Device) (m : ReelMsg) : Device :=
  d.reel.childPorts.foldl (fun d p => d.emit (.reel p m)) d

/-- A module freezes its open contexts for a snapshot and sends the freeze on (R306). -/
def Device.snapFreeze (d : Device) (root : Bool) : Device :=
  let open_ := (d.hub.ctxs.filter fun e => e.2.st == .opened).map Prod.fst
  let d1 := open_.foldl (fun d c => d.updCtx c fun x => { x with st := .frozen }) d
  let d2 := d1.mapHub fun h => { h with snapFrozen := open_ }
  ((d2.mapReel fun r => { r with snap := 1, reports := [], snapRoot := root }).toChildren .freeze).drainReport

/-- The snapshot is over, and what it froze opens again (R306). -/
def Device.snapResume (d : Device) : Device :=
  let d1 := d.hub.snapFrozen.foldl (fun d c => d.updCtx c fun x =>
    if x.st = .frozen then { x with st := .opened } else x) d
  let d2 := d1.mapHub fun h => { h with snapFrozen := [] }
  (d2.mapReel fun r => { r with snap := 0, reports := [], snapRoot := false }).toChildren .resume

/-- SNAPSHOT: at the root of the system tree, with no snapshot under way. -/
def execSnapshot (sid : Nat) (s : State) : Out :=
  onState (mgmt 0x42 sid false fun s =>
    if s.dev.reel.snap != 0 || s.dev.reel.parentPort != 15 then .error .state
    else done (s.mapDev fun d => d.snapFreeze true)) s

/-- SNAPSHOT_TAKEN: every report has reached the root (R306). -/
def execSnapshotTaken (s : State) : Out :=
  onState (fun s =>
    if s.dev.reel.snapRoot && s.dev.reel.snap == 1 && s.dev.snapDrained then
      (s.mapDev fun d => (d.mapReel fun r => { r with snap := 2 }).toChildren .taken).endLong 0x42
    else s) s

/-- RESUME: exactly the contexts that the snapshot froze open again. -/
def execResume (sid : Nat) (s : State) : Out :=
  onState (mgmt 0x43 sid false fun s =>
    if s.dev.reel.snapRoot && s.dev.reel.snap == 2 then done (s.mapDev Device.snapResume) else .error .state) s

/-- REEL_RESET: the reset goes down the tree, and this module resets without waiting (R307). -/
def execReelReset (sid : Nat) (s : State) : Out :=
  onState (mgmt 0x44 sid false fun s => done (warmReset (s.mapDev fun d => d.toChildren .reset))) s

end Sys2Proof.Machine
end

