-- ==== Sys2Proof/Machine/Contexts.lean ====
section
/-! DEFINITION. Contexts, their translation, their teardown, HDM bindings and grants (R20, R247, R319, R326 to R336). -/

namespace Sys2Proof.Machine

/-! ### Mastiff's free pool (R330) -/

/-- Lines of a 64 KiB page. -/
def linesOfPage (page : Nat) : List Nat := (List.range 512).map fun i => 512 * page + i

/-- Pages are zeroed under the internal key and go back to the free pool (R330, R332, R336). -/
def Mem.scrubPages (m : Mem) (ps : List Nat) : Mem :=
  ps.foldl (fun m p =>
    let m1 := m.scrubLines (linesOfPage p)
    { m1 with pages := FMap.set 0 m1.pages p 0, scrubQ := FMap.set false m1.scrubQ p false }) m

/-- Is the unit of device memory in Mastiff's free pool: it exists, no context owns it, no read translated through an old mapping
is out on it, and it is not set aside for the stash (R131, R330, R332; log 92)? -/
def Device.poolFree (d : Device) (u : Nat) : Bool :=
  decide (65536 * (u + 1) ≤ Config.dramBytes) && FMap.get 0 d.mem.pages u == 0 && !(d.mem.misses.any fun m => m.line / 512 == u) &&
    decide (stackOffset (65536 * u + 65535) < (Config.stackGib - d.mem.poolGib) * 2 ^ 30)

/-- Units of 64 KiB of device memory (R122, R328). -/
def poolUnits : Nat := Config.dramBytes / 65536

/-- The first free unit among `n` from `u` on, round the address space. -/
def Device.freeFrom (d : Device) : Nat → Nat → Option Nat
  | 0, _ => none
  | n + 1, u => if d.poolFree u then some u else d.freeFrom n ((u + 1) % poolUnits)

/-- Device memory for a translation table of a context: a unit that Mastiff takes from the pool, which one is free; it leaves the pool,
its scrub has run, and its owner's teardown scrubs it (R328, R330, R336; log 11). -/
def Device.allocTable (d : Device) (c : Nat) : Option (Nat × Device) :=
  (d.freeFrom poolUnits ((Config.freeTable d.freeCtr).toNat % poolUnits)).map fun u =>
    (u, { d with
      freeCtr := d.freeCtr + 1
      mem := let m := if FMap.get false d.mem.scrubQ u then d.mem.scrubPages [u] else d.mem
        { m with pages := FMap.set 0 m.pages u (c + 1) } })

/-! ### States (R327) -/

/-- Does the index name an existing slice of a kind? -/
def Device.sliceIs (d : Device) (reserved : Bool) (i : Nat) : Bool :=
  decide (i < Config.sliceCount) && (d.slice i).exists? && (d.slice i).reserved == reserved

/-- A context as CTX_CREATE makes it: new keys, an empty root, the seed given or drawn (R327, R334). -/
def newCtx (d : Device) (home : Nat) (resv : Option Nat) (seed : Option Dword) : Ctx :=
  { Ctx.free with
    st := .frozen, home := home, resv := resv
    seed := seed.getD (Config.freeSeed d.freeCtr), key := some d.mem.nextKey }

/-- Every counter of a context is 0 (R424). -/
def Device.zeroCounters (d : Device) (c : Nat) : Device :=
  (List.range 141).foldl (fun d n => d.setCounter c n 0) d

/-- CTX_CREATE. -/
def ctxCreate (ctx : Nat) (home resv : Option Nat) (seed : Option Dword) (s : State) :
    Except MgmtCode (State × MgmtData) :=
  let d := s.dev
  if decide (ctx < Config.contextCount) && (d.ctx ctx).st != .free then .error .state
  else
    match home with
    | none => .error .invalid
    | some h =>
      if decide (Config.contextCount ≤ ctx) || !d.sliceIs false h || !(resv.all (d.sliceIs true)) then .error .invalid
      else
        match d.allocTable ctx with
        | none => .error .resource
        | some (u, d0) =>
          let x := { newCtx d h resv seed with root := BitVec.ofNat 36 u }
          done { s with dev := ((d0.setCtx ctx x).zeroCounters ctx).mapMem fun m => { m with nextKey := m.nextKey + 1 } }

/-- CTX_CREATE. -/
def execCtxCreate (sid ctx : Nat) (home resv : Option Nat) (seed : Option Dword) (s : State) : Out :=
  onState (mgmt 0x01 sid false (ctxCreate ctx home resv seed)) s

/-- A transition of the gate from one state to another (R327). -/
def gateMove (ctx : Nat) (a b : CtxState) (s : State) : Except MgmtCode (State × MgmtData) :=
  if (s.dev.ctx ctx).st = a then done (s.mapDev fun d => d.updCtx ctx fun x => { x with st := b }) else .error .state

/-- CTX_OPEN. -/
def execCtxOpen (sid ctx : Nat) (s : State) : Out := onState (mgmt 0x02 sid false (gateMove ctx .frozen .opened)) s

/-- CTX_FREEZE: dispatch stops, and what is dispatched goes on (R20). -/
def execCtxFreeze (sid ctx : Nat) (s : State) : Out := onState (mgmt 0x03 sid false (gateMove ctx .opened .frozen)) s

/-- Kills a context by management, where it is OPEN or FROZEN (R277, R344). -/
def State.killCtx (s : State) (c : Nat) : State := s.mapDev fun d => d.killByMgmt s.plat c

/-- CTX_KILL. -/
def ctxKill (ctx : Nat) (s : State) : Except MgmtCode (State × MgmtData) :=
  let st := (s.dev.ctx ctx).st
  if st = .opened ∨ st = .frozen then done (s.killCtx ctx) else .error .state

/-- CTX_KILL. -/
def execCtxKill (sid ctx : Nat) (s : State) : Out := onState (mgmt 0x04 sid false (ctxKill ctx)) s

/-- Is a leaf a mapping of a local page that a context owns (R329)? -/
def leafOf (e owner : Nat) : Bool := pteV e && pteLeaf e && pteKind e == 0 && bitsOf e 63 52 == owner

/-- Does a context own a page that is shared into another (R333)? -/
def Device.sharesOut (d : Device) (c : Nat) (pred : Nat → Bool) : Bool :=
  d.hub.ctxs.any fun e => e.1 != c && e.2.pt.any fun x => leafOf x.2.toNat c && pred (bitsOf x.2.toNat 51 16)

/-- CTX_DESTROY: the context is killed where it lives, and its teardown waits for its last record (R333, R336). -/
def ctxDestroy (ctx : Nat) (s : State) : Except MgmtCode (State × MgmtData) :=
  let st := (s.dev.ctx ctx).st
  if !(st == .opened || st == .frozen || st == .killed) || s.dev.sharesOut ctx (fun _ => true) then .error .state
  else
    let s1 := if st = .killed then s else s.killCtx ctx
    done (s1.mapDev fun d => d.updCtx ctx fun x => { x with st := .teardown, step := 1 })

/-- CTX_DESTROY. -/
def execCtxDestroy (sid ctx : Nat) (s : State) : Out := onState (mgmt 0x05 sid false (ctxDestroy ctx)) s

/-! ### Teardown (R336) -/

/-- Step 4: bindings, grants, group entries, translations and stash entries are released. -/
def Device.release (d : Device) (c : Nat) : Device :=
  let d1 := d.mapHub fun h => { h with
    windows := h.windows.filter fun w => (w.2.map Prod.fst) != some c
    xlats := h.xlats.filter fun x => x.ctx != c }
  let d2 := d1.mapReel fun r => { r with groups := r.groups.map fun g =>
    (g.1, if g.2.owner.toNat = c then { g.2.fresh with en := false, gst := if g.2.gst = .down then .down else .idle } else g.2) }
  (d2.updCtx c fun x => { x with grants := [] }).dropSegs c fun _ => true

/-- TEARDOWN_RECORDS_DRAINED: the last record is written: the keys go (steps 2 to 5). -/
def teardownRecordsDrained (c : Nat) (d : Device) : Device :=
  let x := d.ctx c
  if x.st = .teardown && x.step == 1 && d.window c == 0 then
    (d.release c).updCtx c fun x => { x with key := none, step := 2 }
  else d

/-- TEARDOWN_RECORDS_DRAINED. -/
def execTeardownRecordsDrained (ctx : Nat) (s : State) : Out := onDev (fun _ d => teardownRecordsDrained ctx d) s

/-- TEARDOWN_SCRUB_DONE: the granules are zeroed and free, the rings take their reset configuration, the weight sets of
the context's pages leave the directory, and the context is FREE (R336, R405, R433). -/
def teardownScrubDone (c : Nat) (s : State) : State :=
  let x := s.dev.ctx c
  if x.st = .teardown && x.step == 2 then
    let mine := (s.dev.mem.pages.filter fun p => p.2 == c + 1).map Prod.fst
    let s1 := s.mapDev fun d =>
      let d1 := d.mapMem fun m => m.scrubPages mine
      let d2 := (d1.setRing c Ring.reset).mapUps fun u => { u with dir := u.dir.filter fun w => w.owner != c }
      d2.setCtx c { Ctx.free with fault := x.fault }
    s1.endLong 0x05
  else s

/-- TEARDOWN_SCRUB_DONE. -/
def execTeardownScrubDone (ctx : Nat) (s : State) : Out := onState (teardownScrubDone ctx) s

/-! ### Fields (R326) -/

/-- May the field change in the state it is in? -/
def fieldOpen (d : Device) (c : Nat) (f : CtxField) : Bool :=
  let still := (d.ctx c).st == .frozen && !(d.hub.items.any fun i => i.ctx == c && i.phase != .fetched)
  match f with
  | .classes _ => (d.ctx c).st != .free
  | .pinRight _ => (d.ctx c).st != .free
  | .portMask _ => (d.ctx c).st != .free
  | .stashQuota _ => (d.ctx c).st != .free
  | _ => still

/-- Is the value one the field can hold (R281, R326)? -/
def fieldOk (d : Device) (f : CtxField) : Bool :=
  match f with
  | .homeSlice i => d.sliceIs false i
  | .resvSlice i => i.all (d.sliceIs true)
  | .stashQuota n => decide (n < 2 ^ 29)
  | .stashPolicy p => decide (p ≤ 2)
  | .ovf b n => decide (b < 2 ^ 52 ∧ n < 2 ^ 52 ∧ b % 2 ^ 21 = 0 ∧ n % 2 ^ 21 = 0)
  | _ => true

/-- The entry with the field changed. -/
def Ctx.put (x : Ctx) (f : CtxField) : Ctx :=
  match f with
  | .homeSlice i => { x with home := i }
  | .resvSlice i => { x with resv := i }
  | .classes m => { x with classes := m }
  | .pinRight b => { x with pinRight := b }
  | .portMask m => { x with portMask := m }
  | .stashQuota n => { x with quota := n }
  | .stashPolicy p => { x with policy := p }
  | .ovf b n => { x with ovfBase := b, ovfSize := n }
  | .seed v => { x with seed := v }

/-- Items not yet dispatched follow the slices the entry names (R11). -/
def Device.reslice (d : Device) (c : Nat) : Device :=
  d.mapHub fun h => { h with items := h.items.map fun i =>
    if i.ctx == c && i.phase == .fetched then { i with slice := (d.ctx c).sliceFor i.cls } else i }

/-- CTX_SET. -/
def ctxSet (ctx : Nat) (f : CtxField) (s : State) : Except MgmtCode (State × MgmtData) :=
  if !fieldOpen s.dev ctx f then .error .state
  else if !fieldOk s.dev f then .error .invalid
  else done (s.mapDev fun d => (d.updCtx ctx fun x => x.put f).reslice ctx)

/-- CTX_SET. -/
def execCtxSet (sid ctx : Nat) (field : CtxField) (s : State) : Out := onState (mgmt 0x06 sid false (ctxSet ctx field)) s

/-! ### Mapping (R328 to R333) -/

/-- Is the context one whose space management may change? -/
def Ctx.live (x : Ctx) : Bool := x.st == .frozen || x.st == .opened || x.st == .killed

/-- A pointer entry to the table in a unit (R329). -/
def pointerEntry (u : Nat) : Dword := BitVec.ofNat 64 (1 + u * 2 ^ 16 % 2 ^ 52)

/-- Sets a pointer entry where none is valid; none where the pool has no unit for the table. -/
def Device.needTable (d : Device) (c lvl shift va : Nat) : Option Device :=
  if pteV (pte (d.ctx c) lvl shift va) then some d
  else (d.allocTable c).map fun t => t.2.updCtx c fun x =>
    { x with pt := FMap.set 0 x.pt (ptKey lvl (va / 2 ^ shift)) (pointerEntry t.1) }

/-- Puts a leaf, with the tables above it (R328). -/
def Device.putLeaf (d : Device) (c : Nat) (big : Bool) (va : Nat) (e : Dword) : Option Device := do
  let d1 ← d.needTable c 0 39 va
  let d2 ← d1.needTable c 1 30 va
  if big then pure (d2.updCtx c fun x => { x with pt := FMap.set 0 x.pt (ptKey 2 (va / 2 ^ 21)) e })
  else do
    let d3 ← d2.needTable c 2 21 va
    pure (d3.updCtx c fun x => { x with pt := FMap.set 0 x.pt (ptKey 3 (va / 2 ^ 16)) e })

/-- Takes a leaf away. -/
def Ctx.dropLeaf (x : Ctx) (shift va : Nat) : Ctx :=
  { x with pt := FMap.set 0 x.pt (ptKey (if shift = 21 then 2 else 3) (va / 2 ^ shift)) 0 }

/-- The leaf that maps a page (R329). -/
def leafEntry (c : Nat) (p : MapPage) : Dword :=
  let low := 3 + 4 * bit p.r + 8 * bit p.w
  BitVec.ofNat 64 (match p.kind with
    | .localMem => low + p.phys * 2 ^ 16 + c * 2 ^ 52
    | .hostMem => low + 16 + p.phys * 2 ^ 16
    | .peer => low + 32 + p.node * 2 ^ 6 + p.rctx * 2 ^ 18 + p.rva / 2 ^ 16 * 2 ^ 30)

/-- The 64 KiB units of a page. -/
def pageUnits (p : MapPage) : List Nat := if p.big then (List.range 32).map fun i => p.phys + i else [p.phys]

/-- Is the page's form one that a leaf can hold (R328 to R330)? -/
def pageOk (p : MapPage) : Bool :=
  decide (p.va < 2 ^ 52 ∧ p.va % (if p.big then 2 ^ 21 else 2 ^ 16) = 0) && (p.r || !p.w) &&
    decide (p.phys < 2 ^ 36 ∧ p.phys % (if p.big then 32 else 1) = 0) &&
    (p.kind != .peer || !p.big && decide (p.node < 4096 ∧ p.rctx < 4096 ∧ p.rva < 2 ^ 50 ∧ p.rva % 2 ^ 16 = 0))

/-- Is nothing mapped where the page would stand? -/
def Ctx.vacant (x : Ctx) (p : MapPage) : Bool :=
  if p.big then !pteV (pte x 2 21 p.va) || (!pteLeaf (pte x 2 21 p.va) &&
    (List.range 32).all fun i => !pteV (pte x 3 16 (p.va + 65536 * i)))
  else !pteV (pte x 3 16 p.va) && !(pteV (pte x 2 21 p.va) && pteLeaf (pte x 2 21 p.va))

/-- Maps one page; a scrub that waits for its granules has run before they are taken (R330). -/
def mapOne (c : Nat) (d : Device) (p : MapPage) : Except MgmtCode Device :=
  if !pageOk p || !(d.ctx c).vacant p then .error .invalid
  else if p.kind == .localMem && !((pageUnits p).all d.poolFree) then .error .resource
  else
    let d1 := if p.kind = .localMem then
        d.mapMem fun m =>
          let m1 := m.scrubPages ((pageUnits p).filter fun u => FMap.get false m.scrubQ u)
          { m1 with pages := (pageUnits p).foldl (fun t u => FMap.set 0 t u (c + 1)) m1.pages }
      else d
    match d1.putLeaf c p.big p.va (leafEntry c p) with
    | none => .error .resource
    | some d2 => .ok d2

/-- Maps pages one after another. -/
def mapPages (c : Nat) : List MapPage → Device → Except MgmtCode Device
  | [], d => .ok d
  | p :: ps, d =>
    match mapOne c d p with
    | .error e => .error e
    | .ok d1 => mapPages c ps d1

/-- MAP: whole or not at all. -/
def mapCmd (ctx : Nat) (pages : List MapPage) (s : State) : Except MgmtCode (State × MgmtData) :=
  if !(s.dev.ctx ctx).live then .error .state
  else match mapPages ctx pages s.dev with
    | .error e => .error e
    | .ok d => done { s with dev := d }

/-- MAP. -/
def execMap (sid ctx : Nat) (pages : List MapPage) (s : State) : Out := onState (mgmt 0x10 sid false (mapCmd ctx pages)) s

/-- The units of device memory a leaf maps. -/
def leafUnits (e shift : Nat) : List Nat :=
  if shift = 21 then (List.range 32).map fun i => bitsOf e 51 16 + i else [bitsOf e 51 16]

/-- Lines of device units leave the cores' data caches, written back: what was stored through a mapping that goes has reached memory
before the granules are scrubbed (R332). -/
def Device.leavePages (d : Device) (us : List Nat) : Device :=
  let on := fun (x : CLine) => match x.at_ with
    | .dev a => us.contains (a / 65536)
    | _ => false
  d.collie.cores.foldl (fun d e =>
    let r := d.cleanLines (e.1 / 16) (e.1 % 16) on
    ((Device.loseWrites r).unused (e.1 / 16) ((r.1.core (e.1 / 16) (e.1 % 16)).lines.filter on)).updCore (e.1 / 16) (e.1 % 16) fun k =>
      { k with lines := k.lines.filter fun x => !on x }) d

/-- UNMAP: the page leaves the space; a local page's granules go to the scrub queue. Not done for a page still shared
out, nor for one that another context owns (R332, R333). -/
def unmap (ctx va : Nat) (s : State) : Except MgmtCode (State × MgmtData) :=
  let x := s.dev.ctx ctx
  if !x.live then .error .state
  else match walk x va with
    | none => .error .invalid
    | some (e, sh) =>
      let mine := leafOf e ctx
      if pteKind e == 0 && !mine then .error .invalid
      else if mine && s.dev.sharesOut ctx (fun p => (leafUnits e sh).contains p) then .error .state
      else
        let d1 := s.dev.updCtx ctx fun x => x.dropLeaf sh va
        let d2 := if mine then (d1.leavePages (leafUnits e sh)).mapMem fun m => { m with
              pages := (leafUnits e sh).foldl (fun t u => FMap.set 0 t u 0) m.pages
              scrubQ := (leafUnits e sh).foldl (fun t u => FMap.set false t u true) m.scrubQ }
          else d1
        done { s with dev := d2 }

/-- UNMAP. -/
def execUnmap (sid ctx va : Nat) (s : State) : Out := onState (mgmt 0x11 sid false (unmap ctx va)) s

/-- SHARE: a page of its owner appears in another context with rights no wider (R333). -/
def share (owner va ctx toVa : Nat) (r w : Bool) (s : State) : Except MgmtCode (State × MgmtData) :=
  let a := s.dev.ctx owner
  let b := s.dev.ctx ctx
  if !a.live || !b.live then .error .state
  else match walk a va with
    | none => .error .invalid
    | some (e, sh) =>
      let p : MapPage := ⟨toVa, sh == 21, .localMem, r, w, bitsOf e 51 16, 0, 0, 0⟩
      if owner == ctx || !leafOf e owner || (r && !leafGrants e .read) || (w && !leafGrants e .write) || !pageOk p ||
          !b.vacant p then .error .invalid
      else match s.dev.putLeaf ctx p.big toVa (leafEntry owner p) with
        | none => .error .resource
        | some d => done { s with dev := d }

/-- SHARE. -/
def execShare (sid owner va ctx toVa : Nat) (r w : Bool) (s : State) : Out :=
  onState (mgmt 0x12 sid false (share owner va ctx toVa r w)) s

/-- UNSHARE. -/
def unshare (ctx va : Nat) (s : State) : Except MgmtCode (State × MgmtData) :=
  let x := s.dev.ctx ctx
  if !x.live then .error .state
  else match walk x va with
    | none => .error .invalid
    | some (e, sh) =>
      if pteKind e != 0 || leafOf e ctx then .error .invalid
      else done (s.mapDev fun d => d.updCtx ctx fun x => x.dropLeaf sh va)

/-- UNSHARE. -/
def execUnshare (sid ctx va : Nat) (s : State) : Out := onState (mgmt 0x13 sid false (unshare ctx va)) s

/-- HDM_BIND: binds a window to a context and a virtual base, or unbinds it (R247). -/
def hdmBind (window : Nat) (ctx : Option Nat) (base : Nat) (s : State) : Except MgmtCode (State × MgmtData) :=
  match ctx with
  | none =>
    if 64 ≤ window then .error .invalid
    else done (s.mapDev fun d => d.mapHub fun h => { h with windows := FMap.set none h.windows window none })
  | some c =>
    if !(s.dev.ctx c).live then .error .state
    else if 64 ≤ window ∨ 2 ^ 52 ≤ base then .error .invalid
    else done (s.mapDev fun d => d.mapHub fun h => { h with windows := FMap.set none h.windows window (some (c, base)) })

/-- HDM_BIND. -/
def execHdmBind (sid window : Nat) (ctx : Option Nat) (base : Nat) (s : State) : Out :=
  onState (mgmt 0x14 sid false (hdmBind window ctx base)) s

/-- GRANT: adds a peer grant, in place of one for the same source, or revokes it (R319, R326). -/
def grantCmd (ctx : Nat) (g : PeerGrant) (revoke : Bool) (s : State) : Except MgmtCode (State × MgmtData) :=
  let x := s.dev.ctx ctx
  let others := x.grants.filter fun y => !(y.node == g.node && y.ctx == g.ctx)
  if x.st = .free then .error .state
  else if 4096 ≤ g.node ∨ 4096 ≤ g.ctx then .error .invalid
  else if revoke then
    (if others.length = x.grants.length then .error .invalid
      else done (s.mapDev fun d => d.updCtx ctx fun x => { x with grants := others }))
  else if 64 ≤ others.length then .error .resource
  else done (s.mapDev fun d => d.updCtx ctx fun x => { x with grants := others ++ [g] })

/-- GRANT. -/
def execGrant (sid ctx : Nat) (g : PeerGrant) (revoke : Bool) (s : State) : Out :=
  onState (mgmt 0x15 sid false (grantCmd ctx g revoke)) s

end Sys2Proof.Machine
end

