-- ==== Sys2Proof/Machine/Thread.lean ====
section
/-! DEFINITION. JKF MEM, ATOM and SYNC instructions: the accesses of a pack's threads (R166 to R168, R176 to R178, R195,
R209 to R216, R232, R233, R249, R319). -/

namespace Sys2Proof.Machine

/-! ### Addresses (R195) -/

/-- Registers an address operand takes: a pair in global space, one elsewhere (log 35). -/
def addrRegs (space : Nat) : Nat := if space = 0 then 2 else 1

/-- The signed offset of a MEM instruction: the immediate word where there is one. -/
def memOffset (i : Issue) (b : MemBody) : Int :=
  match i.imm with
  | some v => v.toInt
  | none => b.off.toInt

/-- The address lane `l` forms: modulo 2^64 in global space, an integer elsewhere. -/
def memAddr (i : Issue) (b : MemBody) (x : Pack) (l : Nat) : Int :=
  let base := x.read i.imm l b.addr (addrRegs b.space.toNat)
  if b.space = 0 then (base + BitVec.ofInt 64 (memOffset i b)).toNat else base.toNat + memOffset i b

/-! ### Lines an instruction touches (R168, R225, R233, R234, R238, R243) -/

/-- How far a core went for a line: its data cache, the die cache, memory. -/
inductive Went where
  | near | die | far
  deriving DecidableEq, Repr

/-- The number of a line in a miss register. -/
def lineNo : Place → Nat
  | .dev a => a / 128
  | .host a => hostLineBase + a / 128
  | .peer _ _ _ => 0

/-- Places of accesses, one for each line. -/
def distinctLines (ps : List (Place × Nat × Nat)) : List (Place × Nat × Nat) :=
  ps.foldl (fun t p => if t.any (fun q => q.1 == linePlace p.1 && q.2.1 == p.2.1) then t
    else t ++ [(linePlace p.1, p.2.1, p.2.2)]) []

/-- A core's use of one line of device or host memory: in its data cache, or through the die's cache, from where its data cache
takes it; the cause where it must stall instead. -/
def Device.touchLine (d : Device) (k : KBlock) (pk : Nat) (reads : Bool) (p : Place × Nat × Nat) :
    Except Nat (Device × Went) :=
  let w : Waiter := ⟨k.ctx, k.seq, p.2.2, some pk⟩
  match (d.core k.die k.core).line p.1 p.2.1 with
  | some y =>
    .ok (match y.pref with
      | none => d
      | some c =>
        let d1 := d.prefUsed k.die (lineNo p.1) c
        (if reads then d1.deadRead k.ctx (lineNo p.1) else d1).follow k.die (16 + k.core) 4 p.2.1 w (lineNo p.1), .near)
  | none =>
    match d.demand k.die (16 + k.core) 4 p.2.1 w (lineNo p.1) reads with
    | .error code => .error code
    | .ok (d1, hit) =>
      .ok (match d1.fetchCoreLine p.1 p.2.1 p.2.2 with
        | some y => Device.loseWrites (d1.installCore k.die k.core y)
        | none => d1, if hit then .die else .far)

/-- The farther of two ways. -/
def Went.max (a b : Went) : Went := if a = .far ∨ b = .far then .far else if a = .die ∨ b = .die then .die else .near

/-- A core's use of the lines of one instruction; the first cause that stops it, the requests for its other lines being out
(R234 to R237). -/
def Device.touchLines (d : Device) (k : KBlock) (pk : Nat) (reads : Bool) (ps : List (Place × Nat × Nat)) :
    Device × Went × Option Nat :=
  (distinctLines ps).foldl (fun r p =>
    match r.1.touchLine k pk reads p with
    | .error code => (r.1, r.2.1, r.2.2.or (some code))
    | .ok (d1, w) => (d1, r.2.1.max w, r.2.2)) (d, .near, none)

/-- A line that a store covers whole needs nothing from memory: the core's data cache has it from now on (R225). -/
def Device.ownLine (d : Device) (k : KBlock) (p : Place × Nat × Nat) : Device :=
  if ((d.core k.die k.core).line p.1 p.2.1).isSome then d
  else Device.loseWrites (d.installCore k.die k.core
    ⟨linePlace p.1, p.2.1, p.2.2 / 128 * 128, List.replicate 128 0, List.replicate 128 false, [], none⟩)

/-- Do accesses of `n` bytes cover the line of a place? -/
def coversLine (n : Nat) (ps : List (Place × Nat × Nat)) (p : Place × Nat × Nat) : Bool :=
  (List.range (128 / n)).all fun i => ps.any fun q =>
    linePlace q.1 == linePlace p.1 && q.2.1 == p.2.1 && q.2.2 % 128 == n * i

/-- The die caches' part of atomics of block and pack scope: a line that is not there is asked for, once for a pack; the first cause
that stops one, the other requests being out (R234 to R237). -/
def Device.touchDie (d : Device) (k : KBlock) (pk : Nat) (ps : List (Place × Nat × Nat)) : Device × Went × Option Nat :=
  (distinctLines ps).foldl (fun r p =>
    let asked := r.1.mem.misses.any fun m => m.die == k.die && m.line == lineNo p.1 && m.waiters.any fun w => w.pack == some pk
    if asked then (r.1, .far, r.2.2)
    else match r.1.demand k.die (16 + k.core) 4 p.2.1 ⟨k.ctx, k.seq, p.2.2, some pk⟩ (lineNo p.1) true with
      | .error code => (r.1, r.2.1, r.2.2.or (some code))
      | .ok (d1, hit) => (d1, r.2.1.max (if hit then .die else .far), r.2.2)) (d, .near, none)

/-- Places of partner memory are not in a die's cache (R211). -/
def Place.away : Place → Bool
  | .peer _ _ _ => true
  | _ => false

/-- The pack after its access: it leaves the active set on a data-cache miss, and waits for memory (R166). -/
def Device.settlePack (d : Device) (p : Nat) (w : Went) : Device :=
  match w with
  | .near => d
  | .die => d.parkPack p none
  | .far => d.parkPack p (some .miss)

/-- An instruction that lacks a slot for a line stalls, and is issued again (R234 to R237). -/
def Device.stalled (d : Device) (k : KBlock) (code : Nat) : Device := d.chargeStall k.ctx k.die (16 + k.core) code 1

/-! ### Lane accesses -/

/-- The place of a lane's global access of `n` bytes, aligned and granted (R183, R195, R331); whether its port is up shows when
a request leaves (R318, R319). -/
def Device.lanePlace (d : Device) (c : Nat) (va : Int) (n : Nat) (a : Acc) : Except MemErr (Nat × Place × Nat) :=
  let v := va.toNat
  if v ≥ 2 ^ 52 then .error (.fault .translation v)
  else if v % n ≠ 0 then .error (.fault .misaligned v)
  else match translate d c v a with
    | .error e => .error e
    | .ok (pl, key) => .ok (v, pl, key)

/-- Checks of an access to block memory or the constant pool: natural alignment, and within `len` bytes (R183, R195;
log 35). Of an access that is both misaligned and out of range the misalignment is reported (DESIGN CHOICE, log 101). -/
def innerAddr (va : Int) (n len : Nat) : Except MemErr Nat :=
  if va < 0 then .error (.fault .translation (BitVec.ofInt 64 va).toNat)
  else if va.toNat % n ≠ 0 then .error (.fault .misaligned va.toNat)
  else if va.toNat + n ≤ len then .ok va.toNat
  else .error (.fault .translation va.toNat)

/-- Bytes of block memory. -/
def KBlock.bytes (k : KBlock) (a n : Nat) : List Byte := (List.range n).map fun i => FMap.get 0 k.mem (a + i)

/-- Bytes written to block memory. -/
def KBlock.put (k : KBlock) (a : Nat) (bs : List Byte) : KBlock :=
  { k with mem := bs.zipIdx.foldl (fun m e => FMap.set 0 m (a + e.2) e.1) k.mem }

/-- Does a thread's access raise a context fault? -/
def faults {α : Type} : Except MemErr α → Bool
  | .error (.fault _ _) => true
  | _ => false

/-- Runs a step for each lane, ascending; the first lane that fails ends the instruction, with the number of others that fault
(R342). -/
def eachLane {α β : Type} (f : β → Nat → Except MemErr (α × β)) :
    List Nat → β → Except (MemErr × Nat × Nat) (List (Nat × α) × β)
  | [], s => .ok ([], s)
  | l :: ls, s =>
    match f s l with
    | .error e => .error (e, l, (ls.filter fun l => faults (f s l)).length)
    | .ok (x, s1) =>
      match eachLane f ls s1 with
      | .error e => .error e
      | .ok (xs, s2) => .ok ((l, x) :: xs, s2)

/-! ### LD and ST (R195, R197, R209) -/

/-- Formats of LD and ST. -/
def memFmts : List Nat := [0x01, 0x02, 0x0F, 0x03, 0x04, 0x07, 0x08, 0x10]

/-- Bytes of an access. -/
def memBytes (fmt : Nat) : Nat := fmtBits fmt / 8

/-- Registers of the data operand. -/
def memRegs (fmt : Nat) : Nat := if fmt = 0x0F then 2 else if fmt = 0x10 then 4 else 1

/-- Operand fields of LD and ST. -/
def memFields (load : Bool) (i : Issue) (b : MemBody) : Operands :=
  let data := (b.data, memRegs b.fmt.toNat)
  let addr := (b.addr, addrRegs b.space.toNat)
  if load then ⟨some data, [addr], [], false, i.imm.isSome⟩ else ⟨none, [data, addr], [], false, i.imm.isSome⟩

/-- Is LD or ST legal? With an immediate word the offset field is 0. -/
def memOk (load : Bool) (tregs : Nat) (i : Issue) (b : MemBody) : Bool :=
  memFmts.contains b.fmt.toNat && b.space != 3 && (i.imm.isNone || b.off == 0) && (memFields load i b).ok tregs i

/-- The words a loaded value puts into its registers: narrow values have zeros above, INT8 its sign (log 37). -/
def loadWords (fmt : Nat) (bs : List Byte) : List Word :=
  if fmt = 0x07 then [(BitVec.ofNat 8 (leNat bs)).signExtend 32]
  else (List.range (memRegs fmt)).map fun j => BitVec.ofNat 32 (field bs (4 * j) 4)

/-- Writes the words of a destination. -/
def Pack.writeWords (p : Pack) (l : Nat) (s : BitVec 8) (ws : List Word) : Pack :=
  ws.zipIdx.foldl (fun p e => p.putWord l s e.2 e.1) p

/-- The bytes a store takes from its data operand. -/
def storeBytes (i : Issue) (b : MemBody) (x : Pack) (l : Nat) : List Byte :=
  leBytes (memBytes b.fmt.toNat)
    (leNat ((List.range (memRegs b.fmt.toNat)).flatMap fun j => leBytes 4 (x.word i.imm l b.data j).toNat))

/-- A load of block memory or of the constant pool. -/
def innerLoad (i : Issue) (b : MemBody) (k : KBlock) (x : Pack) (ls : List Nat) (d : Device) : Ran :=
  let n := memBytes b.fmt.toNat
  let len := if b.space = 1 then k.memLen else k.consts.length
  let step := fun (_ : Unit) (l : Nat) =>
    match innerAddr (memAddr i b x l) n len with
    | .error e => .error e
    | .ok a => .ok (if b.space = 1 then k.bytes a n else (k.consts.drop a).take n, ())
  match eachLane step ls () with
  | .error (e, l, n) => .fail e l n
  | .ok (vs, _) =>
    .go (d.setPack i.pack (vs.foldl (fun y v => y.writeWords v.1 b.data (loadWords b.fmt.toNat v.2)) x))

/-- A lane's place of partner memory of which its core has no copy. -/
def Device.farLine (d : Device) (k : KBlock) (pl : Place) (key : Nat) : Bool :=
  pl.away && ((d.core k.die k.core).line pl key).isNone

/-- Asks the partner for the lines that lanes of a load lack, each once; the lane and the failure of one that cannot leave (R211,
R318, R319). A lane is given with its address, place and key. -/
def Device.askLines (k : KBlock) (p : Nat) : List (Nat × Nat × Place × Nat) → Device → Except (MemErr × Nat) Device
  | [], d => .ok d
  | (l, va, .peer nd rc rva, key) :: vs, d =>
    let same := fun (o : PeerOut) => match o.use with
      | .line q _ key' rc' rva' _ => q == p && o.node == nd && key' == key && rc' == rc && rva' == peerLine rva
      | _ => false
    if !d.farLine k (.peer nd rc rva) key || d.ports.out.any same then Device.askLines k p vs d
    else match d.peerGate k.ctx nd va with
      | .error e => .error (e, l)
      | .ok q =>
        Device.askLines k p vs (d.peerSend k.ctx k.seq q nd rc (peerLine rva) 128 (va / 128 * 128) (.read 128)
          (.line p l key rc (peerLine rva) true))
  | _ :: vs, d => Device.askLines k p vs d

/-- A load of global memory. Lines of partner memory that the core's data cache lacks are asked for, and the load is issued again
when they have come (R211, R319). -/
def globalLoad (i : Issue) (b : MemBody) (evicts : List Nat) (k : KBlock) (x : Pack) (ls : List Nat) (d0 : Device) : Ran :=
  let n := memBytes b.fmt.toNat
  let d := Device.loseWrites (d0.evictCore k.die k.core evicts)
  let step := fun (_ : Unit) (l : Nat) =>
    match d.lanePlace k.ctx (memAddr i b x l) n .read with
    | .error e => .error e
    | .ok (va, pl, key) =>
      if d.farLine k pl key then .ok (((va, pl, key), ([] : List Byte)), ())
      else match d.coreBytes k.die k.core ⟨k.ctx, k.seq, some k.die, none⟩ n va with
        | .error e => .error e
        | .ok bs => .ok (((va, pl, key), bs), ())
  match eachLane step ls () with
  | .error (e, l, n) => .fail e l n
  | .ok (vs, _) =>
    if vs.any fun v => d.farLine k v.2.1.2.1 v.2.1.2.2 then
      match Device.askLines k i.pack (vs.map fun v => (v.1, v.2.1)) d with
      | .error (e, l) => .fail e l
      | .ok d1 => .wait .memory d1
    else
      let ps := (vs.filter fun v => !v.2.1.2.1.away).map fun v => (v.2.1.2.1, v.2.1.2.2, v.2.1.1)
      match d.touchLines k i.pack true ps with
      | (d1, _, some code) => .hold (d1.stalled k code)
      | (d1, w, none) =>
        .go ((d1.setPack i.pack (vs.foldl (fun y v => y.writeWords v.1 b.data (loadWords b.fmt.toNat v.2.2)) x)).settlePack
          i.pack w)

/-- MEM_LD. -/
def memLoad (i : Issue) (b : MemBody) (evicts : List Nat) : Platform → Device → Device :=
  Device.runJkf i (fun k => memOk true k.tregs i b) fun k x d =>
    let ls := x.lanes (memFields true i b) i.guard
    if b.space = 0 then globalLoad i b evicts k x ls d else innerLoad i b k x ls d

/-- MEM_LD. -/
def execMemLd (i : Issue) (b : MemBody) (evicts : List Nat) (s : State) : Out := onCode (.memLd i b evicts) (memLoad i b evicts) s

/-- A store to block memory; of lanes that write one address the highest stands (R168). -/
def innerStore (i : Issue) (b : MemBody) (k : KBlock) (x : Pack) (ls : List Nat) (d : Device) : Ran :=
  let step := fun (y : KBlock) (l : Nat) =>
    match innerAddr (memAddr i b x l) (memBytes b.fmt.toNat) k.memLen with
    | .error e => .error e
    | .ok a => .ok ((), y.put a (storeBytes i b x l))
  match eachLane step ls k with
  | .error (e, l, n) => .fail e l n
  | .ok (_, y) => .go (d.updBlock (i.pack / 16) fun _ => y)

/-- A core's store into its data cache, or past it where a half of the line is uncorrectable (R125, R168). A store to partner
memory goes out at once, and into the core's copy of the line (R211, R319). -/
def Device.storeCore (d : Device) (k : KBlock) (p l va : Nat) (pl : Place) (key : Nat) (bs : List Byte) :
    Except MemErr Device :=
  match pl, (d.core k.die k.core).line pl key with
  | .peer nd rc rva, _ =>
    match d.peerGate k.ctx nd va with
    | .error e => .error e
    | .ok q =>
      .ok (((d.peerSend k.ctx k.seq q nd rc rva bs.length va (.write bs) (.packStore p l)).updCore k.die k.core fun t =>
        { t with lines := t.lines.map fun z =>
          if z.at_ == linePlace pl && z.key == key then { z with data := overlay (patchAt (va % 128) bs) z.data } else z }).unkeep
            k.die k.core fun n c a => n == nd && c == rc && a == peerLine rva)
  | _, some y =>
    .ok (d.updCore k.die k.core fun t => { t with lines := t.lines.map fun z =>
      if z.at_ == y.at_ && z.key == y.key then z.put k.ctx k.seq va bs else z })
  | _, none => d.writePlace ⟨k.ctx, k.seq, some k.die, none⟩ 4 va pl key bs

/-- A store to global memory. -/
def globalStore (i : Issue) (b : MemBody) (evicts : List Nat) (k : KBlock) (x : Pack) (ls : List Nat) (d0 : Device) :
    Ran :=
  let n := memBytes b.fmt.toNat
  let d := Device.loseWrites (d0.evictCore k.die k.core evicts)
  let place := fun (_ : Unit) (l : Nat) =>
    match d.lanePlace k.ctx (memAddr i b x l) n .write with
    | .error e => .error e
    | .ok v => .ok (v, ())
  match eachLane place ls () with
  | .error (e, l, n) => .fail e l n
  | .ok (vs, _) =>
    let all := (vs.filter fun v => !v.2.2.1.away).map fun v => (v.2.2.1, v.2.2.2, v.2.1)
    let ps := all.filter fun p => !coversLine n all p
    match ((distinctLines all).filter (coversLine n all)).foldl (fun d p => d.ownLine k p) d |>.touchLines k i.pack false ps with
    | (d1, _, some code) => .hold (d1.stalled k code)
    | (d1, w, none) =>
      let put := fun (d : Device) (l : Nat) =>
        match d.lanePlace k.ctx (memAddr i b x l) n .write with
        | .error e => .error e
        | .ok (va, pl, key) =>
          match d.storeCore k i.pack l va pl key (storeBytes i b x l) with
          | .error e => .error e
          | .ok d1 => .ok ((), d1)
      match eachLane put ls d1 with
      | .error (e, l, n) => .fail e l n
      | .ok (_, d2) => .go (d2.settlePack i.pack w)

/-- MEM_ST: a store to the constant pool raises PERMISSION (R195). -/
def memStore (i : Issue) (b : MemBody) (evicts : List Nat) : Platform → Device → Device :=
  Device.runJkf i (fun k => memOk false k.tregs i b) fun k x d =>
    let ls := x.lanes (memFields false i b) i.guard
    match b.space.toNat with
    | 0 => globalStore i b evicts k x ls d
    | 1 => innerStore i b k x ls d
    | _ =>
      match ls with
      | [] => .go d
      | l :: _ => .fail (.fault .permission (BitVec.ofInt 64 (memAddr i b x l)).toNat) l

/-- MEM_ST. -/
def execMemSt (i : Issue) (b : MemBody) (evicts : List Nat) (s : State) : Out := onCode (.memSt i b evicts) (memStore i b evicts) s

/-! ### DISCARD (R232, R233) -/

/-- Operand fields of DISCARD. -/
def discardFields (i : Issue) (b : MemBody) : Operands := ⟨none, [(b.addr, 2)], [b.data], false, i.imm.isSome⟩

/-- Is DISCARD legal? It names global memory; R197 gives it no fmt, and the field is not looked at. -/
def discardOk (tregs : Nat) (i : Issue) (b : MemBody) : Bool :=
  b.space == 0 && (i.imm.isNone || b.off == 0) && (discardFields i b).ok tregs i

/-- One line leaves the issuing core's data cache and every die cache; host and partner memory are left alone. -/
def Device.discardFrom (d : Device) (k : KBlock) (pl : Place) : Device :=
  match pl with
  | .dev a =>
    let gone := (d.core k.die k.core).lines.filter fun z => z.at_ == linePlace (.dev a)
    ((d.unused k.die gone).updCore k.die k.core fun t => { t with
      lines := t.lines.filter fun z => z.at_ != linePlace (.dev a) }).discardLine k.ctx (a / 128)
  | _ => d

/-- MEM_DISCARD: lanes that name one line discard it once. -/
def memDiscard (i : Issue) (b : MemBody) : Platform → Device → Device :=
  Device.runJkf i (fun k => discardOk k.tregs i b) fun k x d =>
    let ls := x.lanes (discardFields i b) i.guard
    let place := fun (_ : Unit) (l : Nat) =>
      match d.lanePlace k.ctx (memAddr i b x l) 128 .write with
      | .error e => .error e
      | .ok v => .ok (v, ())
    match eachLane place ls () with
    | .error (e, l, n) => .fail e l n
    | .ok (vs, _) =>
      .go ((distinctLines (vs.map fun v => (v.2.2.1, v.2.2.2, v.2.1))).foldl (fun d p => d.discardFrom k p.1) d)

/-- MEM_DISCARD. -/
def execMemDiscard (i : Issue) (b : MemBody) (s : State) : Out := onCode (.memDiscard i b) (memDiscard i b) s

/-! ### Atomics (R129, R176 to R178, R216) -/

/-- The operand type of an ATOM operation and a format; none where the table allows no such form (R197). -/
def atomTyOf (op : AtomOp) (fmt : Nat) : Option AtomTy :=
  match op, fmt with
  | .add, 0x00 => some .f32
  | .add, 0x01 => some .s32
  | .add, 0x02 => some .u32
  | .add, 0x0F => some .u64
  | .add, _ => none
  | .min, 0x00 => some .f32
  | .min, 0x01 => some .s32
  | .min, 0x02 => some .u32
  | .min, 0x0F => some .u64
  | .min, 0x11 => some .s64
  | .min, _ => none
  | .max, 0x00 => some .f32
  | .max, 0x01 => some .s32
  | .max, 0x02 => some .u32
  | .max, 0x0F => some .u64
  | .max, 0x11 => some .s64
  | .max, _ => none
  | _, 0x02 => some .b32
  | _, 0x0F => some .b64
  | _, _ => none

/-- Operand fields of an atomic: the compare value is CAS's alone. -/
def atomFields (op : AtomOp) (b : AtomBody) : Operands :=
  let n := if b.fmt = 0x0F ∨ b.fmt = 0x11 then 2 else 1
  let base := [(b.addr, addrRegs b.space.toNat), (b.opnd, n)]
  if op = .cas then ⟨some (b.dst, n), base ++ [(b.cmp, n)], [], false, false⟩
  else ⟨some (b.dst, n), base, [b.cmp], false, false⟩

/-- Is an atomic legal? -/
def atomOk (op : AtomOp) (tregs : Nat) (i : Issue) (b : AtomBody) : Bool :=
  (atomTyOf op b.fmt.toNat).isSome && (atomFields op b).ok tregs i

/-- Lanes grouped by address, groups in the order of their first lanes (R176). -/
def groupLanes (as : List (Nat × Nat)) : List (Nat × List Nat) :=
  as.foldl (fun gs e =>
    if gs.any fun g => g.1 == e.2 then gs.map fun g => if g.1 == e.2 then (g.1, g.2 ++ [e.1]) else g
    else gs ++ [(e.2, [e.1])]) []

/-- What an atomic leaves behind: the device, the old values of lanes, and whether a result is to come from a partner. -/
structure AtomRun where
  d    : Device
  olds : List (Nat × Dword)
  away : Bool

/-- One group at a location of block memory. -/
def KBlock.atom (k : KBlock) (op : AtomOp) (ty : AtomTy) (a : Nat) (ps : List (Dword × Dword)) : List Dword × KBlock :=
  let r := atomSteps op ty (BitVec.ofNat 64 (leNat (k.bytes a (atomBytes ty)))) ps
  (r.1, k.put a (leBytes (atomBytes ty) r.2.toNat))

/-- One group at a global location: where its scope and its place send it. The core's own copy of the line goes first
(R216; log 36). -/
def globalAtom (i : Issue) (b : AtomBody) (op : AtomOp) (ty : AtomTy) (k : KBlock) (r : AtomRun) (va : Nat)
    (ls : List Nat) (ps : List (Dword × Dword)) : Except MemErr AtomRun :=
  match r.d.lanePlace k.ctx va (atomBytes ty) .atomic with
  | .error e => .error e
  | .ok (_, .peer nd rc rva, pk) =>
    match r.d.peerGate k.ctx nd va with
    | .error e => .error e
    | .ok q =>
      let d0 := ((r.d.dropCoreLine k.die k.core (.peer nd rc rva) pk).1).unkeep k.die k.core fun n c a =>
        n == nd && c == rc && a == peerLine rva
      .ok ⟨d0.peerSend k.ctx k.seq q nd rc rva (atomBytes ty) va (.atomic op ty (ps.map Prod.fst) (ps.map Prod.snd))
        (.atom i.pack ls b.dst b.fmt), r.olds, true⟩
  | .ok (_, .host a, key) =>
    let d1 := Device.loseWrites (r.d.dropCoreLine k.die k.core (.host a) key)
    match d1.atomHost a op ty ps with
    | none => .error (.ecc va)
    | some (os, d2) => .ok ⟨d2, r.olds ++ ls.zip os, r.away⟩
  | .ok (_, .dev a, key) =>
    let d1 := Device.loseWrites (r.d.dropCoreLine k.die k.core (.dev a) key)
    let out := if b.scope.toNat ≤ 1 then d1.atomDie k.die key a op ty ps else (d1.pastCaches k.ctx (a / 128)).atomDev key a op ty ps
    match out with
    | none => .error (.ecc va)
    | some (os, d2) => .ok ⟨d2, r.olds ++ ls.zip os, r.away⟩

/-- Runs groups one after another; the lane that heads a failing group is the faulting one, with the number of others that fault
(R342). -/
def eachGroup (f : AtomRun → Nat × List Nat → Except MemErr AtomRun) :
    List (Nat × List Nat) → AtomRun → Except (MemErr × Nat × Nat) AtomRun
  | [], r => .ok r
  | g :: gs, r =>
    match f r g with
    | .error e => .error (e, g.2.headD 0, g.2.length - 1 + ((gs.filter fun h => faults (f r h)).map fun h => h.2.length).sum)
    | .ok r1 => eachGroup f gs r1

/-- Lanes that the coalescer merged: those of groups of two and more (R176, R187; log 38). -/
def merged (gs : List (Nat × List Nat)) : Nat := ((gs.filter fun g => decide (2 ≤ g.2.length)).map fun g => g.2.length).sum

/-- Operand and compare value of a lane. -/
def atomArgs (i : Issue) (b : AtomBody) (n : Nat) (x : Pack) (l : Nat) : Dword × Dword :=
  (x.read i.imm l b.opnd n, x.read i.imm l b.cmp n)

/-- Writes the old values that have come back. -/
def Pack.takeOlds (x : Pack) (dst : BitVec 8) (n : Nat) (olds : List (Nat × Dword)) : Pack :=
  olds.foldl (fun y o => y.write o.1 dst n o.2) x

/-- An atomic on block memory (R176, R195). -/
def innerAtomic (op : AtomOp) (ty : AtomTy) (i : Issue) (b : AtomBody) (k : KBlock) (x : Pack) (ls : List Nat)
    (d : Device) : Ran :=
  let n := if atomBytes ty = 8 then 2 else 1
  let addr := fun (_ : Unit) (l : Nat) =>
    match innerAddr (x.read i.imm l b.addr 1).toNat (atomBytes ty) k.memLen with
    | .error e => .error e
    | .ok a => .ok (a, ())
  match eachLane addr ls () with
  | .error (e, l, n) => .fail e l n
  | .ok (as, _) =>
    let gs := groupLanes as
    let (k1, olds) := gs.foldl (fun r g =>
      let (os, k1) := r.1.atom op ty g.1 (g.2.map (atomArgs i b n x))
      (k1, r.2 ++ g.2.zip os)) (k, [])
    .go (((d.updBlock (i.pack / 16) fun _ => k1).setPack i.pack (x.takeOlds b.dst n olds)).count k.ctx 82 (merged gs))

/-- An atomic on global memory: the pack waits outside the active set for its result (R166, R176). -/
def globalAtomic (op : AtomOp) (ty : AtomTy) (i : Issue) (b : AtomBody) (k : KBlock) (x : Pack) (ls : List Nat)
    (d : Device) : Ran :=
  let n := if atomBytes ty = 8 then 2 else 1
  let gs := groupLanes (ls.map fun l => (l, (x.read i.imm l b.addr 2).toNat))
  let near := gs.filterMap fun g => match d.lanePlace k.ctx g.1 (atomBytes ty) .atomic with
    | .ok (va, .dev a, key) => if b.scope.toNat ≤ 1 then some (Place.dev a, key, va) else none
    | _ => none
  match d.touchDie k i.pack near with
  | (d0, _, some code) => .hold (d0.stalled k code)
  | (d0, w, none) =>
    match eachGroup (fun r g => globalAtom i b op ty k r g.1 g.2 (g.2.map (atomArgs i b n x))) gs ⟨d0, [], false⟩ with
    | .error (e, l, n) => .fail e l n
    | .ok r =>
      let d1 := (r.d.setPack i.pack (x.takeOlds b.dst n r.olds)).count k.ctx 82 (merged gs)
      .go (if ls.isEmpty then d1 else d1.parkPack i.pack (if r.away then some .atomic else if w = .far then some .miss else none))

/-- Issues an atomic. -/
def atomic (op : AtomOp) (i : Issue) (b : AtomBody) : Platform → Device → Device :=
  Device.runJkf i (fun k => atomOk op k.tregs i b) fun k x d =>
    match atomTyOf op b.fmt.toNat with
    | none => .stall
    | some ty =>
      let ls := x.lanes (atomFields op b) i.guard
      if b.space = 1 then innerAtomic op ty i b k x ls d else globalAtomic op ty i b k x ls d

/-- ATOM_ADD. -/
def execAtomAdd (i : Issue) (b : AtomBody) (s : State) : Out := onCode (.atomAdd i b) (atomic .add i b) s
/-- ATOM_MIN. -/
def execAtomMin (i : Issue) (b : AtomBody) (s : State) : Out := onCode (.atomMin i b) (atomic .min i b) s
/-- ATOM_MAX. -/
def execAtomMax (i : Issue) (b : AtomBody) (s : State) : Out := onCode (.atomMax i b) (atomic .max i b) s
/-- ATOM_AND. -/
def execAtomAnd (i : Issue) (b : AtomBody) (s : State) : Out := onCode (.atomAnd i b) (atomic .and i b) s
/-- ATOM_OR. -/
def execAtomOr (i : Issue) (b : AtomBody) (s : State) : Out := onCode (.atomOr i b) (atomic .or i b) s
/-- ATOM_XOR. -/
def execAtomXor (i : Issue) (b : AtomBody) (s : State) : Out := onCode (.atomXor i b) (atomic .xor i b) s
/-- ATOM_XCHG. -/
def execAtomXchg (i : Issue) (b : AtomBody) (s : State) : Out := onCode (.atomXchg i b) (atomic .xchg i b) s
/-- ATOM_CAS. -/
def execAtomCas (i : Issue) (b : AtomBody) (s : State) : Out := onCode (.atomCas i b) (atomic .cas i b) s

/-! ### FENCE (R211, R213, R224) -/

/-- Does the fence release, does it acquire? -/
def kindReleases (k : BitVec 2) : Bool := k == 1 || k == 2
def kindAcquires (k : BitVec 2) : Bool := k == 0 || k == 2

/-- The caches' part of a fence of device scope or wider. -/
def fenceCaches (b : SyncBody) (k : KBlock) (d : Device) : Device × Lost :=
  if kindAcquires b.kind then d.acquireCore k.ctx k.die k.core else d.releaseCore k.ctx k.die k.core

/-- Writes of a pack to partner memory that no answer acknowledges yet (R211). -/
def Device.packWrites (d : Device) (p : Nat) : Bool :=
  d.ports.out.any fun o => o.write && match o.use with
    | .packStore q _ => q == p
    | .atom q _ _ _ => q == p
    | _ => false

/-- FENCE: a fence of pack or block scope orders nothing that the model lets pass; wider ones write the data cache back,
wait for acknowledgements, invalidate, and are counted; the pack sits in the pending set meanwhile. It acts for the whole pack,
and takes no guard (R190). -/
def fence (i : Issue) (b : SyncBody) (waited : Nat) : Platform → Device → Device :=
  Device.runJkf i (fun _ => b.kind != 3 && i.imm.isNone && i.guard.isNone) fun k _ d =>
    if b.scope.toNat ≤ 1 then .go d
    else if b.scope = 3 && kindReleases b.kind && d.packWrites i.pack then .wait .fence d
    else
      let d0 := Device.loseWrites (fenceCaches b k d)
      let d1 := if kindAcquires b.kind then d0.dropBuf k.ctx k.seq else d0
      if (d1.item k.ctx k.seq).any fun it => it.phase == .done then .hold d1
      else .go (((d1.count k.ctx (if b.scope = 3 then 88 else 87) 1).count k.ctx 90 waited).parkPack i.pack none)

/-- FENCE. -/
def execFence (i : Issue) (b : SyncBody) (waited : Nat) (s : State) : Out := onCode (.fence i b waited) (fence i b waited) s

end Sys2Proof.Machine
end

