-- ==== Sys2Proof/Machine/Flow.lean ====
section
/-! DEFINITION. Blocks, packs, divergence, barriers and special registers (R161 to R175, R185 to R187, R191, R198 to R200,
R289). -/

namespace Sys2Proof.Machine

/-! ### Divergence (R169 to R171) -/

/-- A pack that nothing but a barrier can bring on waits there: its mask has become empty, or its running path has come to the
reconvergence pc, and threads parked at a barrier hold the next path up (R166, R170, R173). -/
def Pack.stuck (x : Pack) : Bool := x.live != 0 && (x.mask == 0 || x.atRecon) && x.nextPath.isNone

/-- A pack that is stuck moves to the pending set. -/
def Device.idlePack (d : Device) (p : Nat) : Device := if (d.pack p).stuck then d.parkPack p (some .barrier) else d

/-- PATH_RECONVERGE: a resident pack takes its next path; where that leaves only threads parked at a barrier it waits there. -/
def pathReconverge (p : Nat) (d : Device) : Device :=
  let x := d.pack p
  if (d.block (p / 16)).isNone || x.live == 0 then d
  else match x.nextPath with
    | some y => (d.setPack p y).idlePack p
    | none => if x.wait.isSome then d else d.idlePack p

/-- PATH_RECONVERGE. -/
def execPathReconverge (pack : Nat) (s : State) : Out := onDev (fun _ => pathReconverge pack) s

/-- What a branch makes of a pack: the same direction for all; one side parked at the top entry's reconvergence pc;
else a push, also where the reconvergence pc is the top entry's and neither side leads there at once, a case for which row 2 of R169
keeps no second path (DEDUCED, log 39). None where the stack is full: a fault of the whole pack, which
reports lane 0 (R169, R171, R346; log 39). -/
def Pack.branch (x : Pack) (next : Nat) (taken : Word) (b : BraBody) : Option Pack :=
  let t := b.target.toNat
  let r := b.recon.toNat
  let fall := x.mask &&& ~~~taken
  let top := match x.stack with
    | [] => false
    | f :: _ => f.recon == r
  if taken = 0 then some { x with pc := next }
  else if fall = 0 then some { x with pc := t }
  else if top && t == r then some { x with mask := fall, pc := next }
  else if top && next == r then some { x with mask := taken, pc := t }
  else if x.stack.length < 32 then some { x with stack := ⟨r, x.mask, t, taken⟩ :: x.stack, mask := fall, pc := next }
  else Option.none

/-- BRA. -/
def branch (i : Issue) (b : BraBody) : Platform → Device → Device :=
  Device.runJkf i (fun _ => i.imm.isNone) fun _ x d =>
    match x.branch (x.pc + 1) (x.passing i.guard) b with
    | some y => .jump (d.setPack i.pack y)
    | none => .fail (.fault .divergenceOverflow 0) 0

/-- BRA. -/
def execBra (i : Issue) (b : BraBody) (s : State) : Out := onCode (.bra i b) (branch i b) s

/-- FLOW_NOP. -/
def execFlowNop (i : Issue) (s : State) : Out :=
  onCode (.flowNop i) (Device.runJkf i (fun _ => i.imm.isNone) fun _ _ d => .go d) s

/-! ### Exits (R161, R164, R170, R172, R187) -/

/-- Threads that exit leave the mask and every entry. -/
def Pack.exitLanes (x : Pack) (ls : Word) : Pack :=
  { x with
    live := x.live &&& ~~~ls, mask := x.mask &&& ~~~ls
    stack := x.stack.map fun f => { f with mask := f.mask &&& ~~~ls, pend := f.pend &&& ~~~ls } }

/-- Have all packs of a block retired? -/
def Device.blockOver (d : Device) (b : Nat) (k : KBlock) : Bool :=
  (List.range k.packs).all fun i => (d.pack (16 * b + i)).live == 0

/-- A pack without live threads retires; with its last pack the block leaves its core (R161, R170, R198). -/
def Device.retire (d : Device) (p : Nat) (k : KBlock) : Device :=
  if (d.pack p).live ≠ 0 then d.idlePack p
  else
    let d1 := d.setPack p Pack.none
    if d1.blockOver (p / 16) k then ((d1.freeBlock (p / 16)).count k.ctx 79 1).kernelCheck k.ctx k.seq else d1

/-- EXIT: the threads whose guard passes stop for good. -/
def exitThreads (i : Issue) : Platform → Device → Device :=
  Device.runJkf i (fun _ => i.imm.isNone) fun k x d =>
    .jump ((d.setPack i.pack { x.exitLanes (x.passing i.guard) with pc := x.pc + 1 }).retire i.pack k)

/-- EXIT. -/
def execExitThreads (i : Issue) (s : State) : Out := onCode (.exitThreads i) (exitThreads i) s

/-! ### Barriers (R172 to R175) -/

/-- An instance of a barrier is opened by its first arrival. -/
def KBlock.openBar (k : KBlock) (id : Nat) : KBlock :=
  if k.bars.any fun b => b.id == id then k else { k with bars := k.bars ++ [⟨id, 0⟩] }

/-- BAR: the threads whose guard passes park; they resume after it (R173). -/
def bar (i : Issue) (id : Nat) : Platform → Device → Device :=
  Device.runJkf i (fun _ => i.imm.isNone) fun _ x d =>
    let ls := x.passing i.guard
    let y := { x with
      mask := x.mask &&& ~~~ls, parked := x.parked ++ (lanesOf ls).map fun l => (l, id, x.pc + 1), pc := x.pc + 1 }
    if ls = 0 then .go d
    else .jump (((d.setPack i.pack y).updBlock (i.pack / 16) fun k => k.openBar id).idlePack i.pack)

/-- BAR. -/
def execBar (i : Issue) (id : BitVec 4) (s : State) : Out := onCode (.bar i id) (bar i id.toNat) s

/-- Has every live thread of a pack arrived at a barrier? -/
def Pack.arrivedAt (x : Pack) (id : Nat) : Bool :=
  (lanesOf x.live).all fun l => x.parked.any fun e => e.1 == l && e.2.1 == id

/-- A pack whose threads a barrier releases: they resume at once where the pack runs nothing else. -/
def Pack.release (x : Pack) (id : Nat) : Pack :=
  let y : Pack := { x with parked := x.parked.map fun e => if e.2.1 == id then (e.1, released, e.2.2) else e }
  if y.stuck then y
  else
    let z : Pack := if y.wait = some .barrier then { y with wait := Option.none } else y
    if z.mask = 0 ∨ z.atRecon ∧ x.wait = some .barrier then z.nextPath.getD z else z

/-- BARRIER_INSTANCE_COMPLETE: every live thread of the block has arrived, exited ones counting (R172, R173). -/
def barrierComplete (b id : Nat) (d : Device) : Device :=
  match d.block b with
  | none => d
  | some k =>
    let ps := (List.range k.packs).map fun i => 16 * b + i
    if (k.bars.any fun x => x.id == id) && ps.all fun p => (d.pack p).arrivedAt id then
      let d1 := d.updBlock b fun k => { k with bars := k.bars.filter fun x => x.id != id }
      (ps.foldl (fun d p => if (d.pack p).live = 0 then d else d.updPack p fun x => x.release id) d1).count k.ctx 81 1
    else d

/-- BARRIER_INSTANCE_COMPLETE. -/
def execBarrierInstanceComplete (block id : Nat) (s : State) : Out := onDev (fun _ => barrierComplete block id) s

/-- The lowest thread of a block that has not arrived: pack and lane (R175). -/
def Device.missing (d : Device) (b id : Nat) (k : KBlock) : Option (Nat × Nat) :=
  (List.range k.packs).findSome? fun i =>
    let x := d.pack (16 * b + i)
    ((lanesOf x.live).find? fun l => !(x.parked.any fun e => e.1 == l && e.2.1 == id)).map fun l => (i, l)

/-- BARRIER_TIMEOUT: an instance open for 2^22 core cycles faults the context (R175, R341). -/
def barrierTimeout (b id : Nat) (pl : Platform) (d : Device) : Device :=
  match d.block b with
  | none => d
  | some k =>
    match k.bars.find? (fun x => x.id == id), d.missing b id k with
    | some x, some (i, l) =>
      if x.cycles < Config.barrierLimit then d
      else d.takeFaults pl k.ctx
        [⟨.barrierTimeout, 2, k.die, k.core, l, k.seq % (d.ring k.ctx).sqSize, noPc, i, id + i * 2 ^ 8 + l * 2 ^ 16, 0⟩]
    | _, _ => d

/-- BARRIER_TIMEOUT. -/
def execBarrierTimeout (block id : Nat) (s : State) : Out := onDev (barrierTimeout block id) s

/-! ### The active set (R165, R166, R185, R187) -/

/-- The free active entry with the lowest number. -/
def Device.freeSlot (d : Device) (die core : Nat) : Option Nat :=
  (List.range 4).find? fun e => !((d.residents die core).any fun p => (d.pack p).slot == some e)

/-- Vector engines of a die that class 1 blocks hold. -/
def Device.heldByOne (d : Device) (die : Nat) : Nat :=
  ((List.range Config.enginesPerDie).filter fun e =>
    (((d.vecEng die e).holder.bind d.block).bind fun k => d.item k.ctx k.seq).any fun it => it.cls == 1).length

/-- May a block take vector engine e of its die: its block is ON, nothing holds it, it runs no queued work, and a class 1
block of a RESERVED slice holds fewer than 4? -/
def Device.vacqFree (d : Device) (k : KBlock) (e : Nat) : Bool :=
  let v := d.vecEng k.die e
  let one := (d.item k.ctx k.seq).any fun it => it.cls == 1 && (d.slice it.slice).reserved
  (d.die k.die).ve.isOn && v.holder.isNone && v.running.isNone && v.parked.isNone &&
    !(one && decide (4 ≤ d.heldByOne k.die))

/-- Entries of an engine's queue. -/
def Device.queueLen (d : Device) (kind die k : Nat) : Nat :=
  if kind = 0 then (d.re die k).queue.length else (d.vecEng die k).queue.length

/-- Has the queue that takes a block's record room for it: the queue of engine `e`, 8 for the pool of the slice, or 15 for any
engine of the die (R180, R284)? -/
def Device.queueRoom (d : Device) (k : KBlock) (kind e : Nat) : Bool :=
  if e < Config.enginesPerDie then decide (d.queueLen kind k.die e < 64)
  else if e = 15 then (List.range Config.enginesPerDie).any fun j =>
    (if kind = 0 then (d.re k.die j).blk.isOn else (d.die k.die).ve.isOn) && decide (d.queueLen kind k.die j < 64)
  else match d.item k.ctx k.seq with
    | some it => decide ((d.slice it.slice).steal.length < 1024)
    | none => false

/-- Have a block's vector instructions on an engine of its die completed: it runs no stream operation of the block, and the writes of
the block's kernel to partner memory by vector engines are acknowledged (R198, R218)? -/
def Device.vecDone (d : Device) (b : Nat) (k : KBlock) (e : Nat) : Bool :=
  let v := d.vecEng k.die e
  !(v.holder == some b && v.stream) && !(d.ports.out.any fun o => o.ctx == k.ctx && o.seq == k.seq && o.write && o.use == .store)

/-- Is what a pending pack waits for there: it waits on nothing, its token's work has drained, the queue it found full has room,
or its vector engine is free (R166, R181, R198)? -/
def Device.waitOver (d : Device) (p : Nat) : Bool :=
  match (d.pack p).wait, d.block (p / 16) with
  | none, _ => true
  | some (.engWait t), some k => k.tokens.any fun x => x.tok == t && x.status.isSome
  | some (.vacq e), some k => d.vacqFree k e
  | some (.vsync e), some k => d.vecDone (p / 16) k e
  | some (.queueFull kind e), some k => d.queueRoom k kind e
  | _, _ => false

/-- The ready pending pack that a free entry takes: class 0 first, then the oldest, the one that has been in the pending set longest
(R166; DESIGN CHOICE, log 101). -/
def Device.readyPack (d : Device) (die core : Nat) : Option Nat :=
  let ps := (d.residents die core).filter fun p => (d.pack p).slot.isNone && d.waitOver p
  match ps with
  | [] => none
  | p :: rest => some (rest.foldl (fun a b =>
      let ca := d.class0Pack a
      let cb := d.class0Pack b
      if cb && !ca || ca == cb && decide ((d.pack b).stamp < (d.pack a).stamp) then b else a) p)

/-- The oldest resident pack of a core, to whose context cycles go in which no pack is ready (R422). -/
def Device.oldestPack (d : Device) (die core : Nat) : Option Nat := (d.residents die core).head?

/-- Stall cycles that a core reports while no pack is ready, charged to the context of its oldest resident pack. DEP_WAIT needs a pack
that waits on ENG.WAIT; BARRIER_WAIT is counted as time passes, and QUEUE_FULL and BANK_CAP at the instruction that meets them (R185,
R422; log 101). -/
def Device.chargeCore (d : Device) (die core : Nat) (rep : Report) : Device :=
  let waits := (d.residents die core).any fun p => match (d.pack p).wait with
    | some (.engWait _) => true
    | _ => false
  let may := 2 ^ 6 + 2 ^ 7 + 2 ^ 0 + bit waits * 2 ^ 5
  match (d.oldestPack die core).bind fun p => d.block (p / 16) with
  | none => d
  | some k => d.charge k.ctx die (16 + core) { rep with stalls := rep.stalls.map fun e => (Nat.land e.1 may, e.2), busy := 0 }

/-- PACK_MOVE. -/
def packMove (die core : Nat) (rep : Report) (d0 : Device) : Device :=
  let d := d0.chargeCore die core rep
  match d.freeSlot die core, d.readyPack die core with
  | some e, some p =>
    match d.block (p / 16) with
    | none => d
    | some k => (d.updPack p fun x => { x with slot := some e, wait := none }).count k.ctx 80 1
  | _, _ => d

/-- PACK_MOVE. -/
def execPackMove (die core : Nat) (rep : Report) (s : State) : Out := onDev (fun _ => packMove die core rep) s

/-! ### Placement (R161 to R164, R191, R217, R289) -/

/-- Register slots of a block (R162). -/
def blockSlots (packs tregs : Nat) : Nat := packs * ceilDiv tregs 64

/-- Packs of a block that have not retired: a retired one has left its core, its slots free (R161, R163). -/
def Device.livePacks (d : Device) (b : Nat) (k : KBlock) : Nat :=
  ((List.range k.packs).filter fun i => (d.pack (16 * b + i)).live != 0).length

/-- What blocks of a core take: register slots, block memory, packs; `one` keeps class 1 blocks alone. -/
def Device.coreUse (d : Device) (die core : Nat) (one : Bool) : Nat × Nat × Nat :=
  let bs := d.collie.blocks.filter fun b =>
    b.2.die == die && b.2.core == core && (!one || match d.item b.2.ctx b.2.seq with
      | some it => it.cls == 1
      | none => false)
  ((bs.map fun b => blockSlots (d.livePacks b.1 b.2) b.2.tregs).sum, (bs.map fun b => b.2.memLen).sum,
    (bs.map fun b => d.livePacks b.1 b.2).sum)

/-- Can a core take a block whole (R163, R289)? -/
def Device.coreFits (d : Device) (it : Item) (x : Xlat) (die core : Nat) : Bool :=
  let u := d.coreUse die core false
  let one := d.coreUse die core true
  let n := blockSlots x.packs x.tregs
  (d.die die).collie.isOn && decide (u.1 + n ≤ Config.regSlots) && decide (u.2.1 + x.blkmem ≤ Config.blockMemBytes) &&
    decide (u.2.2 + x.packs ≤ 68) &&
    (!((d.slice it.slice).reserved && it.cls == 1) || decide (one.1 + n ≤ 48 ∧ one.2.1 + x.blkmem ≤ 131072))

/-- The core a block goes to: fewest resident packs, then lowest die, then lowest core. -/
def Device.pickCore (d : Device) (it : Item) (x : Xlat) : Option (Nat × Nat) :=
  let cs := ((d.slice it.slice).dieList.flatMap fun i => (List.range Config.coresPerDie).map fun k => (i, k)).filter
    fun e => d.coreFits it x e.1 e.2
  match cs with
  | [] => none
  | c :: rest => some (rest.foldl (fun a b =>
      if (d.residents b.1 b.2).length < (d.residents a.1 a.2).length then b else a) c)

/-- A pack at its block's first instruction (R191): zero but for the argument record in u0 to u31. -/
def Pack.start (entry stamp : Nat) (args : List Byte) : Pack :=
  { Pack.none with
    uregs := (List.range 32).foldl (fun m j => FMap.set 0 m j (BitVec.ofNat 32 (field args (4 * j) 4))) []
    mask := 0xFFFFFFFF#32, live := 0xFFFFFFFF#32, pc := entry, stamp := stamp }

/-- Places the next block of an item on a core: zeroed block memory, packs in the pending set; the core's data cache is
invalidated before the item's first block there, and the lines that it writes back count (R164, R217, R224). -/
def Device.placeBlock (d0 : Device) (it : Item) (x : Xlat) (die core : Nat) : Device :=
  let first := !(d0.collie.blocks.any fun b => b.2.ctx == it.ctx && b.2.seq == it.seq && b.2.die == die && b.2.core == core)
  let d := if first then Device.loseWrites (d0.acquireCore it.ctx die core) else d0
  let b := d.collie.nextBlk
  let t := d.collie.stamp
  let k : KBlock := ⟨die, core, it.ctx, it.seq, it.blocks, x.packs, x.tregs, x.blkmem, [], x.consts, [], [], []⟩
  let packs := (List.range x.packs).foldl (fun m i =>
    FMap.set Pack.none m (16 * b + i) (Pack.start x.entry (t + i) it.oprec)) d.collie.packs
  (d.mapCollie fun c => { c with blocks := c.blocks ++ [(b, k)], packs := packs, nextBlk := b + 1, stamp := t + x.packs }).updItem
    it.ctx it.seq fun y => { y with blocks := y.blocks + 1 }

/-- BLOCK_PLACE: the next block of a running kernel item; it waits until some core can hold it whole. -/
def blockPlace (c q : Nat) (d : Device) : Device :=
  match d.item c q with
  | none => d
  | some it =>
    if it.typ ≠ 3 ∨ it.phase ≠ .running ∨ field it.desc 0x20 4 ≤ it.blocks then d
    else match d.xlatOf it with
      | none => d
      | some x =>
        match d.pickCore it x with
        | some (die, core) => d.placeBlock it x die core
        | none => d

/-- BLOCK_PLACE. -/
def execBlockPlace (ctx seq : Nat) (s : State) : Out := onDev (fun _ => blockPlace ctx seq) s

/-! ### Special registers (R199) -/

/-- Operand fields of MOVSR; idx is a number (log 31). -/
def specFields (b : SpecBody) : Operands := ⟨some (b.dst, 1), [], [], false, false⟩

/-- The value of a special register for a lane; none where the spec states none (log 31). -/
def specValue (d : Device) (k : KBlock) (p lane : Nat) (uniform : Bool) (b : SpecBody) : Option Nat :=
  let it := d.item k.ctx k.seq
  let cyc := (d.core k.die k.core).cycles.toNat
  let e := b.idx.toNat
  match b.sr.toNat with
  | 0x00 => if uniform then none else some lane
  | 0x01 => some (p % 16)
  | 0x02 => some k.idx
  | 0x03 => some ((it.map fun x => field x.desc 0x20 4).getD 0)
  | 0x04 => some k.packs
  | 0x05 => some k.die
  | 0x06 => some k.core
  | 0x07 => some Config.enginesPerDie
  | 0x08 => some Config.laneDies
  | 0x09 => some ((it.map Item.cls).getD 0)
  | 0x0A => if e < 8 then some (presented (d.re k.die e).bad) else none
  | 0x0B => if e < 8 then some (bit (presented (d.re k.die e).bad == 0)) else none
  | 0x0C => some (cyc % 2 ^ 32)
  | 0x0D => some (cyc / 2 ^ 32)
  | _ => none

/-- MOVSR. -/
def movsr (i : Issue) (b : SpecBody) : Platform → Device → Device :=
  Device.runJkf i (fun k => decide (b.sr.toNat ≤ 0x0D) && (specFields b).ok k.tregs i) fun k x d =>
    let o := specFields b
    let val := fun (l : Nat) => match specValue d k i.pack l o.uniform b with
      | some v => BitVec.ofNat 64 v
      | none => (Config.freeSreg (b.sr.toNat + 256 * b.idx.toNat)).setWidth 64
    .go (d.setPack i.pack ((x.lanes o i.guard).foldl (fun y l => y.write l b.dst 1 (val l)) x))

/-- MOVSR. -/
def execMovsr (i : Issue) (b : SpecBody) (s : State) : Out := onCode (.movsr i b) (movsr i b) s

end Sys2Proof.Machine
end

