-- ==== Sys2Proof/Machine/Steal.lean ====
section
/-! DEFINITION. Stealing, yielding to class 0, and the transposing buffers (R37, R85 to R89, R102, R103, R284, R285, R288). -/

namespace Sys2Proof.Machine

/-! ### STEAL_ATTEMPT (R284, R285) -/

/-- Is a row engine idle, and may it take work: it is ON and holds nothing (R54, R285)? -/
def Device.idleEngine (d : Device) (die k : Nat) : Bool :=
  let r := d.re die k
  r.blk.isOn && r.tiles.isEmpty && r.combines.isEmpty

/-- May an engine run a tile of `w` columns of an item: it is wide enough, and its TXB is ON where an operand is turned
(R47, R102)? -/
def Device.canRun (d : Device) (it : Item) (w die k : Nat) : Bool :=
  let turned := bitOf (field it.desc 0x28 1) 3 || bitOf (field it.desc 0x28 1) 4
  decide (w ≤ presented (d.re die k).bad) && (!turned || (d.die die).txb.isOn)

/-- Is another eligible engine of the slice idle nearer to the die that issued a record (R284)? -/
def Device.nearerIdle (d : Device) (slice : Nat) (it : Item) (home die : Nat) : Bool :=
  (d.sliceEngines slice).any fun e =>
    decide (hops e.1 home < hops die home) && d.idleEngine e.1 e.2 && d.canRun it (field it.desc 0x1C 4) e.1 e.2

/-- The first record of the pool that an engine can take, engines nearer the issuing die going first (R284). -/
def Device.fromPool (d : Device) (slice die k : Nat) : Option Item :=
  (d.slice slice).steal.findSome? fun r =>
    match d.item r.1 r.2.1 with
    | some it =>
      if it.typ = 1 ∧ d.canRun it (field it.desc 0x1C 4) die k ∧ !d.nearerIdle slice it r.2.2 die then some it else none
    | none => none

/-- May a tile be stolen by an engine (R285)? -/
def Device.stealable (d : Device) (t : Tile) (die k : Nat) : Bool :=
  t.rank != 4 && match d.item t.ctx t.seq with
    | some it => d.canRun it t.w die k
    | none => false

/-- The tile of a queue that a thief takes: of those of the best rank the one queued last. -/
def lastBest : List Tile → Option Tile
  | [] => none
  | t :: ts => some (ts.foldl (fun a b => if b.rank ≤ a.rank then b else a) t)

/-- Stealable tiles of a victim. -/
def Device.stealFrom (d : Device) (v : Nat × Nat) (die k : Nat) : List Tile :=
  let r := d.re v.1 v.2
  if r.stealOut then r.queue.filter fun t => d.stealable t die k else []

/-- The engine of a die with the most stealable tiles, the lowest k first. -/
def Device.victimOn (d : Device) (vdie die k : Nat) : Option (Nat × Nat) :=
  let es := ((List.range Config.enginesPerDie).map fun j => (vdie, j)).filter fun v =>
    v != (die, k) && !(d.stealFrom v die k).isEmpty
  match es with
  | [] => none
  | e :: rest => some (rest.foldl (fun a b => if (d.stealFrom a die k).length < (d.stealFrom b die k).length then b else a) e)

/-- Dies of a slice from the nearest to a die, ties to the lowest index (R285, R432). -/
def Device.nearDies (d : Device) (slice die : Nat) : List Nat :=
  (List.range 12).flatMap fun h => (d.slice slice).dieList.filter fun x => hops x die == h

/-- Removes the last occurrence of a tile from a queue. -/
def dropLastTile (t : Tile) (q : List Tile) : List Tile := (q.reverse.erase t).reverse

/-- A bank that loads for a tile that is no longer queued is free. -/
def RowEng.unload (r : RowEng) : RowEng :=
  let b := r.nextBank
  if b.st = .loading ∧ b.tile.any (fun t => !r.queue.contains t) then r.freeBank r.turn else r

/-- A victim loses a tile, with what its TXB has turned and its bank loads for it. -/
def RowEng.robbed (r : RowEng) (t : Tile) : RowEng :=
  let q := dropLastTile t r.queue
  RowEng.unload { r with queue := q, turned := if q.contains t then r.turned else r.turned.filter fun y => y.tile != t }

/-- STEAL_ATTEMPT: the pool first, then the own die, then the other dies of the slice, nearest first. -/
def stealAttempt (die k : Nat) (d : Device) : Device :=
  match d.sliceOf die with
  | none => d
  | some sl =>
    if !d.idleEngine die k then d
    else match d.fromPool sl die k with
      | some it =>
        let d1 := d.updSlice sl fun x => { x with steal := x.steal.filter fun r => !(r.1 == it.ctx && r.2.1 == it.seq) }
        (d1.queueWork it die k).count it.ctx 128 1
      | none =>
        if !(d.re die k).stealIn then d
        else match (d.nearDies sl die).findSome? fun v => d.victimOn v die k with
          | none => d
          | some v =>
            match lastBest (d.stealFrom v die k) with
            | none => d
            | some t =>
              ((d.updRe v.1 v.2 fun r => r.robbed t).updRe die k fun r =>
                { r with queue := [t] }).count t.ctx 127 1

/-- STEAL_ATTEMPT. -/
def execStealAttempt (die k : Nat) (s : State) : Out := onDev (fun _ => stealAttempt die k) s

/-! ### ENGINE_DEBUG_HALT (R57) -/

/-- The bank that fills while the other does not drain. -/
def RowEng.filling (r : RowEng) : Option Bool :=
  match r.drainBank with
  | some (which, b) => if b.st = .filling then some which else none
  | none => none

/-- The LOAD in progress of an engine completes: the bank holds the initial values, and its tile has not started (R57). In error
the device while the LOAD waits. -/
def Device.endLoad (d : Device) (p : Platform) (die k : Nat) : Except Device Device :=
  let b := (d.re die k).nextBank
  match b.tile.bind fun t => (d.item t.ctx t.seq).map fun it => (t, it) with
  | some (t, it) =>
    if b.st != .loading || b.loaded then .ok d
    else match d.loadBank p die k it t with
      | .error d1 => .error d1
      | .ok (d1, x) => .ok (d1.updRe die k fun r =>
          r.setBank r.turn { x with st := .loading, tile := some t, comb := false, pos := 0, loaded := true })
  | none => .ok d

/-- ENGINE_DEBUG_HALT: a halt request is in force and no drain is in progress; a LOAD in progress completes first, then issue
comes to the chunk boundary `chunk` of the tile that runs, a combine to a row, and stops. A tile held for the TXB stops where it
stands. An engine that is OFF or STARTING, which issues nothing, does not come to read dbg_halted (DESIGN CHOICE, log 99). -/
def engineDebugHalt (die k chunk : Nat) (p : Platform) (d : Device) : Device :=
  let r := d.re die k
  if !r.dbgHalt || r.halted || !r.blk.isOn && r.blk.st != .stopping || r.bank0.st == .draining || r.bank1.st == .draining then d
  else match d.endLoad p die k with
    | .error d1 => d1
    | .ok d0 =>
      let halt := fun (d : Device) => d.updRe die k fun r => { r with halted := true }
      match r.filling with
      | none => halt d0
      | some which =>
        match d0.advance p die k which chunk with
        | .ok d1 => halt d1
        | .error .turn => halt d0
        | .error h => d0.heldUp p die k h

/-- ENGINE_DEBUG_HALT. -/
def execEngineDebugHalt (die k chunk : Nat) (s : State) : Out := onDev (engineDebugHalt die k chunk) s

/-! ### TILE_PARK and PARKED_TILE_RESUME (R48, R288) -/

/-- Has the work of a bank come to its end? -/
def Device.atEnd (d : Device) (b : Bank) : Bool :=
  match b.tile.bind fun t => (d.item t.ctx t.seq).map fun it => (t, it) with
  | none => true
  | some (t, it) => decide ((if b.comb then t.m else (d.prod it).length t) ≤ b.pos)

/-- The bank's work is parked, and the bank is the next one to fill; a LOAD into the other one is begun anew. -/
def RowEng.park (r : RowEng) (which : Bool) : RowEng :=
  let other := if (r.bank !which).st = .loading then r.freeBank !which else r
  { other.freeBank which with parked := some (r.bank which), turn := which }

/-- TILE_PARK: with a class 0 tile at the head of the queue, the tile or combine of lower rank that fills a bank comes to the
chunk boundary `chunk`, a combine to a row, and is parked there once no drain is in progress; a tile that the TXB still turns for
is parked where it stands. One that has come to its end drains instead. -/
def tilePark (die k chunk : Nat) (p : Platform) (d : Device) : Device :=
  let r := d.re die k
  match r.queue, r.filling with
  | t :: _, some which =>
    match (r.bank which).tile with
    | none => d
    | some x =>
      if t.rank = 1 ∧ 1 < x.rank ∧ r.parked = none ∧ d.engineRuns p die k ∧ !r.dbgHalt then
        let park := fun (d : Device) =>
          if d.atEnd ((d.re die k).bank which) then d
          else (d.updRe die k fun r => r.park which).count x.ctx 129 1
        match d.advance p die k which chunk with
        | .ok d1 => park d1
        | .error .turn => park d
        | .error h => d.heldUp p die k h
      else d
  | _, _ => d

/-- TILE_PARK. -/
def execTilePark (die k chunk : Nat) (s : State) : Out := onDev (tilePark die k chunk) s

/-- PARKED_TILE_RESUME: once the queue holds no class 0 tile, the parked accumulators are loaded into the next bank, and the
tile goes on at the chunk where it stopped. -/
def parkedTileResume (die k : Nat) (p : Platform) (d : Device) : Device :=
  let r := d.re die k
  match r.parked, r.parked.bind Bank.tile with
  | some b, some t =>
    if (r.queue.any fun t => t.rank == 1) || !r.nextBank.ready || !d.engineRuns p die k || r.dbgHalt then d
    else match d.finishOther p die k with
      | .error h => d.heldUp p die k h
      | .ok d1 => d1.updRe die k fun r =>
          { r.fill { (r.nextBank.put 0 (b.rows t)) with
              st := .filling, tile := some t, comb := b.comb, pos := b.pos, loaded := false } with
            parked := none }
  | _, _ => d

/-- PARKED_TILE_RESUME. -/
def execParkedTileResume (die k : Nat) (s : State) : Out := onDev (parkedTileResume die k) s

/-! ### TXB_TURN_DONE (R85 to R88, R102, R103) -/

/-- Does a tile find the panel that the tile before it leaves in the stationary region (R51)? -/
def Prod.samePanel (p : Prod) (r : RowEng) (t : Tile) (before : Option Tile) : Bool :=
  p.panelFits r t && before.any fun x =>
    x.ctx == t.ctx && x.seq == t.seq && x.col == t.col && x.w == t.w && x.split == t.split

/-- Does a tile, `pos` units of which are reduced, need a stored tile of its turned operand that it has not been given? -/
def Prod.needs (p : Prod) (r : RowEng) (t : Tile) (pos : Nat) (before : Option Tile) (x : Bool × Nat × Nat) : Bool :=
  (p.turns r t pos (p.length t)).contains x && !r.hasTurned t x && !(x.1 && p.samePanel r t before)

/-- The first tile of a list that needs a stored tile, with its item. -/
def Device.firstNeed (d : Device) (r : RowEng) (x : Bool × Nat × Nat) : Option Tile → List (Tile × Nat) → Option (Tile × Item)
  | _, [] => none
  | before, (t, pos) :: rest =>
    match d.item t.ctx t.seq with
    | some it => if (d.prod it).needs r t pos before x then some (t, it) else d.firstNeed r x (some t) rest
    | none => d.firstNeed r x before rest

/-- The first tile an engine runs or has queued that needs a stored tile turned. -/
def Device.turning (d : Device) (die k : Nat) (x : Bool × Nat × Nat) : Option (Tile × Item) :=
  let r := d.re die k
  let runs := ([r.bank0, r.bank1].filter fun b => b.st == .filling && !b.comb).filterMap fun b => b.tile.map fun t => (t, b.pos)
  d.firstNeed r x none (runs ++ r.queue.map fun t => (t, 0))

/-- New MX blocks in a stored tile: 32 positions each along the reduction axis (R87). -/
def Prod.turnBlocks (p : Prod) (isB : Bool) (row col : Nat) : Nat :=
  if isB then (if isMx p.bFmt then min 128 (p.n - row) * ceilDiv (min 128 (p.k - col)) 32 else 0)
  else if isMx p.aFmt then ceilDiv (min 128 (p.k - row)) 32 * min 128 (p.m - col) else 0

/-- Cycles that a stored tile of an operand takes to be turned and emitted (R86). -/
def Prod.turnCycles (p : Prod) (isB : Bool) : Nat :=
  let f := if isB then p.bFmt else p.aFmt
  (if isB && p.b24 then 4 * fmtBits f + 8 else 8 * fmtBits f) + (if isMx f then 8 else 0)

/-- The engine once its TXB has turned a stored tile: the operand buffer holds it, and it takes a slot until it is emitted. -/
def RowEng.turnedTile (r : RowEng) (x : Turned) : RowEng :=
  { r with turned := r.turned ++ [x], txb := (x :: r.txb).take 2 }

/-- TXB_TURN_DONE: the turned tile goes to the tile that needs it and is counted, and the blocks of a 2:4 tile are checked. -/
def txbTurnDone (die k : Nat) (isB : Bool) (row col : Nat) (p : Platform) (d : Device) : Device :=
  if !((d.die die).txb.st == .on || (d.die die).txb.st == .stopping) || !p.pow.unitRuns die (32 + k) then d
  else match d.turning die k (isB, row, col) with
  | none => d
  | some (t, it) =>
    let pr := d.prod it
    let mx := isMx (if isB then pr.bFmt else pr.aFmt)
    let till := p.pow.time + BitVec.ofNat 64 (ceilDiv (5 * pr.turnCycles isB) 9)
    let d1 := ((d.updRe die k fun r => r.turnedTile ⟨t, isB, row, col, mx, till⟩).count t.ctx 52 1).count t.ctx 53
      (pr.turnBlocks isB row col)
    if isB && pr.b24 then
      match d1.turnChecks (it.actor (some die)) pr.s24 (row / 4) (min (row / 4 + 32) (ceilDiv pr.n 4)) (col / 4)
          (min (col / 4 + 32) (ceilDiv pr.k 4)) with
      | .error e => d.accessFailed p it 3 die k e
      | .ok bad => bad.foldl (fun d e => d.sparseError t.ctx t.seq e.1 e.2) d1
    else d1

/-- TXB_TURN_DONE. -/
def execTxbTurnDone (die k : Nat) (isB : Bool) (row col : Nat) (s : State) : Out :=
  onDev (txbTurnDone die k isB row col) s

end Sys2Proof.Machine
end

