-- ==== Sys2Proof/Machine/Vector.lean ====
section
/-! DEFINITION. The vector engines: lists and their place in the queues, vector instructions from lists and packs, their
arithmetic, reductions, scans, loads and stores (R142 to R149, R153, R158 to R160, R198, R264, R284, R288, R435). -/

namespace Sys2Proof.Machine

/-! ### Registers of an engine (R142) -/

/-- Element `i` of a vector register. -/
def VecEng.elem (e : VecEng) (r : BitVec 4) (i : Nat) : Word := FMap.get 0 e.regs (4096 * r.toNat + i)

/-- Bit `i` of a mask register; vm0 reads as ones. -/
def VecEng.mbit (e : VecEng) (j : BitVec 3) (i : Nat) : Bool := j == 0 || FMap.get false e.masks (4096 * j.toNat + i)

/-- Writes elements of a vector register. -/
def VecEng.put (e : VecEng) (r : BitVec 4) (xs : List (Nat × Word)) : VecEng :=
  { e with regs := xs.foldl (fun m x => FMap.set 0 m (4096 * r.toNat + x.1) x.2) e.regs }

/-- Writes bits of a mask register; writes to vm0 are ignored. -/
def VecEng.putMask (e : VecEng) (j : BitVec 3) (xs : List (Nat × Bool)) : VecEng :=
  if j = 0 then e
  else { e with masks := xs.foldl (fun m x => FMap.set false m (4096 * j.toNat + x.1) x.2) e.masks }

/-! ### Work on an engine (R264, R284, R288, R289) -/

/-- Is the item a list, or a stream operation (R264)? -/
def Item.isList (it : Item) : Bool := it.typ == 2 && field it.desc 0x18 1 == 1
def Item.isStream (it : Item) : Bool := it.typ == 2 && field it.desc 0x18 1 == 0

/-- Vector instructions an item stands for in a queue. -/
def Item.entries (it : Item) : Nat := if it.isList then field it.desc 0x38 4 else 1

/-- Instructions that wait at an engine. -/
def Device.veLoad (d : Device) (die k : Nat) : Nat :=
  let e := d.vecEng die k
  (e.queue.map fun x => ((d.item x.1 x.2).map Item.entries).getD 0).sum +
    match e.running.bind fun x => d.item x.1 x.2 with
    | some it => it.entries - e.listPos
    | none => 0

/-- The engine of the slice, its VE block ON, with the fewest queued instructions, the first of those in die and engine
order (R159, R283, R284). -/
def Device.vePick (d : Device) (slice : Nat) : Option (Nat × Nat) :=
  match (d.sliceEngines slice).filter fun e => (d.die e.1).ve.isOn with
  | [] => none
  | e :: rest => some (rest.foldl (fun a b => if d.veLoad b.1 b.2 < d.veLoad a.1 a.2 then b else a) e)

/-- The idle vector engine that takes a record from the slice's pool: the nearest to the die that issued it (R284). -/
def Device.poolPick (d : Device) (it : Item) : Option (Nat × Nat) :=
  match (d.slice it.slice).steal.find? fun r => r.1 == it.ctx && r.2.1 == it.seq with
  | none => none
  | some r => ((d.nearDies it.slice r.2.2).flatMap fun i => (List.range Config.enginesPerDie).map fun k => (i, k)).find? fun e =>
      let v := d.vecEng e.1 e.2
      (d.die e.1).ve.isOn && v.running.isNone && v.queue.isEmpty && v.holder.isNone && v.parked.isNone

/-- A record leaves the pool. -/
def Device.leavePool (d : Device) (it : Item) : Device :=
  (d.updSlice it.slice fun s => { s with steal := s.steal.filter fun r => !(r.1 == it.ctx && r.2.1 == it.seq) }).count
    it.ctx 128 1

/-- The engine an item is queued at. -/
def Device.veOf (d : Device) (it : Item) : Option (Nat × Nat) :=
  (d.sliceEngines it.slice).find? fun e => (d.vecEng e.1 e.2).queue.contains (it.ctx, it.seq)

/-- Queues an item behind those of equal or better rank. -/
def Device.veQueue (d : Device) (it : Item) (die k : Nat) : Device :=
  let better := fun (x : Nat × Nat) => match d.item x.1 x.2 with
    | some y => decide (y.rank ≤ it.rank)
    | none => true
  d.updVe die k fun e => { e with
    queue := e.queue.takeWhile better ++ [(it.ctx, it.seq)] ++ e.queue.dropWhile better }

/-- The rank of the work an engine runs. -/
def Device.veRank (d : Device) (die k : Nat) : Option Nat :=
  (d.vecEng die k).running.bind fun x => (d.item x.1 x.2).map Item.rank

/-- May the item at the head of an engine's queue start: the engine is not held, its block and clock run, and it is idle, or
runs work of lower rank that can yield to class 0, a stream operation between pieces of its input or while it waits (R159, R198,
R288, R378; log 51)? -/
def Device.veReady (d : Device) (p : Platform) (it : Item) (die k : Nat) : Bool :=
  let e := d.vecEng die k
  let b := (d.die die).ve
  e.queue.head? == some (it.ctx, it.seq) && e.holder.isNone && (b.st == .on || b.st == .stopping) &&
    p.pow.unitRuns die (8 + k) && (e.parked.isNone || it.rank == 1) &&
    match d.veRank die k with
    | none => true
    | some r => it.rank == 1 && decide (1 < r) && e.parked.isNone

/-- The item takes its engine: work that runs there is parked; a list starts with every register at zero (R264, R288). -/
def Device.veStart (d : Device) (it : Item) (die k : Nat) : Device :=
  (d.updVe die k fun e =>
    let e1 := { e with
      queue := e.queue.drop 1
      parked := match e.running with
        | some x => some ⟨x, e.listPos, e.stream, e.regs, e.masks⟩
        | none => e.parked
      running := some (it.ctx, it.seq), listPos := 0, stream := it.isStream }
    if it.isList then { e1 with regs := [], masks := [] } else e1).updItem it.ctx it.seq fun x => { x with phase := .running }

/-- The engine's work ends. -/
def Device.veEnd (d : Device) (die k : Nat) (c q : Nat) : Device :=
  (((d.updVe die k fun e => { e with running := none, stream := false }).updItem c q fun x =>
    { x with phase := .done }).settleWork c q).veResume die k

/-- An item whose claims stand comes to its engine: it is queued at the engine with the fewest instructions, or an idle engine
takes it from the pool, and it starts when the engine takes it. `go` runs it there. -/
def Device.veDispatch (d : Device) (p : Platform) (it : Item) (go : Device → Nat → Nat → Device) : Device :=
  let run := fun (d : Device) (e : Nat × Nat) => if d.veReady p it e.1 e.2 then go (d.veStart it e.1 e.2) e.1 e.2 else d
  match d.veOf it with
  | some e => run d e
  | none =>
    match if it.isWork then d.poolPick it else d.vePick it.slice with
    | none => d
    | some e => run ((if it.isWork then d.leavePool it else d).veQueue it e.1 e.2) e

/-- VEC_LIST: a dispatched list comes to an engine and starts there. -/
def vecList (c q : Nat) (p : Platform) (d : Device) : Device :=
  match d.item c q with
  | none => d
  | some it =>
    if it.phase != .dispatched || !it.isList then d
    else d.startClaimed it fun d => d.veDispatch p it fun d _ _ => d

/-- VEC_LIST. -/
def execVecList (ctx seq : Nat) (s : State) : Out := onDev (vecList ctx seq) s

/-! ### A vector instruction at its engine (R143, R144, R198) -/

/-- What a vector instruction finds: its engine, its item, the operand block and its body. -/
structure VecIn where
  die  : Nat
  k    : Nat
  it   : Item
  u    : List Word
  body : VecBody
  eng  : VecEng
  seed : Dword
  held : Option (List Nat)

/-- Word `j` of the operand block. -/
def VecIn.arg (x : VecIn) (j : Nat) : Word := x.u.getD j 0

/-- A 64-bit operand of two words, low first. -/
def VecIn.arg64 (x : VecIn) (j : Nat) : Nat := (x.arg j).toNat + 2 ^ 32 * (x.arg (j + 1)).toNat

/-- The element count. -/
def VecIn.n (x : VecIn) : Nat := (x.arg 0).toNat

/-- The active elements, ascending. -/
def VecIn.active (x : VecIn) : List Nat := (List.range x.n).filter (x.eng.mbit x.body.vm)

/-- The format code. -/
def VecIn.fmt (x : VecIn) : Nat := x.body.fmt.toNat

/-- Who accesses memory. -/
def VecIn.actor (x : VecIn) : Actor := { x.it.actor (some x.die) with held := x.held }

/-- A condition that arises at the engine: ILLEGAL_INSTR, MISALIGNED (R143, R147, R155). -/
def vecIllegal : MemErr := .fault .illegalInstr 0
def vecMisaligned (va : Nat) : MemErr := .fault .misaligned va

/-- A vector operation: words of its operand block, formats it takes, whether it draws random words, and what it does with
N in range. -/
structure VecOp where
  words : Nat
  fmts  : List Nat
  draws : VecIn → Bool
  run   : VecIn → Device → Except MemErr Device

/-- The check of N, and then the operation (R143). -/
def VecOp.go (o : VecOp) (x : VecIn) (d : Device) : Except MemErr Device :=
  if 4096 < x.n then .error vecIllegal else if x.n = 0 then .ok d else o.run x d

/-- May the engine issue the instruction: its block is ON, or STOPPING where the engine has the work already (`held`), its clock
runs, it runs no stream operation but this one, and the generator is ON where words are drawn (R159, R378)? -/
def VecOp.ready (o : VecOp) (x : VecIn) (held : Bool) (p : Platform) (d : Device) : Bool :=
  let b := (d.die x.die).ve
  (b.st == .on || held && b.st == .stopping) && (held || !(d.vecEng x.die x.k).stream) && p.pow.unitRuns x.die (8 + x.k) && (!o.draws x || (d.die x.die).rng.isOn)

/-- Counts a completed instruction (R160). -/
def VecIn.count (x : VecIn) (rep : Report) (d : Device) : Device :=
  ((d.count x.it.ctx 73 1).count x.it.ctx 74 (ceilDiv x.n 128)).charge x.it.ctx x.die (8 + x.k) rep

/-- The fault of a pack's vector instruction at its engine (R198, R341). -/
def Device.vecFault (d : Device) (pl : Platform) (p : Nat) (x : VecIn) (c : FaultCode) (va : Nat) : Device :=
  d.takeFaults pl x.it.ctx
    [⟨c, 4, x.die, x.k, 0, x.it.seq % (d.ring x.it.ctx).sqSize, (d.pack p).pc, p % 16, 0, va⟩]

/-- What an access that does not happen comes to for a pack's vector instruction. -/
def vecFailed (pl : Platform) (p : Nat) (x : VecIn) (e : MemErr) (d : Device) : Ran :=
  match e with
  | .fault c va => .hold (d.vecFault pl p x c va)
  | _ => .hold (d.accessFailed pl x.it 4 x.die x.k e)

/-- Is a VEC instruction of a pack legal: format, operand block within u63, an engine its block holds (R198)? -/
def vecOk (words : Nat) (fmtOk : Bool) (b : VecBody) (k : KBlock) : Bool :=
  fmtOk && decide (b.ub.toNat + words ≤ 64) && decide (b.k.toNat < Config.enginesPerDie) && k.held.contains b.k.toNat

/-- The operand block in a pack's uniform registers. -/
def Pack.block (x : Pack) (ub words : Nat) : List Word := (List.range words).map fun j => FMap.get 0 x.uregs (ub + j)

/-- The lines an instruction reads come to its engine first (R225, R234 to R243). -/
def VecOp.reads (o : VecOp) (x : VecIn) (d : Device) : Fetch Unit :=
  d.fetch x.actor x.die (8 + x.k) (fun _ => 4) fun a => (o.go { x with held := a.held } d).map fun _ => ()

/-- A vector instruction from a pack. -/
def vecPack (o : VecOp) (p : Nat) (rep : Report) (b : VecBody) (pl : Platform) : Device → Device :=
  Device.runJkf ⟨p, none, none, rep.rivals⟩ (vecOk o.words (o.fmts.contains b.fmt.toNat) b) (fun k x d =>
    match d.item k.ctx k.seq with
    | none => .stall
    | some it =>
      let v : VecIn := ⟨k.die, b.k.toNat, it, x.block b.ub.toNat o.words, b, d.vecEng k.die b.k.toNat, (d.ctx k.ctx).seed, none⟩
      if !o.ready v false pl d then .stall
      else match o.reads v d with
        | .stall d1 => .hold d1
        | .err e => vecFailed pl p v e d
        | .got d0 _ =>
          match o.go v d0 with
          | .ok d1 => .go (v.count rep d1)
          | .error e => vecFailed pl p v e d) pl

/-- The list moves on, and ends behind its last entry (R264). -/
def Device.listNext (d : Device) (die k : Nat) (it : Item) : Device :=
  let d1 := d.updVe die k fun e => { e with listPos := e.listPos + 1 }
  if (d1.vecEng die k).listPos < field it.desc 0x38 4 then d1 else d1.veEnd die k it.ctx it.seq

/-- Is the instruction word of a list entry one a list can hold: class VEC without an immediate and without a guard, a vector
instruction, k and ub 0 (R192, R198, R435)? -/
def listWordOk (w : Dword) : Bool :=
  let b := VecBody.ofBits (w.extractLsb' 0 46)
  w.extractLsb' 60 4 == 8 && w.extractLsb' 46 6 == 0 && (jkfVec (w.extractLsb' 52 8).toNat).isSome && b.k == 0 && b.ub == 0

/-- The entry of 64 B that a list has come to: its instruction word and its 14 words (R435). -/
def Device.listEntry (d : Device) (it : Item) (a : Actor) (pos : Nat) : Except MemErr (Dword × List Word) := do
  let bs ← d.readBytes a 64 (field it.desc 0x30 8 + 64 * pos)
  pure (BitVec.ofNat 64 (field bs 0 8), (List.range 14).map fun j => BitVec.ofNat 32 (field bs (8 + 4 * j) 4))

/-- The instruction of a list entry, its lines come. -/
def VecOp.entry (o : VecOp) (v : VecIn) (rep : Report) (p : Platform) (d : Device) : Device :=
  if !(o.fmts.contains v.body.fmt.toNat) then d.itemFault p v.it 4 v.die v.k .illegalInstr 0
  else match o.reads v d with
    | .stall d1 => d1
    | .err e => d.accessFailed p v.it 4 v.die v.k e
    | .got d0 _ =>
      match o.go v d0 with
      | .ok d1 => (v.count rep (d1.firstIssue p.pow.time v.it.ctx v.it.seq)).listNext v.die v.k v.it
      | .error e => d.accessFailed p v.it 4 v.die v.k e

/-- A vector instruction, of op `code`, from the list an engine runs: the entry in memory that the list has come to. One that is no
vector instruction is illegal; another than this instruction is not run here (log 3). -/
def vecEntry (code : Nat) (o : VecOp) (die k : Nat) (u : List Word) (rep : Report) (b : VecBody) (p : Platform)
    (d0 : Device) : Device :=
  let d := d0.veResume die k
  let e := d.vecEng die k
  match e.running.bind fun x => d.item x.1 x.2 with
  | none => d
  | some it =>
    let v : VecIn := ⟨die, k, it, u, b, e, (d.ctx it.ctx).seed, none⟩
    if !it.isList || !o.ready v true p d then d
    else match d.fetch v.actor die (8 + k) (fun _ => 4) fun a => d.listEntry it a e.listPos with
      | .stall d1 => d1
      | .err e => d.accessFailed p it 4 die k e
      | .got d1 (w, words) =>
        if !listWordOk w then d.itemFault p it 4 die k .illegalInstr 0
        else if (w.extractLsb' 52 8).toNat ≠ code ∨ w.extractLsb' 0 46 ≠ b.bits ∨ words ≠ u then d
        else o.entry v rep p d1

/-- A vector instruction of op `code`. -/
def vec (code : Nat) (o : VecOp) (v : VecArgs) (p : Platform) (d : Device) : Device :=
  match v.src with
  | .pack q rep => vecPack o q rep v.body p d
  | .list die k u rep => vecEntry code o die k u rep v.body p d

/-! ### Element-wise classes (R145, R146) -/

/-- Writes what each active element computes, every source read before. -/
def VecIn.map (x : VecIn) (f : Nat → Word) (d : Device) : Device :=
  let xs := x.active.map fun i => (i, f i)
  d.updVe x.die x.k fun e => e.put x.body.vd xs

/-- An operation on elements of va, vb and vc. -/
def elemOp (fmts : List Nat) (f : Nat → Word → Word → Word → Word) : VecOp :=
  ⟨1, fmts, fun _ => false, fun x d =>
    .ok (x.map (fun i => f x.fmt (x.eng.elem x.body.va i) (x.eng.elem x.body.vb i) (x.eng.elem x.body.vc i)) d)⟩

/-- FP32 operations of one, two and three operands. -/
def vf1 (f : Word → Word) : VecOp := elemOp [0x00] fun _ a _ _ => f a
def vf2 (f : Word → Word → Word) : VecOp := elemOp [0x00] fun _ a b _ => f a b
def vf3 (f : Word → Word → Word → Word) : VecOp := elemOp [0x00] fun _ a b c => f a b c
/-- Integer operations. -/
def vi2 (f : Nat → Word → Word → Word) : VecOp := elemOp intFmts fun m a b _ => f m a b

/-- Select: a where the bit of vmx is 1, else b (log 33). -/
def vsel (fmts : List Nat) : VecOp :=
  ⟨1, fmts, fun _ => false, fun x d => .ok (x.map (fun i => canonWord x.fmt
    (if x.eng.mbit x.body.vmx i then x.eng.elem x.body.va i else x.eng.elem x.body.vb i)) d)⟩

/-- Smaller and larger of two elements of a type (R129). -/
def wordMin (fmt : Nat) (a b : Word) : Word :=
  match fmt with
  | 0x00 => Fp.min a b
  | 0x01 => if b.toInt < a.toInt then b else a
  | _ => if b.toNat < a.toNat then b else a
def wordMax (fmt : Nat) (a b : Word) : Word :=
  match fmt with
  | 0x00 => Fp.max a b
  | 0x01 => if a.toInt < b.toInt then b else a
  | _ => if a.toNat < b.toNat then b else a

/-- Sum of two elements of a type. -/
def wordAdd (fmt : Nat) (a b : Word) : Word := if fmt = 0x00 then Fp.add a b else a + b

/-- A shift by an element (log 30). -/
def wordShift (n : Nat) (a b v : Word) : Word :=
  if b.toNat < 32 then v else (Config.freeShift n (a.setWidth 64) (b.setWidth 64)).setWidth 32

/-- VEC_FP_ADD. -/
def execVecFpAdd (v : VecArgs) (s : State) : Out := onCode (.vecFpAdd v) (vec 0x00 (vf2 Fp.add) v) s
/-- VEC_FP_SUB. -/
def execVecFpSub (v : VecArgs) (s : State) : Out := onCode (.vecFpSub v) (vec 0x01 (vf2 Fp.sub) v) s
/-- VEC_FP_MUL. -/
def execVecFpMul (v : VecArgs) (s : State) : Out := onCode (.vecFpMul v) (vec 0x02 (vf2 Fp.mul) v) s
/-- VEC_FP_FMA. -/
def execVecFpFma (v : VecArgs) (s : State) : Out := onCode (.vecFpFma v) (vec 0x03 (vf3 Fp.fma) v) s
/-- VEC_FP_MIN. -/
def execVecFpMin (v : VecArgs) (s : State) : Out := onCode (.vecFpMin v) (vec 0x04 (vf2 Fp.min) v) s
/-- VEC_FP_MAX. -/
def execVecFpMax (v : VecArgs) (s : State) : Out := onCode (.vecFpMax v) (vec 0x05 (vf2 Fp.max) v) s
/-- VEC_FP_ABS. -/
def execVecFpAbs (v : VecArgs) (s : State) : Out := onCode (.vecFpAbs v) (vec 0x06 (vf1 Fp.abs) v) s
/-- VEC_FP_NEG. -/
def execVecFpNeg (v : VecArgs) (s : State) : Out := onCode (.vecFpNeg v) (vec 0x07 (vf1 Fp.neg) v) s
/-- VEC_FP_COPYSIGN. -/
def execVecFpCopysign (v : VecArgs) (s : State) : Out := onCode (.vecFpCopysign v) (vec 0x08 (vf2 Fp.copysign) v) s
/-- VEC_FP_SEL. -/
def execVecFpSel (v : VecArgs) (s : State) : Out := onCode (.vecFpSel v) (vec 0x09 (vsel [0x00]) v) s
/-- VEC_INT_ADD. -/
def execVecIntAdd (v : VecArgs) (s : State) : Out := onCode (.vecIntAdd v) (vec 0x10 (vi2 fun _ a b => a + b) v) s
/-- VEC_INT_SUB. -/
def execVecIntSub (v : VecArgs) (s : State) : Out := onCode (.vecIntSub v) (vec 0x11 (vi2 fun _ a b => a - b) v) s
/-- VEC_INT_MULLO. -/
def execVecIntMullo (v : VecArgs) (s : State) : Out := onCode (.vecIntMullo v) (vec 0x12 (vi2 fun _ a b => a * b) v) s
/-- VEC_INT_MIN. -/
def execVecIntMin (v : VecArgs) (s : State) : Out := onCode (.vecIntMin v) (vec 0x13 (vi2 wordMin) v) s
/-- VEC_INT_MAX. -/
def execVecIntMax (v : VecArgs) (s : State) : Out := onCode (.vecIntMax v) (vec 0x14 (vi2 wordMax) v) s
/-- VEC_INT_SHL. -/
def execVecIntShl (v : VecArgs) (s : State) : Out := onCode (.vecIntShl v) (vec 0x15 (vi2 fun _ a b => wordShift 0 a b (a <<< b.toNat)) v) s
/-- VEC_INT_SHR. -/
def execVecIntShr (v : VecArgs) (s : State) : Out := onCode (.vecIntShr v) (vec 0x16 (vi2 fun _ a b => wordShift 1 a b (a >>> b.toNat)) v) s
/-- VEC_INT_SAR. -/
def execVecIntSar (v : VecArgs) (s : State) : Out :=
  onCode (.vecIntSar v) (vec 0x17 (vi2 fun _ a b => wordShift 2 a b (a.sshiftRight b.toNat)) v) s
/-- VEC_INT_AND. -/
def execVecIntAnd (v : VecArgs) (s : State) : Out := onCode (.vecIntAnd v) (vec 0x18 (vi2 fun _ a b => a &&& b) v) s
/-- VEC_INT_OR. -/
def execVecIntOr (v : VecArgs) (s : State) : Out := onCode (.vecIntOr v) (vec 0x19 (vi2 fun _ a b => a ||| b) v) s
/-- VEC_INT_XOR. -/
def execVecIntXor (v : VecArgs) (s : State) : Out := onCode (.vecIntXor v) (vec 0x1a (vi2 fun _ a b => a ^^^ b) v) s
/-- VEC_INT_NOT. -/
def execVecIntNot (v : VecArgs) (s : State) : Out := onCode (.vecIntNot v) (vec 0x1b (vi2 fun _ a _ => ~~~a) v) s
/-- VEC_INT_SEL. -/
def execVecIntSel (v : VecArgs) (s : State) : Out := onCode (.vecIntSel v) (vec 0x1c (vsel intFmts) v) s
/-- VEC_DIV. -/
def execVecDiv (v : VecArgs) (s : State) : Out := onCode (.vecDiv v) (vec 0x28 (vf2 Fp.div) v) s
/-- VEC_SQRT. -/
def execVecSqrt (v : VecArgs) (s : State) : Out := onCode (.vecSqrt v) (vec 0x29 (vf1 Fp.sqrt) v) s
/-- VEC_RSQRT. -/
def execVecRsqrt (v : VecArgs) (s : State) : Out := onCode (.vecRsqrt v) (vec 0x2a (vf1 Fp.rsqrt) v) s
/-- VEC_RECIP. -/
def execVecRecip (v : VecArgs) (s : State) : Out := onCode (.vecRecip v) (vec 0x2b (vf1 Fp.recip) v) s
/-- VEC_EXP2. -/
def execVecExp2 (v : VecArgs) (s : State) : Out := onCode (.vecExp2 v) (vec 0x2c (vf1 Fp.exp2) v) s
/-- VEC_LOG2. -/
def execVecLog2 (v : VecArgs) (s : State) : Out := onCode (.vecLog2 v) (vec 0x2d (vf1 Fp.log2) v) s

/-! ### Compare (R145) -/

/-- Formats of 32-bit elements. -/
def fmts32 : List Nat := [0x00, 0x01, 0x02]

/-- A test of each active element, written to mask vmx. -/
def maskOp (f : Nat → Word → Word → Bool) : VecOp :=
  ⟨1, fmts32, fun _ => false, fun x d =>
    let bs := x.active.map fun i => (i, f x.fmt (x.eng.elem x.body.va i) (x.eng.elem x.body.vb i))
    .ok (d.updVe x.die x.k fun e => e.putMask x.body.vmx bs)⟩

/-- A comparison. -/
def vcmp (o : CmpOp) : VecOp := maskOp fun m a b => o.run m (a.setWidth 64) (b.setWidth 64)
/-- A class test; an integer is finite. -/
def vclass (o : ClassOp) : VecOp := maskOp fun m a _ => if m = 0x00 then o.run a else o == .finite

/-- VEC_CMP_EQ. -/
def execVecCmpEq (v : VecArgs) (s : State) : Out := onCode (.vecCmpEq v) (vec 0x20 (vcmp .eq) v) s
/-- VEC_CMP_NE. -/
def execVecCmpNe (v : VecArgs) (s : State) : Out := onCode (.vecCmpNe v) (vec 0x21 (vcmp .ne) v) s
/-- VEC_CMP_LT. -/
def execVecCmpLt (v : VecArgs) (s : State) : Out := onCode (.vecCmpLt v) (vec 0x22 (vcmp .lt) v) s
/-- VEC_CMP_LE. -/
def execVecCmpLe (v : VecArgs) (s : State) : Out := onCode (.vecCmpLe v) (vec 0x23 (vcmp .le) v) s
/-- VEC_CMP_ISNAN. -/
def execVecCmpIsnan (v : VecArgs) (s : State) : Out := onCode (.vecCmpIsnan v) (vec 0x24 (vclass .nan) v) s
/-- VEC_CMP_ISINF. -/
def execVecCmpIsinf (v : VecArgs) (s : State) : Out := onCode (.vecCmpIsinf v) (vec 0x25 (vclass .inf) v) s
/-- VEC_CMP_ISFINITE. -/
def execVecCmpIsfinite (v : VecArgs) (s : State) : Out := onCode (.vecCmpIsfinite v) (vec 0x26 (vclass .finite) v) s

/-! ### Reductions (R148) -/

/-- An operation on values of which either may be absent. -/
def optOp (f : Word → Word → Word) : Option Word → Option Word → Option Word
  | none, b => b
  | a, none => a
  | some a, some b => some (f a b)

/-- What lane `l` holds of the active elements, in increasing index. -/
def lanePart (f : Word → Word → Word) (xs : List (Nat × Word)) (l : Nat) : Option Word :=
  (xs.filter fun x => x.1 % 128 == l).foldl (fun a x => optOp f a (some x.2)) none

/-- One level of the tree: pairs (2j, 2j + 1). -/
def treeLevel (f : Word → Word → Word) : List (Option Word) → List (Option Word)
  | a :: b :: rest => optOp f a b :: treeLevel f rest
  | xs => xs

/-- The reduction of the active elements; none leaves element 0 unchanged. -/
def reduce (f : Word → Word → Word) (xs : List (Nat × Word)) : Option Word :=
  ((List.range 7).foldl (fun p _ => treeLevel f p) ((List.range 128).map (lanePart f xs))).headD none

/-- A reduction into element 0. -/
def redOp (f : Nat → Word → Word → Word) : VecOp :=
  ⟨1, fmts32, fun _ => false, fun x d =>
    match reduce (f x.fmt) (x.active.map fun i => (i, x.eng.elem x.body.va i)) with
    | none => .ok d
    | some w => .ok (d.updVe x.die x.k fun e => e.put x.body.vd [(0, canonWord x.fmt w)])⟩

/-- VEC_RED_SUM. -/
def execVecRedSum (v : VecArgs) (s : State) : Out := onCode (.vecRedSum v) (vec 0x30 (redOp wordAdd) v) s
/-- VEC_RED_MIN. -/
def execVecRedMin (v : VecArgs) (s : State) : Out := onCode (.vecRedMin v) (vec 0x31 (redOp wordMin) v) s
/-- VEC_RED_MAX. -/
def execVecRedMax (v : VecArgs) (s : State) : Out := onCode (.vecRedMax v) (vec 0x32 (redOp wordMax) v) s
/-- VEC_RED_AND. -/
def execVecRedAnd (v : VecArgs) (s : State) : Out := onCode (.vecRedAnd v) (vec 0x33 (redOp fun _ a b => a &&& b) v) s
/-- VEC_RED_OR. -/
def execVecRedOr (v : VecArgs) (s : State) : Out := onCode (.vecRedOr v) (vec 0x34 (redOp fun _ a b => a ||| b) v) s
/-- VEC_RED_XOR. -/
def execVecRedXor (v : VecArgs) (s : State) : Out := onCode (.vecRedXor v) (vec 0x35 (redOp fun _ a b => a ^^^ b) v) s

/-! ### Scans (R149) -/

/-- One step of a beat at distance `n`: every lane reads the previous step. -/
def scanStep (f : Word → Word → Word) (n : Nat) (xs : List (Bool × Option Word)) : List (Bool × Option Word) :=
  xs.zipIdx.map fun e =>
    if e.2 < n then e.1
    else
      let l := xs.getD (e.2 - n) (false, none)
      (l.1 || e.1.1, if e.1.1 then e.1.2 else optOp f l.2 e.1.2)

/-- The lanes of a beat after its seven steps. -/
def scanBeat (f : Word → Word → Word) (xs : List (Bool × Option Word)) : List (Bool × Option Word) :=
  [1, 2, 4, 8, 16, 32, 64].foldl (fun xs n => scanStep f n xs) xs

/-- The inclusive values of a beat, and the carry behind it. -/
def scanOut (f : Word → Word → Word) (carry : Option Word) (xs : List (Bool × Option Word)) : List (Option Word) :=
  (scanBeat f xs).map fun e => if e.1 then e.2 else optOp f carry e.2

/-- The inclusive values of all beats. -/
def scanAll (f : Word → Word → Word) : Nat → Option Word → (Nat → Bool × Option Word) → Nat → List (Option Word)
  | 0, _, _, _ => []
  | n + 1, carry, x, b =>
    let ys := scanOut f carry ((List.range 128).map fun l => x (128 * b + l))
    ys ++ scanAll f n (ys.getD 127 none) x (b + 1)

/-- A scan: inclusive, or exclusive with its init operand at element 0 and at each segment start. -/
def scanOp (excl seg : Bool) (f : Nat → Word → Word → Word) : VecOp :=
  ⟨2, fmts32, fun _ => false, fun x d =>
    let start := fun (i : Nat) => seg && x.eng.mbit x.body.vmx i
    let on := fun (i : Nat) => decide (i < x.n) && x.eng.mbit x.body.vm i
    let ys := scanAll (f x.fmt) (ceilDiv x.n 128) none (fun i =>
      (decide (i < x.n) && start i, if on i then some (x.eng.elem x.body.va i) else none)) 0
    let y := fun (i : Nat) => canonWord x.fmt <|
      if excl then (if i = 0 ∨ start i then x.arg 1 else (ys.getD (i - 1) none).getD (x.arg 1)) else (ys.getD i none).getD 0
    .ok (x.map y d)⟩

/-- VEC_SCAN_ADD_INCL. -/
def execVecScanAddIncl (v : VecArgs) (s : State) : Out := onCode (.vecScanAddIncl v) (vec (if v.seg then 0x40 else 0x38) (scanOp false v.seg wordAdd) v) s
/-- VEC_SCAN_MIN_INCL. -/
def execVecScanMinIncl (v : VecArgs) (s : State) : Out := onCode (.vecScanMinIncl v) (vec (if v.seg then 0x41 else 0x39) (scanOp false v.seg wordMin) v) s
/-- VEC_SCAN_MAX_INCL. -/
def execVecScanMaxIncl (v : VecArgs) (s : State) : Out := onCode (.vecScanMaxIncl v) (vec (if v.seg then 0x42 else 0x3a) (scanOp false v.seg wordMax) v) s
/-- VEC_SCAN_ADD_EXCL. -/
def execVecScanAddExcl (v : VecArgs) (s : State) : Out := onCode (.vecScanAddExcl v) (vec (if v.seg then 0x44 else 0x3c) (scanOp true v.seg wordAdd) v) s
/-- VEC_SCAN_MIN_EXCL. -/
def execVecScanMinExcl (v : VecArgs) (s : State) : Out := onCode (.vecScanMinExcl v) (vec (if v.seg then 0x45 else 0x3d) (scanOp true v.seg wordMin) v) s
/-- VEC_SCAN_MAX_EXCL. -/
def execVecScanMaxExcl (v : VecArgs) (s : State) : Out := onCode (.vecScanMaxExcl v) (vec (if v.seg then 0x46 else 0x3e) (scanOp true v.seg wordMax) v) s

/-! ### Loads and stores (R147, R153, R435) -/

/-- The claimed segment that holds an address, with the place in it: operand A at a_addr, operand B at b_addr. -/
def VecIn.claimed (x : VecIn) (d : Device) (va : Nat) : Option (Nat × Nat) :=
  [(0, x.it.opAddr 0), (1, x.it.opAddr 0x18)].findSome? fun e =>
    match (x.it.claimOf e.1).bind d.segAt with
    | some s => if x.it.isList ∧ e.2 ≤ va ∧ va < e.2 + s.len then some (s.stamp, va - e.2) else none
    | none => none

/-- A byte as the instruction reads it. -/
def VecIn.byte (x : VecIn) (d : Device) (va : Nat) : Except MemErr Byte :=
  match x.claimed d va with
  | some (st, off) => d.segByte x.actor st off
  | none => d.readByte x.actor va

/-- A little-endian number of `n` bytes. -/
def VecIn.nat (x : VecIn) (d : Device) : Nat → Nat → Except MemErr Nat
  | 0, _ => .ok 0
  | n + 1, va => do
    let b ← x.byte d va
    let r ← x.nat d n (va + 1)
    pure (b.toNat + 256 * r)

/-- The bits of an element that begins at a bit of the array at an address. -/
def VecIn.bits (x : VecIn) (d : Device) (va bit : Nat) : Except MemErr Nat := do
  let w ← x.nat d (ceilDiv (bit % 8 + fmtBits x.fmt) 8) (va + bit / 8)
  pure (w / 2 ^ (bit % 8) % 2 ^ fmtBits x.fmt)

/-- The part of a byte string that a list saves with its stores (R435): a place in the segment and the bytes there. -/
def VecIn.saved (x : VecIn) (va : Nat) (bs : List Byte) : Nat × List Byte :=
  let lo := x.it.opAddr 0x30
  let hi := lo + field x.it.desc 0x28 8
  (max va lo - lo, (bs.drop (lo - va)).take (hi - max va lo))

/-- A store of bytes, also to the segment the list saves to. -/
def VecIn.store (x : VecIn) (d : Device) (va : Nat) (bs : List Byte) : Except MemErr Device := do
  let d1 ← d.writeVa x.actor 4 va bs
  let part := x.saved va bs
  if x.it.isList && x.it.save.isSome && !part.2.isEmpty then d1.saveBytes x.it x.actor part.1 part.2 else pure d1

/-- Stores the bits of an element at a bit of the array at an address. -/
def VecIn.putBits (x : VecIn) (d : Device) (va bit code : Nat) : Except MemErr Device := do
  let b := fmtBits x.fmt
  let first ← if bit % 8 = 0 then pure 0 else x.nat d 1 (va + bit / 8)
  let last ← if (bit + b) % 8 = 0 then pure 0 else x.nat d 1 (va + (bit + b) / 8)
  x.store d (va + bit / 8) (packBytes b bit [code] (first, last))

/-- Formats of loads and stores (R21). -/
def vecFmts : List Nat := List.range 15

/-- The base, the conversion byte and the alignment are checked first (R29, R147). -/
def VecIn.checked (x : VecIn) (go : Except MemErr Device) : Except MemErr Device :=
  let va := x.arg64 2
  if !convOk ((x.arg 1).toNat % 256) then .error vecIllegal
  else if fmtBits x.fmt % 8 = 0 ∧ va % (fmtBits x.fmt / 8) ≠ 0 then .error (vecMisaligned va)
  else go

/-- An element as a load widens it (R147). The scale of an MX element is that of its index in the instruction, i / 32, also where
elements lie a stride apart, for which the spec names none (DESIGN CHOICE, log 100). -/
def VecIn.widen (x : VecIn) (d : Device) (i bits : Nat) : Except MemErr Word :=
  match x.fmt with
  | 0x00 => .ok (BitVec.ofNat 32 bits)
  | 0x01 => .ok (BitVec.ofNat 32 bits)
  | 0x02 => .ok (BitVec.ofNat 32 bits)
  | 0x07 => .ok (BitVec.ofInt 32 (signed 8 bits))
  | 0x08 => .ok (BitVec.ofNat 32 bits)
  | f =>
    if isMx f then do
      let sc ← x.nat d 1 (x.arg64 4 + i / 32)
      pure (ofNum (mxNum f bits sc))
    else .ok (ofNum (elemNum f bits))

/-- A load of the active elements, `stride` elements apart. -/
def VecIn.load (x : VecIn) (stride : Nat) (d : Device) : Except MemErr Device :=
  x.checked do
    let xs ← x.active.mapM fun i => do
      let w ← x.bits d (x.arg64 2) (i * stride * fmtBits x.fmt)
      let v ← x.widen d i w
      pure (i, v)
    pure (d.updVe x.die x.k fun e => e.put x.body.vd xs)

/-- The rounding mode of element `i` of a store (R153). -/
def VecIn.rnd (x : VecIn) (i : Nat) : Rnd :=
  convRnd ((x.arg 1).toNat % 256) (cb10 x.seed (x.arg 6) (x.arg 7) (x.arg64 8 + i))

/-- The value of element `i` in a block of a store: an inactive one counts +0. -/
def VecIn.blockNum (x : VecIn) (i : Nat) : Num := if x.eng.mbit x.body.vm i then toNum (x.eng.elem x.body.va i) else numZero

/-- The scales of an MX store, and the code of each element (R31, R45). -/
def VecIn.mxCodes (x : VecIn) : List Nat × List Nat :=
  mxRow x.fmt x.rnd (x.n + 1) 0 ((List.range x.n).map x.blockNum)

/-- The code of an element that is not MX; a raw byte of more than 8 bits is free (log 50). Registers carry no type, and an INT8 store
takes the element as an s32 (DESIGN CHOICE, log 100). -/
def VecIn.code (x : VecIn) (i : Nat) : Nat :=
  let w := x.eng.elem x.body.va i
  match x.fmt with
  | 0x01 => w.toNat
  | 0x02 => w.toNat
  | 0x07 => convert 0x07 (x.rnd i) (convSat ((x.arg 1).toNat % 256)) (ofSigned w.toInt 0)
  | 0x08 => if w.toNat < 256 then w.toNat else (Config.freeNarrow w).toNat
  | f => convert f (x.rnd i) (convSat ((x.arg 1).toNat % 256)) (toNum w)

/-- A store of the active elements, `stride` elements apart, in increasing index. -/
def VecIn.save (x : VecIn) (stride : Nat) (d : Device) : Except MemErr Device :=
  x.checked do
    let mx := if isMx x.fmt then x.mxCodes else ([], [])
    let d1 ← x.active.foldlM (fun d i =>
      x.putBits d (x.arg64 2) (i * stride * fmtBits x.fmt) (if isMx x.fmt then mx.2.getD i 0 else x.code i)) d
    (mx.1.zipIdx.filter fun b => x.active.any fun i => i / 32 == b.2).foldlM (fun d b =>
      x.store d (x.arg64 4 + b.2) [BitVec.ofNat 8 b.1]) d1

/-- Does a store draw random words: a stochastic conversion to a narrower format? -/
def storeDraws (conv fmt : Nat) : Bool := stochastic conv && !fmts32.contains fmt && fmt != 0x08

/-- Does the store? -/
def VecIn.draws (x : VecIn) : Bool := storeDraws ((x.arg 1).toNat % 256) x.fmt

/-- VEC_LD. -/
def execVecLd (v : VecArgs) (s : State) : Out := onCode (.vecLd v) (vec 0x48 ⟨10, vecFmts, fun _ => false, fun x => x.load 1⟩ v) s
/-- VEC_ST. -/
def execVecSt (v : VecArgs) (s : State) : Out := onCode (.vecSt v) (vec 0x49 ⟨10, vecFmts, VecIn.draws, fun x => x.save 1⟩ v) s
/-- VEC_LDS. -/
def execVecLds (v : VecArgs) (s : State) : Out :=
  onCode (.vecLds v) (vec 0x4a ⟨11, vecFmts, fun _ => false, fun x => x.load (x.arg 10).toNat⟩ v) s
/-- VEC_STS. -/
def execVecSts (v : VecArgs) (s : State) : Out :=
  onCode (.vecSts v) (vec 0x4b ⟨11, vecFmts, VecIn.draws, fun x => x.save (x.arg 10).toNat⟩ v) s

/-- The address of a gathered or scattered element: the index counts elements. -/
def VecIn.indexed (x : VecIn) (i : Nat) : Nat := x.arg64 2 + 4 * (x.eng.elem x.body.vb i).toNat

/-- The base of a gather or scatter is aligned to its elements (R147). -/
def VecIn.aligned4 (x : VecIn) (go : Except MemErr Device) : Except MemErr Device :=
  if x.arg64 2 % 4 ≠ 0 then .error (vecMisaligned (x.arg64 2)) else go

/-- VEC_GATHER's operation. -/
def vecGather : VecOp :=
  ⟨4, fmts32, fun _ => false, fun x d => x.aligned4 do
    let xs ← x.active.mapM fun i => do
      let w ← x.nat d 4 (x.indexed i)
      pure (i, BitVec.ofNat 32 w)
    pure (d.updVe x.die x.k fun e => e.put x.body.vd xs)⟩

/-- VEC_SCATTER's operation: the highest index writes last. -/
def vecScatter : VecOp :=
  ⟨4, fmts32, fun _ => false, fun x d => x.aligned4
    (x.active.foldlM (fun d i => x.store d (x.indexed i) (leBytes 4 (x.eng.elem x.body.va i).toNat)) d)⟩

/-- VEC_GATHER. -/
def execVecGather (v : VecArgs) (s : State) : Out := onCode (.vecGather v) (vec 0x4c vecGather v) s
/-- VEC_SCATTER. -/
def execVecScatter (v : VecArgs) (s : State) : Out := onCode (.vecScatter v) (vec 0x4d vecScatter v) s

/-- A conversion between FP32, s32 and u32; a NaN becomes the canonical NaN (R23). From FP32 to an integer it rounds to nearest even,
saturates, and gives 0 for a NaN, and between s32 and u32 it keeps the bits: the spec states none of these (DESIGN CHOICE,
log 100). -/
def cvtWord (dst src : Nat) (w : Word) : Word :=
  match dst, src with
  | 0x00, 0x01 => Fp.ofS32 w
  | 0x00, 0x02 => Fp.ofU32 w
  | 0x01, 0x00 => Fp.toS32 .nearest w
  | 0x02, 0x00 => Fp.toU32 .nearest w
  | 0x00, 0x00 => ofNum (toNum w)
  | _, _ => w

/-- VEC_CVT's operation: the source format is an operand. -/
def vecCvt : VecOp :=
  ⟨2, fmts32, fun _ => false, fun x d =>
    if !fmts32.contains (x.arg 1).toNat then .error vecIllegal
    else .ok (x.map (fun i => cvtWord x.fmt (x.arg 1).toNat (x.eng.elem x.body.va i)) d)⟩

/-- VEC_CVT. -/
def execVecCvt (v : VecArgs) (s : State) : Out := onCode (.vecCvt v) (vec 0x50 vecCvt v) s

end Sys2Proof.Machine
end

