-- ==== Sys2Proof/Machine/Random.lean ====
section
/-! DEFINITION. Random vector instructions, dropout, and the grants of a die's generator (R154 to R160). -/

namespace Sys2Proof.Machine

/-! ### Random instructions (R154, R155) -/

/-- The word of element `i`: tensor and stream ids, and the base its index counts from (R155, R198). -/
def VecIn.rand (x : VecIn) (i : Nat) : Word := cb10 x.seed (x.arg 1) (x.arg 2) (x.arg64 3 + i)

/-- Formats a random instruction may carry; it does not look at them. -/
def randFmts : List Nat := List.range 16

/-- RAND.U32's operation. -/
def randU32 : VecOp := ⟨8, randFmts, fun _ => true, fun x d => .ok (x.map x.rand d)⟩

/-- The upper 24 bits of a word as a fraction of 1. -/
def unitWord (w : Word) : Word := ofNum (.fin false (w.toNat / 256) (-24))

/-- RAND.UNI's operation. -/
def randUni : VecOp := ⟨8, randFmts, fun _ => true, fun x d => .ok (x.map (fun i => unitWord (x.rand i)) d)⟩

/-- RAND.BERN's operation: vm0 is no destination. -/
def randBern : VecOp :=
  ⟨8, randFmts, fun _ => true, fun x d =>
    if x.body.vmx = 0 then .error vecIllegal
    else
      let bs := x.active.map fun i => (i, decide ((x.rand i).toNat < (x.arg 5).toNat))
      .ok (d.updVe x.die x.k fun e => e.putMask x.body.vmx bs)⟩

/-- RAND_U32. -/
def execRandU32 (v : VecArgs) (s : State) : Out := onCode (.randU32 v) (vec 0x58 randU32 v) s
/-- RAND_UNI. -/
def execRandUni (v : VecArgs) (s : State) : Out := onCode (.randUni v) (vec 0x59 randUni v) s
/-- RAND_BERN. -/
def execRandBern (v : VecArgs) (s : State) : Out := onCode (.randBern v) (vec 0x5a randBern v) s

/-! ### Dropout (R157) -/

/-- The element index of element `i`: from the index register vb where one is named. -/
def VecIn.dropAt (x : VecIn) (i : Nat) : Nat := if (x.arg 7).getLsbD 0 then (x.eng.elem x.body.vb i).toNat else i

/-- The function of DROP.FWD and DROP.BWD: +0 where the word is below T, else the element times the scale. -/
def dropOp : VecOp :=
  ⟨8, [0x00], fun _ => true, fun x d => .ok (x.map (fun i =>
    if (x.rand (x.dropAt i)).toNat < (x.arg 5).toNat then 0 else Fp.mul (x.eng.elem x.body.va i) (x.arg 6)) d)⟩

/-- DROP_FWD. -/
def execDropFwd (v : VecArgs) (s : State) : Out := onCode (.dropFwd v) (vec 0x5b dropOp v) s
/-- DROP_BWD. -/
def execDropBwd (v : VecArgs) (s : State) : Out := onCode (.dropBwd v) (vec 0x5c dropOp v) s

/-! ### CB10_GRANT (R156, R158 to R160) -/

/-- The base that a vector instruction's random words count from, where it draws any: a random instruction, or a store with a
stochastic conversion (R153, R155, R157, R198). -/
def drawBase (op fmt : Nat) (u : List Word) : Option Nat :=
  let at_ := fun (j : Nat) => (u.getD j 0).toNat + 2 ^ 32 * (u.getD (j + 1) 0).toNat
  if 0x58 ≤ op ∧ op ≤ 0x5C then some (at_ 3)
  else if (op = 0x49 ∨ op = 0x4B) ∧ storeDraws ((u.getD 1 0).toNat % 256) fmt = true then some (at_ 8)
  else none

/-- The base from which a pack's instruction draws on engine k, where that is its instruction. -/
def Device.packDraw (d : Device) (b : KBlock) (p k : Nat) : Option Nat :=
  let x := d.pack p
  match if x.canIssue then (d.codeAt b x.pc).bind jkfParts else none with
  | some (8, op, _, bits) =>
    let y := VecBody.ofBits bits
    if y.k.toNat = k then drawBase op y.fmt.toNat (x.block y.ub.toNat 11) else none
  | _ => none

/-- The item that a vector engine draws words for, with the base they count from: the list it runs, at its entry, or the block that
holds it, at the instruction of a pack. -/
def Device.vecDraw (d : Device) (die k : Nat) : Option (Item × Nat) :=
  let e := d.vecEng die k
  match e.running.bind fun x => d.item x.1 x.2 with
  | some it =>
    (match if it.isList then d.listEntry it (it.actor (some die)) e.listPos else .error vecIllegal with
      | .ok (w, u) =>
        let y := VecBody.ofBits (w.extractLsb' 0 46)
        if listWordOk w then (drawBase (w.extractLsb' 52 8).toNat y.fmt.toNat u).map fun b => (it, b) else none
      | .error _ => none)
  | none =>
    e.holder.bind fun n => (d.block n).bind fun b => (d.item b.ctx b.seq).bind fun it =>
      ((packsOf n).findSome? fun p => d.packDraw b p k).map fun x => (it, x)

/-- The item that a unit draws words for: of a row engine, that of the tile that drains with stochastic rounding (R159). -/
def Device.drawer (d : Device) (die u : Nat) : Option Item :=
  if 8 ≤ u then (d.vecDraw die (u - 8)).map Prod.fst
  else
    (((d.re die u).drainBank.bind fun b => b.2.tile).bind fun t => d.item t.ctx t.seq).filter fun it =>
      stochastic (d.prod it).conv

/-- The blocks that a request asks for: of a vector engine's beat 32, or 33 where its base is no multiple of 4; of a drain what it
says (R156). -/
def Device.drawBlocks (d : Device) (die : Nat) (r : DrawReq) : Nat :=
  if 8 ≤ r.unit then (match d.vecDraw die (r.unit - 8) with
    | some (_, b) => if b % 4 = 0 then 32 else 33
    | none => 0)
  else r.blocks

/-- Is a request one that the generator can be given: its unit draws words, for work of its class, at most 33 blocks? -/
def Device.drawOk (d : Device) (die : Nat) (r : DrawReq) : Bool :=
  decide (r.unit < 16) && decide (0 < d.drawBlocks die r ∧ d.drawBlocks die r ≤ 33) &&
    (d.drawer die r.unit).any fun it => it.cls == r.cls

/-- Does a unit that was not granted its blocks issue nothing else for it: a row engine whose other bank does not fill, and whose next
tile there is none or its drain holds the bank of (R55, R158)? -/
def Device.drawWaits (d : Device) (die u : Nat) : Bool :=
  if 8 ≤ u then true
  else
    let r := d.re die u
    let fills := fun (b : Bank) => b.st == .filling && match b.tile.bind fun t => (d.item t.ctx t.seq).map fun it => (t, it) with
      | some (t, it) => decide (b.pos < if b.comb then t.m else (d.prod it).length t)
      | none => false
    !(fills r.bank0 || fills r.bank1) && (r.queue.isEmpty || !r.nextBank.ready)

/-- The cycles of a request that is not granted count under the first cause that applies, RNG_WAIT among them where the unit waits for
its blocks (R55, R156, R158). -/
def Device.chargeDraw (d : Device) (die cycles : Nat) (r : DrawReq) : Device :=
  match d.drawer die r.unit, d.drawWaits die r.unit with
  | some it, true =>
    (match stallCause r.unit (Nat.lor r.causes (2 ^ 9)) with
      | some j => d.chargeStall it.ctx die r.unit j cycles
      | none => d)
  | _, _ => d

/-- Requests in the order the arbiter serves them: class 0 first, then round-robin behind the last winner. -/
def grantOrder (last : Nat) (reqs : List DrawReq) : List DrawReq :=
  let turn := ((List.range 8).map fun i => (last + 1 + i) % 8).flatMap fun k => reqs.filter fun r => r.unit % 8 == k
  turn.filter (fun r => r.cls == 0) ++ turn.filter fun r => r.cls != 0

/-- Whole requests granted from what the generator has left; a request of 33 blocks takes two cycles alone. -/
def grants (blocks : DrawReq → Nat) : Nat → List DrawReq → List DrawReq
  | _, [] => []
  | left, r :: rs =>
    if blocks r ≤ left then r :: grants blocks (left - blocks r) rs
    else if left = 32 ∧ blocks r = 33 then [r]
    else grants blocks left rs

/-- CB10_GRANT: one grant of a die's generator; requests of units that draw nothing are not looked at. -/
def cb10Grant (die : Nat) (reqs : List DrawReq) (d : Device) : Device :=
  let b := d.die die
  let blocks := d.drawBlocks die
  let real := reqs.filter (d.drawOk die)
  let won := if b.rng.isOn then grants blocks 32 (grantOrder b.rngLast real) else []
  let lost := real.filter fun r => !won.contains r
  let cycles := if won.any fun r => blocks r == 33 then 2 else 1
  let d1 := won.foldl (fun d r => match d.drawer die r.unit with
    | some it => d.count it.ctx 75 (blocks r)
    | none => d) d
  let d2 := lost.foldl (Device.chargeDraw · die cycles ·) d1
  d2.updDie die fun y => { y with
    rngLast := match won.getLast? with
      | some r => r.unit % 8
      | none => y.rngLast
    rngWait := lost.foldl (fun w r => w ||| (1#8 <<< (r.unit % 8))) 0 }

/-- CB10_GRANT. -/
def execCb10Grant (die : Nat) (reqs : List DrawReq) (s : State) : Out := onDev (fun _ => cb10Grant die reqs) s

end Sys2Proof.Machine
end

