-- ==== Sys2Proof/Machine/Stream.lean ====
section
/-! DEFINITION. Stream operations: ZC.COMPRESS, S24.COMPRESS, PRUNE24T, NNZ.HIST, from items and from kernels (R59 to R62,
R67 to R73, R80, R81, R150 to R153, R160, R198, R264, R265, R434, R435). -/

namespace Sys2Proof.Machine

/-! ### Fields (R264, R265) -/

/-- Extents, format and flags of a stream operation. -/
def Item.sRows (it : Item) : Nat := field it.desc 0x20 4
def Item.sCols (it : Item) : Nat := field it.desc 0x24 4
def Item.sFmt (it : Item) : Nat := field it.desc 0x1A 1
def Item.sFlag (it : Item) (i : Nat) : Bool := bitOf (field it.desc 0x1B 1) i

/-- Where the source lies: at a_addr, or in a claimed segment. -/
def Item.sSrc (it : Item) : Src :=
  match it.claimOf 0 with
  | some st => .seg st 0
  | none => .va (it.opAddr 0)

/-- Where the pattern array lies: at b_addr, or in a claimed segment. -/
def Item.sPat (it : Item) : Src :=
  match it.claimOf 1 with
  | some st => .seg st 0
  | none => .va (it.opAddr 0x18)

/-- The source as a dense tensor; `along` says that MX blocks run along its rows. -/
def Item.sTen (it : Item) (along : Bool) : Ten :=
  let aux := match it.claimOf 0 with
    | some st => Src.seg st (alignedBytes (it.sRows * it.sCols) it.sFmt)
    | none => .va (it.opAddr 8)
  let ld := if (it.claimOf 0).isSome then 0 else field it.oprec 0x60 4
  ⟨it.sSrc, aux, it.sFmt, it.sRows, it.sCols, ld, along⟩

/-- The source's masks, for NNZ.HIST on a ZC tensor. -/
def Device.sMasks (d : Device) (it : Item) : Zc :=
  match it.claimOf 0 with
  | some st =>
    let len := match d.segAt st with
      | some s => s.len
      | none => 0
    ⟨.seg st (zcSegOffsets len it.sRows it.sCols).1, .va 0, .va 0, it.sFmt, it.sCols⟩
  | none => ⟨.va (it.opAddr 8), .va 0, .va 0, it.sFmt, it.sCols⟩

/-- Formats of the B operand of a row engine (R40, R150). -/
def bFmts : List Nat := [0x03, 0x04, 0x05, 0x06, 0x07, 0x09, 0x0A, 0x0B, 0x0C, 0x0D, 0x0E]

/-- Is a stream operation's format one it takes (of PRUNE24T and of NNZ.HIST on a dense tensor, any element format), and is every address it does not use 0 (R150, R262, R265)? -/
def streamLegal (it : Item) : Bool :=
  let op := field it.desc 0x19 1
  let claimed := claims? it.oprec 0
  let zero := fun (used : Bool) (off : Nat) => used || it.opAddr off == 0
  let some_ := fun (off : Nat) => it.opAddr off != 0 || saves? it.oprec
  let fmtOk := match op with
    | 0x60 => zcFmt it.sFmt
    | 0x61 => bFmts.contains it.sFmt
    | 0x63 => if it.sFlag 3 then zcFmt it.sFmt else decide (it.sFmt ≤ 0x0E)
    | _ => decide (it.sFmt ≤ 0x0E)
  let aux := if op == 0x63 then it.sFlag 3 else op != 0x60 && isMx it.sFmt
  fmtOk && zero (aux || claimed) 0x08 && zero (op == 0x63 && it.sFlag 3 == false || op != 0x63 || claimed) 0 &&
    zero (op == 0x61 && it.sFlag 1 || claims? it.oprec 1) 0x18 && [0x10, 0x20, 0x28, 0x40, 0x48, 0x50].all (zero false) &&
    zero (op != 0x62 || it.sFlag 2) 0x30 && zero (op == 0x60 || op == 0x63) 0x58 && (op == 0x62 || some_ 0x30) &&
    some_ 0x38

/-- Alignment of the arrays (R59, R72). -/
def streamAligned (it : Item) : Bool :=
  match field it.desc 0x19 1 with
  | 0x60 => it.opAddr 0x30 % 32 == 0 && it.opAddr 0x38 % 64 == 0 && it.opAddr 0x58 % 64 == 0
  | 0x61 => it.opAddr 0x38 % 64 == 0
  | 0x63 => !it.sFlag 3 || it.opAddr 8 % 64 == 0
  | _ => true

/-- Writes bytes at an offset of an output array, unless it is only saved. -/
def Device.putOut (d : Device) (a : Actor) (base off : Nat) (bs : List Byte) : Except MemErr Device :=
  if base = 0 then .ok d else d.writeVa a 4 (base + off) bs

/-- Saves whole arrays to the item's segment, each from the next 64 B boundary (R434). -/
def Device.saveArrays (d : Device) (it : Item) (a : Actor) : Nat → List (List Byte) → Except MemErr Device
  | _, [] => .ok d
  | off, bs :: rest => do
    let d1 ← if bs.isEmpty then pure d else d.saveBytes it a off bs
    d1.saveArrays it a (ceilDiv (off + bs.length) 64 * 64) rest

/-- The bits of every element of a row. -/
def Device.rowBits (d : Device) (a : Actor) (t : Ten) (r : Nat) : Except MemErr (List Nat) :=
  (List.range t.len).mapM fun c => d.tenBits a t r c

/-! ### ZC.COMPRESS (R71 to R73, R79, R151) -/

/-- Bytes of a list of element codes, up to a multiple of `pad` bytes. -/
def codeBytes (fmt pad : Nat) (codes : List Nat) : List Byte :=
  leBytes (ceilDiv (ceilDiv (codes.length * fmtBits fmt) 8) pad * pad) (packNum (fmtBits fmt) codes)

/-- Mask words of a row. -/
def maskBytes (fmt : Nat) (codes : List Nat) : List Byte :=
  (List.range (ceilDiv codes.length 64)).flatMap fun j =>
    leBytes 8 (packNum 1 (((codes.drop (64 * j)).take 64).map fun x => bit (!isZeroCode fmt x)))

/-- A compressed row: its masks and its values. -/
def zcRowOf (fmt : Nat) (codes : List Nat) : List Byte × List Byte :=
  (maskBytes fmt codes, codeBytes fmt 32 (codes.filter fun x => !isZeroCode fmt x))

/-- Row table entries: start and length in units of 32 B. -/
def rowTable : Nat → List (List Byte) → List Byte
  | _, [] => []
  | at_, vs :: rest => leBytes 4 at_ ++ leBytes 4 (vs.length / 32) ++ rowTable (at_ + vs.length / 32) rest

/-- A save's length starts at what the compressor writes. -/
def Device.startSeg (d : Device) (it : Item) : Device :=
  match it.save with
  | none => d
  | some t => d.mapMem fun m => { m with segs := m.segs.map fun s =>
      if s.tag == t && s.saver == it.seq then { s with len := 0 } else s }

/-- The pieces of bytes at an address of the context, in units of 8 B, where they all lie with one context of one node. -/
def Device.peerPieces (d : Device) (c node rctx : Nat) : Nat → List (List Byte) → Option (List (Nat × List Byte))
  | _, [] => some []
  | va, bs :: rest =>
    match translate d c va .write, d.peerPieces c node rctx (va + bs.length) rest with
    | .ok (.peer n rc a, _), some ps =>
      if n = node ∧ rc = rctx then
        some (match ps with
          | (b, cs) :: qs => if b = a + bs.length then (a, bs ++ cs) :: qs else (a, bs) :: ps
          | [] => [(a, bs)])
      else none
    | _, _ => none

/-- Bytes in units of 8. -/
def by8 : Nat → List Byte → List (List Byte)
  | 0, _ => []
  | n + 1, bs => if bs.isEmpty then [] else bs.take 8 :: by8 n (bs.drop 8)

/-- A row of a ZC tensor goes to partner memory in one frame (R321): its arrays lie with one context of one node, in pages wherever
the mapping places them. A row that does not is written in the same order without a frame (log 72). -/
def Device.zcFrameOf (d : Device) (c q : Nat) (mVa vVa rVa : Nat) (masks vals : List Byte) (row : Dword) :
    Option (Nat × ZcFrame) :=
  match translate d c rVa .write with
  | .ok (.peer n rc r, _) =>
    match d.peerPieces c n rc mVa (by8 masks.length masks), d.peerPieces c n rc vVa (by8 vals.length vals) with
    | some ms, some vs => some (n, ⟨d.ports.nextTag, d.ports.node.toNat, c, rc, ms, vs, r, row, n, d.channelOf c q 3⟩)
    | _, _ => none
  | _ => none

/-- Writes one row of a ZC tensor: masks, values, then the row-table entry, or the frame that carries them. -/
def Device.putZcRow (d : Device) (it : Item) (a : Actor) (mOff vOff rOff : Nat) (row : List Byte × List Byte) :
    Except MemErr Device :=
  let (masks, vals) := row
  let entry : Dword := BitVec.ofNat 64 (vOff / 32 + vals.length / 32 * 2 ^ 32)
  let frame := if it.opAddr 0x38 = 0 ∨ it.opAddr 0x58 = 0 ∨ it.opAddr 0x30 = 0 then none
    else d.zcFrameOf a.ctx a.seq (it.opAddr 0x38 + mOff) (it.opAddr 0x30 + vOff) (it.opAddr 0x58 + rOff) masks vals entry
  match frame with
  | some (n, f) =>
    match d.peerGate a.ctx n (it.opAddr 0x58 + rOff) with
    | .error e => .error e
    | .ok p =>
      .ok (((d.updItem a.ctx a.seq fun x => { x with unmet := Nat.lor x.unmet 16 }).mapPorts fun x => { x with
        out := x.out ++ [⟨f.tag, p, a.ctx, a.seq, n, f.ctx, f.rowVa, masks.length + vals.length + 8, true, it.opAddr 0x58 + rOff, .store, noPc⟩]
        nextTag := f.tag + 1 }).emit (.zcFrame p f))
  | none => do
    let d1 ← d.putOut a (it.opAddr 0x38) mOff masks
    let d2 ← d1.putOut a (it.opAddr 0x30) vOff vals
    d2.putOut a (it.opAddr 0x58) rOff (leBytes 8 entry.toNat)

/-- Writes the rows of a ZC tensor one after another. -/
def Device.zcRows (it : Item) (a : Actor) : Nat → Nat → Nat → List (List Byte × List Byte) → Device → Except MemErr Device
  | _, _, _, [], d => .ok d
  | m, v, r, x :: xs, d =>
    match d.putZcRow it a m v r x with
    | .error e => .error e
    | .ok d1 => Device.zcRows it a (m + x.1.length) (v + x.2.length) (r + 8) xs d1

/-- ZC.COMPRESS. A declared size that is too small fails it before anything is written, so that no mix is left (R151). -/
def zcCompress (it : Item) (a : Actor) (d : Device) : Except MemErr Device :=
  if field it.desc 0x28 8 < it.sRows * zcRowBytes it.sCols it.sFmt then
    .ok ((d.updItem it.ctx it.seq fun x => { x with mixed := true }).itemError it.ctx it.seq .indexRange 0)
  else do
    let rows ← (List.range it.sRows).mapM fun r => do
      let xs ← d.rowBits a (it.sTen true) r
      pure (zcRowOf it.sFmt xs)
    let vals := rows.flatMap Prod.snd
    let masks := rows.flatMap Prod.fst
    let tab := rowTable 0 (rows.map Prod.snd)
    let d3 ← Device.zcRows it a 0 0 0 rows d
    let d4 ← (d3.startSeg it).saveArrays it a 0 [vals, masks, tab]
    pure ((d4.count it.ctx 76 it.sRows).count it.ctx 77 (vals.length / 32))

/-! ### S24.COMPRESS (R59 to R62, R435) -/

/-- Order of magnitudes: NaN above infinity above every finite one (R62). -/
def magLt (a b : Num) : Bool :=
  match a, b with
  | .nan, _ => false
  | _, .nan => true
  | .inf _, _ => false
  | .fin _ _ _, .inf _ => true
  | .fin _ m e, .fin _ n f => Num.lt (.fin false m e) (.fin false n f)

/-- The position of the largest magnitude, the lower one first. -/
def largest : List (Nat × Num) → Option Nat
  | [] => none
  | x :: xs => some (xs.foldl (fun a b => if magLt a.2 b.2 then b else a) x).1

/-- The two positions of largest magnitude. -/
def topTwo (xs : List (Nat × Num)) : List Nat :=
  match largest xs with
  | none => []
  | some p => p :: (largest (xs.filter fun x => x.1 != p)).toList

/-- Two positions in ascending order. -/
def ordered (ps : List Nat) : Nat × Nat := (min (ps.getD 0 0) (ps.getD 1 0), max (ps.getD 0 0) (ps.getD 1 0))

/-- What compression makes of a group: its two positions and whether it breaks the rule. `es` holds the positions below K,
with the bits and the value of each. -/
def s24Choose (fmt : Nat) (keeps : Option (List Nat)) (es : List (Nat × Nat × Num)) : (Nat × Nat) × Bool :=
  let nz := (es.filter fun e => !isZeroCode fmt e.2.1).map Prod.fst
  match keeps with
  | some ks => (ordered ks, nz.any fun p => !ks.contains p)
  | none =>
    if 2 < nz.length then (ordered (topTwo (es.map fun e => (e.1, e.2.2))), true)
    else (ordered ((nz ++ (List.range 4).filter fun p => !nz.contains p).take 2), false)

/-- The bits stored for a position: as they are under a pattern, else +0 for a completed one (log 45). -/
def s24Stored (fmt : Nat) (pat : Bool) (es : List (Nat × Nat × Num)) (p : Nat) : Nat :=
  match es.find? fun e => e.1 == p with
  | none => 0
  | some e => if !pat && isZeroCode fmt e.2.1 then 0 else e.2.1

/-- A compressed group: its positions, its two stored codes, whether it breaks the rule. -/
structure Group24 where
  pos  : Nat × Nat
  vals : Nat × Nat
  bad  : Bool
  deriving Repr, Inhabited

/-- The pattern byte of block (g, b), or none where no pattern is followed. Where N is no multiple of 4 a row of blocks takes
ceil(N/4) bytes (log 86). -/
def Device.patByte (d : Device) (it : Item) (a : Actor) (g b : Nat) : Except MemErr (Option Nat) :=
  if it.sFlag 1 then do
    let x ← d.srcNat a it.sPat 1 (g * ceilDiv it.sCols 4 + b)
    pure (some x)
  else .ok none

/-- Compresses group g of column c: magnitudes are compared on element values, without the block scale (R62). A group whose
pattern byte is out of range is not judged (R80). -/
def Device.group24 (d : Device) (it : Item) (a : Actor) (c g : Nat) : Except MemErr Group24 := do
  let t := it.sTen false
  let es ← ((List.range 4).filter fun p => decide (4 * g + p < it.sRows)).mapM fun p => do
    let x ← d.tenBits a t (4 * g + p) c
    pure (p, x, elemNum it.sFmt x)
  let pat ← d.patByte it a g (c / 4)
  let r := s24Choose it.sFmt (pat.map fun x => patternKeeps x (c % 4)) es
  let v := fun (p : Nat) => s24Stored it.sFmt pat.isSome es p
  pure ⟨r.1, (v r.1.1, v r.1.2), r.2 && !(pat.any fun x => decide (90 ≤ x))⟩

/-- Pattern bytes out of range: blocks in row-major order (R68, R80). -/
def Device.badPatterns (d : Device) (it : Item) (a : Actor) : Except MemErr (List Nat) :=
  if it.sFlag 1 then
    failing (List.range (ceilDiv it.sRows 4 * ceilDiv it.sCols 4)) fun i => do
      let x ← d.srcNat a it.sPat 1 i
      pure (decide (90 ≤ x))
  else .ok []

/-- Writes a K-major array of element codes row by row with the destination's stride. -/
def Device.putRows (d : Device) (it : Item) (a : Actor) (rows : List (List Nat)) : Except MemErr Device :=
  let ldc := field it.oprec 0x68 4
  if it.opAddr 0x30 = 0 then .ok d
  else rows.zipIdx.foldlM (fun d r => d.putElems a 4 (it.opAddr 0x30) it.sFmt (r.2 * (if ldc = 0 then it.sCols else ldc)) r.1) d

/-- Metadata words of a column's groups. -/
def metaBytes (gs : List Group24) : List Byte :=
  (List.range (ceilDiv gs.length 16)).flatMap fun w =>
    leBytes 8 (packNum 4 (((gs.drop (16 * w)).take 16).map fun g => g.pos.1 + 4 * g.pos.2))

/-- S24.COMPRESS. -/
def s24Compress (it : Item) (a : Actor) (d : Device) : Except MemErr Device := do
  let n := ceilDiv it.sRows 4
  let pats ← d.badPatterns it a
  let cols ← (List.range it.sCols).mapM fun c => (List.range n).mapM fun g => d.group24 it a c g
  let bad := cols.zipIdx.flatMap fun c => c.1.zipIdx.filterMap fun g => if g.1.bad then some (c.2 * n + g.2) else none
  let strict := !it.sFlag 0 && !bad.isEmpty
  if !pats.isEmpty || strict then
    let d0 := if it.sFlag 0 then d.count it.ctx 48 bad.length else d
    let d1 := pats.foldl (fun d x => d.sparseError it.ctx it.seq .indexRange (detailPos x 2)) d0
    pure (if strict then bad.foldl (fun d x => d.sparseError it.ctx it.seq .structViolation (detailPos x 0)) d1 else d1)
  else
    let rows := (List.range n).flatMap fun g =>
      [cols.map fun c => (c.getD g default).vals.1, cols.map fun c => (c.getD g default).vals.2]
    let ms := cols.flatMap metaBytes
    let d1 ← d.putRows it a rows
    let d2 ← d1.putOut a (it.opAddr 0x38) 0 ms
    let d3 ← d2.saveArrays it a 0 [codeBytes it.sFmt 1 rows.flatten, ms]
    pure ((d3.updItem it.ctx it.seq fun x => { x with pruned := x.pruned || !bad.isEmpty }).count it.ctx 48 bad.length)

/-! ### PRUNE24T (R68, R69) -/

/-- Count of non-finite magnitudes kept and exact sum of the finite ones. -/
def pruneKey (m : Nat → Nat → Num) (t : List Nat) : Nat × Num :=
  (t.zipIdx.flatMap fun c => (pairPos c.1).map fun k => m k c.2).foldl (fun s x =>
    match x with
    | .fin _ v e => (s.1, s.2.add (.fin false v e))
    | _ => (s.1 + 1, s.2)) (0, numZero)

/-- Is a key greater? -/
def keyLt (a b : Nat × Num) : Bool := decide (a.1 < b.1) || a.1 == b.1 && Num.lt a.2 b.2

/-- The admissible pattern with the largest score, the lowest index first. -/
def prunePattern (m : Nat → Nat → Num) : Nat :=
  (patterns.zipIdx.foldl (fun b t =>
    let k := pruneKey m t.1
    if keyLt b.2 k then (t.2, k) else b) (0, pruneKey m (patterns.getD 0 []))).1

/-- The elements of block (a, b): bits and values by K position and column. -/
def Device.block44 (d : Device) (it : Item) (act : Actor) (a b : Nat) : Except MemErr (List (List (Nat × Num))) :=
  let t := it.sTen false
  (List.range 4).mapM fun k => (List.range 4).mapM fun j => do
    let x ← d.tenBits act t (4 * a + k) (4 * b + j)
    let v ← d.tenNum act t (4 * a + k) (4 * b + j) x
    pure (x, v)

/-- The magnitude at a place of a block. -/
def blockAt (es : List (List (Nat × Num))) (k j : Nat) : Nat × Num := (es.getD k []).getD j (0, numZero)

/-- PRUNE24T. Where K or N is no multiple of 4 the detail names position 0 of the A operand (log 87). -/
def prune24t (it : Item) (a : Actor) (d : Device) : Except MemErr Device :=
  if it.sRows % 4 ≠ 0 ∨ it.sCols % 4 ≠ 0 then .ok (d.itemError it.ctx it.seq .indexRange (detailPos 0 0))
  else do
    let blocks ← (List.range (it.sRows / 4)).mapM fun x => (List.range (it.sCols / 4)).mapM fun y => do
      let es ← d.block44 it a x y
      pure (prunePattern (fun k j => (blockAt es k j).2), es)
    let pats := blocks.flatten.map fun b => BitVec.ofNat 8 b.1
    let rows := blocks.flatMap fun bs => (List.range 4).map fun k => bs.flatMap fun b => (List.range 4).map fun j =>
      if (patternKeeps b.1 j).contains k then (blockAt b.2 k j).1 else 0
    let d1 ← if it.sFlag 2 then d.putRows it a rows else pure d
    let d2 ← d1.putOut a (it.opAddr 0x38) 0 pats
    d2.saveArrays it a 0 [if it.sFlag 2 then codeBytes it.sFmt 1 rows.flatten else [], pats]

/-! ### NNZ.HIST (R74, R152) -/

/-- Stored positions of a row: of a ZC tensor by its masks, of a dense one those that are not ±0. -/
def Device.nnzRow (d : Device) (it : Item) (a : Actor) (r : Nat) : Except MemErr (List Nat) :=
  if it.sFlag 3 then d.zcStored a (d.sMasks it) r
  else do
    let xs ← d.rowBits a (it.sTen true) r
    pure ((xs.zipIdx.filter fun x => !isZeroCode it.sFmt x.1).map Prod.snd)

/-- Beats of a row whose windows hold 2n positions. -/
def rowBeats (n cols : Nat) (ps : List Nat) : Nat :=
  ((List.range (ceilDiv cols (2 * n))).map fun w =>
    ceilDiv (ps.filter fun p => decide (2 * n * w ≤ p ∧ p < 2 * n * (w + 1))).length n).sum

/-- NNZ.HIST. -/
def nnzHist (it : Item) (a : Actor) (d : Device) : Except MemErr Device := do
  let rows ← (List.range it.sRows).mapM fun r => d.nnzRow it a r
  let bad := rows.zipIdx.filter fun r => r.1.any fun p => decide (it.sCols ≤ p)
  if !bad.isEmpty then
    pure (bad.foldl (fun d r => d.sparseError it.ctx it.seq .indexRange (detailPos r.2 3)) d)
  else
    let n := if it.sFlag 4 then 64 else 32
    let beats := rows.map (rowBeats n it.sCols)
    let u32s := fun (xs : List Nat) => xs.flatMap (leBytes 4)
    let hist := (List.range 256).map fun b => (beats.filter fun x => min x 255 == b).length
    let d1 ← d.putOut a (it.opAddr 0x30) 0 (u32s beats)
    let d2 ← d1.putOut a (it.opAddr 0x38) 0 (u32s (rows.map List.length))
    let d3 ← d2.putOut a (it.opAddr 0x58) 0 (u32s hist)
    d3.saveArrays it a 0 [u32s beats, u32s (rows.map List.length), u32s hist]

/-! ### Running a stream operation -/

/-- The item that an engine runs a stream operation for. -/
def Device.streamAt (d : Device) (it : Item) : Option (Nat × Nat) :=
  (d.sliceEngines it.slice).find? fun e =>
    (d.vecEng e.1 e.2).running == some (it.ctx, it.seq) && (d.vecEng e.1 e.2).stream

/-- Counts a stream operation; the spec names no VE_BEATS for one, and the model adds none (R160; DESIGN CHOICE, log 100). -/
def Device.streamCount (d : Device) (c die k : Nat) (rep : Report) : Device := (d.count c 73 1).charge c die (8 + k) rep

/-- A stream operation: what it does for an item, its reads and writes being those of an actor. -/
abbrev StreamOp := Item → Actor → Device → Except MemErr Device

/-- The lines a stream operation reads come to its engine first, as operands of TC4; those of a claimed segment as TC1 (R227,
R234 to R243). -/
def StreamOp.reads (op : StreamOp) (it : Item) (die k : Nat) (d : Device) : Fetch Unit :=
  d.fetch (it.actor (some die)) die (8 + k) (fun _ => 4) fun a => (op it a d).map fun _ => ()

/-- The pieces of 4,096 input elements after each of which a stream operation yields (R288). -/
def Item.streamParts (it : Item) : Nat := max 1 (ceilDiv (it.sRows * it.sCols) 4096)

/-- A stream operation behind its reads: it comes to the end of a piece of its input, where it can yield, and at the end of the last
one its output stands (R288; log 51). -/
def streamPart (op : StreamOp) (it : Item) (rep : Report) (p : Platform) (d : Device) (die k : Nat) : Device :=
  if (d.vecEng die k).listPos + 1 < it.streamParts then d.updVe die k fun e => { e with listPos := e.listPos + 1 }
  else match op it (it.actor (some die)) d with
    | .error e => d.accessFailed p it 4 die k e
    | .ok d1 => (d1.streamCount it.ctx die k rep).veEnd die k it.ctx it.seq

/-- Runs a stream operation on the engine that holds it, from one yield to the next; its lines, and bytes of a partner module, come
before its first beat (R291). -/
def streamGo (op : StreamOp) (it : Item) (rep : Report) (p : Platform) (d : Device) (die k : Nat) : Device :=
  if (d.vecEng die k).listPos ≠ 0 then streamPart op it rep p d die k
  else match op.reads it die k d with
    | .stall d1 => d1
    | .err e => d.accessFailed p it 4 die k e
    | .got d1 _ => streamPart op it rep p (d1.firstIssue p.pow.time it.ctx it.seq) die k

/-- A stream-form VEC item: checked, queued at an engine, and run there. -/
def streamItem (code : Nat) (op : StreamOp) (c q : Nat) (rep : Report) (p : Platform)
    (d : Device) : Device :=
  match d.item c q with
  | none => d
  | some it =>
    if !it.isStream || field it.desc 0x19 1 != code || it.issuedBy.any (fun x => decide (2 ^ 16 ≤ x.2)) then d
    else match it.phase with
      | .dispatched =>
        if !streamLegal it then d.itemFault p it 1 60 0xFF .illegalInstr 0
        else if !streamAligned it then d.itemFault p it 1 60 0xFF .misaligned 0
        else d.startClaimed it fun d => d.veDispatch p it fun d die k => streamGo op it rep p d die k
      | .running =>
        match d.streamAt it with
        | some e => streamGo op it rep p d e.1 e.2
        | none => d
      | _ => d

/-! ### From a kernel (R198) -/

/-- The token that marks the stream operation of a pack among its block's work: no token of ENG.ISSUE (log 46). -/
def streamToken (p : Nat) : Nat := 2 ^ 16 + p % 16

/-- The stream operation a pack has begun and that is not done. -/
def Device.streamOf (d : Device) (p : Nat) : Option Item :=
  d.hub.items.find? fun x => x.issuedBy == some (p / 16, streamToken p) && x.phase != .done

/-- Is a record in the stream form of an operation, its header holding only type and tag (R258, R264)? -/
def streamRecordOk (code : Nat) (r : List Byte) : Bool :=
  field r 0 1 == 2 && zeroField r 1 11 && field r 0x18 1 == 0 && field r 0x19 1 == code && vecBodyOk r

/-- Enters a work record of a kernel among the items: it inherits the context, class and slice of the kernel item (R179). -/
def Device.enterWork (d : Device) (kit : Item) (b tok : Nat) (r : List Byte) : Device × Item :=
  let it : Item := { newItem kit.ctx (2 ^ 32 + d.hub.workSeq) kit.slice r 0 with
    cls := kit.cls, layerIx := kit.seq, issuedBy := some (b, tok) }
  ((d.mapHub fun h => { h with workSeq := h.workSeq + 1, items := h.items ++ [it] }).updItem kit.ctx kit.seq fun x =>
    { x with out := x.out + 1 }, it)

/-- The record at a block-memory address, entered as the pack's stream operation and dispatched; the engine then runs it. -/
def beginStream (code p : Nat) (a : Nat) (pl : Platform) (k : KBlock) (kit : Item) (v : VecIn) (d : Device) : Device :=
  let r := k.bytes a 64
  if k.memLen < a + 64 then d.vecFault pl p v .translation a
  else if !streamRecordOk code r then d.vecFault pl p v .illegalInstr 0
  else if field r 0x10 8 % 64 ≠ 0 then d.vecFault pl p v .misaligned 0
  else
    let d0 := d.h0Bytes (kit.actor none) 128 (field r 0x10 8)
    match d0.readBytes (kit.actor none) 128 (field r 0x10 8) with
    | .error e => d0.accessFailed pl kit 4 v.die v.k e
    | .ok rec =>
      let (d1, it) := d0.enterWork kit (p / 16) (streamToken p) r
      let d2 := d1.take pl it rec
      if (d2.streamOf p).isNone then d2
      else d2.updVe v.die v.k fun e => { e with running := some (it.ctx, it.seq), stream := true }

/-- What the pack's stream operation comes to once its record is taken: it ends, waits for a save, or runs (R138, R347). -/
def runStream (op : StreamOp) (rep : Report) (pl : Platform) (v : VecIn) (it : Item)
    (d : Device) : Ran :=
  let fin := fun (d : Device) => d.veEnd v.die v.k it.ctx it.seq
  if !streamLegal it then .hold (d.itemFault pl it 4 v.die v.k .illegalInstr 0)
  else if !streamAligned it then .hold (d.itemFault pl it 4 v.die v.k .misaligned 0)
  else if d.claimWaits it then .hold d
  else match d.claimLost it with
    | some x => .go (fin (d.updItem it.ctx it.seq fun y => { y with recompute := some x }))
    | none =>
      let run : Except MemErr (Device × Option Device) :=
        match op.reads it v.die v.k d with
        | .stall d1 => .ok (d1, none)
        | .err e => .error e
        | .got d1 _ => (op it (it.actor (some v.die)) d1).map fun d2 => (d1, some d2)
      match run with
      | .ok (_, some d1) => .go (fin (d1.streamCount it.ctx v.die v.k rep))
      | .ok (d1, none) => .hold d1
      | .error (.away n rc rva va) => .hold (d.accessFailed pl it 4 v.die v.k (.away n rc rva va))
      | .error (.fault c va) => .hold (d.accessFailed pl it 4 v.die v.k (.fault c va))
      | .error e => .go (d.accessFailed pl it 4 v.die v.k e)

/-- A stream instruction of a pack on an engine its block holds. -/
def streamPack (code : Nat) (op : StreamOp) (p : Nat) (rep : Report) (b : VecBody)
    (pl : Platform) : Device → Device :=
  Device.runJkf ⟨p, none, none, rep.rivals⟩ (vecOk 1 (decide (b.fmt.toNat ≤ 0x0F)) b) (fun k x d =>
    match d.item k.ctx k.seq with
    | none => .stall
    | some kit =>
      let v : VecIn :=
        ⟨k.die, b.k.toNat, kit, x.block b.ub.toNat 1, b, d.vecEng k.die b.k.toNat, (d.ctx k.ctx).seed, none⟩
      if !(VecOp.ready ⟨1, [], fun _ => false, fun _ d => .ok d⟩ v (d.streamOf p).isSome pl d) then .stall
      else
        let d1 := match d.streamOf p with
          | some _ => d
          | none => beginStream code p (v.arg 0).toNat pl k kit v d
        match d1.streamOf p with
        | some it => runStream op rep pl v it d1
        | none => if d1.hub.workSeq = d.hub.workSeq ∨ (d1.item k.ctx k.seq).isNone then .hold d1 else .go d1) pl

/-- A stream operation. -/
def stream (code : Nat) (op : StreamOp) (src : StreamSrc) (p : Platform) (d : Device) :
    Device :=
  match src with
  | .item c q rep => streamItem code op c q rep p d
  | .pack q b rep => streamPack code op q rep b p d

/-- ZC_COMPRESS. -/
def execZcCompress (src : StreamSrc) (s : State) : Out := onCode (.zcCompress src) (stream 0x60 zcCompress src) s
/-- S24_COMPRESS. -/
def execS24Compress (src : StreamSrc) (s : State) : Out := onCode (.s24Compress src) (stream 0x61 s24Compress src) s
/-- PRUNE24T. -/
def execPrune24t (src : StreamSrc) (s : State) : Out := onCode (.prune24t src) (stream 0x62 prune24t src) s
/-- NNZ_HIST. -/
def execNnzHist (src : StreamSrc) (s : State) : Out := onCode (.nnzHist src) (stream 0x63 nnzHist src) s

end Sys2Proof.Machine
end

