-- ==== Sys2Proof/Machine/Eng.lean ====
section
/-! DEFINITION. Work that kernels give to engines, and the vector engines that blocks hold (R40, R54, R179 to R182, R198,
R218, R258, R284, R289). -/

namespace Sys2Proof.Machine

/-! ### ENG.ISSUE (R179 to R181) -/

/-- The result and src fields are uniform registers; fields an operation does not use hold 0xC1, k and kind 0 (R189,
R194). -/
def uniformReg (s : BitVec 8) : Bool := selU s || s == 0xC1#8

/-- Is an ENG instruction legal, its use of result, src, kind and k given? -/
def engOk (res src kind k : Bool) (i : Issue) (b : EngBody) : Bool :=
  i.imm.isNone && i.guard.isNone && (if res then uniformReg b.result else b.result == 0xC1#8) &&
    (if src then uniformReg b.src else b.src == 0xC1#8) && (if kind then decide (b.kind.toNat ≤ 1) else b.kind == 0) &&
    (k || b.k == 0)

/-- ENG.ISSUE, ENG.WAIT, VACQ, VREL and VSYNC. -/
def engIssueOk (i : Issue) (b : EngBody) : Bool := engOk true true true true i b
def engWaitOk (i : Issue) (b : EngBody) : Bool := engOk true true false false i b
def engOwnOk (i : Issue) (b : EngBody) : Bool := engOk false false false true i b

/-- Is a record one ENG.ISSUE takes: of the kind's type, its header holding only type and tag, its body legal (R258)? -/
def workRecordOk (kind : Nat) (r : List Byte) : Bool :=
  zeroField r 1 11 && (if kind = 0 then field r 0 1 == 1 && productBodyOk r else field r 0 1 == 2 && vecBodyOk r)

/-- Is an engine of the die eligible for a record: ON, and wide enough for the record's tile (R54, R180)? -/
def Device.takes (d : Device) (it : Item) (kind die k : Nat) : Bool :=
  if kind = 0 then (d.re die k).blk.isOn && d.canRun it (field it.desc 0x1C 4) die k else (d.die die).ve.isOn

/-- The eligible engine of the die with the fewest entries, the lowest k first. -/
def Device.anyEngine (d : Device) (it : Item) (kind die : Nat) : Option Nat :=
  match (List.range Config.enginesPerDie).filter (d.takes it kind die) with
  | [] => none
  | k :: ks => some (ks.foldl (fun a b => if d.queueLen kind die b < d.queueLen kind die a then b else a) k)

/-- The engine that takes a record, and whether it was redirected. -/
def Device.target (d : Device) (it : Item) (kind die k : Nat) : Option Nat × Bool :=
  if k < Config.enginesPerDie ∧ d.takes it kind die k then (some k, false)
  else (d.anyEngine it kind die, decide (k < Config.enginesPerDie) && kind == 0)

/-- Is a product's record legal and aligned (R40, R41, R59, R72)? -/
def workLegal (d : Device) (it : Item) : Option FaultCode :=
  if it.typ = 1 then
    if !prodLegal it (d.prod it) then some .illegalInstr
    else if !prodAligned it (d.prod it) then some .misaligned else none
  else if it.isStream then
    if !streamLegal it then some .illegalInstr else if !streamAligned it then some .misaligned else none
  else none

/-- Places a work record that is dispatched: on an engine of the die, or in the slice's pool; else the queue that is full, 8
standing for the pool (R180, R284). -/
def Device.placeWork (d : Device) (k : KBlock) (it : Item) (kind e : Nat) : Except Nat Device :=
  let (t, redirected) := d.target it kind k.die e
  let q := t.getD 8
  if !d.queueRoom k kind q then .error q
  else
    let d1 := d.count it.ctx 83 (bit redirected)
    .ok (match t with
      | some e => if kind = 0 then d1.queueWork it k.die e else d1.veQueue it k.die e
      | none => d1.updSlice it.slice fun s => { s with steal := s.steal ++ [(it.ctx, it.seq, k.die)] })

/-- The token of a block's next record, 16 bits: the lowest the block has not used; once all are used, the one given first of
those whose work has drained (R181; log 75). -/
def KBlock.freeToken (k : KBlock) : Option Nat :=
  match (List.range (min 65536 (k.tokens.length + 1))).find? fun t => !(k.tokens.any fun x => x.tok == t) with
  | some t => some t
  | none => (k.tokens.find? fun t => t.status.isSome).map fun t => t.tok

/-- A token's work record has been taken: the block holds the token and the pack has it. -/
def Device.giveToken (d : Device) (i : Issue) (b : EngBody) (x : Pack) (tok seq : Nat) : Device :=
  (d.updBlock (i.pack / 16) fun k => { k with
    tokens := (k.tokens.filter fun t => t.tok != tok) ++ [⟨tok, seq, none⟩] }).updPack i.pack fun _ =>
      x.write 0 b.result 1 (BitVec.ofNat 64 tok)

/-- The record is entered and dispatched: it ends early, goes to an engine or the pool, or finds no room, which counts as
QUEUE_FULL, and is not entered at all; it waits for the engine it names, or for any of the die's that has room (R166, R180, R181,
R185). -/
def issueWork (i : Issue) (b : EngBody) (r rec : List Byte) (pl : Platform) (k : KBlock) (kit : Item) (x : Pack)
    (tok : Nat) (d : Device) : Ran :=
  let (d1, it) := d.enterWork kit (i.pack / 16) tok r
  let d2 := (d1.giveToken i b x tok it.seq).take pl it rec
  match d2.item k.ctx k.seq with
  | none => .hold d2
  | some _ =>
    match d2.item it.ctx it.seq with
    | none => .go d2
    | some it1 =>
      if it1.phase = .done then .go d2
      else match workLegal d2 it1 with
        | some f => .hold (d2.itemFault pl it1 1 60 0xFF f 0)
        | none =>
          match d2.placeWork k it1 b.kind.toNat b.k.toNat with
          | .error q => .wait (.queueFull b.kind.toNat (if q < 8 ∧ b.k.toNat ≠ q then 15 else q)) (d.chargeStall k.ctx k.die (16 + k.core) 11 1)
          | .ok d3 => .go d3

/-- ENG_ISSUE: the pack's earlier writes become visible to the engines (R218), the record at the block-memory address in src
goes to the target, and its token is returned. -/
def engIssue (i : Issue) (b : EngBody) (pl : Platform) : Device → Device :=
  Device.runJkf i (fun _ => engIssueOk i b && (decide (b.k.toNat < Config.enginesPerDie) || b.k == 0xF)) (fun k x d0 =>
    let d := Device.loseWrites (d0.cleanCore k.die k.core)
    match d.item k.ctx k.seq, k.freeToken with
    | some kit, some tok =>
      let a := (x.word none 0 b.src 0).toNat
      let r := k.bytes a 64
      if k.memLen < a + 64 then .fail (.fault .translation a) 0
      else if !workRecordOk b.kind.toNat r then .fail (.fault .illegalInstr 0) 0
      else if field r 0x10 8 % 64 ≠ 0 then .fail (.fault .misaligned (field r 0x10 8)) 0
      else
        let d1 := d.h0Bytes (kit.actor none) 128 (field r 0x10 8)
        match d1.readBytes (kit.actor none) 128 (field r 0x10 8) with
        | .error e => .hold (d1.accessFailed pl kit 1 60 0xFF e)
        | .ok rec => issueWork i b r rec pl k kit x tok d1
    | _, _ => .stall) pl

/-- ENG_ISSUE. -/
def execEngIssue (i : Issue) (b : EngBody) (s : State) : Out := onCode (.engIssue i b) (engIssue i b) s

/-! ### ENG.WAIT (R181, R218) -/

/-- ENG_WAIT: waits until the work of a token of the block has drained; then the status, and the acquire of its writes. -/
def engWait (i : Issue) (b : EngBody) : Platform → Device → Device :=
  Device.runJkf i (fun _ => engWaitOk i b) fun k x d =>
    let tok := (x.word none 0 b.src 0).toNat
    match k.tokens.find? fun t => t.tok == tok with
    | none => .fail (.fault .illegalInstr 0) 0
    | some t =>
      match t.status with
      | none => .wait (.engWait tok) d
      | some s =>
        .go (((Device.loseWrites (d.emptyCore k.die k.core)).dropBuf k.ctx k.seq).updPack i.pack fun _ =>
          x.write 0 b.result 1 (BitVec.ofNat 64 s.code))

/-- ENG_WAIT. -/
def execEngWait (i : Issue) (b : EngBody) (s : State) : Out := onCode (.engWait i b) (engWait i b) s

/-! ### VACQ, VREL, VSYNC (R198, R289) -/

/-- VACQ: the block holds the engine, its registers zero; it waits while another block holds it or it runs queued work. A
block that holds the engine keeps it. -/
def vacq (i : Issue) (b : EngBody) : Platform → Device → Device :=
  Device.runJkf i (fun _ => engOwnOk i b && decide (b.k.toNat < Config.enginesPerDie)) fun k _ d =>
    let e := b.k.toNat
    let zero := fun (d : Device) => d.updVe k.die e fun v => { v with regs := [], masks := [], holder := some (i.pack / 16) }
    if k.held.contains e then .go (zero d)
    else if d.vacqFree k e then
      .go ((zero d).updBlock (i.pack / 16) fun k => { k with held := k.held ++ [e] })
    else .wait (.vacq e) d

/-- VACQ. -/
def execVacq (i : Issue) (b : EngBody) (s : State) : Out := onCode (.vacq i b) (vacq i b) s

/-- VREL: the engine is released; of one the block does not hold there is nothing to release. -/
def vrel (i : Issue) (b : EngBody) : Platform → Device → Device :=
  Device.runJkf i (fun _ => engOwnOk i b && decide (b.k.toNat < Config.enginesPerDie)) fun k _ d =>
    let e := b.k.toNat
    .go (if !k.held.contains e then d else (d.updVe k.die e fun v => { v with holder := none }).updBlock (i.pack / 16) fun k =>
      { k with held := k.held.filter fun x => x != e })

/-- VREL. -/
def execVrel (i : Issue) (b : EngBody) (s : State) : Out := onCode (.vrel i b) (vrel i b) s

/-- VSYNC: it waits until the block's earlier vector instructions on the engine have completed: arithmetic ones complete as they
issue (log 46), stream operations when they end, stores to partner memory when they are acknowledged (R198, R218). -/
def vsync (i : Issue) (b : EngBody) : Platform → Device → Device :=
  Device.runJkf i (fun _ => engOwnOk i b && decide (b.k.toNat < Config.enginesPerDie)) fun k _ d =>
    if d.vecDone (i.pack / 16) k b.k.toNat then .go d else .wait (.vsync b.k.toNat) d

/-- VSYNC. -/
def execVsync (i : Issue) (b : EngBody) (s : State) : Out := onCode (.vsync i b) (vsync i b) s

end Sys2Proof.Machine
end

