-- ==== Sys2Proof/Machine/Image.lean ====
section
/-! DEFINITION. What the load translator checks of a kernel image: its header, its words and its branches (R194 to R203). -/

namespace Sys2Proof.Machine

/-! ### The header (R201) -/

def imgBytes (h : List Byte) : Nat := field h 8 4
def imgCodeOff (h : List Byte) : Nat := field h 0x0C 4
def imgCodeWords (h : List Byte) : Nat := field h 0x10 4
def imgEntry (h : List Byte) : Nat := field h 0x14 4
def imgConstOff (h : List Byte) : Nat := field h 0x18 4
def imgConstBytes (h : List Byte) : Nat := field h 0x1C 4
def imgTregs (h : List Byte) : Nat := field h 0x20 1
def imgPacks (h : List Byte) : Nat := field h 0x21 1
def imgBlkmem (h : List Byte) : Nat := field h 0x24 4
def imgFeatures (h : List Byte) : Nat := field h 0x28 8
def imgCheck (h : List Byte) : Nat := field h 0x30 4

/-- Does the code section meet the constant section? -/
def imgOverlap (h : List Byte) : Bool :=
  imgConstBytes h != 0 && decide (imgCodeOff h < imgConstOff h + imgConstBytes h ∧
    imgConstOff h < imgCodeOff h + 8 * imgCodeWords h)

/-- Are the header's fields legal, but for its check and its entry pc? -/
def imgHeaderOk (h : List Byte) : Bool :=
  field h 0 4 == 0x00464B4A && field h 4 1 == 1 && field h 5 1 == 0 && field h 6 2 == 0 &&
    decide (0x40 ≤ imgBytes h ∧ imgBytes h ≤ 2 ^ 26) && imgCodeOff h % 64 == 0 && decide (0x40 ≤ imgCodeOff h) &&
    decide (1 ≤ imgCodeWords h ∧ imgCodeWords h ≤ 2 ^ 23 - 1) && imgConstOff h % 64 == 0 &&
    decide (imgConstBytes h ≤ 65536) && decide (1 ≤ imgTregs h ∧ imgTregs h ≤ 128) &&
    decide (1 ≤ imgPacks h ∧ imgPacks h ≤ 16) && zeroField h 0x22 2 && imgBlkmem h % 512 == 0 &&
    decide (imgBlkmem h ≤ 262144) && decide (imgFeatures h ≤ 3) && zeroField h 0x34 12 &&
    decide (imgCodeOff h + 8 * imgCodeWords h ≤ imgBytes h) && decide (imgConstOff h + imgConstBytes h ≤ imgBytes h) &&
    !imgOverlap h

/-- The words of the code section. -/
def imgWords (img : List Byte) : List Dword :=
  (List.range (imgCodeWords img)).map fun i => BitVec.ofNat 64 (field img (imgCodeOff img + 8 * i) 8)

/-- The constant section. -/
def imgConsts (img : List Byte) : List Byte := (img.drop (imgConstOff img)).take (imgConstBytes img)

/-! ### The words (R192) -/

/-- The instruction words of a code section, each with its pc, its length and what it decodes to. -/
def sweep : List Dword → Nat → List (Nat × Nat × Option Instr)
  | [], _ => []
  | [w], pc => [(pc, 1, jkfDecode 0 w none)]
  | w :: v :: ws, pc =>
    if w.getLsbD 51 then (pc, 2, jkfDecode 0 w (some v)) :: sweep ws (pc + 2)
    else (pc, 1, jkfDecode 0 w none) :: sweep (v :: ws) (pc + 1)

/-! ### Operations by code (R197, R198) -/

/-- INT operations. -/
def intOps : List AluOp :=
  [opIntAdd, opIntSub, opIntMullo, opIntMulhi, opIntDiv, opIntRem, opIntMin, opIntMax, opIntAnd, opIntOr, opIntXor,
    opIntNot, opIntShl, opIntShr, opIntSar, opIntPopc, opIntClz, opIntBrev, opIntMov, opIntSel]

/-- FP operations of codes 0x00 to 0x0E, and of codes from 0x10 on. -/
def fpOps : List AluOp :=
  [opFpAdd, opFpSub, opFpMul, opFpFma, opFpMin, opFpMax, opFpAbs, opFpNeg, opFpCopysign, opFpDiv, opFpSqrt, opFpRsqrt,
    opFpRecip, opFpExp2, opFpLog2]
def cvtOps : List AluOp := [opCvtF2i, opCvtF2u, opCvtI2f, opCvtU2f, opCvtF2n, opCvtN2f]

/-- The FP operation of a code. -/
def fpOp (op : Nat) : Option AluOp := if op < 0x10 then fpOps[op]? else cvtOps[op - 0x10]?

/-- ATOM operations. -/
def atomOps : List AtomOp := [.add, .min, .max, .and, .or, .xor, .xchg, .cas]

/-- Words of a VEC operand block, and the formats the operation takes. -/
def vecShape (op : Nat) : Nat × List Nat :=
  if op < 0x10 then (1, [0x00])
  else if op < 0x20 then (1, intFmts)
  else if op < 0x28 then (1, fmts32)
  else if op < 0x30 then (1, [0x00])
  else if op < 0x38 then (1, fmts32)
  else if op < 0x48 then (2, fmts32)
  else if op < 0x4A then (10, vecFmts)
  else if op < 0x4C then (11, vecFmts)
  else if op < 0x50 then (4, fmts32)
  else if op < 0x58 then (2, fmts32)
  else if op < 0x5B then (8, randFmts)
  else if op < 0x60 then (8, [0x00])
  else (1, randFmts)

/-! ### Branches (R200) -/

/-- A node of the control-flow graph: where control goes from an instruction, and whether it may reach the end. -/
structure Node where
  pc    : Nat
  succs : List Nat
  exit  : Bool
  deriving DecidableEq, Repr

/-- The node of an instruction: a guarded branch may fall through, a guarded EXIT may pass. -/
def nodeOf (e : Nat × Nat × Option Instr) : Node :=
  let next := e.1 + e.2.1
  match e.2.2 with
  | some (.bra i b) => ⟨e.1, b.target.toNat :: (if i.guard.isSome then [next] else []), false⟩
  | some (.exitThreads i) => ⟨e.1, if i.guard.isSome then [next] else [], true⟩
  | _ => ⟨e.1, [next], false⟩

/-- Nodes reached from a list of pcs without passing one of them, by at most `f` visits. -/
def reachFrom (g : List Node) (avoid : Nat) : Nat → List Nat → List Nat → List Nat
  | 0, _, seen => seen
  | _ + 1, [], seen => seen
  | f + 1, x :: xs, seen =>
    if x == avoid || seen.contains x then reachFrom g avoid f xs seen
    else match g.find? fun n => n.pc == x with
      | none => reachFrom g avoid f xs seen
      | some n => reachFrom g avoid f (n.succs ++ xs) (x :: seen)

/-- Nodes reached from the successors of a pc. -/
def reachNodes (g : List Node) (avoid pc : Nat) : List Node :=
  let start := ((g.find? fun n => n.pc == pc).map Node.succs).getD []
  let seen := reachFrom g avoid (3 * g.length + 4) start []
  g.filter fun n => seen.contains n.pc

/-- Can the end be reached from a pc without passing another? -/
def endsAvoiding (g : List Node) (avoid pc : Nat) : Bool :=
  ((g.find? fun n => n.pc == pc).any Node.exit) || (reachNodes g avoid pc).any Node.exit

/-- The pcs that post-dominate a pc: every path from it to the end passes them. -/
def postDoms (g : List Node) (pc : Nat) : List Nat :=
  if endsAvoiding g noPc pc then
    ((reachNodes g noPc pc).map Node.pc).filter fun p => p != pc && !endsAvoiding g p pc
  else []

/-- The immediate post-dominator: the one which every other one post-dominates; 0x7FFFFF where there is none. -/
def reconOf (g : List Node) (pc : Nat) : Nat :=
  let ps := postDoms g pc
  (ps.find? fun p => ps.all fun q => q == p || !endsAvoiding g q p).getD noPc

/-- Does a BRA jump to an instruction word and reconverge at its immediate post-dominator? -/
def braOk (g : List Node) (pc : Nat) (b : BraBody) : Bool :=
  (g.any fun n => n.pc == b.target.toNat) && b.recon.toNat == reconOf g pc

/-! ### Legality (R190 to R203) -/

/-- Is a decoded instruction legal in an image that declares `tregs` registers and holds the features? What only execution
can show is not looked at (R163, R179, R181, R198). -/
def partsOk (g : List Node) (tregs feats pc : Nat) (x : Nat × Nat × Issue × BitVec 46) : Bool :=
  let op := x.2.1
  let i := x.2.2.1
  let w := x.2.2.2
  match x.1 with
  | 0 => (intOps[op]?).any fun o => aluOk o tregs i (AluBody.ofBits w)
  | 1 => (fpOp op).any fun o => aluOk o tregs i (AluBody.ofBits w)
  | 2 => if op < 0x10 then predOk (decide (6 ≤ op)) tregs i (PredBody.ofBits w) else i.imm.isNone
  | 3 => if op = 3 then discardOk tregs i (MemBody.ofBits w) else memOk (op == 0) tregs i (MemBody.ofBits w)
  | 4 => (atomOps[op]?).any fun o => atomOk o tregs i (AtomBody.ofBits w)
  | 5 => i.imm.isNone && (op != 0 || braOk g pc (BraBody.ofBits w))
  | 6 => (SyncBody.ofBits w).kind != 3 && i.imm.isNone && i.guard.isNone
  | 7 =>
    let b := EngBody.ofBits w
    bitOf feats 1 && (if op = 0 then engIssueOk i b else if op = 1 then engWaitOk i b else engOwnOk i b)
  | 8 =>
    let b := VecBody.ofBits w
    bitOf feats 0 && (vecShape op).2.contains b.fmt.toNat && decide (b.ub.toNat + (vecShape op).1 ≤ 64)
  | 9 =>
    let b := SpecBody.ofBits w
    decide (b.sr.toNat ≤ 0x0D) && (specFields b).ok tregs i
  | _ => false

/-- Is an entry of the sweep legal? -/
def entryOk (g : List Node) (tregs feats : Nat) (e : Nat × Nat × Option Instr) : Bool :=
  match e.2.2.bind jkfParts with
  | none => false
  | some x => partsOk g tregs feats e.1 x

/-- The check of a whole image: none where it is legal, else the pc its fault record holds (R203). -/
def imgFault (img : List Byte) : Option Nat :=
  let es := sweep (imgWords img) 0
  let g := es.map nodeOf
  if !imgHeaderOk img || imgCheck img != crc32c (img.drop 0x40) || !(g.any fun n => n.pc == imgEntry img) then some noPc
  else (es.find? fun e => !entryOk g (imgTregs img) (imgFeatures img) e).map Prod.fst

end Sys2Proof.Machine
end

