-- ==== Sys2Proof/Machine/Kernel.lean ====
section
/-! DEFINITION. Kernel items: their translation and their start (R163, R191, R202 to R206, R266). -/

namespace Sys2Proof.Machine

/-! ### JKF_TRANSLATION_DONE (R202 to R206) -/

/-- Is a translation used by an item in flight? -/
def Device.xlatUsed (d : Device) (x : Xlat) : Bool :=
  d.hub.items.any fun i => i.typ == 3 && !i.isWork && i.phase != .fetched && i.ctx == x.ctx && i.addr0 == x.addr &&
    i.layerIx == x.check

/-- Translations with room for one more: while the store is full the least recently used one that is neither used nor
protected goes; none where there is no such one (R205). -/
def Device.xlatRoom (d : Device) : Option (List Xlat) :=
  if d.hub.xlats.length < 65536 then some d.hub.xlats
  else match d.hub.xlats.filter fun x => !x.hot && !d.xlatUsed x with
    | [] => none
    | x :: rest =>
      let old := rest.foldl (fun a b => if b.stamp < a.stamp then b else a) x
      some (d.hub.xlats.filter fun y => !(y.ctx == old.ctx && y.addr == old.addr && y.check == old.check))

/-- Items that wait for the translation of an image. -/
def Device.xlatWaiters (d : Device) (c addr : Nat) : List Item :=
  d.hub.items.filter fun i => i.ctx == c && i.typ == 3 && i.waitAt.isSome && i.phase == .fetched && i.addr0 == addr

/-- An item whose translation has come: the time it waited is excluded from a covered item's start time (R291). An item of a
context that is not OPEN stays fetched (R20). -/
def Device.xlatCome (p : Platform) (check : Nat) (d0 : Device) (it : Item) : Device :=
  let t : Dword := p.pow.time - it.waitAt.getD p.pow.time
  let d := d0.loadWait p.pow.time it
  let d1 := if it.covered then
      (d.count it.ctx 126 t.toNat).updItem it.ctx it.seq fun x => { x with bell := x.bell + t }
    else d
  if (d.ctx it.ctx).st = .opened ∧ d.reel.snap = 0 then d1.startKernel it check else d1

/-- A legal image is translated and held, and the items that wait for it go on. -/
def Device.xlatDone (d : Device) (p : Platform) (it : Item) (img : List Byte) : Device :=
  match d.xlatRoom with
  | none => d
  | some xs =>
    let ws := d.xlatWaiters it.ctx it.addr0
    let hot := (ws.any fun i => i.cls == 0) && decide ((xs.filter fun x => x.hot).length < 16384)
    let x : Xlat :=
      ⟨it.ctx, it.addr0, imgCheck img, imgEntry img, imgTregs img, imgPacks img, imgBlkmem img, imgWords img, imgConsts img,
        hot, d.lruTick⟩
    let xs1 := xs.filter fun y => !(y.ctx == x.ctx && y.addr == x.addr && y.check == x.check)
    let d1 := { d.mapHub fun h => { h with xlats := xs1 ++ [x] } with lruTick := d.lruTick + 1 }
    ws.foldl (Device.xlatCome p (imgCheck img)) (d1.count it.ctx 84 1)

/-- The fault of an image (R203). -/
def Device.imageFault (d : Device) (p : Platform) (it : Item) (pc : Nat) : Device :=
  d.takeFaults p it.ctx [⟨.illegalInstr, 1, 60, 0xFF, 0, it.seq % (d.ring it.ctx).sqSize, pc, 0, 0, it.addr0⟩]

/-- An image cannot be read: but for bytes to come from a partner, the item's wait is over (R206). -/
def Device.loadFailed (d : Device) (p : Platform) (it : Item) (e : MemErr) : Device :=
  match e with
  | .away _ _ _ _ => d.accessFailed p it 1 60 0xFF e
  | _ => (d.loadWait p.pow.time it).accessFailed p it 1 60 0xFF e

/-- The whole image of a legal header is read and checked. -/
def Device.loadImage (d : Device) (p : Platform) (it : Item) (h : List Byte) : Device :=
  if !imgHeaderOk h then (d.loadWait p.pow.time it).imageFault p it noPc
  else
    let d1 := d.h0Bytes (it.actor none) (imgBytes h) it.addr0
    match d1.readBytes (it.actor none) (imgBytes h) it.addr0 with
    | .error e => d1.loadFailed p it e
    | .ok img =>
      match imgFault img with
      | some pc => (d1.loadWait p.pow.time it).imageFault p it pc
      | none => d1.xlatDone p it img

/-- JKF_TRANSLATION_DONE: the image an item waits for is read, validated and translated. -/
def jkfTranslationDone (c q : Nat) (p : Platform) (d : Device) : Device :=
  match d.item c q with
  | none => d
  | some it =>
    if it.phase != .fetched || it.typ != 3 || it.waitAt.isNone then d
    else
      let d1 := d.h0Bytes (it.actor none) 64 it.addr0
      match d1.readBytes (it.actor none) 64 it.addr0 with
      | .error e => d1.loadFailed p it e
      | .ok h => d1.loadImage p it h

/-- JKF_TRANSLATION_DONE. -/
def execJkfTranslationDone (ctx seq : Nat) (s : State) : Out := onDev (jkfTranslationDone ctx seq) s

/-! ### KERNEL (R163, R191, R266) -/

/-- Can some core hold a block of the item, were it empty (R163, R289)? -/
def Device.everFits (d : Device) (it : Item) (x : Xlat) : Bool :=
  let n := blockSlots x.packs x.tregs
  decide (n ≤ Config.regSlots) &&
    (!((d.slice it.slice).reserved && it.cls == 1) || decide (n ≤ 48 ∧ x.blkmem ≤ 131072))

/-- A dispatched kernel item reads its argument record, and its blocks can be placed. -/
def kernel (c q : Nat) (p : Platform) (d : Device) : Device :=
  match d.item c q with
  | none => d
  | some it =>
    if it.typ ≠ 3 ∨ it.isWork ∨ it.phase ≠ .dispatched ∨ d.deferWait it then d
    else match d.xlatOf it with
      | none => d
      | some x =>
        if !d.everFits it x then d.imageFault p it noPc
        else
          let d1 := d.h0Bytes (it.actor none) 128 (field it.desc 0x18 8)
          match d1.readBytes (it.actor none) 128 (field it.desc 0x18 8) with
          | .error e => d1.accessFailed p it 1 60 0xFF e
          | .ok bs => d1.updItem c q fun y => { y with oprec := bs, phase := .running }

/-- KERNEL. -/
def execKernel (ctx seq : Nat) (s : State) : Out := onDev (kernel ctx seq) s

end Sys2Proof.Machine
end

