-- ==== Sys2Proof/Machine/Registers.lean ====
section
/-! DEFINITION. Writes to registers, the states of blocks, debug halts and the counter window (R56, R57, R391 to R406,
R425 to R429). -/

namespace Sys2Proof.Machine

/-! ### Enables (R396) -/

/-- Is an item of the update sequencer in phase 5, layers or undoing (R119)? -/
def Ups.inPhase5 (u : Ups) : Bool := u.runs.any fun r => r.phase == .layers || r.phase == .undoing

/-- Why a write of an enable is rejected: 0 the block's state, 1 a condition of the block's own chapter (R53, R102,
R119, R140, R186, R242, R308, R366, R396, R405). -/
def enableReason (s : State) (b : Block) (en : Bool) : Option Nat :=
  let d := s.dev
  let k := d.blk b
  let bars0 : Bool := match b with
    | .txb i => (List.range 8).any fun j => (d.re i j).blk.st != .off
    | .mem _ => (List.range Config.sliceCount).any fun i => (d.slice i).exists?
    | .collie i => d.collie.blocks.any fun x => x.2.die == i
    | .dcache i => (d.sliceOf i).isSome
    | .reel => d.reel.groups.any fun g => g.2.busy
    | .ups => d.ups.inPhase5
    | _ => false
  match b with
  | .re i j => if presented (d.re i j).bad = 0 then some 1 else if en && k.st == .stopping then some 0 else none
  | .ring c =>
    if en && k.st == .stopping then some 0
    else if en && (d.ctx c).st != .frozen && (d.ctx c).st != .opened then some 1 else none
  | .pport _ =>
    if en && k.st == .stopping then some 0 else if en && s.plat.fuses.life == .decommissioned then some 1 else none
  | _ => if en then (if k.st = .stopping then some 0 else none) else if bars0 then some 1 else none

/-- The pair of rings turns on from empty (R251). -/
def Ring.start (g : Ring) : Ring :=
  { g with
    blk := { g.blk with st := .on, en := true }, sqHead := 0, sqTail := 0, cqHead := 0, cqTail := 0, nextSeq := 0
    phase := true, waiting := [], msixDue := false, killMsix := false, outcomes := [], deferFails := [], bells := [] }

/-- The part leaves sleep: the stacks leave self-refresh; lane dies and hub dies power up by their own command (R381). -/
def State.leaveSleep (s : State) : State :=
  if s.plat.pow.asleep then
    { s with
      plat := { s.plat with pow := { s.plat.pow with asleep := false } }
      dev := (List.range Config.stackCount).foldl (fun d i => d.updMemBlk i fun b => { b with selfRef := false }) s.dev }
  else s

/-- The hub die of a port (R310). -/
def hubOf (p : Nat) : Nat := p / 2 + 1

/-- A port begins to train once its hub die is powered (R312). -/
def Port.train (x : Port) (powered : Bool) : Port :=
  { x with
    blk := { x.blk with st := .starting, en := true }, link := if powered then .training else .down
    narrow := false, hsFault := false, noPartner := false }

/-- A port's traffic is over: its link is down (R312, R322). -/
def Port.stopStart (x : Port) : Port :=
  { x with blk := { x.blk with st := .stopping, en := false }, link := .down }

/-- An OFF block is turned on; on a power-gated die it keeps its enable and starts at power-up (R380). -/
def State.turnOn (s : State) (b : Block) : State :=
  match b with
  | .ring c => s.mapDev fun d => d.updRing c Ring.start
  | .pport p =>
    let s1 := s.leaveSleep
    s1.mapDev fun d => d.updPort p fun x => x.train (!FMap.get false s1.plat.pow.hubOff (hubOf p))
  | .slc _ => s
  | _ =>
    s.mapDev fun d => d.updBlk b fun k =>
      { k with en := true, st := if s.plat.pow.blockOff b then .off else .starting }

/-- An enable that passed its checks is written (R396). -/
def State.setEnable (s : State) (b : Block) (en : Bool) : State :=
  let k := s.dev.blk b
  match en, k.st with
  | true, .off => s.turnOn b
  | true, _ => s
  | false, .starting =>
    match b with
    | .pport p => s.mapDev fun d => d.updPort p Port.stopStart
    | _ => s.mapDev fun d => d.updBlk b fun k => { k with en := false }
  | false, .on =>
    match b with
    | .slc _ => s
    | .ring c => s.mapDev fun d => d.updBlk b fun k =>
        { k with en := false, st := if d.window c = 0 then .off else .stopping }
    | _ => s.mapDev fun d => d.updBlk b fun k => { k with en := false, st := .stopping }
  | false, _ =>
    match b with
    | .slc _ => s
    | _ => s.mapDev fun d => d.updBlk b fun k => { k with en := false }

/-- A direct write of an enable by a requester. The enable of a slice is read-only, and to the host its whole block is
(R399, R406). -/
def enableWrite (who : Requester) (b : Block) (en : Bool) (s : State) : State :=
  if !blockExists b then s
  else
    match b with
    | .slc _ => if who = .host then s.reject (.blk b) who (ctrlOffset b) 2 else s
    | _ =>
      match enableReason s b en with
      | some r => s.reject (.blk b) who (ctrlOffset b) r
      | none => s.setEnable b en

/-- ENABLE_WRITE_ONE. -/
def execEnableWriteOne (who : Requester) (b : Block) (s : State) : Out := onState (enableWrite who b true) s

/-- ENABLE_WRITE_ZERO. -/
def execEnableWriteZero (who : Requester) (b : Block) (s : State) : Out := onState (enableWrite who b false) s

/-- RING_ENABLE: a context that is neither FROZEN nor OPEN has its write rejected (R251, R405). -/
def execRingEnable (who : Requester) (ctx : Nat) (s : State) : Out := onState (enableWrite who (.ring ctx) true) s

/-- RING_DISABLE: fetching stops; the rings read OFF once the records of fetched items are written (R251). -/
def execRingDisable (who : Requester) (ctx : Nat) (s : State) : Out := onState (enableWrite who (.ring ctx) false) s

/-- PPORT_ENABLE: the block enters STARTING and its port trains (R312). -/
def execPportEnable (who : Requester) (port : Nat) (s : State) : Out := onState (enableWrite who (.pport port) true) s

/-! ### Starts and stops (R396) -/

/-- May the block finish its start: its die is powered, a port's link is UP, a slice's dies are powered? -/
def startReady (s : State) (b : Block) : Bool :=
  match b with
  | .pport p => (s.dev.port p).link == .up
  | .slc i => (s.dev.slice i).dies.all fun d => !s.plat.pow.dieOff d
  | _ => !s.plat.pow.blockOff b

/-- BLOCK_STARTED: a STARTING block reads ON, or STOPPING where its enable was withdrawn. A slice takes the miss mode it
was given, once its dies hold no request; the pool's extent follows the MEM blocks (R131, R236, R396). -/
def blockStarted (b : Block) (s : State) : State :=
  if (s.dev.blk b).st = .starting && startReady s b then
    s.mapDev fun d =>
      let d1 := d.updBlk b fun k => { k with st := if k.en then .on else .stopping }
      match b with
      | .mem _ => d1.poolExtent
      | .slc i => d1.modeNow i
      | _ => d1
  else s

/-- Has the block's work in flight drained (R54, R159, R242, R316)? A slice stops with the flush of its die caches. -/
def Device.drainedBlk (d : Device) (b : Block) : Bool :=
  match b with
  | .re i k =>
    let r := d.re i k
    r.queue.isEmpty && r.bank0.st == .free && r.bank1.st == .free && r.parked.isNone && r.combines.isEmpty
  | .ve i => (List.range 8).all fun k =>
    (d.vecEng i k).running.isNone && (d.vecEng i k).queue.isEmpty && (d.vecEng i k).parked.isNone
  | .collie i => !(d.collie.blocks.any fun x => x.2.die == i)
  | .dcache i => !(d.mem.misses.any fun m => m.die == i && !m.pref)
  | .retr i => !(d.mem.misses.any fun m => m.die == i && m.pref)
  | .ups => d.ups.runs.isEmpty && !(d.hub.items.any fun i => i.typ == 4 && (i.phase == .dispatched || i.phase == .running))
  | .reel => !(d.reel.groups.any fun g => g.2.busy)
  | .pport p => !(d.ports.out.any fun o => o.port == p)
  | .ring c => d.window c == 0
  | .slc _ => false
  | _ => true

/-- A port reads OFF: its link, UP or training again, goes down (R312, R322). -/
def Port.shut (x : Port) : Port := { x.fall with link := .down }

/-- BLOCK_STOPPED: a STOPPING block whose work has drained reads OFF; a port's link is then down. -/
def blockStopped (b : Block) (d : Device) : Device :=
  if (d.blk b).st = .stopping && d.drainedBlk b then
    let d1 := d.updBlk b fun k => { k with st := .off }
    match b with
    | .pport p => d1.updPort p Port.shut
    | _ => d1
  else d

/-- BLOCK_STOPPED. -/
def execBlockStopped (b : Block) (s : State) : Out := onDev (fun _ d => blockStopped b d) s

/-! ### Register writes (R391 to R399) -/

/-- The RW and WO bits of a register (the tables of each chapter). -/
def rwMask (debug : Bool) (w : Win) (o : Nat) : Nat :=
  match w, o with
  | .ctx, 0x20 => 0xFFF
  | .ring, 0x20 => 0xFFF
  | .ring, 0x30 => 1
  | .ring, 0x40 => 0x1F1F
  | .ring, 0x50 => 0xFFFFF000
  | .ring, 0x60 => 0xFFFFF
  | .ring, 0x70 => 0xFFFFF000
  | .ring, 0x80 => 0xFFFFF
  | .cnt, 0x20 => 0xFFF
  | .cnt, 0x30 => 3
  | .cnt, 0x40 => 1
  | .cnt, 0x50 => 0x80000FFF
  | .dbg _ _, 0x00 => 0x80000000
  | .dbg _ _, 0x10 => 0x7F1F7F
  | .blk (.slc _), _ => 0
  | .blk (.ring _), _ => 0
  | .blk _, 0x00 => 1
  | .blk .reel, 0x30 => 0x3F0F
  | .blk .reel, o =>
    if 0x1000 ≤ o ∧ o < 0x5000 then
      match o / 16 % 4 with
      | 0 => 0x80000FFF
      | 1 => 0xFFFFFFFF
      | 2 => 0x7F3F0F
      | _ => 0
    else 0
  | .blk (.pport _), 0x30 => 0x10010
  | .blk (.pport _), 0x50 => 0xFFFFFFFF
  | .blk (.pport 0), 0x800 => 0xFFF
  | .blk (.pport 0), 0x810 => 0xCFFF0FFF
  | .blk (.mem _), 0x30 => 0xFF003F
  | .blk (.mem _), 0x40 => 0xFFFFFFFF
  | .blk (.mem _), 0x50 => 0xFFFFFFFF
  | .blk (.re _ _), 0x40 => 0x33
  | .blk (.re _ _), 0x60 => if debug then 0x813F01FF else 0
  | .blk (.txb _), 0x30 => 1
  | .blk (.dcache _), 0x30 => 7
  | .blk (.retr _), 0x30 => 0x7FF037F
  | _, _ => 0

/-- The W1C and RWS bits of a register. -/
def w1cMask (w : Win) (o : Nat) : Nat :=
  match w, o with
  | .glb, 0x10 => 0x10000
  | .glb, 0xA0 => 0xFFFFFFFF
  | .glb, o =>
    if 0x100 ≤ o ∧ o < 0x300 then 0x80000000 else if 0x400 ≤ o ∧ o < 0x800 then 0xFFFFFFFF else 0
  | .ctx, 0x10 => 0x10000
  | .ring, 0x10 => 0x10000
  | .cnt, 0x10 => 0x10000
  | .pwr, 0x10 => 0x10E00
  | .blk (.re _ _), 0x10 => 0x100
  | .blk (.pport _), 0x10 => 0x10100
  | .blk (.mem _), 0x10 => 0x10002
  | .blk (.mem _), 0x70 => 0x80000000
  | .blk (.ring _), _ => 0
  | .blk _, 0x10 => 0x10000
  | _, _ => 0

/-- Is the register one its block's table lists, of the blocks that are read-only to the host (R390, R399)? -/
def guarded (w : Win) (o : Nat) : Bool :=
  match w with
  | .ctx => decide (o ≤ 0x80 ∨ 0x100 ≤ o ∧ o < 0x180)
  | .pwr => decide (o ≤ 0xC0 ∨ 0x100 ≤ o ∧ o < 0x300)
  | .blk (.slc _) => decide (o ≤ 0x90)
  | _ => false

/-- May the requester not write the register (R308, R323, R399)? -/
def barred (w : Win) (o : Nat) (x : RegWrite) : Bool :=
  let clears := x.offset % 16 == 0 && Nat.land x.value.toNat (w1cMask w o) != 0
  match w, o with
  | .blk .reel, 0x30 => x.who != .mastiff
  | .blk (.pport 0), 0x800 => x.who != .mastiff
  | .blk (.pport 0), 0x810 => x.who != .mastiff
  | _, _ => x.who == .host && guarded w o && !clears && !(w == .ctx && o == 0x20)

/-- The pair of rings a window write applies to (R405). -/
def Device.ringBlock (d : Device) : Block := .ring d.hub.ringSel.toNat

/-- The enable that one write alone would leave, where the register is a CTRL and the write names the bit. -/
def writtenEn (s : State) (w : Win) (o : Nat) (x : RegWrite) : Option (Block × Bool) :=
  let v := x.value.getLsbD 0
  let target := match w, o with
    | .ring, 0x30 => some s.dev.ringBlock
    | .blk (.slc _), _ => none
    | .blk (.ring _), _ => none
    | .blk b, 0x00 => some b
    | _, _ => none
  match target, x.offset % 16 with
  | none, _ => none
  | some b, 0 => some (b, v)
  | some b, 4 => if v then some (b, true) else none
  | some b, 8 => if v then some (b, false) else none
  | some b, _ => if v then some (b, !(s.dev.blk b).en) else none

/-- Is the register a configuration register, and of which block (R397)? -/
def configOf (d : Device) (w : Win) (o : Nat) : Option Block :=
  match w with
  | .ring => if 0x40 ≤ o ∧ o ≤ 0x80 then some d.ringBlock else none
  | .blk b => if configSlot b = some o then some b else none
  | _ => none

/-- Conditions on writes that a chapter states for a register that is no CTRL: an ACTIVE group entry, PPORT_NODE and
PPORT_TOPO while a port is not OFF (R308, R323). -/
def chapterBars (d : Device) (w : Win) (o : Nat) : Bool :=
  match w with
  | .blk .reel => decide (0x1000 ≤ o ∧ o < 0x5000) && o % 0x40 < 0x30 && (d.group ((o - 0x1000) / 0x40)).busy
  | .blk (.pport 0) =>
    (o == 0x800 || o == 0x810) && (List.range Config.portCount).any fun p => (d.port p).blk.st != .off
  | _ => false

/-- The reason a write is rejected for before writes combine (R392, R396 to R399). -/
def writeReason (s : State) (w : Win) (o : Nat) (x : RegWrite) : Option Nat :=
  if x.size ≠ 4 ∨ x.offset % 4 ≠ 0 then some 4
  else if (configOf s.dev w o).any fun b => (s.dev.blk b).st != .off then some 0
  else match (writtenEn s w o x).bind fun e => enableReason s e.1 e.2 with
    | some r => some r
    | none => if barred w o x then some 2 else if chapterBars s.dev w o then some 1 else none

/-- A value below 6 is stored as 6 and above 16 as 16 (R405). -/
def ringLog (x : Nat) : Nat := max 6 (min 16 x)

/-- Replaces one half of a 64-bit value. -/
def putHalf (old h v : Nat) : Nat := if h = 0 then old / 2 ^ 32 * 2 ^ 32 + v else old % 2 ^ 32 + v * 2 ^ 32

/-- CNT_SEL takes a context, and a snapshot is released (R426). -/
def Device.cntSelect (d : Device) (c : Nat) : Device :=
  d.mapHub fun h => { h with cntSel := BitVec.ofNat 12 c, cntSnap := none, cntUnitsSnap := [] }

/-- The snapshot of the selected context's counters and, where it is the traced one, of the arrays (R426). -/
def Device.cntTake (d : Device) : Device :=
  let c := d.hub.cntSel.toNat
  let vals := (List.range 141).foldl (fun m n => FMap.set 0 m n (d.counter c n)) []
  let mine := d.hub.cntTrace.toNat % 4096 == c
  d.mapHub fun h => { h with cntSnap := some vals, cntUnitsSnap := if mine then h.cntUnits else [] }

/-- The snapshot is released (R426). -/
def Device.cntRelease (d : Device) : Device := d.mapHub fun h => { h with cntSnap := none, cntUnitsSnap := [] }

/-- The selected context's counters are zeroed, but for STASH_BYTES, which STASH_PEAK_BYTES takes (R426). -/
def Device.cntZero (d : Device) : Device :=
  let c := d.hub.cntSel.toNat
  let bytes := d.counter c 66
  (List.range 141).foldl (fun d n => if n = 66 then d else d.setCounter c n (if n = 67 then bytes else 0)) d

/-- CNT_TRACE takes a value and every array is cleared (R425). -/
def Device.cntTraceSet (d : Device) (v : Word) : Device :=
  d.mapHub fun h => { h with cntTrace := v &&& 0x80000FFF#32, cntUnits := [] }

/-- halt_req of a row engine in debug mode; clearing it lets issue go on (R57). -/
def RowEng.halt (r : RowEng) (on : Bool) : RowEng := { r with dbgHalt := on, halted := r.halted && on }

/-- halt_req of a core in debug mode (R429). -/
def CoreSt.halt (c : CoreSt) (on : Bool) : CoreSt := { c with haltReq := on, halted := c.halted && on }

/-- RW fields of a group entry; setting en starts its numbering afresh (R305, R308). -/
def Group.store (g : Group) (r v : Nat) : Group :=
  match r with
  | 0 => { (if bitOf v 31 && !g.en then g.fresh else g) with en := bitOf v 31, owner := BitVec.ofNat 12 v }
  | 1 => { g with total := BitVec.ofNat 16 (max 1 (bitsOf v 31 16)), base := BitVec.ofNat 16 v }
  | 2 => { g with
      count := BitVec.ofNat 7 (min 64 (bitsOf v 22 16)), children := BitVec.ofNat 6 (bitsOf v 13 8)
      parent := BitVec.ofNat 4 v }
  | _ => g

/-- The RW fields of a register take a value under their storage rules; CTRL registers act as R396 says, WO bits act. -/
def State.store (s : State) (w : Win) (o v : Nat) : State :=
  let hub := fun (f : Hub → Hub) => s.mapDev fun d => d.mapHub f
  let ring := fun (f : Ring → Ring) => s.mapDev fun d => d.updRing d.hub.ringSel.toNat f
  match w, o with
  | .ctx, _ => hub fun h => { h with ctxSel := BitVec.ofNat 12 v }
  | .ring, 0x20 => hub fun h => { h with ringSel := BitVec.ofNat 12 v }
  | .ring, 0x30 => s.setEnable s.dev.ringBlock (bitOf v 0)
  | .ring, 0x40 => ring fun g => { g with cqLog := ringLog (bitsOf v 12 8), sqLog := ringLog (bitsOf v 4 0) }
  | .ring, 0x50 => ring fun g => { g with sqBase := putHalf g.sqBase 0 v }
  | .ring, 0x60 => ring fun g => { g with sqBase := putHalf g.sqBase 1 v }
  | .ring, 0x70 => ring fun g => { g with cqBase := putHalf g.cqBase 0 v }
  | .ring, 0x80 => ring fun g => { g with cqBase := putHalf g.cqBase 1 v }
  | .cnt, 0x20 => s.mapDev fun d => d.cntSelect v
  | .cnt, 0x30 =>
    let s1 := if bitOf v 0 then s.mapDev Device.cntTake else s
    if bitOf v 1 then s1.mapDev Device.cntRelease else s1
  | .cnt, 0x40 => if bitOf v 0 then s.mapDev Device.cntZero else s
  | .cnt, 0x50 => s.mapDev fun d => d.cntTraceSet (BitVec.ofNat 32 v)
  | .dbg i c, 0x00 => s.mapDev fun d => d.updCore i c fun x => x.halt (bitOf v 31)
  | .dbg i c, 0x10 => s.mapDev fun d => d.updCore i c fun x => { x with sel := BitVec.ofNat 32 v }
  | .blk b, 0x00 => s.setEnable b (bitOf v 0)
  | .blk .reel, 0x30 =>
    let parent := if bitsOf v 3 0 > 5 then 0xF else bitsOf v 3 0
    s.mapDev fun d => d.mapReel fun r => { r with sysCfg := BitVec.ofNat 32 (v / 16 * 16 + parent) }
  | .blk .reel, o => s.mapDev fun d =>
      let g := (o - 0x1000) / 0x40
      let d1 := d.setGroup g ((d.group g).store (o / 16 % 4) v)
      if o / 16 % 4 == 0 && bitOf v 31 && !(d.group g).en then d1.renumber g else d1
  | .blk (.pport p), 0x30 => s.mapDev fun d => d.updPort p fun x =>
      { x with autoRetrain := bitOf v 16, allowNarrow := bitOf v 4 }
  | .blk (.pport p), 0x50 => s.mapDev fun d => d.updPort p fun x =>
      { x with fecUncorr := BitVec.ofNat 16 (bitsOf v 31 16), replays := BitVec.ofNat 16 v }
  | .blk (.pport _), 0x800 => s.mapDev fun d => d.mapPorts fun x => { x with node := BitVec.ofNat 12 v }
  | .blk (.pport _), 0x810 =>
    let v1 := if bitsOf v 31 30 = 3 then v % 2 ^ 30 else v
    s.mapDev fun d => d.mapPorts fun x => { x with topo := BitVec.ofNat 32 v1 }
  | .blk (.mem i), 0x30 => s.mapDev fun d => d.updMemBlk i fun x =>
      { x with scrub := BitVec.ofNat 8 (bitsOf v 23 16), stashGib := BitVec.ofNat 6 (min 48 (bitsOf v 5 0)) }
  | .blk (.mem i), 0x40 => s.mapDev fun d => d.updMemBlk i fun x => { x with ce := BitVec.ofNat 32 v }
  | .blk (.mem i), 0x50 => s.mapDev fun d => d.updMemBlk i fun x => { x with ue := BitVec.ofNat 32 v }
  | .blk (.re i k), 0x40 =>
    let split := if bitsOf v 1 0 = 3 then 1 else bitsOf v 1 0
    s.mapDev fun d => d.updRe i k fun x =>
      { x with stealIn := bitOf v 5, stealOut := bitOf v 4, split := BitVec.ofNat 2 split }
  | .blk (.re i k), 0x60 => s.mapDev fun d => d.updRe i k fun x =>
      { x.halt (bitOf v 31) with
        dbgBank := bitOf v 24, dbgRow := BitVec.ofNat 6 (bitsOf v 21 16), dbgLane := BitVec.ofNat 9 v }
  | .blk (.txb i), _ => s.mapDev fun d => d.updDie i fun x => { x with bFirst := bitOf v 0 }
  | .blk (.dcache i), _ => s.mapDev fun d => d.updDie i fun x => { x with capShift := BitVec.ofNat 3 (max 1 v) }
  | .blk (.retr i), _ => s.mapDev fun d => d.updDie i fun x =>
      { x with
        budget := BitVec.ofNat 11 (min 1024 (bitsOf v 26 16)), l1En := bitOf v 9, dcEn := bitOf v 8
        distance := BitVec.ofNat 7 (max 1 (min 64 (bitsOf v 6 0))) }
  | _, _ => s

/-- W1C and RWS bits written 1 clear (R393). -/
def State.clearBits (s : State) (w : Win) (o v : Nat) : State :=
  let hub := fun (f : Hub → Hub) => s.mapDev fun d => d.mapHub f
  let wrejOff := bitOf v 16
  let minus := fun (x : Word) => x &&& ~~~(BitVec.ofNat 32 v)
  match w, o with
  | .glb, 0x10 => hub fun h => { h with glbWrej := h.glbWrej && !wrejOff }
  | .glb, 0xA0 => hub fun h => { h with peerRef := minus h.peerRef }
  | .glb, o =>
    if o < 0x300 then hub fun h => { h with rejLog := FMap.upd 0 h.rejLog ((o - 0x100) / 16) minus }
    else hub fun h => { h with hostErr := FMap.upd 0 h.hostErr ((o - 0x400) / 16) minus }
  | .ctx, _ => hub fun h => { h with ctxWrej := h.ctxWrej && !wrejOff }
  | .ring, _ => hub fun h => { h with ringWrej := h.ringWrej && !wrejOff }
  | .cnt, _ => hub fun h => { h with cntWrej := h.cntWrej && !wrejOff }
  | .pwr, _ => s.mapPow fun p => { p with
      wrej := p.wrej && !wrejOff, refclkLost := p.refclkLost && !bitOf v 11, tripSeen := p.tripSeen && !bitOf v 10
      pfaultSeen := p.pfaultSeen && !bitOf v 9 }
  | .blk (.mem i), 0x10 => s.mapDev fun d => d.updMemBlk i fun x => { x with
      blk := { x.blk with wrej := x.blk.wrej && !wrejOff }, ueSeen := x.ueSeen && !bitOf v 1 }
  | .blk (.mem i), 0x70 => s.mapDev fun d => d.updMemBlk i fun x => { x with eccValid := x.eccValid && !bitOf v 31 }
  | .blk (.re i k), _ => s.mapDev fun d => d.updBlk (.re i k) fun x => { x with wrej := x.wrej && !bitOf v 8 }
  | .blk (.pport p), _ => s.mapDev fun d => d.updPort p fun x => { x with
      blk := { x.blk with wrej := x.blk.wrej && !wrejOff }, downSeen := x.downSeen && !bitOf v 8 }
  | .blk b, _ => s.mapDev fun d => d.updBlk b fun x => { x with wrej := x.wrej && !wrejOff }
  | _, _ => s

/-- The rank of a requester's direct write (R394). -/
def reqRank : Requester → Nat
  | .mastiff => 2
  | .sheepdog => 1
  | .host => 0

/-- The direct write that gives the base: of the highest-ranked requester, the first of those. -/
def baseWrite (ws : List RegWrite) : Option RegWrite :=
  (ws.filter fun x => x.offset % 16 == 0).foldl (fun a x =>
    match a with
    | none => some x
    | some y => if reqRank y.who < reqRank x.who then some x else some y) none

/-- The OR of the values written through one alias. -/
def aliasOr (ws : List RegWrite) (al : Nat) : Nat :=
  (ws.filter fun x => x.offset % 16 == al).foldl (fun a x => Nat.lor a x.value.toNat) 0

/-- ((base & ~clr) | set) ^ tgl (R394). -/
def combineBits (base set clr tgl : Nat) : Nat := Nat.xor (Nat.lor (base - Nat.land base clr) set) tgl

/-- The writes of one cycle to one register (R391 to R399): each is checked against the state at the start of the
cycle, then the accepted ones combine, and superseded direct writes are logged. -/
def writeSlot (w : Win) (o : Nat) (ws : List RegWrite) (s : State) : State :=
  let bad := ws.filterMap fun x => (writeReason s w o x).map fun r => (x, r)
  let ok := ws.filter fun x => (writeReason s w o x).isNone
  let s1 := bad.foldl (fun t e => t.reject w e.1.who e.1.offset e.2) s
  let base := baseWrite ok
  let late := (ok.filter fun x => x.offset % 16 == 0).filter fun x => some x != base
  let s2 := late.foldl (fun t x => t.reject w x.who x.offset 3) s1
  let rw := rwMask s.plat.mas.debugMode w o
  let old := match w with
    | .blk b => if o = 0 then bit (s.dev.blk b).en else blockRead s b o
    | .ring => ringRead s.dev o
    | .ctx => ctxRead s.dev o
    | .cnt => cntRead s.dev o
    | .dbg i c => dbgRead s.dev i c o
    | _ => 0
  let v := combineBits (match base with
    | some x => x.value.toNat
    | none => old) (aliasOr ok 4) (aliasOr ok 8) (aliasOr ok 12)
  let s3 := match base with
    | some x =>
      let m := Nat.land x.value.toNat (w1cMask w o)
      if m = 0 then s2 else s2.clearBits w o m
    | none => s2
  if ok.isEmpty || rw == 0 then s3 else s3.store w o (Nat.land v rw)

/-- The slots that a cycle's writes touch, in the order of their first write. -/
def slotsOf (ws : List RegWrite) : List Nat := (ws.map fun x => x.offset / 16).eraseDups

/-- Are writes to a register ignored, with no rejection and no log entry: reserved regions, and the debug registers of a row
engine outside debug mode (R56, R402)? -/
def ignored (debug : Bool) (w : Win) (o : Nat) : Bool :=
  match w with
  | .reserved => true
  | .blk (.re _ _) => !debug && (o == 0x60 || o == 0x70)
  | _ => false

/-- The writes of one cycle, register by register. -/
def writeCycle (ws : List RegWrite) (s : State) : State :=
  (slotsOf ws).foldl (fun t n =>
    let at_ := winOf s.plat.mas.debugMode (16 * n)
    if ignored s.plat.mas.debugMode at_.1 at_.2 then t
    else writeSlot at_.1 at_.2 (ws.filter fun x => x.offset / 16 == n) t) s

/-- The first 4 B access of a write: an aligned 8 B one is carried out as two (R392). -/
def RegWrite.low (x : RegWrite) : RegWrite := if x.size = 8 ∧ x.offset % 8 = 0 then { x with size := 4 } else x

/-- The second 4 B access of an aligned 8 B write (R392). -/
def RegWrite.upper (x : RegWrite) : Option RegWrite :=
  if x.size = 8 ∧ x.offset % 8 = 0 then some ⟨x.who, x.offset + 4, x.high, 4, 0⟩ else none

/-- REGISTER_WRITE: the BAR0 writes of one cycle (R392, R394); the upper halves of 8 B accesses follow them. -/
def registerWrite (ws : List RegWrite) (s : State) : State :=
  writeCycle (ws.filterMap RegWrite.upper) (writeCycle (ws.map RegWrite.low) s)

/-- REGISTER_WRITE. -/
def execRegisterWrite (ws : List RegWrite) (s : State) : Out := onState (registerWrite ws) s

/-! ### Debug halts (R57, R429) -/

/-- RE_HALT_REQUEST: outside debug mode the write is ignored (R56). -/
def execReHaltRequest (die k : Nat) (halt : Bool) (s : State) : Out :=
  onDev (fun p d => if p.mas.debugMode then d.updRe die k fun r => r.halt halt else d) s

/-- CORE_HALT_REQUEST. -/
def execCoreHaltRequest (die core : Nat) (halt : Bool) (s : State) : Out :=
  onDev (fun p d => if p.mas.debugMode then d.updCore die core fun c => c.halt halt else d) s

/-- CORE_DEBUG_HALT: at an instruction boundary the core halts. -/
def execCoreDebugHalt (die core : Nat) (s : State) : Out :=
  onDev (fun p d =>
    if p.mas.debugMode && (d.core die core).haltReq then d.updCore die core fun c => { c with halted := true } else d) s

/-! ### The counter window (R425, R426) -/

/-- CNT_SEL_WRITE. -/
def execCntSelWrite (ctx : Nat) (s : State) : Out := onDev (fun _ d => d.cntSelect ctx) s

/-- CNT_SNAP_TAKE. -/
def execCntSnapTake (s : State) : Out := onDev (fun _ d => d.cntTake) s

/-- CNT_SNAP_RELEASE. -/
def execCntSnapRelease (s : State) : Out := onDev (fun _ d => d.cntRelease) s

/-- CNT_CLEAR. -/
def execCntClear (s : State) : Out := onDev (fun _ d => d.cntZero) s

/-- CNT_TRACE_WRITE. -/
def execCntTraceWrite (v : Word) (s : State) : Out := onDev (fun _ d => d.cntTraceSet v) s

end Sys2Proof.Machine
end

