-- ==== Sys2Proof/Machine/Update.lean ====
section
/-! DEFINITION. Norm-and-update items: the Step Record, the clip norm, the recurrence, and the swap of layers and versions
(R13, R14, R18, R19, R101, R104 to R117, R120, R267). -/

namespace Sys2Proof.Machine

/-! ### The Step Record (R107) -/

/-- Is an FP32 value finite? -/
def finite (w : Word) : Bool := w.toNat / 2 ^ 23 % 256 != 255

/-- Is a Step Record legal? -/
def stepOk (r : List Byte) : Bool :=
  let flags := field r 2 2
  let clip : Word := BitVec.ofNat 32 (field r 0x14 4)
  field r 0 2 == 1 && decide (flags < 4) && zeroField r 4 4 && zeroField r 0x18 40 &&
    (!bitOf flags 0 || (finite clip && Num.lt (.fin false 0 0) (toNum clip)))

/-! ### The clip norm (R108, R109) -/

/-- `n` FP32 words of an array. -/
def Device.readWords (d : Device) (a : Actor) (n base : Nat) : Except MemErr (List Word) :=
  (List.range n).mapM fun i => (d.readNat a 4 (base + 4 * i)).map (BitVec.ofNat 32)

/-- Blocks of 64 rows by 32 columns that a layer has, in each direction. -/
def normBlocks (rows cols : Nat) : Nat × Nat := (ceilDiv rows 64, ceilDiv cols 32)

/-- The elements of block `b` of a row-major array, in row-major order. -/
def blockElems (rows cols b : Nat) (g : List Word) : List Word :=
  let nc := ceilDiv cols 32
  let r0 := b / nc * 64
  let c0 := b % nc * 32
  (List.range (min 64 (rows - r0))).flatMap fun i => (g.drop ((r0 + i) * cols + c0)).take (min 32 (cols - c0))

/-- A sum formed one addition at a time. -/
def sumWords (xs : List Word) : Word := xs.foldl Fp.add 0

/-- Q_layer from the gradient. -/
def layerNorm (rows cols : Nat) (g : List Word) : Word :=
  let n := normBlocks rows cols
  sumWords ((List.range (n.1 * n.2)).map fun b => squareSum (blockElems rows cols b g))

/-- A layer's entry of the coefficient table, checked again as it is read. -/
def Device.coefEntry (d : Device) (a : Actor) (it : Item) (i : Nat) : Except MemErr (List Byte) := do
  let e ← d.readBytes a 256 (field it.desc 0x20 8 + 256 * i)
  if !coefOk e then .error (.fault .illegalInstr 0)
  else if !coefAligned e then .error (.fault .misaligned 0)
  else pure e

/-- Q_layer, from the tap array where the entry names one. -/
def Device.layerQ (d : Device) (a : Actor) (it : Item) (i : Nat) : Except MemErr Word := do
  let e ← d.coefEntry a it i
  let n := normBlocks (coefRows e) (coefCols e)
  if coefAddr e 0x88 ≠ 0 then (d.readWords a (n.1 * n.2) (coefAddr e 0x88)).map sumWords
  else (d.readWords a (coefElems e) (coefAddr e 0x70)).map (layerNorm (coefRows e) (coefCols e))

/-- Q_shard. -/
def Device.shardQ (d : Device) (a : Actor) (it : Item) (layers : Nat) : Except MemErr Word :=
  ((List.range layers).mapM (d.layerQ a it)).map sumWords

/-! ### NORM_UPDATE (R105 phases 1 to 3, R267) -/

/-- The directory entry an item names. -/
def Device.setOf (d : Device) (it : Item) : Option WSet :=
  match d.wsKey it with
  | none => none
  | some k => d.ups.dir.find? fun w => w.recAt == k

/-- The run of an item that has read its Step Record. -/
def newRun (it : Item) (w : WSet) (r : List Byte) : Update :=
  { ctx := it.ctx, seq := it.seq, phase := .norm, set := w.recAt, clipEn := bitOf (field r 2 2) 0
    skip := bitOf (field r 2 2) 1, step := BitVec.ofNat 64 (field r 8 8), eta := BitVec.ofNat 32 (field r 0x10 4)
    clip := BitVec.ofNat 32 (field r 0x14 4), qShard := 0, summed := false, norm := 0, scale := 0, layer := 0, writing := false
    swapped := [] }

/-- The run of an item. -/
def Device.runOf (d : Device) (c q : Nat) : Option Update := d.ups.runs.find? fun r => r.ctx == c && r.seq == q

/-- Changes the run of an item. -/
def Device.updRun (d : Device) (c q : Nat) (f : Update → Update) : Device :=
  d.mapUps fun u => { u with runs := u.runs.map fun r => if r.ctx == c && r.seq == q then f r else r }

/-- The partial sum of an item whose Step Record has been read: formed, or its gradients are waited for. -/
def Device.formSum (d0 : Device) (p : Platform) (it : Item) (layers : Nat) : Device :=
  let d := d0.h0Read (it.actor none) fun a => d0.shardQ a it layers
  match d.shardQ (it.actor none) it layers with
  | .error e => d.accessFailed p it 5 60 0xFF e
  | .ok s => ((d.updRun it.ctx it.seq fun x => { x with qShard := s, summed := true }).updItem it.ctx it.seq fun x =>
      { x with phase := .running }).firstIssue p.pow.time it.ctx it.seq

/-- A dispatched norm-and-update item that waits for no deferred item reads its Step Record, once, and forms its partial sum. -/
def normUpdate (c q : Nat) (p : Platform) (d : Device) : Device :=
  match d.item c q with
  | none => d
  | some it =>
    if it.typ ≠ 4 ∨ it.phase ≠ .dispatched ∨ d.deferWait it then d
    else match d.setOf it with
      | none => d
      | some w =>
        if (d.runOf c q).isSome then d.formSum p it w.layers.length
        else
          let d1 := d.h0Bytes (it.actor none) 64 it.addr0
          match d1.readBytes (it.actor none) 64 it.addr0 with
          | .error e => d1.accessFailed p it 5 60 0xFF e
          | .ok r =>
            if !stepOk r then d1.itemFault p it 5 60 0xFF .illegalInstr 0
            else (d1.mapUps fun u => { u with runs := u.runs ++ [newRun it w r] }).formSum p it w.layers.length

/-- NORM_UPDATE. -/
def execNormUpdate (ctx seq : Nat) (s : State) : Out := onDev (normUpdate ctx seq) s

/-! ### The clip scale (R110) -/

/-- The clip scale of a norm. -/
def clipScale (en : Bool) (norm clip : Word) : Word :=
  if !en || Num.lt (toNum norm) (toNum clip) || Num.eq (toNum norm) (toNum clip) then 0x3F800000#32
  else Fp.div clip norm

/-- The group's total has come: the norm and the scale are formed, and the layers begin; a step whose norm is not finite is
skipped where the record says so. -/
def Device.normKnown (d : Device) (c q : Nat) (total : Word) : Device :=
  match d.runOf c q with
  | none => d
  | some r =>
    let norm := Fp.sqrt total
    let d1 := d.updItem c q fun x => { x with result := norm ++ r.eta }
    if r.skip && !finite norm then
      ((d1.count c 60 1).mapUps fun u => { u with runs := u.runs.filter fun x => !(x.ctx == c && x.seq == q) }).updItem c q
        fun x => { x with phase := .done }
    else d1.updRun c q fun x => { x with phase := .layers, norm := norm, scale := clipScale r.clipEn norm r.clip }

/-! ### The recurrence (R111) -/

/-- A matrix of FP32 words: rows, columns, elements in row-major order. -/
structure Mat where
  rows : Nat
  cols : Nat
  els  : List Word
  deriving DecidableEq, Repr

/-- Element (i, j). -/
def Mat.at_ (m : Mat) (i j : Nat) : Word := m.els.getD (i * m.cols + j) 0

/-- The transpose. -/
def Mat.turn (m : Mat) : Mat :=
  ⟨m.cols, m.rows, (List.range m.cols).flatMap fun j => (List.range m.rows).map fun i => m.at_ i j⟩

/-- Element-wise operations. -/
def Mat.map (m : Mat) (f : Word → Word) : Mat := { m with els := m.els.map f }
def Mat.zip (m n : Mat) (f : Word → Word → Word) : Mat := { m with els := List.zipWith f m.els n.els }

/-- The value of a word rounded to BF16. -/
def bf16Num (w : Word) : Num := elemNum 0x03 (convert 0x03 .nearest false (toNum w))

/-- One place of a DENSE product of BF16 operands: chunks of 32 positions, each split in its own partial (R24, R25, R34). -/
def densePlace (split : Nat) (row col : List Num) : Word :=
  let k := row.length
  let units := ceilDiv k 32
  let part := fun (s : Nat) =>
    let u0 := s * units / split
    let u1 := (s + 1) * units / split
    (List.range (u1 - u0)).foldl (fun acc u =>
      let lo := (u0 + u) * 32
      chunkSum acc (padTo 32 (List.zipWith Num.mul ((row.drop lo).take 32) ((col.drop lo).take 32)))) 0
  if split ≤ 1 then part 0 else combineParts false ((List.range split).map part)

/-- A product of two matrices rounded to BF16. -/
def Mat.mul (a b : Mat) (split : Nat) : Mat :=
  let rows := (List.range a.rows).map fun i => (List.range a.cols).map fun k => bf16Num (a.at_ i k)
  let cols := (List.range b.cols).map fun j => (List.range b.rows).map fun k => bf16Num (b.at_ k j)
  ⟨a.rows, b.cols, rows.flatMap fun r => cols.map fun c => densePlace split r c⟩

/-- Is a coefficient +0 or -0? -/
def isZeroWord (w : Word) : Bool := w &&& 0x7FFFFFFF#32 == 0

/-- One polynomial row. -/
def polyStep (split : Nat) (x : Mat) (a b c : Word) : Mat :=
  if isZeroWord b && isZeroWord c then x.map (Fp.mul a)
  else
    let wide := decide (x.rows ≤ x.cols)
    let g := if wide then x.mul x.turn split else x.turn.mul x split
    let bg := g.map (Fp.mul b)
    let p := if isZeroWord c then bg else (g.mul g split).zip bg fun y z => Fp.fma c y z
    let e := if wide then p.mul x split else x.mul p split
    x.zip e fun y z => Fp.fma a y z

/-- Coefficient rows 1 to n of an entry. -/
def polyRows (e : List Byte) : List (Word × Word × Word) :=
  (List.range (coefN e)).map fun k =>
    (coefWord e (0x90 + 12 * k), coefWord e (0x94 + 12 * k), coefWord e (0x98 + 12 * k))

/-- A layer's arrays as the sequencer reads them. -/
structure LayerIn where
  g  : List Word
  w  : List Word
  m1 : List Word
  m2 : List Word
  deriving DecidableEq, Repr

/-- The new weights in FP32 and the new moments of a layer. -/
def layerStep (e : List Byte) (scale eta : Word) (x : LayerIn) : List Word × List Word × List Word :=
  let one : Word := 0x3F800000#32
  let b1 := coefWord e 0x10
  let b2 := coefWord e 0x14
  let eps := coefWord e 0x18
  let om1 := Fp.sub one b1
  let om2 := Fp.sub one b2
  let kappa := Fp.sub one (Fp.mul eta (coefWord e 0x1C))
  let mu := Fp.mul eta (coefWord e 0x20)
  let g := x.g.map (Fp.mul scale)
  let m1 := List.zipWith (fun m g => Fp.fma b1 m (Fp.mul om1 g)) x.m1 g
  let m2 := if coefM2 e then List.zipWith (fun m g => Fp.fma b2 m (Fp.mul om2 (Fp.mul g g))) x.m2 g else []
  let dir := if coefNorm e then List.zipWith (fun m v => Fp.div m (Fp.add (Fp.sqrt v) eps)) m1 m2 else m1
  let poly := (polyRows e).foldl (fun y r => polyStep (coefSplit e) y r.1 r.2.1 r.2.2) ⟨coefRows e, coefCols e, dir⟩
  (List.zipWith (fun y w => Fp.fma (Fp.neg mu) y (Fp.mul kappa w)) poly.els x.w, m1, m2)

/-! ### Write-back (R113, R114) -/

/-- The element code of a new weight: element `i` in row-major order. -/
def weightCode (e : List Byte) (seed step : Dword) (i : Nat) (w : Word) : Nat :=
  convert (coefFmt e) (convRnd (coefConv e) (cb10 seed (coefWord e 0x24) (step.setWidth 32) i)) (convSat (coefConv e)) (toNum w)

/-- Addresses of the arrays of a slot: W, M1, M2. -/
def slotAddrs (e : List Byte) (slot : Bool) : Nat × Nat × Nat :=
  (coefAddr e (if slot then 0x48 else 0x40), coefAddr e (if slot then 0x58 else 0x50), coefAddr e (if slot then 0x68 else 0x60))

/-- Ranges that a layer's write-back covers: its target slot, and its scratch area where a polynomial row is named (R112). -/
def layerRanges (e : List Byte) (slot : Bool) : List (Nat × Nat) :=
  let n := coefElems e
  let g := min (coefRows e) (coefCols e)
  let a := slotAddrs e slot
  let s := coefSplit e
  [(a.1, coefBytes e), (a.2.1, 4 * n)] ++ (if coefM2 e then [(a.2.2, 4 * n)] else []) ++
    (if coefN e = 0 then []
     else [(coefAddr e 0x80, 6 * n + 12 * g * g + if 1 < s then 4 * s * max n (g * g) else 0)])

/-- Is a range writable? -/
def Device.writable (d : Device) (a : Actor) (va len : Nat) : Except MemErr Unit :=
  if len = 0 then .ok ()
  else (List.range ((va + len - 1) / 128 - va / 128 + 1)).forM fun i => do
    let x := max va ((va / 128 + i) * 128)
    let (pl, _) ← translate d a.ctx x .write
    match pl with
    | .peer n _ _ => (d.peerGate a.ctx n x).map fun _ => ()
    | _ => pure ()

/-- Bytes whose contents the work under way leaves open (log 18). -/
def Device.mixRange (a : Actor) (n : Nat) (d : Device) (r : Nat × Nat) : Device :=
  ((List.range r.2).map fun i => r.1 + i).foldl (Device.mixByte a n) d

/-- The layer a run has reached: its directory entry and layer. -/
def Device.runLayer (d : Device) (r : Update) : Option (WSet × WLayer) :=
  match d.ups.dir.find? fun w => w.recAt == r.set with
  | none => none
  | some w => (w.layers[r.layer]?).map fun l => (w, l)

/-- Does an item hold a slot of a layer (R14, R116)? -/
def Device.slotHeld (d : Device) (recAt layer : Nat) (slot : Bool) : Bool :=
  d.hub.items.any fun i => i.holds.contains (recAt, layer, bit slot)

/-- Cycles of a wait in which an engine held no other item: those given less those reported for it; where nothing is reported, all
of them or none, as it is free or busy now (R116; log 15). -/
def Device.freeCycles (d : Device) (cycles : Nat) (held : List (Nat × Nat × Nat)) (e : Nat × Nat) : Nat :=
  match held.find? fun h => h.1 == e.1 && h.2.1 == e.2 with
  | some h => cycles - h.2.2
  | none => if (d.re e.1 e.2).busy then 0 else cycles

/-- Does an item's run wait for a slot that other items hold (R116)? -/
def Device.pinWaits (d : Device) (it : Item) : Bool :=
  (d.runOf it.ctx it.seq).any fun r => r.phase == .layers && !r.writing &&
    (d.runLayer r).any fun l => d.slotHeld l.1.recAt r.layer (!l.2.slot)

/-- Does a norm-and-update item wait in a way that its slice counts as DEP_WAIT: at dispatch for another one of its record, for a
deferred item, or for a slot (R96, R106, R116)? -/
def Device.updateWaits (d : Device) (it : Item) : Bool :=
  it.typ == 4 && !it.isWork && match it.phase with
    | .fetched => (d.ctx it.ctx).st == .opened && d.depsOver it && (d.recordBusy it || d.deferWait it)
    | .dispatched => d.deferWait it
    | .running => d.pinWaits it
    | .done => false

/-- Cycles of the wait for a slot, at every row engine of the slice for the cycles in which it holds no other item (R116). -/
def Device.chargePinWait (d : Device) (it : Item) (cycles : Nat) (held : List (Nat × Nat × Nat)) : Device :=
  (d.sliceEngines it.slice).foldl (fun d e => d.chargeStall it.ctx e.1 e.2 5 (d.freeCycles cycles held e))
    (d.count it.ctx 62 cycles)

/-- LAYER_WRITE_START: once no item holds the target slot the sequencer writes the layer; what the slot and the scratch area
hold until the swap is left open. `waited` and `held` give the cycles of a wait for the slot that no period of the time counter has
counted (log 15). -/
def layerWriteStart (c q waited : Nat) (held : List (Nat × Nat × Nat)) (p : Platform) (d : Device) : Device :=
  match d.item c q, d.runOf c q with
  | some it, some r =>
    if r.phase ≠ .layers ∨ r.writing then d
    else match d.runLayer r with
      | none => d
      | some (w, l) =>
        if d.slotHeld w.recAt r.layer (!l.slot) then d
        else
          let d0 := (d.chargePinWait it waited held).updItem c q fun x => { x with layerIx := r.layer }
          let d1 := d0.h0Read (it.actor none) fun a => d.coefEntry a it r.layer
          let go : Except MemErr (List (Nat × Nat)) := do
            let e ← d1.coefEntry (it.actor none) it r.layer
            let rs := layerRanges e (!l.slot)
            rs.forM fun x => d1.writable (it.actor none) x.1 x.2
            pure rs
          match go with
          | .error e => d1.accessFailed p it 5 60 0xFF e
          | .ok rs =>
            let (n, d2) := d1.fresh
            (rs.foldl (Device.mixRange (it.actor none) n) d2).updRun c q fun x => { x with writing := true }
  | _, _ => d

/-- LAYER_WRITE_START. -/
def execLayerWriteStart (ctx seq waited : Nat) (held : List (Nat × Nat × Nat)) (s : State) : Out :=
  onDev (layerWriteStart ctx seq waited held) s

/-- Reads a layer's arrays from its current slot. -/
def Device.readArrays (d : Device) (a : Actor) (e : List Byte) (slot : Bool) : Except MemErr LayerIn := do
  let n := coefElems e
  let at_ := slotAddrs e slot
  let g ← d.readWords a n (coefAddr e 0x70)
  let w ← (List.range n).mapM fun i => do
    let x ← d.srcElem a (.va at_.1) (coefFmt e) i
    pure (if coefFmt e = 0x00 then BitVec.ofNat 32 x else ofNum (elemNum (coefFmt e) x))
  let m1 ← d.readWords a n at_.2.1
  let m2 ← if coefM2 e then d.readWords a n at_.2.2 else pure []
  pure ⟨g, w, m1, m2⟩

/-- Frozen elements of a layer. -/
def Device.frozen (d : Device) (a : Actor) (e : List Byte) : Except MemErr (List Nat) :=
  if coefFreeze e then do
    let bs ← d.readBytes a (ceilDiv (coefElems e) 8) (coefAddr e 0x78)
    pure ((List.range (coefElems e)).filter fun i => bitOf ((bs.getD (i / 8) 0).toNat) (i % 8))
  else .ok []

/-- Words as bytes. -/
def wordBytes (ws : List Word) : List Byte := ws.flatMap fun w => leBytes 4 w.toNat

/-- What the sequencer reads of a layer: its entry, its arrays in a slot, the frozen elements. -/
def Device.layerReads (d : Device) (a : Actor) (it : Item) (i : Nat) (slot : Bool) :
    Except MemErr (List Byte × LayerIn × List Nat) := do
  let e ← d.coefEntry a it i
  let x ← d.readArrays a e slot
  let fz ← d.frozen a e
  pure (e, x, fz)

/-- Computes a layer from its current slot and writes it to the other one: the device, and the elements that were frozen. -/
def Device.writeLayer (d0 : Device) (it : Item) (r : Update) (slot : Bool) : Except MemErr (Device × Nat) := do
  let a := it.actor none
  let d := d0.h0Read a fun b => d0.layerReads b it r.layer slot
  let (e, x, fz) ← d.layerReads a it r.layer slot
  let y := layerStep e r.scale r.eta x
  let src := slotAddrs e slot
  let dst := slotAddrs e (!slot)
  let b := fmtBits (coefFmt e) / 8
  let seed := (d.ctx it.ctx).seed
  let pick := fun (i : Nat) (old new : Word) => if fz.contains i then old else new
  let ws ← (List.range (coefElems e)).mapM fun i => do
    if fz.contains i then do
      let old ← d.srcElem a (.va src.1) (coefFmt e) i
      pure (leBytes b old)
    else pure (leBytes b (weightCode e seed r.step i (y.1.getD i 0)))
  let mix := fun (old new : List Word) => (List.range (coefElems e)).map fun i => pick i (old.getD i 0) (new.getD i 0)
  let d1 ← d.writeVa a 2 dst.1 ws.flatten
  let d2 ← d1.writeVa a 2 dst.2.1 (wordBytes (mix x.m1 y.2.1))
  let d3 ← if coefM2 e then d2.writeVa a 2 dst.2.2 (wordBytes (mix x.m2 y.2.2)) else pure d2
  pure (d3, fz.length)

/-- The last layer has swapped: the version is published and the item's work is done (R117). -/
def Device.publish (d : Device) (p : Platform) (it : Item) (w : WSet) : Device :=
  let v := w.published + 1
  match d.writeVa (it.actor none) 2 w.recVa (leBytes 8 v.toNat) with
  | .error e => d.accessFailed p it 5 60 0xFF e
  | .ok d1 =>
    (d1.mapUps fun u => { u with
      dir := u.dir.map fun x => if x.recAt == w.recAt then { x with published := v } else x
      runs := u.runs.filter fun x => !(x.ctx == it.ctx && x.seq == it.seq) }).updItem it.ctx it.seq fun x =>
        { x with phase := .done, layerIx := 0 }

/-- A written layer takes its new slot and version in one step, and its entry is written (R117). -/
def Device.swapLayer (d : Device) (p : Platform) (it : Item) (r : Update) (w : WSet) (l : WLayer) : Device :=
  let d1 := ((setLayer d w.recAt r.layer (w.published + 1) (!l.slot)).updRun it.ctx it.seq fun x =>
    { x with swapped := x.swapped ++ [r.layer], layer := r.layer + 1, writing := false }).count it.ctx 58 1
  match d1.writeVa (it.actor none) 2 (w.recVa + 0x40 + 16 * r.layer) (layerEntry (w.published + 1) (!l.slot)) with
  | .error e => d1.accessFailed p it 5 60 0xFF e
  | .ok d2 =>
    if r.layer + 1 < w.layers.length then d2.updItem it.ctx it.seq fun x => { x with layerIx := r.layer + 1 }
    else d2.publish p it w

/-- LAYER_SWAP: the layer under way is computed and written back, and it swaps. -/
def layerSwap (c q : Nat) (p : Platform) (d : Device) : Device :=
  match d.item c q, d.runOf c q with
  | some it, some r =>
    if r.phase ≠ .layers ∨ !r.writing then d
    else match d.runLayer r with
      | none => d
      | some (w, l) =>
        match d.writeLayer it r l.slot with
        | .error e => d.accessFailed p it 5 60 0xFF e
        | .ok (d1, n) => (d1.count c 61 n).swapLayer p it r w l
  | _, _ => d

/-- LAYER_SWAP. -/
def execLayerSwap (ctx seq : Nat) (s : State) : Out := onDev (layerSwap ctx seq) s

end Sys2Proof.Machine
end

