-- ==== Sys2Proof/Machine/Reel.lean ====
section
/-! DEFINITION. The Reel network: arrival, the fixed order of reductions, messages, completion, aborts, lost links, and the
snapshot and the reset of the system tree (R219, R296 to R309). -/

namespace Sys2Proof.Machine

/-! ### A group's instance (R297 to R302) -/

/-- Child ports of an entry, and all ports of its tree. -/
def Group.childPorts (g : Group) : List Nat := (List.range Config.portCount).filter g.children.getLsbD
def Group.ports (g : Group) : List Nat :=
  g.childPorts ++ (if g.parent = 0xF then [] else [g.parent.toNat])

/-- What child modules have sent for the instance in flight. -/
def Group.kidsNow (g : Group) : List Child := g.kids.filter fun k => k.inst == g.inst

/-- The entry's state: DOWN stands; ACTIVE while an instance is in flight. -/
def Group.settle (g : Group) : Group :=
  { g with gst := if g.gst = .down then .down else if g.arrived.isEmpty && g.kidsNow.isEmpty then .idle else .active }

/-- The first instance from `n` on that is not aborted yet. -/
def nextInst (skipped : List Nat) : Nat → Nat → Nat
  | 0, n => n
  | f + 1, n => if skipped.contains n then nextInst skipped f (n + 1) else n

/-- The instance in flight is over. -/
def Group.advance (g : Group) : Group :=
  let n := nextInst g.skipped (g.skipped.length + 1) (g.inst + 1)
  Group.settle { g with
    inst := n, arrived := [], sentUp := false, down := none, kids := g.kids.filter fun k => decide (n ≤ k.inst)
    skipped := g.skipped.filter fun i => decide (n ≤ i) }

/-- One value onto another (R300). -/
def reelAdd (fmt : Nat) (a b : Word) : Word := if fmt = 0x00 then Fp.add a b else a + b

/-- Values combined in the order given, element by element; a NaN that comes out is the canonical one (R23, R301). -/
def reelFold (fmt : Nat) : List (List Word) → List Word
  | [] => []
  | x :: xs => (xs.foldl (fun acc y => List.zipWith (reelAdd fmt) acc y) x).map (canonWord fmt)

/-- A part of a tree: its lowest shard with its parameters, and the lowest one whose parameters differ from those. -/
structure Summary where
  low    : Nat
  params : ReelParams
  bad    : Option Nat
  deriving DecidableEq, Repr

/-- The lower of two shard numbers. -/
def minOpt : Option Nat → Option Nat → Option Nat
  | none, b => b
  | a, none => a
  | some a, some b => some (min a b)

/-- Two parts as one (R302). -/
def Summary.join (a b : Summary) : Summary :=
  let (x, y) := if a.low ≤ b.low then (a, b) else (b, a)
  ⟨x.low, x.params, minOpt x.bad (if y.params = x.params then y.bad else some y.low)⟩

/-- Arrived shards in ascending order. -/
def Group.shards (g : Group) : List Arrival :=
  (List.range g.count.toNat).filterMap fun i => g.arrived.find? fun a => a.shard == g.base.toNat + i

/-- The parts of the subtree: local shards ascending, then children by port, those without shards left out. -/
def Group.kidsInOrder (g : Group) : List Child :=
  g.childPorts.filterMap fun p => g.kidsNow.find? fun k => k.port == p && decide (0 < k.shards)
def Group.parts (g : Group) : List Summary :=
  g.shards.map (fun a => ⟨a.shard, a.params, none⟩) ++ g.kidsInOrder.map fun k => ⟨k.low, k.params, k.bad⟩

/-- The subtree's summary; none without shards. -/
def Group.summary (g : Group) : Option Summary :=
  match g.parts with
  | [] => none
  | x :: xs => some (xs.foldl Summary.join x)

/-- The subtree's partial (R301). -/
def Group.partial_ (g : Group) (fmt : Nat) : List Word :=
  reelFold fmt (g.shards.map Arrival.values ++ g.kidsInOrder.map Child.values)

/-- The source's bytes, where the root shard is in the subtree. -/
def Group.source (g : Group) : Option (List Byte) :=
  match g.shards.find? fun a => a.params.op == 1 && a.params.root == a.shard with
  | some a => some a.bytes
  | none => g.kidsInOrder.findSome? fun k => k.bytes

/-- Shards of the subtree that have arrived. -/
def Group.total_ (g : Group) : Nat := g.shards.length + (g.kidsInOrder.map Child.shards).sum

/-- Have all local shards and all child modules come? -/
def Group.whole (g : Group) : Bool :=
  g.shards.length == g.count.toNat && g.childPorts.all fun p => g.kidsNow.any fun k => k.port == p

/-- Sends a message to child modules of a group. -/
def Device.toKids (d : Device) (ps : List Nat) (m : ReelMsg) : Device := ps.foldl (fun d p => d.emit (.reel p m)) d

/-- What a subtree without shards reports as the instance's parameters, which it does not know: free (R302; log 70). -/
def freeParams (n : Nat) : ReelParams :=
  let f := fun i => (Config.freeByte n i).toNat
  ⟨f 0, f 1, f 2, f 3⟩

/-- The root module knows the outcome: a mismatch fails the instance; bytes that no shard is the source of are free. -/
def Device.decide_ (d : Device) (g : Nat) (x : Group) (s : Summary) : Device :=
  let vals := x.partial_ s.params.fmt
  let (n, d1) := d.fresh
  let bytes := x.source.getD ((List.range s.params.count).map fun i => Config.freeByte n i)
  let down : Down := ⟨vals, if s.params.op = 1 then bytes else [], s.bad⟩
  let m := match s.bad with
    | some b => ReelMsg.failDown g x.inst s.params b
    | none => .resultDown g x.inst s.params down.values down.bytes
  (d1.setGroup g { x with down := some down }).toKids x.childPorts m

/-- A whole subtree goes on: to the parent module, or at the root to its outcome once all n shards are there. -/
def Device.reelAdvance (d : Device) (g : Nat) : Device :=
  let x := d.group g
  if !x.en || x.gst = .down || x.sentUp || x.down.isSome || !x.whole then d
  else if x.parent = 0xF then
    match x.summary with
    | some s => if x.total_ = x.total.toNat then d.decide_ g x s else d
    | none => d
  else
    let (n, d1) := d.fresh
    let s := x.summary.getD ⟨0, freeParams n, none⟩
    (d1.setGroup g { x with sentUp := true }).emit (.reel x.parent.toNat
      (.partialUp g x.inst s.params (x.partial_ s.params.fmt) x.total_ s.low x.source s.bad))

/-! ### The REEL item (R272, R299, R300) -/

/-- A REEL item of an operation starts: what it gives is read. -/
def Device.reelStart (d : Device) (p : Platform) (c q op len : Nat) (gives : Item → Bool) : Device :=
  d.act p c q 8 (fun it => field it.desc 0x10 1 == op) fun it d =>
    let n := if gives it then len * field it.desc 0x16 2 else 0
    let d1 := d.h0Bytes (it.actor none) n (field it.desc 0x18 8)
    match d1.readBytes (it.actor none) n (field it.desc 0x18 8) with
    | .error e => d1.accessFailed p it 1 60 0xFF e
    | .ok bs => d1.updItem c q fun x => { x with oprec := bs, phase := .running }

/-- REEL_BARRIER. -/
def execReelBarrier (ctx seq : Nat) (s : State) : Out :=
  onDev (fun p d => d.reelStart p ctx seq 0 0 fun _ => false) s

/-- REEL_BROADCAST: the root shard's bytes are read. -/
def execReelBroadcast (ctx seq : Nat) (s : State) : Out :=
  onDev (fun p d => d.reelStart p ctx seq 1 1 fun it => it.reelParams.root == it.shard) s

/-- REEL_REDUCE: the shard's values are read. -/
def execReelReduce (ctx seq : Nat) (s : State) : Out :=
  onDev (fun p d => d.reelStart p ctx seq 2 4 fun _ => true) s

/-- The values a shard gives. -/
def Device.reelValues (d : Device) (it : Item) : List Word :=
  if it.typ = 4 then ((d.runOf it.ctx it.seq).map fun r => r.qShard).toList
  else if field it.desc 0x10 1 = 2 then (List.range (field it.desc 0x16 2)).map fun j => BitVec.ofNat 32 (field it.oprec (4 * j) 4)
  else []

/-- Writes of a shard to partner memory that no answer acknowledges yet: its earlier items', and the item's own. -/
def Device.shardWrites (d : Device) (it : Item) : Bool :=
  d.hub.items.any fun y => y.ctx == it.ctx && y.group == it.group && decide (y.seq ≤ it.seq) && d.writesAway y.ctx y.seq

/-- May a shard arrive: its item runs, has not arrived, and the instance in flight is its own? Where the group spans partner
modules its earlier writes must be visible there (R219). -/
def Device.mayArrive (d : Device) (it : Item) : Bool :=
  (it.typ == 8 || it.typ == 4 && (d.runOf it.ctx it.seq).any fun r => r.phase == .norm) && !it.isWork &&
    it.phase == .running && it.arrivedAt.isNone && d.reel.blk.isOn && (d.liveGroup it).any fun x => x.inst == it.inst && (x.ports.isEmpty || !d.shardWrites it)

/-- A shard arrives. -/
def reelArrival (c q : Nat) (p : Platform) (d : Device) : Device :=
  match d.item c q with
  | none => d
  | some it =>
    match it.group with
    | none => d
    | some (g, sh) =>
      if !d.mayArrive it then d
      else
        let x := d.group g
        let a : Arrival := ⟨sh, c, q, it.reelParams, d.reelValues it,
          if it.typ = 8 && field it.desc 0x10 1 == 1 then it.oprec else []⟩
        ((d.setGroup g (Group.settle { x with arrived := x.arrived ++ [a] })).updItem c q fun y =>
          { y with arrivedAt := some p.pow.time }).reelAdvance g

/-! ### Completion (R299, R300, R309) -/

/-- One shard's item takes the instance's result; completion is an acquire (R219). -/
def Device.shardDone (p : Platform) (dn : Down) (d : Device) (a : Arrival) : Device :=
  match d.item a.ctx a.seq with
  | none => d
  | some it =>
    match dn.bad with
    | some b => d.itemError a.ctx a.seq .indexRange (detailPos b 4)
    | none =>
      let d1 := (d.dropBuf a.ctx a.seq).count a.ctx 130 1
      if it.typ = 4 then d1.normKnown a.ctx a.seq (dn.values.headD 0)
      else
        let bs := if a.params.op = 2 then wordBytes dn.values else if a.params.op = 1 then dn.bytes else []
        match d1.writeVa (it.actor none) 6 (field it.desc 0x20 8) bs with
        | .error e => d1.accessFailed p it 1 60 0xFF e
        | .ok d2 => d2.finish it

/-- REEL_INSTANCE_COMPLETE: the outcome goes to every local shard, and the next instance is in flight. -/
def reelInstanceComplete (g : Nat) (p : Platform) (d : Device) : Device :=
  let x := d.group g
  match x.down with
  | none => d.reelAdvance g
  | some dn =>
    let d1 := d.setGroup g x.advance
    let d2 := if dn.bad.isSome then d1.count x.owner.toNat 132 1 else d1
    (x.shards.foldl (Device.shardDone p dn) d2).reelAdvance g

/-! ### Aborts and lost links (R304, R305) -/

/-- Items of an instance of a group whose work has not ended. -/
def Device.instItems (d : Device) (g inst : Nat) : List Item :=
  d.hub.items.filter fun i => !i.isWork && (i.group.map Prod.fst) == some g && i.inst == inst && i.phase != .done &&
    (d.group g).owner.toNat == i.ctx

/-- An instance is aborted by a shard: its items fail, and the other modules of the tree hear of it. -/
def Device.abortInst (d : Device) (g inst : Nat) (ps : ReelParams) (shard : Nat) (come : Option Nat) : Device :=
  let x := d.group g
  if !x.en || x.gst = .down || decide (inst < x.inst) || x.skipped.contains inst then d
  else
    let y := { x with aborting := if x.aborting.any fun a => a.1 == inst then x.aborting else x.aborting ++ [(inst, shard, ps)] }
    let z := if inst = x.inst then y.advance else { y with skipped := y.skipped ++ [inst] }
    let d1 := (d.instItems g inst).foldl (fun d i => (d.purge i.ctx i.seq .now).updItem i.ctx i.seq fun it =>
      { it with depFail := some (it.depFail.getD (detailDep 5 shard)), phase := .done }) d
    (((d1.setGroup g z).count x.owner.toNat 132 1).toKids (x.ports.filter fun p => some p != come)
      (.abort g inst ps shard)).reelAdvance g

/-- REEL_ABORT: a shard whose item has ended without arriving aborts its instance. -/
def reelAbort (g shard : Nat) (d : Device) : Device :=
  let x := d.group g
  match x.aborting.find? fun a => a.2.1 == shard && decide (x.inst ≤ a.1) && !x.skipped.contains a.1 with
  | none => d
  | some a => d.abortInst g a.1 a.2.2 shard none

/-- An entry goes DOWN: the items of its instance fail, and the rest of the tree hears of it. -/
def Device.groupDown (d : Device) (g port : Nat) : Device :=
  let x := d.group g
  if !x.en || x.gst = .down then d
  else
    let its := (d.instItems g x.inst).filter fun i => i.phase != .fetched
    let d1 := its.foldl (fun d i => d.itemError i.ctx i.seq .linkLost port) d
    let d2 := d1.setGroup g { x with
      gst := .down, downPort := port, arrived := [], kids := [], sentUp := false, down := none }
    (if x.gst = .active || !its.isEmpty then d2.count x.owner.toNat 132 1 else d2).toKids
      (x.ports.filter fun p => p != port) (.downEntry g)

/-! ### Messages (R301, R302, R306, R307) -/

/-- A message about a group, from a port of its tree. -/
def Device.groupMsg (d : Device) (port : Nat) (m : ReelMsg) : Device :=
  match m with
  | .partialUp g inst ps vs n low bytes bad =>
    let x := d.group g
    if !x.en || x.gst = .down || !x.childPorts.contains port || decide (inst < x.inst) || x.skipped.contains inst ||
      (x.kids.any fun k => k.port == port && k.inst == inst) then d
    else (d.setGroup g (Group.settle { x with kids := x.kids ++ [⟨port, inst, ps, vs, n, low, bytes, bad⟩] })).reelAdvance g
  | .resultDown g inst ps vs bs =>
    let x := d.group g
    if !x.en || x.gst = .down || x.parent.toNat != port || x.inst != inst || !x.sentUp then d
    else (d.setGroup g { x with down := some ⟨vs, bs, none⟩ }).toKids x.childPorts (.resultDown g inst ps vs bs)
  | .failDown g inst ps b =>
    let x := d.group g
    if !x.en || x.gst = .down || x.parent.toNat != port || x.inst != inst || !x.sentUp then d
    else (d.setGroup g { x with down := some ⟨[], [], some b⟩ }).toKids x.childPorts (.failDown g inst ps b)
  | .abort g inst ps shard => if (d.group g).ports.contains port then d.abortInst g inst ps shard (some port) else d
  | .downEntry g => if (d.group g).ports.contains port then d.groupDown g port else d
  | .freeze => if d.reel.parentPort = port then d.snapFreeze false else d
  | .drained =>
    if d.reel.childPorts.contains port && !d.reel.reports.contains port then
      (d.mapReel fun r => { r with reports := r.reports ++ [port] }).drainReport
    else d
  | .taken => if d.reel.parentPort = port then (d.mapReel fun r => { r with snap := 2 }).toChildren .taken else d
  | .resume => if d.reel.parentPort = port then d.snapResume else d
  | .reset => d

/-- A message of either kind: the reset goes on down the tree, and the module resets without waiting (R307). -/
def State.reelMsg (s : State) (e : Nat × ReelMsg) : State :=
  if e.2 = .reset then
    (if s.dev.reel.parentPort = e.1 then warmReset (s.mapDev fun d => d.toChildren .reset) else s)
  else s.mapDev fun d => d.groupMsg e.1 e.2

/-- Messages that were held act, oldest first, once REEL is ON (R308). -/
def State.reelOpen (s : State) : State :=
  if s.dev.reel.blk.isOn then
    s.dev.reel.held.foldl State.reelMsg (s.mapDev fun d => d.mapReel fun r => { r with held := [] })
  else s

/-- BLOCK_STARTED: what REEL held acts once the block is ON (R308). -/
def execBlockStarted (b : Block) (s : State) : Out :=
  onState (fun s => let t := (blockStarted b s).answerSlice; if b = .reel then t.reelOpen else t) s

/-- REEL_MESSAGE_RECEIVE: held while REEL is not ON; a port without a link brings none (R308, R313). -/
def execReelMessageReceive (port : Nat) (m : ReelMsg) (s : State) : Out :=
  onState (fun s =>
    let s1 := s.reelOpen
    if !s1.dev.carries port then s1
    else if s1.dev.reel.blk.isOn then s1.reelMsg (port, m)
    else s1.mapDev fun d => d.mapReel fun r => { r with held := r.held ++ [(port, m)] }) s

/-- REEL_ARRIVAL. -/
def execReelArrival (ctx seq : Nat) (s : State) : Out :=
  onState (fun s => s.reelOpen.mapDev (reelArrival ctx seq s.plat)) s

/-- REEL_INSTANCE_COMPLETE. -/
def execReelInstanceComplete (group : Nat) (s : State) : Out :=
  onState (fun s => s.reelOpen.mapDev (reelInstanceComplete group s.plat)) s

/-- REEL_ABORT. -/
def execReelAbort (group shard : Nat) (s : State) : Out :=
  onState (fun s => s.reelOpen.mapDev (reelAbort group shard)) s

end Sys2Proof.Machine
end

