-- ==== Sys2Proof/Machine/Ports.lean ====
section
/-! DEFINITION. Partner ports: training, the handshake, flits and replays, lost links, and peer requests and answers
(R310 to R324; the routes and the requests that leave are in Memory). -/

namespace Sys2Proof.Machine

/-! ### Bring-up (R311 to R314) -/

/-- Lanes 0 to 7 and lanes 8 to 15. -/
def halfWhole (lanes : BitVec 16) : Bool := lanes.toNat % 256 == 255 || lanes.toNat / 256 == 255

/-- PORT_TRAINING_DONE: all 16 lanes, or a whole half where the port accepts one; else it keeps training. After a failed
handshake the partner's restart trains the link afresh. A port that was turned off meanwhile trains no more. -/
def Port.trained (lanes : BitVec 16) (x : Port) : Port :=
  if x.blk.st ≠ .starting ∧ x.blk.st ≠ .on then x
  else if x.link = .training ∨ x.link = .handshake ∧ x.hsFault = true then
    if lanes = BitVec.allOnes 16 then { x with link := .handshake, narrow := false, hsFault := false, noPartner := false }
    else if x.allowNarrow && halfWhole lanes then
      { x with link := .handshake, narrow := true, hsFault := false, noPartner := false }
    else { x with link := .training, hsFault := false }
  else x

/-- A port that enters HANDSHAKE sends what the module has to report (R312). -/
def Device.greet (d : Device) (port : Nat) : Device :=
  d.emit (.handshake port d.ports.node.toNat d.ports.topo Config.portVersion)

/-- PORT_TRAINING_DONE. -/
def execPortTrainingDone (port : Nat) (lanes : BitVec 16) (s : State) : Out :=
  onDev (fun _ d =>
    let d1 := d.updPort port (Port.trained lanes)
    if (d1.port port).link = .handshake ∧ ((d.port port).link ≠ .handshake ∨ (d.port port).hsFault = true) then d1.greet port else d1) s

/-- The neighbour the topology places on a port; none where no rule governs it (R314, R317). -/
def neighbour (topo : Word) (me port : Nat) : Option Nat :=
  match topoMode topo with
  | 1 =>
    if port = 0 then some ((me + 1) % topoRing topo)
    else if port = 1 then some ((me + topoRing topo - 1) % topoRing topo)
    else none
  | 2 =>
    let i := port / 2
    let n := topoDim topo i
    let c := torusCoord me i
    let c1 := if port % 2 = 0 then (c + 1) % n else (c + n - 1) % n
    some (me - c * 16 ^ i + c1 * 16 ^ i)
  | _ => none

/-- Does the handshake fail (R313, R314)? -/
def Device.handshakeBad (d : Device) (port : Nat) (m : Partner) : Bool :=
  let me := d.ports.node.toNat
  m.node == me || m.topo != d.ports.topo || (neighbour d.ports.topo me port).any fun n => n != m.node

/-- PORT_HANDSHAKE. -/
def portHandshake (port : Nat) (m : Partner) (d : Device) : Device :=
  let x := d.port port
  if x.link ≠ .handshake ∨ x.hsFault = true ∨ x.blk.st ≠ .starting ∧ x.blk.st ≠ .on then d
  else if d.handshakeBad port m then d.updPort port fun x => { x with hsFault := true }
  else d.updPort port fun x => { x with
    link := .up, blk := { x.blk with st := if x.blk.st = .starting then .on else x.blk.st }
    peerValid := true, peerNode := BitVec.ofNat 12 m.node, peerPort := BitVec.ofNat 3 m.port
    txSeq := 0, rxSeq := 0, replay := [], credits := [0, 1, 2, 3].map Config.portCredits, lastAck := 0, waiting := []
    owed := [0, 0, 0, 0], lastVc := 3 }

/-- PORT_HANDSHAKE. -/
def execPortHandshake (port : Nat) (partner : Partner) (s : State) : Out :=
  onDev (fun _ => portHandshake port partner) s

/-- NO_PARTNER_TIMEOUT: the port goes on training. -/
def execNoPartnerTimeout (port : Nat) (s : State) : Out :=
  onDev (fun _ d => d.updPort port fun x => if x.link = .training then { x with noPartner := true } else x) s

/-! ### Flits (R315, R316) -/

/-- Error counts of a port saturate at 0xFFFF (R323). -/
def satAdd16 (a : BitVec 16) (k : Nat) : BitVec 16 := BitVec.ofNat 16 (min (a.toNat + k) 0xFFFF)

/-- A flit that passed its CRC: the next one in sequence is taken with its header, and flits that waited for what it brings leave;
any other is left to the replay. Flits below the number it acknowledges leave the replay buffer. -/
def Port.takeFlit (f : Flit) (x : Port) : Port :=
  if f.seq = x.rxSeq then
    { x with
      rxSeq := x.rxSeq + 1, credits := List.zipWith (· + ·) x.credits f.credits, lastAck := max x.lastAck f.acked
      replay := x.replay.filter fun e => decide (f.acked ≤ e.1), owed := x.owed.modify f.vc (· + 1) }
  else x

/-- FLIT_RECEIVE. -/
def flitReceive (port : Nat) (f : Flit) (d : Device) : Device :=
  if (d.port port).link ≠ .up then d
  else
    let d1 := d.updPort port fun x => { x with fecUncorr := satAdd16 x.fecUncorr f.fecBad }
    if f.crcOk then (d1.updPort port (Port.takeFlit f)).pumpPort port else d1.emit (.nak port f.seq)

/-- FLIT_RECEIVE. -/
def execFlitReceive (port : Nat) (f : Flit) (s : State) : Out := onDev (fun _ => flitReceive port f) s

/-- The replay buffer from the named flit on, each replayed once more. -/
def Port.replayFrom (seq : Nat) (x : Port) : Port :=
  { x with
    replay := x.replay.map fun e => if seq ≤ e.1 then (e.1, e.2 + 1) else e
    replays := satAdd16 x.replays (x.replay.filter fun e => decide (seq ≤ e.1)).length }

/-- FLIT_NAK: the flits go again in order; the 16th replay of one brings the link down. -/
def flitNak (port seq : Nat) (d : Device) : Device :=
  if (d.port port).link ≠ .up then d
  else
    let d1 := d.updPort port (Port.replayFrom seq)
    let again := (d1.port port).replay.filter fun e => decide (seq ≤ e.1)
    let d2 := again.foldl (fun d e => d.emit (.replay port e.1)) d1
    if again.any fun e => decide (16 ≤ e.2) then d2.updPort port Port.fall else d2

/-- FLIT_NAK. -/
def execFlitNak (port seq : Nat) (s : State) : Out := onDev (fun _ => flitNak port seq) s

/-- ACK_TIMEOUT: a flit waits for its acknowledgement. -/
def execAckTimeout (port : Nat) (s : State) : Out :=
  onDev (fun _ d => if (d.port port).replay.isEmpty then d else d.updPort port Port.fall) s

/-- BLOCK_LOCK_LOSS. -/
def execBlockLockLoss (port : Nat) (s : State) : Out :=
  onDev (fun _ d => d.updPort port Port.fall) s

/-! ### A link that has gone DOWN (R305, R322) -/

/-- An item or a work record that used the link fails. -/
def Device.linkLost (port : Nat) (d : Device) (o : PeerOut) : Device :=
  (d.itemError o.ctx o.seq .linkLost port).settleWork o.ctx o.seq

/-- Sends an answer toward its node, where the topology places none by the port the request came by; while the link is down it is
discarded (R317, R322). -/
def Device.answerBy (port node src tag : Nat) (r : Device × PeerAns) : Device :=
  r.1.emit (.peerAns ((r.1.route node).getD port) tag r.2 node src)
def Device.answer (port node tag : Nat) (r : Device × PeerAns) : Device := Device.answerBy port node r.1.ports.node.toNat tag r

/-- Requests of other modules that went on by the link: their sources learn that it is lost (R322; log 72). -/
def Device.passedLost (port : Nat) (d : Device) : Device :=
  (d.ports.passed.filter fun e => e.port == port).foldl (fun d e => Device.answer port e.src e.tag (d, .lost))
    (d.mapPorts fun x => { x with passed := x.passed.filter fun e => e.port != port })

/-- LINK_DOWN: requests that are out fail their items, Reel entries that use the port go DOWN, the port may retrain. No answer is to
come to what is out, so items that a kill has ended are over (R277). -/
def linkDown (port : Nat) (d : Device) : Device :=
  let d0 := d.updPort port Port.fall
  if !(d0.port port).downDue then d
  else
    let d1 := d0.updPort port fun x => { x with downDue := false }
    let away := d1.ports.out.filter fun o => o.port == port
    let d2 := (away.foldl (Device.linkLost port) (d1.mapPorts fun x => { x with
      out := x.out.filter fun o => o.port != port })).passedLost port
    let gs := (List.range 256).filter fun g => (d2.group g).en && (d2.group g).ports.contains port
    let d3 := gs.foldl (fun d g => d.groupDown g port) d2
    d3.updPort port fun x =>
      if x.autoRetrain && x.blk.st == .on then
        { x with link := .training, narrow := false, hsFault := false, noPartner := false }
      else x

/-- LINK_DOWN. -/
def execLinkDown (port : Nat) (s : State) : Out := onDev (fun _ => linkDown port) s

/-! ### Requests that arrive (R127, R319 to R321) -/

/-- Bytes of a request, and the right it needs. -/
def peerSize (r : PeerReq) : Nat :=
  match r.op with
  | .read n => n
  | .write bs => bs.length
  | .atomic _ ty _ _ => atomBytes ty
def peerAcc (r : PeerReq) : Acc :=
  match r.op with
  | .read _ => .read
  | .write _ => .write
  | .atomic _ _ _ _ => .atomic

/-- Does the target context hold a grant for the source with the right (R319)? It lasts until the teardown. -/
def Device.granted (d : Device) (c node src : Nat) (a : Acc) : Bool :=
  let x := d.ctx c
  x.st != .free && x.st != .teardown && x.grants.any fun g =>
    g.node == node && g.ctx == src && match a with
      | .read => g.r
      | .write => g.w
      | .atomic => g.a

/-- Do bytes of a context's space lie on this module under the right an access needs? -/
def Device.hereFor (d : Device) (c va n : Nat) (a : Acc) : Bool :=
  (List.range n).all fun i =>
    match translate d c (va + i) a with
    | .ok (.dev _, _) => true
    | .ok (.host _, _) => true
    | _ => false

/-- A request that is refused. -/
def Device.refuse (d : Device) : Device × PeerAns :=
  (d.mapHub fun h => { h with peerRef := BitVec.ofNat 32 (min (h.peerRef.toNat + 1) (2 ^ 32 - 1)) }, .refused)

/-- A request that meets an uncorrectable half-line: the target counts it. -/
def Device.answerEcc (d : Device) (c : Nat) (e : MemErr) : Device × PeerAns :=
  match e with
  | .ecc va => (d.noteEcc c va, .eccError)
  | _ => (d, .eccError)

/-- Performs an atomic of a partner at its location. -/
def Device.peerAtomic (d : Device) (c va : Nat) (op : AtomOp) (ty : AtomTy) (ps : List (Dword × Dword)) :
    Device × PeerAns :=
  match translate d c va .atomic with
  | .ok (.dev x, key) =>
    let d0 := d.pastCaches c (x / 128)
    match d0.atomDev key x op ty ps with
    | none => d0.answerEcc c (.ecc va)
    | some (os, d1) => (d1, .old os)
  | .ok (.host x, _) =>
    match d.atomHost x op ty ps with
    | none => (d.hostResponse (x / 128)).answerEcc c (.ecc va)
    | some (os, d1) => (d1, .old os)
  | _ => d.refuse

/-- Performs a partner's request, or refuses it. -/
def Device.peerServe (d : Device) (r : PeerReq) : Device × PeerAns :=
  let a : Actor := ⟨r.ctx, 0, none, none⟩
  if !d.granted r.ctx r.srcNode r.srcCtx (peerAcc r) || !d.hereFor r.ctx r.va (peerSize r) (peerAcc r) then d.refuse
  else match r.op with
  | .read n =>
    let d1 := d.h0Bytes a n r.va
    match d1.readBytes a n r.va with
    | .error e => d1.answerEcc r.ctx e
    | .ok bs => (d1, .data bs)
  | .write bs =>
    match d.writeVa a 7 r.va bs with
    | .error e => d.answerEcc r.ctx e
    | .ok d1 => (d1, .done)
  | .atomic op ty os cs =>
    if r.va % atomBytes ty = 0 then d.peerAtomic r.ctx r.va op ty (os.zip (cs ++ List.replicate os.length 0)) else d.refuse

/-- A packet for another module goes on by the route from here; none where its link is not UP (R317, R318). -/
def Device.forward (d : Device) (node : Nat) (o : Nat → Output) : Option Device :=
  match d.route node with
  | none => none
  | some q => if (d.port q).link = .up then some (d.emit (o q)) else none

/-- A request for another module is forwarded; where it cannot go on, its source learns that the link is lost (R317, R318,
R322; log 72). -/
def Device.passOn (d : Device) (port dst src tag : Nat) (o : Nat → Output) : Device :=
  match d.forward dst o with
  | some d1 => d1.mapPorts fun x => { x with passed := x.passed ++ [⟨src, tag, (d.route dst).getD 0⟩] }
  | none => Device.answer port src tag (d, .lost)

/-- PEER_REQUEST_RECEIVE. -/
def execPeerRequestReceive (port : Nat) (req : PeerReq) (s : State) : Out :=
  onDev (fun _ d =>
    if !d.carries port then d
    else if req.dst = d.ports.node.toNat then Device.answer port req.srcNode req.tag (d.peerServe req)
    else d.passOn port req.dst req.srcNode req.tag fun q => .peerReq q req.tag req) s

/-- Writes pieces one after another. -/
def Device.writePieces (a : Actor) : List (Nat × List Byte) → Device → Except (Device × MemErr) Device
  | [], d => .ok d
  | x :: xs, d =>
    match d.writeVa a 7 x.1 x.2 with
    | .error e => .error (d, e)
    | .ok d1 => Device.writePieces a xs d1

/-- A row of a ZC tensor: masks and values, then the row-table entry (R321). -/
def Device.zcServe (d : Device) (f : ZcFrame) : Device × PeerAns :=
  let ps := f.masks ++ f.vals ++ [(f.rowVa, leBytes 8 f.row.toNat)]
  if !d.granted f.ctx f.srcNode f.srcCtx .write || !(ps.all fun e => d.hereFor f.ctx e.1 e.2.length .write) then d.refuse
  else match d.writePieces ⟨f.ctx, 0, none, none⟩ ps with
  | .error e => e.1.answerEcc f.ctx e.2
  | .ok d1 => (d1, .done)

/-- ZC_FRAME_RECEIVE. -/
def execZcFrameReceive (port : Nat) (f : ZcFrame) (s : State) : Out :=
  onDev (fun _ d =>
    if !d.carries port then d
    else if f.dst = d.ports.node.toNat then Device.answer port f.srcNode f.tag (d.zcServe f)
    else d.passOn port f.dst f.srcNode f.tag fun q => .zcFrame q f) s

/-! ### Answers that come back (R319, R324, R347) -/

/-- Has the pack an answer of a kind still to come? -/
def Device.awaits (d : Device) (f : PeerUse → Bool) : Bool := d.ports.out.any fun o => f o.use

/-- Is the use a line for the pack, an atomic of it? -/
def PeerUse.lines (p : Nat) : PeerUse → Bool
  | .line q _ _ _ _ _ => q == p
  | _ => false
def PeerUse.atoms (p : Nat) : PeerUse → Bool
  | .atom q _ _ _ => q == p
  | _ => false

/-- A pack's wait ends once nothing of that kind is to come. -/
def Device.wake (d : Device) (p : Nat) (w : Wait) (f : PeerUse → Bool) : Device :=
  if d.awaits f then d else d.updPack p fun x => if x.wait = some w then { x with wait := none } else x

/-- Packs of the item's blocks that wait at a fence go on once every write of theirs is acknowledged (R211, R213). -/
def Device.wakeFences (d : Device) (c q : Nat) : Device :=
  (d.blocksOf c q).foldl (fun d b => (packsOf b).foldl (fun d p =>
    if d.packWrites p then d
    else d.updPack p fun x => if x.wait = some .fence then { x with wait := none } else x) d) d

/-- A line of partner memory for a pack's core: its first level holds it where it may still keep it (R211, R320). An answer of
another length is no line. -/
def Device.lineCome (d : Device) (o : PeerOut) (p key rctx rva : Nat) (keep : Bool) (bs : List Byte) : Device :=
  match d.block (p / 16), keep with
  | some k, true =>
    let x : CLine := ⟨.peer o.node rctx rva, key, o.va, bs, List.replicate 128 false, [], none⟩
    if bs.length ≠ 128 || ((d.core k.die k.core).line x.at_ key).isSome then d else Device.loseWrites (d.installCore k.die k.core x)
  | _, _ => d

/-- Bytes of a line of partner memory that an item asked for. -/
def Device.bufferLine (d : Device) (o : PeerOut) (rctx rva : Nat) (bs : List Byte) : Device :=
  d.mapPorts fun x => { x with
    buf := x.buf ++ bs.zipIdx.map fun e => ⟨o.ctx, o.seq, o.node, rctx, rva + e.2, e.1⟩ }

/-- A WAIT_GE that asked for its word reads it (R270). -/
def Device.rereadEvent (d : Device) (p : Platform) (c q : Nat) : Device :=
  match d.item c q with
  | some it => if d.waitsBy c q false then d.eventRead p it else d
  | none => d

/-- A line for a core or for another unit. -/
def Device.peerData (d : Device) (p : Platform) (o : PeerOut) (bs : List Byte) : Device :=
  let d1 := d.count o.ctx 133 o.bytes
  match o.use with
  | .line pack _ key rctx rva keep => (d1.lineCome o pack key rctx rva keep bs).wake pack .memory (PeerUse.lines pack)
  | .fill rctx rva => (d1.bufferLine o rctx rva bs).rereadEvent p o.ctx o.seq
  | _ => d1

/-- The old values of an atomic. -/
def Device.peerOld (d : Device) (o : PeerOut) (vals : List Dword) : Device :=
  let d1 := d.count o.ctx 135 1
  match o.use with
  | .atom pack lanes dst fmt =>
    let n := if fmt = 0x0F ∨ fmt = 0x11 then 2 else 1
    (d1.updPack pack fun x => x.takeOlds dst n (lanes.zip vals)).wake pack .atomic (PeerUse.atoms pack)
  | _ => d1

/-- A refusal: a context fault of source 6 that names the target node (R319, R341). -/
def Device.peerRefused (d : Device) (p : Platform) (o : PeerOut) : Device :=
  let q := match d.item o.ctx o.seq with
    | some it => if it.isWork then it.layerIx else it.seq
    | none => o.seq
  let sq := q % (d.ring o.ctx).sqSize
  let f : FaultInfo :=
    match o.use.pack?.bind fun e => (d.block (e.1 / 16)).map fun k => (e, k) with
    | some ((pk, l), k) => ⟨.permission, 6, k.die, k.core, l, sq, o.pc, pk % 16, o.node, o.va⟩
    | none => ⟨.permission, 6, 60, 0xFF, 0, sq, noPc, 0, o.node, o.va⟩
  d.takeFaults p o.ctx [f]

/-- PEER_RESPONSE_RECEIVE: an answer for another module goes on, or is discarded; one nothing waits for is discarded (R317, R322,
R345). -/
def peerResponse (path : AnsPath) (tag : Nat) (ans : PeerAns) (p : Platform) (d : Device) : Device :=
  if path.dst ≠ d.ports.node.toNat then
    ((d.mapPorts fun x => { x with passed := x.passed.filter fun e => !(e.src == path.dst && e.tag == tag) }).forward path.dst
      fun q => .peerAns q tag ans path.dst path.src).getD d
  else match d.ports.out.find? fun o => o.tag == tag with
  | none => d
  | some o =>
    let d1 := d.mapPorts fun x => { x with out := x.out.filter fun y => y.tag != tag }
    match ans with
    | .data bs => (d1.peerData p o bs).settleWork o.ctx o.seq
    | .done => ((d1.count o.ctx 134 o.bytes).wakeFences o.ctx o.seq).settleWork o.ctx o.seq
    | .old vs => ((d1.peerOld o vs).wakeFences o.ctx o.seq).settleWork o.ctx o.seq
    | .refused => d1.peerRefused p o
    | .eccError => (d1.itemError o.ctx o.seq .eccUncorrectable (detailHalf o.va)).settleWork o.ctx o.seq
    | .lost => Device.linkLost o.port d1 o

/-- PEER_RESPONSE_RECEIVE. -/
def execPeerResponseReceive (path : AnsPath) (tag : Nat) (ans : PeerAns) (s : State) : Out :=
  onDev (fun p => peerResponse path tag ans p) s

end Sys2Proof.Machine
end

