-- ==== Sys2Proof/Machine/Slices.lean ====
section
/-! DEFINITION. Slices and the power settings of management (R11, R226, R228, R236, R279 to R281, R374, R378, R406). -/

namespace Sys2Proof.Machine

/-! ### Parameters (R279, R280, R374) -/

/-- Is every parameter in its range (R279)? -/
def sliceParamsOk (p : SliceParams) : Bool :=
  !p.dies.isEmpty && p.dies.all (fun d => decide (d < Config.laneDies)) && decide (p.dies.Nodup) &&
    decide (p.bw.length = Config.stackCount) && p.bw.all (fun b => decide (b ≤ 64)) &&
    decide (1 ≤ p.fabWeight ∧ p.fabWeight ≤ 16 ∧ p.ringShare ≤ 256 ∧ p.floorW ≤ 10400)

/-- The other slices of the part. -/
def Device.others (d : Device) (i : Nat) : List Slice :=
  ((List.range Config.sliceCount).filter fun j => j != i && (d.slice j).exists?).map d.slice

/-- Do the shares stay within the part's (R280)? -/
def Device.sharesFit (d : Device) (i : Nat) (p : SliceParams) : Bool :=
  allBelow Config.stackCount (fun k =>
    decide (p.bw.getD k 0 + ((d.others i).map fun s => s.bw.getD k 0).sum ≤ 64)) &&
    decide (p.ringShare + ((d.others i).map Slice.ringShare).sum ≤ 256)

/-- Is a set of power settings one that R374 allows: the cap's range, each slice cap at or above its floor, and the sum
of the floors within the budget? -/
def powerOk (cap : Nat) (caps floors : FMap Nat) : Bool :=
  let sum := (floors.map Prod.snd).sum
  decide (3000 ≤ cap ∧ cap ≤ Config.ratedW) &&
    caps.all (fun e => decide (e.2 = 0 ∨ FMap.get 0 floors e.1 ≤ e.2)) &&
    decide (sum ≤ 7200 ∧ 100 * sum + 238000 ≤ 94 * cap)

/-- Is a slice named by a context that is not FREE and not in teardown (R280, R326)? -/
def Device.named (d : Device) (i : Nat) : Bool :=
  d.hub.ctxs.any fun e => e.2.live && (e.2.home == i || e.2.resv == some i)

/-- The checks that a slice's parameters must pass for INVALID not to be answered (R279, R280, R374). -/
def sliceFits (s : State) (i : Nat) (p : SliceParams) : Bool :=
  decide (i < Config.sliceCount) && sliceParamsOk p && s.dev.sharesFit i p &&
    powerOk s.plat.pow.moduleCap s.plat.pow.sliceCap (FMap.set 0 s.plat.pow.sliceFloor i p.floorW)

/-- Is a die of the parameters in another slice? -/
def Device.dieTaken (d : Device) (i : Nat) (p : SliceParams) : Bool :=
  p.dies.any fun x => (d.sliceOf x).any fun j => j != i

/-! ### Create, change, destroy -/

/-- A slice with its parameters, about to start (R406). -/
def Slice.take (x : Slice) (p : SliceParams) : Slice :=
  { x with
    blk := { x.blk with st := .starting, en := true }, reserved := p.reserved, dies := p.dies, bw := p.bw
    fabWeight := p.fabWeight, ringShare := p.ringShare, core := p.core, next := Option.none }

/-- A slice takes parameters, and its power floor with them; the PLL of a die runs again where the slice is RESERVED (R374, R378). -/
def State.takeSlice (s : State) (i : Nat) (p : SliceParams) : State :=
  (s.mapDev fun d => d.updSlice i fun x => x.take p).mapPow fun w =>
    { w with
      sliceFloor := FMap.set 0 w.sliceFloor i p.floorW
      dieLevel := w.dieLevel.map fun e => if p.reserved && p.dies.contains e.1 && e.2 == 2 then (e.1, 1) else e }

/-- SLICE_CREATE: the part leaves sleep; the slice's dies power up (R279, R381). -/
def sliceCreate (i : Nat) (p : SliceParams) (s : State) : Except MgmtCode (State × MgmtData) :=
  if (s.dev.slice i).exists? || s.dev.dieTaken i p then .error .state
  else if !sliceFits s i p then .error .invalid
  else done (s.leaveSleep.takeSlice i p)

/-- SLICE_CREATE. -/
def execSliceCreate (sid slice : Nat) (p : SliceParams) (s : State) : Out :=
  onState (mgmt 0x20 sid false (sliceCreate slice p)) s

/-- Dies that leave a stopping slice. -/
def Slice.leaving (x : Slice) : List Nat :=
  match x.next with
  | .none => x.dies
  | .some p => x.dies.filter fun d => !p.dies.contains d

/-- A stopping slice from which every leaving die has gone is written and starts again, or is no slice any more. Its
wrej bit and, under SLICE_CHANGE, its pins stand (R228, R406). -/
def State.settleSlice (s : State) (i : Nat) : State :=
  let x := s.dev.slice i
  if x.blk.st != .stopping || !x.leaving.isEmpty then s
  else match x.next with
    | some p => s.takeSlice i p
    | none =>
      (s.mapDev fun d => d.setSlice i { Slice.none with blk := { Slice.none.blk with wrej := x.blk.wrej } }).mapPow
        fun w => { w with
          sliceFloor := FMap.set 0 w.sliceFloor i 0, sliceCap := FMap.set 0 w.sliceCap i 0
          sliceGrant := FMap.set 0 w.sliceGrant i 0, sliceDrawn := FMap.set 0 w.sliceDrawn i 0
          throttled := FMap.set false w.throttled i false }

/-- The die caches of dies that leave begin to write back (R226, R242). -/
def Device.flushMarks (d : Device) (dies : List Nat) : Device :=
  dies.foldl (fun d i => d.updDie i fun b => { b with flushing := true }) d

/-- A slice begins to stop. -/
def State.stopSlice (s : State) (i : Nat) (next : Option SliceParams) : State :=
  let s1 := s.mapDev fun d =>
    d.updSlice i fun x => { x with blk := { x.blk with st := .stopping, en := next.isSome }, next := next }
  (s1.mapDev fun d => d.flushMarks (d.slice i).leaving).settleSlice i

/-- SLICE_CHANGE: through STOPPING and OFF, written, and started again (R406). -/
def sliceChange (i : Nat) (p : SliceParams) (s : State) : Except MgmtCode (State × MgmtData) :=
  if !(s.dev.slice i).exists? || s.dev.named i || s.dev.dieTaken i p then .error .state
  else if !sliceFits s i p then .error .invalid
  else done (s.leaveSleep.stopSlice i (some p))

/-- SLICE_CHANGE. -/
def execSliceChange (sid slice : Nat) (p : SliceParams) (s : State) : Out :=
  onState (mgmt 0x21 sid false (sliceChange slice p)) s

/-- SLICE_DESTROY: its dies flush and are power-gated (R226, R378). -/
def sliceDestroy (i : Nat) (s : State) : Except MgmtCode (State × MgmtData) :=
  if !(s.dev.slice i).exists? || s.dev.named i then .error .state else done (s.stopSlice i none)

/-- SLICE_DESTROY. -/
def execSliceDestroy (sid slice : Nat) (s : State) : Out := onState (mgmt 0x22 sid false (sliceDestroy slice)) s

/-- The die cache of a die writes every dirty line back and is empty (R226). -/
def Mem.flushDie (m : Mem) (die : Nat) : Mem :=
  let m1 := (m.lines.filter fun x => x.die == die).foldl Mem.writeBack m
  { m1 with
    lines := m1.lines.filter fun x => x.die != die, misses := m1.misses.filter fun x => x.die != die
    near := m1.near.filter fun x => x.die != die, trackers := m1.trackers.filter fun t => t.die != die }

/-- Contexts for which a die holds or awaits prefetched lines that have served nothing. -/
def Device.prefsOf (d : Device) (die : Nat) : List Nat :=
  (d.mem.lines.filter fun x => x.die == die).filterMap DLine.pref ++
    (d.mem.near.filter fun x => x.die == die).filterMap NearLine.pref ++
    ((d.mem.misses.filter fun x => x.die == die && x.pref).map Miss.ctx) ++
    (List.range Config.coresPerDie).flatMap fun c => (d.core die c).lines.filterMap CLine.pref

/-- The caches of a die are flushed; prefetched lines that go unused count (R226, R241). -/
def Device.flushDie (d : Device) (die : Nat) : Device :=
  ((d.prefsOf die).foldl (fun d c => d.count c 95 1) d).mapMem fun m => m.flushDie die

/-- A block of a die that loses power. -/
def Blk.powerDown (b : Blk) : Blk := { b with st := .off }

/-- A lane die loses power: its blocks read OFF and hold their enables and settings; the rest of its state is gone
(R378, R380). -/
def Device.gateDie (d : Device) (i : Nat) : Device :=
  let d1 := d.updDie i fun b => { b with
    ve := b.ve.powerDown, txb := b.txb.powerDown, collie := b.collie.powerDown, dcache := b.dcache.powerDown
    retr := b.retr.powerDown, rng := b.rng.powerDown, flushing := false, rngLast := 7, rngWait := 0 }
  let d2 := (List.range 8).foldl (fun d k =>
    (d.updRe i k fun r => { RowEng.reset with
      blk := r.blk.powerDown, bad := r.bad, stealIn := r.stealIn, stealOut := r.stealOut, split := r.split }).updVe i k
        fun _ => VecEng.reset) d1
  (List.range 16).foldl (fun d c => d.updCore i c fun _ => CoreSt.reset) d2

/-- DIE_CACHE_FLUSH_DONE: a die that leaves its slice is power-gated (R226, R378). -/
def dieCacheFlushDone (die : Nat) (s : State) : State :=
  match s.dev.sliceOf die with
  | none => s
  | some i =>
    let x := s.dev.slice i
    if x.blk.st = .stopping && x.leaving.contains die then
      let s1 := s.mapDev fun d => ((d.flushDie die).gateDie die).updSlice i fun x =>
        { x with dies := x.dies.filter (· != die) }
      let s2 := s1.mapPow fun p => { p with
        dieLevel := FMap.set 3 p.dieLevel die 3, gated := p.gated.filter fun e => e.1 / 64 != die
        dieDemand := FMap.set 0 p.dieDemand die 0, dieGrant := FMap.set 0 p.dieGrant die 0 }
      s2.settleSlice i
    else s

/-- DIE_CACHE_FLUSH_DONE. -/
def execDieCacheFlushDone (die : Nat) (s : State) : Out := onState (fun s => (dieCacheFlushDone die s).answerSlice) s

/-! ### Power settings (R374) -/

/-- PWR_SET: the module cap, slice caps and floors in W; whole or not at all. -/
def pwrSet (capW : Option Nat) (caps floors : List (Nat × Nat)) (s : State) : Except MgmtCode (State × MgmtData) :=
  let p := s.plat.pow
  let put := fun (t : FMap Nat) (xs : List (Nat × Nat)) => xs.foldl (fun t e => FMap.set 0 t e.1 e.2) t
  let c := capW.getD p.moduleCap
  let t := put p.sliceCap caps
  let f := put p.sliceFloor floors
  if (caps ++ floors).all (fun e => decide (e.1 < Config.sliceCount)) && powerOk c t f then
    done (s.mapPow fun p => { p with moduleCap := c, sliceCap := t, sliceFloor := f })
  else .error .invalid

/-- PWR_SET. -/
def execPwrSet (sid : Nat) (capW : Option Nat) (caps floors : List (Nat × Nat)) (s : State) : Out :=
  onState (mgmt 0x30 sid false (pwrSet capW caps floors)) s

end Sys2Proof.Machine
end

