-- ==== Sys2Proof/Machine/Dispatch.lean ====
section
/-! DEFINITION. The meaning of each command: one arm per constructor of Instr. -/

namespace Sys2Proof.Machine

/-- The effect of a command on everything but the queue. -/
def exec (i : Instr) (s : State) : Host.Outcome State Fault Refusal :=
  match i with
  | .intAdd iss b => Sys2Proof.Machine.execIntAdd iss b s
  | .intSub iss b => Sys2Proof.Machine.execIntSub iss b s
  | .intMullo iss b => Sys2Proof.Machine.execIntMullo iss b s
  | .intMulhi iss b => Sys2Proof.Machine.execIntMulhi iss b s
  | .intDiv iss b => Sys2Proof.Machine.execIntDiv iss b s
  | .intRem iss b => Sys2Proof.Machine.execIntRem iss b s
  | .intMin iss b => Sys2Proof.Machine.execIntMin iss b s
  | .intMax iss b => Sys2Proof.Machine.execIntMax iss b s
  | .intAnd iss b => Sys2Proof.Machine.execIntAnd iss b s
  | .intOr iss b => Sys2Proof.Machine.execIntOr iss b s
  | .intXor iss b => Sys2Proof.Machine.execIntXor iss b s
  | .intNot iss b => Sys2Proof.Machine.execIntNot iss b s
  | .intShl iss b => Sys2Proof.Machine.execIntShl iss b s
  | .intShr iss b => Sys2Proof.Machine.execIntShr iss b s
  | .intSar iss b => Sys2Proof.Machine.execIntSar iss b s
  | .intPopc iss b => Sys2Proof.Machine.execIntPopc iss b s
  | .intClz iss b => Sys2Proof.Machine.execIntClz iss b s
  | .intBrev iss b => Sys2Proof.Machine.execIntBrev iss b s
  | .intMov iss b => Sys2Proof.Machine.execIntMov iss b s
  | .intSel iss b => Sys2Proof.Machine.execIntSel iss b s
  | .fpAdd iss b => Sys2Proof.Machine.execFpAdd iss b s
  | .fpSub iss b => Sys2Proof.Machine.execFpSub iss b s
  | .fpMul iss b => Sys2Proof.Machine.execFpMul iss b s
  | .fpFma iss b => Sys2Proof.Machine.execFpFma iss b s
  | .fpMin iss b => Sys2Proof.Machine.execFpMin iss b s
  | .fpMax iss b => Sys2Proof.Machine.execFpMax iss b s
  | .fpAbs iss b => Sys2Proof.Machine.execFpAbs iss b s
  | .fpNeg iss b => Sys2Proof.Machine.execFpNeg iss b s
  | .fpCopysign iss b => Sys2Proof.Machine.execFpCopysign iss b s
  | .fpDiv iss b => Sys2Proof.Machine.execFpDiv iss b s
  | .fpSqrt iss b => Sys2Proof.Machine.execFpSqrt iss b s
  | .fpRsqrt iss b => Sys2Proof.Machine.execFpRsqrt iss b s
  | .fpRecip iss b => Sys2Proof.Machine.execFpRecip iss b s
  | .fpExp2 iss b => Sys2Proof.Machine.execFpExp2 iss b s
  | .fpLog2 iss b => Sys2Proof.Machine.execFpLog2 iss b s
  | .cvtF2i iss b => Sys2Proof.Machine.execCvtF2i iss b s
  | .cvtF2u iss b => Sys2Proof.Machine.execCvtF2u iss b s
  | .cvtI2f iss b => Sys2Proof.Machine.execCvtI2f iss b s
  | .cvtU2f iss b => Sys2Proof.Machine.execCvtU2f iss b s
  | .cvtF2n iss b => Sys2Proof.Machine.execCvtF2n iss b s
  | .cvtN2f iss b => Sys2Proof.Machine.execCvtN2f iss b s
  | .predEq iss b => Sys2Proof.Machine.execPredEq iss b s
  | .predNe iss b => Sys2Proof.Machine.execPredNe iss b s
  | .predLt iss b => Sys2Proof.Machine.execPredLt iss b s
  | .predLe iss b => Sys2Proof.Machine.execPredLe iss b s
  | .predGt iss b => Sys2Proof.Machine.execPredGt iss b s
  | .predGe iss b => Sys2Proof.Machine.execPredGe iss b s
  | .predIsnan iss b => Sys2Proof.Machine.execPredIsnan iss b s
  | .predIsinf iss b => Sys2Proof.Machine.execPredIsinf iss b s
  | .predIsfinite iss b => Sys2Proof.Machine.execPredIsfinite iss b s
  | .pand iss b => Sys2Proof.Machine.execPand iss b s
  | .por iss b => Sys2Proof.Machine.execPor iss b s
  | .pxor iss b => Sys2Proof.Machine.execPxor iss b s
  | .pnot iss b => Sys2Proof.Machine.execPnot iss b s
  | .pmov iss b => Sys2Proof.Machine.execPmov iss b s
  | .memLd iss b evicts => Sys2Proof.Machine.execMemLd iss b evicts s
  | .memSt iss b evicts => Sys2Proof.Machine.execMemSt iss b evicts s
  | .memDiscard iss b => Sys2Proof.Machine.execMemDiscard iss b s
  | .atomAdd iss b => Sys2Proof.Machine.execAtomAdd iss b s
  | .atomMin iss b => Sys2Proof.Machine.execAtomMin iss b s
  | .atomMax iss b => Sys2Proof.Machine.execAtomMax iss b s
  | .atomAnd iss b => Sys2Proof.Machine.execAtomAnd iss b s
  | .atomOr iss b => Sys2Proof.Machine.execAtomOr iss b s
  | .atomXor iss b => Sys2Proof.Machine.execAtomXor iss b s
  | .atomXchg iss b => Sys2Proof.Machine.execAtomXchg iss b s
  | .atomCas iss b => Sys2Proof.Machine.execAtomCas iss b s
  | .bra iss b => Sys2Proof.Machine.execBra iss b s
  | .exitThreads iss => Sys2Proof.Machine.execExitThreads iss s
  | .bar iss id => Sys2Proof.Machine.execBar iss id s
  | .flowNop iss => Sys2Proof.Machine.execFlowNop iss s
  | .fence iss b waited => Sys2Proof.Machine.execFence iss b waited s
  | .engIssue iss b => Sys2Proof.Machine.execEngIssue iss b s
  | .engWait iss b => Sys2Proof.Machine.execEngWait iss b s
  | .vacq iss b => Sys2Proof.Machine.execVacq iss b s
  | .vrel iss b => Sys2Proof.Machine.execVrel iss b s
  | .vsync iss b => Sys2Proof.Machine.execVsync iss b s
  | .movsr iss b => Sys2Proof.Machine.execMovsr iss b s
  | .vecFpAdd v => Sys2Proof.Machine.execVecFpAdd v s
  | .vecFpSub v => Sys2Proof.Machine.execVecFpSub v s
  | .vecFpMul v => Sys2Proof.Machine.execVecFpMul v s
  | .vecFpFma v => Sys2Proof.Machine.execVecFpFma v s
  | .vecFpMin v => Sys2Proof.Machine.execVecFpMin v s
  | .vecFpMax v => Sys2Proof.Machine.execVecFpMax v s
  | .vecFpAbs v => Sys2Proof.Machine.execVecFpAbs v s
  | .vecFpNeg v => Sys2Proof.Machine.execVecFpNeg v s
  | .vecFpCopysign v => Sys2Proof.Machine.execVecFpCopysign v s
  | .vecFpSel v => Sys2Proof.Machine.execVecFpSel v s
  | .vecIntAdd v => Sys2Proof.Machine.execVecIntAdd v s
  | .vecIntSub v => Sys2Proof.Machine.execVecIntSub v s
  | .vecIntMullo v => Sys2Proof.Machine.execVecIntMullo v s
  | .vecIntMin v => Sys2Proof.Machine.execVecIntMin v s
  | .vecIntMax v => Sys2Proof.Machine.execVecIntMax v s
  | .vecIntShl v => Sys2Proof.Machine.execVecIntShl v s
  | .vecIntShr v => Sys2Proof.Machine.execVecIntShr v s
  | .vecIntSar v => Sys2Proof.Machine.execVecIntSar v s
  | .vecIntAnd v => Sys2Proof.Machine.execVecIntAnd v s
  | .vecIntOr v => Sys2Proof.Machine.execVecIntOr v s
  | .vecIntXor v => Sys2Proof.Machine.execVecIntXor v s
  | .vecIntNot v => Sys2Proof.Machine.execVecIntNot v s
  | .vecIntSel v => Sys2Proof.Machine.execVecIntSel v s
  | .vecCmpEq v => Sys2Proof.Machine.execVecCmpEq v s
  | .vecCmpNe v => Sys2Proof.Machine.execVecCmpNe v s
  | .vecCmpLt v => Sys2Proof.Machine.execVecCmpLt v s
  | .vecCmpLe v => Sys2Proof.Machine.execVecCmpLe v s
  | .vecCmpIsnan v => Sys2Proof.Machine.execVecCmpIsnan v s
  | .vecCmpIsinf v => Sys2Proof.Machine.execVecCmpIsinf v s
  | .vecCmpIsfinite v => Sys2Proof.Machine.execVecCmpIsfinite v s
  | .vecDiv v => Sys2Proof.Machine.execVecDiv v s
  | .vecSqrt v => Sys2Proof.Machine.execVecSqrt v s
  | .vecRsqrt v => Sys2Proof.Machine.execVecRsqrt v s
  | .vecRecip v => Sys2Proof.Machine.execVecRecip v s
  | .vecExp2 v => Sys2Proof.Machine.execVecExp2 v s
  | .vecLog2 v => Sys2Proof.Machine.execVecLog2 v s
  | .vecRedSum v => Sys2Proof.Machine.execVecRedSum v s
  | .vecRedMin v => Sys2Proof.Machine.execVecRedMin v s
  | .vecRedMax v => Sys2Proof.Machine.execVecRedMax v s
  | .vecRedAnd v => Sys2Proof.Machine.execVecRedAnd v s
  | .vecRedOr v => Sys2Proof.Machine.execVecRedOr v s
  | .vecRedXor v => Sys2Proof.Machine.execVecRedXor v s
  | .vecScanAddIncl v => Sys2Proof.Machine.execVecScanAddIncl v s
  | .vecScanMinIncl v => Sys2Proof.Machine.execVecScanMinIncl v s
  | .vecScanMaxIncl v => Sys2Proof.Machine.execVecScanMaxIncl v s
  | .vecScanAddExcl v => Sys2Proof.Machine.execVecScanAddExcl v s
  | .vecScanMinExcl v => Sys2Proof.Machine.execVecScanMinExcl v s
  | .vecScanMaxExcl v => Sys2Proof.Machine.execVecScanMaxExcl v s
  | .vecLd v => Sys2Proof.Machine.execVecLd v s
  | .vecSt v => Sys2Proof.Machine.execVecSt v s
  | .vecLds v => Sys2Proof.Machine.execVecLds v s
  | .vecSts v => Sys2Proof.Machine.execVecSts v s
  | .vecGather v => Sys2Proof.Machine.execVecGather v s
  | .vecScatter v => Sys2Proof.Machine.execVecScatter v s
  | .vecCvt v => Sys2Proof.Machine.execVecCvt v s
  | .randU32 v => Sys2Proof.Machine.execRandU32 v s
  | .randUni v => Sys2Proof.Machine.execRandUni v s
  | .randBern v => Sys2Proof.Machine.execRandBern v s
  | .dropFwd v => Sys2Proof.Machine.execDropFwd v s
  | .dropBwd v => Sys2Proof.Machine.execDropBwd v s
  | .cb10Grant die reqs => Sys2Proof.Machine.execCb10Grant die reqs s
  | .zcCompress src => Sys2Proof.Machine.execZcCompress src s
  | .s24Compress src => Sys2Proof.Machine.execS24Compress src s
  | .prune24t src => Sys2Proof.Machine.execPrune24t src s
  | .nnzHist src => Sys2Proof.Machine.execNnzHist src s
  | .powerGood mv jumper btnLow addr twoByEight => Sys2Proof.Machine.execPowerGood mv jumper btnLow addr twoByEight s
  | .inputLoss => Sys2Proof.Machine.execInputLoss s
  | .inputUndervoltageFault mv => Sys2Proof.Machine.execInputUndervoltageFault mv s
  | .inputOvervoltageFault mv => Sys2Proof.Machine.execInputOvervoltageFault mv s
  | .bootImageCheckDone img => Sys2Proof.Machine.execBootImageCheckDone img s
  | .firmwareStartDone => Sys2Proof.Machine.execFirmwareStartDone s
  | .stackTrainingDone => Sys2Proof.Machine.execStackTrainingDone s
  | .laneSelfTestDone bad => Sys2Proof.Machine.execLaneSelfTestDone bad s
  | .dramWipeDone => Sys2Proof.Machine.execDramWipeDone s
  | .sramWipeDone => Sys2Proof.Machine.execSramWipeDone s
  | .hostLinkTrained => Sys2Proof.Machine.execHostLinkTrained s
  | .hostPerstAssert => Sys2Proof.Machine.execHostPerstAssert s
  | .hostPerstDeassert => Sys2Proof.Machine.execHostPerstDeassert s
  | .cxlHotReset => Sys2Proof.Machine.execCxlHotReset s
  | .linkBDown => Sys2Proof.Machine.execLinkBDown s
  | .linkBRetrain => Sys2Proof.Machine.execLinkBRetrain s
  | .refclkLost => Sys2Proof.Machine.execRefclkLost s
  | .refclkStable => Sys2Proof.Machine.execRefclkStable s
  | .configRead => Sys2Proof.Machine.execConfigRead s
  | .sealCheck opened => Sys2Proof.Machine.execSealCheck opened s
  | .presenceButtonHold => Sys2Proof.Machine.execPresenceButtonHold s
  | .presenceWindowExpiry => Sys2Proof.Machine.execPresenceWindowExpiry s
  | .thermalSample temps inlet => Sys2Proof.Machine.execThermalSample temps inlet s
  | .tripHoldExpiry => Sys2Proof.Machine.execTripHoldExpiry s
  | .sensorUpdate which value => Sys2Proof.Machine.execSensorUpdate which value s
  | .grantEpoch demands drawn => Sys2Proof.Machine.execGrantEpoch demands drawn s
  | .sleepEntry => Sys2Proof.Machine.execSleepEntry s
  | .unitClockGate u => Sys2Proof.Machine.execUnitClockGate u s
  | .diePllOff die => Sys2Proof.Machine.execDiePllOff die s
  | .unitWakeDone w => Sys2Proof.Machine.execUnitWakeDone w s
  | .diePowerUpDone d => Sys2Proof.Machine.execDiePowerUpDone d s
  | .tapInstructionLoad iss => Sys2Proof.Machine.execTapInstructionLoad iss s
  | .tapTrst => Sys2Proof.Machine.execTapTrst s
  | .mctpMessage typ sid => Sys2Proof.Machine.execMctpMessage typ sid s
  | .dynamicAddressAssign addr => Sys2Proof.Machine.execDynamicAddressAssign addr s
  | .setEndpointId eid => Sys2Proof.Machine.execSetEndpointId eid s
  | .spdmKeyExchange sid key => Sys2Proof.Machine.execSpdmKeyExchange sid key s
  | .getMeasurements => Sys2Proof.Machine.execGetMeasurements s
  | .pldmSensorRead which => Sys2Proof.Machine.execPldmSensorRead which s
  | .ideKm sid => Sys2Proof.Machine.execIdeKm sid s
  | .firmwareUpdateTransfer sid img => Sys2Proof.Machine.execFirmwareUpdateTransfer sid img s
  | .flashWriteDone => Sys2Proof.Machine.execFlashWriteDone s
  | .recoveryImageLoad img => Sys2Proof.Machine.execRecoveryImageLoad img s
  | .mgmtCommandArrival sid code => Sys2Proof.Machine.execMgmtCommandArrival sid code s
  | .ctxCreate sid ctx home resv seed => Sys2Proof.Machine.execCtxCreate sid ctx home resv seed s
  | .ctxOpen sid ctx => Sys2Proof.Machine.execCtxOpen sid ctx s
  | .ctxFreeze sid ctx => Sys2Proof.Machine.execCtxFreeze sid ctx s
  | .ctxKill sid ctx => Sys2Proof.Machine.execCtxKill sid ctx s
  | .ctxDestroy sid ctx => Sys2Proof.Machine.execCtxDestroy sid ctx s
  | .teardownRecordsDrained ctx => Sys2Proof.Machine.execTeardownRecordsDrained ctx s
  | .teardownScrubDone ctx => Sys2Proof.Machine.execTeardownScrubDone ctx s
  | .ctxSet sid ctx field => Sys2Proof.Machine.execCtxSet sid ctx field s
  | .map sid ctx pages => Sys2Proof.Machine.execMap sid ctx pages s
  | .unmap sid ctx va => Sys2Proof.Machine.execUnmap sid ctx va s
  | .share sid owner va ctx toVa r w => Sys2Proof.Machine.execShare sid owner va ctx toVa r w s
  | .unshare sid ctx va => Sys2Proof.Machine.execUnshare sid ctx va s
  | .hdmBind sid window ctx base => Sys2Proof.Machine.execHdmBind sid window ctx base s
  | .grant sid ctx g revoke => Sys2Proof.Machine.execGrant sid ctx g revoke s
  | .sliceCreate sid slice p => Sys2Proof.Machine.execSliceCreate sid slice p s
  | .sliceChange sid slice p => Sys2Proof.Machine.execSliceChange sid slice p s
  | .sliceDestroy sid slice => Sys2Proof.Machine.execSliceDestroy sid slice s
  | .dieCacheFlushDone die => Sys2Proof.Machine.execDieCacheFlushDone die s
  | .pwrSet sid capW caps floors => Sys2Proof.Machine.execPwrSet sid capW caps floors s
  | .topoSet sid node topo => Sys2Proof.Machine.execTopoSet sid node topo s
  | .reelSysSet sid cfg => Sys2Proof.Machine.execReelSysSet sid cfg s
  | .snapshot sid => Sys2Proof.Machine.execSnapshot sid s
  | .snapshotTaken => Sys2Proof.Machine.execSnapshotTaken s
  | .resume sid => Sys2Proof.Machine.execResume sid s
  | .reelReset sid => Sys2Proof.Machine.execReelReset sid s
  | .idePolicy sid required => Sys2Proof.Machine.execIdePolicy sid required s
  | .logRead sid => Sys2Proof.Machine.execLogRead sid s
  | .cmdStatus sid => Sys2Proof.Machine.execCmdStatus sid s
  | .lcTransition sid target key => Sys2Proof.Machine.execLcTransition sid target key s
  | .debugUnlock sid => Sys2Proof.Machine.execDebugUnlock sid s
  | .ownerKeyRotate sid key sigOk => Sys2Proof.Machine.execOwnerKeyRotate sid key sigOk s
  | .presenceClose sid => Sys2Proof.Machine.execPresenceClose sid s
  | .warmReset sid => Sys2Proof.Machine.execWarmReset sid s
  | .registerWrite ws => Sys2Proof.Machine.execRegisterWrite ws s
  | .enableWriteOne who b => Sys2Proof.Machine.execEnableWriteOne who b s
  | .enableWriteZero who b => Sys2Proof.Machine.execEnableWriteZero who b s
  | .blockStarted b => Sys2Proof.Machine.execBlockStarted b s
  | .blockStopped b => Sys2Proof.Machine.execBlockStopped b s
  | .ringEnable who ctx => Sys2Proof.Machine.execRingEnable who ctx s
  | .ringDisable who ctx => Sys2Proof.Machine.execRingDisable who ctx s
  | .pportEnable who port => Sys2Proof.Machine.execPportEnable who port s
  | .reHaltRequest die k halt => Sys2Proof.Machine.execReHaltRequest die k halt s
  | .engineDebugHalt die k chunk => Sys2Proof.Machine.execEngineDebugHalt die k chunk s
  | .coreHaltRequest die core halt => Sys2Proof.Machine.execCoreHaltRequest die core halt s
  | .coreDebugHalt die core => Sys2Proof.Machine.execCoreDebugHalt die core s
  | .cntSelWrite ctx => Sys2Proof.Machine.execCntSelWrite ctx s
  | .cntSnapTake => Sys2Proof.Machine.execCntSnapTake s
  | .cntSnapRelease => Sys2Proof.Machine.execCntSnapRelease s
  | .cntClear => Sys2Proof.Machine.execCntClear s
  | .cntTraceWrite v => Sys2Proof.Machine.execCntTraceWrite v s
  | .sqTailWrite ctx v seen => Sys2Proof.Machine.execSqTailWrite ctx v seen s
  | .cqHeadWrite ctx v => Sys2Proof.Machine.execCqHeadWrite ctx v s
  | .doorbellPageOtherWrite ctx offset size => Sys2Proof.Machine.execDoorbellPageOtherWrite ctx offset size s
  | .hostMemAccess window offset op => Sys2Proof.Machine.execHostMemAccess window offset op s
  | .descriptorFetch ctx poisoned hostNs => Sys2Proof.Machine.execDescriptorFetch ctx poisoned hostNs s
  | .itemDispatch ctx seq => Sys2Proof.Machine.execItemDispatch ctx seq s
  | .itemComplete ctx seq => Sys2Proof.Machine.execItemComplete ctx seq s
  | .completionRecordWrite ctx => Sys2Proof.Machine.execCompletionRecordWrite ctx s
  | .msixMessage vector => Sys2Proof.Machine.execMsixMessage vector s
  | .contextFault ctx faults => Sys2Proof.Machine.execContextFault ctx faults s
  | .itemNop ctx seq => Sys2Proof.Machine.execItemNop ctx seq s
  | .reProduct ctx seq => Sys2Proof.Machine.execReProduct ctx seq s
  | .vecList ctx seq => Sys2Proof.Machine.execVecList ctx seq s
  | .kernel ctx seq => Sys2Proof.Machine.execKernel ctx seq s
  | .normUpdate ctx seq => Sys2Proof.Machine.execNormUpdate ctx seq s
  | .layerWriteStart ctx seq waited held => Sys2Proof.Machine.execLayerWriteStart ctx seq waited held s
  | .layerSwap ctx seq => Sys2Proof.Machine.execLayerSwap ctx seq s
  | .cacheCtlPin ctx seq => Sys2Proof.Machine.execCacheCtlPin ctx seq s
  | .pinScanDone slice => Sys2Proof.Machine.execPinScanDone slice s
  | .cacheCtlDiscard ctx seq => Sys2Proof.Machine.execCacheCtlDiscard ctx seq s
  | .eventAdd ctx seq => Sys2Proof.Machine.execEventAdd ctx seq s
  | .eventSet ctx seq => Sys2Proof.Machine.execEventSet ctx seq s
  | .eventWaitGe ctx seq => Sys2Proof.Machine.execEventWaitGe ctx seq s
  | .eventMonitorReread ctx seq seen => Sys2Proof.Machine.execEventMonitorReread ctx seq seen s
  | .eventPoll ctx seq seen => Sys2Proof.Machine.execEventPoll ctx seq seen s
  | .cancel ctx seq => Sys2Proof.Machine.execCancel ctx seq s
  | .reelBarrier ctx seq => Sys2Proof.Machine.execReelBarrier ctx seq s
  | .reelBroadcast ctx seq => Sys2Proof.Machine.execReelBroadcast ctx seq s
  | .reelReduce ctx seq => Sys2Proof.Machine.execReelReduce ctx seq s
  | .reelArrival ctx seq => Sys2Proof.Machine.execReelArrival ctx seq s
  | .reelMessageReceive port m => Sys2Proof.Machine.execReelMessageReceive port m s
  | .reelInstanceComplete group => Sys2Proof.Machine.execReelInstanceComplete group s
  | .reelAbort group shard => Sys2Proof.Machine.execReelAbort group shard s
  | .jkfTranslationDone ctx seq => Sys2Proof.Machine.execJkfTranslationDone ctx seq s
  | .tileDeal ctx seq => Sys2Proof.Machine.execTileDeal ctx seq s
  | .tileStart die k rep => Sys2Proof.Machine.execTileStart die k rep s
  | .tileDrainDone die k rep => Sys2Proof.Machine.execTileDrainDone die k rep s
  | .splitCombine die k rows rep => Sys2Proof.Machine.execSplitCombine die k rows rep s
  | .stealAttempt die k => Sys2Proof.Machine.execStealAttempt die k s
  | .tilePark die k chunk => Sys2Proof.Machine.execTilePark die k chunk s
  | .parkedTileResume die k => Sys2Proof.Machine.execParkedTileResume die k s
  | .txbTurnDone die k isB row col => Sys2Proof.Machine.execTxbTurnDone die k isB row col s
  | .demandMissFill die line lo hi => Sys2Proof.Machine.execDemandMissFill die line lo hi s
  | .prefetchFill die line lo hi => Sys2Proof.Machine.execPrefetchFill die line lo hi s
  | .patrolScrubRead half e => Sys2Proof.Machine.execPatrolScrubRead half e s
  | .combinerAtomic ctx seq req => Sys2Proof.Machine.execCombinerAtomic ctx seq req s
  | .hostLineAtomic ctx seq req => Sys2Proof.Machine.execHostLineAtomic ctx seq req s
  | .blockPlace ctx seq => Sys2Proof.Machine.execBlockPlace ctx seq s
  | .packMove die core rep => Sys2Proof.Machine.execPackMove die core rep s
  | .pathReconverge pack => Sys2Proof.Machine.execPathReconverge pack s
  | .barrierInstanceComplete block id => Sys2Proof.Machine.execBarrierInstanceComplete block id s
  | .barrierTimeout block id => Sys2Proof.Machine.execBarrierTimeout block id s
  | .portTrainingDone port lanes => Sys2Proof.Machine.execPortTrainingDone port lanes s
  | .portHandshake port partner => Sys2Proof.Machine.execPortHandshake port partner s
  | .noPartnerTimeout port => Sys2Proof.Machine.execNoPartnerTimeout port s
  | .flitReceive port f => Sys2Proof.Machine.execFlitReceive port f s
  | .flitNak port seq => Sys2Proof.Machine.execFlitNak port seq s
  | .ackTimeout port => Sys2Proof.Machine.execAckTimeout port s
  | .blockLockLoss port => Sys2Proof.Machine.execBlockLockLoss port s
  | .linkDown port => Sys2Proof.Machine.execLinkDown port s
  | .peerRequestReceive port req => Sys2Proof.Machine.execPeerRequestReceive port req s
  | .peerResponseReceive path tag ans => Sys2Proof.Machine.execPeerResponseReceive path tag ans s
  | .zcFrameReceive port f => Sys2Proof.Machine.execZcFrameReceive port f s
  | .powerOn mv sealOpen => Sys2Proof.Machine.execPowerOn mv sealOpen s
  | .msixTableWrite offset v => Sys2Proof.Machine.execMsixTableWrite offset v s
  | .cxlCacheSnoop line takes => Sys2Proof.Machine.execCxlCacheSnoop line takes s
  | .backInvalidationResponse line => Sys2Proof.Machine.execBackInvalidationResponse line s
  | .ppBtnNRelease => Sys2Proof.Machine.execPpBtnNRelease s

end Sys2Proof.Machine
end

