-- ==== Sys2Proof/Machine/Tick.lean ====
section
/-! DEFINITION. One period of the time counter: what an empty queue lets pass (R175, R199, R278, R376; log 2). -/

namespace Sys2Proof.Machine

/-- Does the ring hold a record back for want of completion-ring room (R276)? -/
def Ring.cqStuck (g : Ring) : Bool :=
  !g.waiting.isEmpty && (g.cqTail + 1) % 2 ^ g.cqLog == g.cqHead

/-- Does the item window hold the ring's next descriptor back (R255, R282)? -/
def Device.windowStuck (d : Device) (c : Nat) : Bool :=
  d.hasEntries c && d.windowFull c

/-- RING_CQ_WAIT and RING_WINDOW_FULL count the microseconds of those waits (R278). -/
def Device.countWaits (d : Device) : Device :=
  d.hub.rings.foldl (fun d g =>
    (d.count g.1 119 (bit g.2.cqStuck)).count g.1 120 (bit (d.windowStuck g.1))) d

/-- Shards that have arrived wait for the completion of their instance (R309). -/
def Device.reelWaitTick (d : Device) (ns : Nat) : Device :=
  (d.reel.groups.flatMap fun g => g.2.arrived).foldl (fun d a => d.count a.ctx 131 ns) d

/-- The cycle counters of the cores whose clock runs advance by 18 cycles of 1.8 GHz, and so do the watchdogs of
their barriers, except on a halted core (R175, R199, R429). -/
def Device.coreTick (d : Device) (p : Power) : Device :=
  let runs := fun (die core : Nat) => !p.refAbsent && p.unitRuns die (16 + core)
  let live := (List.range (Config.laneDies * Config.coresPerDie)).filter fun i => runs (i / 16) (i % 16)
  d.mapCollie fun c =>
    let tick := fun (b : KBlock) => { b with bars := b.bars.map fun x => { x with cycles := x.cycles + 18 } }
    let halted := fun (b : KBlock) => (FMap.get CoreSt.reset c.cores (16 * b.die + b.core)).halted
    { c with
      cores := live.foldl (fun m i => FMap.upd CoreSt.reset m i fun x => { x with cycles := x.cycles + 18 }) c.cores
      blocks := c.blocks.map fun b => if runs b.2.die b.2.core && !halted b.2 then (b.1, tick b.2) else b }

/-- A core all of whose resident packs wait on a barrier counts its cycles under BARRIER_WAIT, for the oldest one's context (R185,
R422). -/
def Device.barrierTick (p : Power) (d : Device) (i : Nat) : Device :=
  let ps := d.residents (i / 16) (i % 16)
  match (ps.head?).bind fun q => d.block (q / 16) with
  | none => d
  | some k =>
    if !p.refAbsent && p.unitRuns k.die (16 + k.core) && ps.all fun q => (d.pack q).wait == some .barrier then
      d.chargeStall k.ctx k.die (16 + k.core) 10 18
    else d

/-- Waits of norm-and-update items: each counts at the row engines of its slice that hold no item, at one engine for the item fetched
first; a wait for a slot is UPS_PIN_WAIT too (R96, R106, R116, R120; log 15). -/
def Device.updateTick (d : Device) (cycles : Nat) : Device :=
  let ws := d.hub.items.filter d.updateWaits
  let slices := (ws.map Item.slice).eraseDups
  let d1 := slices.foldl (fun d s => (d.sliceEngines s).foldl (fun d e =>
    match ws.find? fun w => w.slice == s with
    | some w => if (d.re e.1 e.2).busy then d else d.chargeStall w.ctx e.1 e.2 5 cycles
    | none => d) d) d
  (ws.filter fun w => w.phase == .running).foldl (fun d w => d.count w.ctx 62 cycles) d1

/-- Nanoseconds of a period: 10 of the reference, 125 of the oscillator (R376). -/
def Power.period (p : Power) : Nat := if p.refAbsent then 125 else 10

/-- One period passes. -/
def idleTick (s : State) : State :=
  let p := s.plat.pow
  if !p.alwaysOn then s
  else
    let t := p.time + BitVec.ofNat 64 p.period
    let d0 := (List.range (Config.laneDies * Config.coresPerDie)).foldl (Device.barrierTick p) (s.dev.coreTick p)
    let d := if p.refAbsent then d0 else d0.updateTick 18
    { s with
      plat := { s.plat with pow := { p with time := t } }
      dev := let e := d.reelWaitTick p.period; if t.toNat / 1000 = p.time.toNat / 1000 then e else e.countWaits }

end Sys2Proof.Machine
end

