-- ==== Sys2Proof/Safety.lean ====
section
/-! DEFINITION. What counts as a safe run: each step answers a next state, and the tables keep their canonical form. -/

namespace Sys2Proof.Machine

/-- The step at a state neither faults nor refuses. -/
def Goes (s : State) : Prop := ∃ t, step s = .next t

/-- A run of `n` steps that goes all the way. -/
def RunsTo : Nat → State → State → Prop
  | 0, s, t => s = t
  | n + 1, s, t => ∃ u, step s = .next u ∧ RunsTo n u t

end Sys2Proof.Machine
end

