-- ==== Sys2Proof/Certificates/Slice0/Obligations.lean ====
section
/-! DEFINITION. The statements for the provers, and the terms they are written in. -/

namespace Sys2Proof.Spec
end Sys2Proof.Spec

open Sys2Proof Sys2Proof.Machine Sys2Proof.Spec

namespace Sys2Proof.Spec

/-! ### Registers of a pack (R188, R189) -/

/-- Thread register r of lane l. -/
def treg (x : Pack) (l r : Nat) : Word := FMap.get 0 x.regs (128 * l + r)
/-- Uniform register r. -/
def ureg (x : Pack) (r : Nat) : Word := FMap.get 0 x.uregs r
/-- Predicate k of lane l. -/
def preg (x : Pack) (k l : Nat) : Bool := (FMap.get 0 x.preds k).getLsbD l

/-- The 32-bit operand a selector names for a lane. -/
def opnd (x : Pack) (imm : Option Dword) (l : Nat) (s : BitVec 8) : Word :=
  if s.toNat < 0x80 then treg x l s.toNat
  else if s.toNat < 0xC0 then ureg x (s.toNat - 0x80)
  else if s = 0xC0#8 then (imm.getD 0).setWidth 32
  else 0

/-- The 64-bit operand: a pair, the low word in the even register; the immediate word; or zero. -/
def opnd64 (x : Pack) (imm : Option Dword) (l : Nat) (s : BitVec 8) : Dword :=
  if s.toNat < 0x80 then treg x l (s.toNat + 1) ++ treg x l s.toNat
  else if s.toNat < 0xC0 then ureg x (s.toNat - 0x80 + 1) ++ ureg x (s.toNat - 0x80)
  else if s = 0xC0#8 then imm.getD 0
  else 0

/-! ### What a JKF instruction leaves -/

/-- A pack may issue command c, which is the instruction its kernel has at its pc: the pack's block, the pack and its item are k, x
and it. -/
def issues (s : State) (c : Instr) (i : Issue) (k : KBlock) (x : Pack) (it : Item) : Prop :=
  s.dev.issuer s.plat i = some (k, x, it) ∧ s.dev.atCode c = true

/-- Of the issuing pack: all but the pc, which moves past the instruction's words, and `w` registers from `dst` on of
the lanes it ran for. -/
def packFrame (i : Issue) (dst : BitVec 8) (w : Nat) (ls : List Nat) (x y : Pack) : Prop :=
  y.preds = x.preds ∧ y.mask = x.mask ∧ y.live = x.live ∧ y.stack = x.stack ∧ y.slot = x.slot ∧ y.wait = x.wait ∧
  y.stamp = x.stamp ∧ y.parked = x.parked ∧ y.pc = x.pc + (if i.imm.isSome then 2 else 1) ∧
  (∀ l r, r < 128 → ¬(l ∈ ls ∧ dst.toNat ≤ r ∧ r < dst.toNat + w) → treg y l r = treg x l r) ∧
  (∀ r, r < 64 → ¬(dst.toNat ≤ 0x80 + r ∧ 0x80 + r < dst.toNat + w) → ureg y r = ureg x r)

/-- Outside the packs and the blocks: the queue, the always-on domain, every memory, engine, port and register; of the
counters only COLLIE_INSTR and the busy cycles of the cores, which count the instruction, and CLASS0_START_MAX of the context may
change. -/
def outerFrame (k : KBlock) (s t : State) : Prop :=
  t.pending = s.pending ∧ t.plat = s.plat ∧ t.dev.eng = s.dev.eng ∧ t.dev.mem = s.dev.mem ∧ t.dev.ups = s.dev.ups ∧
  t.dev.reel = s.dev.reel ∧ t.dev.ports = s.dev.ports ∧ t.dev.log = s.dev.log ∧ t.dev.sent = s.dev.sent ∧
  (∀ c, t.dev.ctx c = s.dev.ctx c) ∧ (∀ c, t.dev.ring c = s.dev.ring c) ∧
  (t.dev.counter k.ctx 78).toNat = min ((s.dev.counter k.ctx 78).toNat + 1) (2 ^ 64 - 1) ∧
  (t.dev.counter k.ctx 44).toNat = min ((s.dev.counter k.ctx 44).toNat + 1) (2 ^ 64 - 1) ∧
  ∀ c n, n < 256 → ¬(c = k.ctx ∧ (n = 44 ∨ n = 78 ∨ n = 125)) → t.dev.counter c n = s.dev.counter c n

/-- As `outerFrame`, and every block and every other pack stays. -/
def coreFrame (k : KBlock) (p : Nat) (s t : State) : Prop :=
  outerFrame k s t ∧ t.dev.collie.blocks = s.dev.collie.blocks ∧ ∀ q, q ≠ p → t.dev.pack q = s.dev.pack q

/-! ### INT (R183, R197) -/

/-- Set bits of a word. -/
def bitsSet (x : Word) : Nat := ((List.range 32).map fun j => x.toNat / 2 ^ j % 2).sum

/-- The INT instructions under s32 and u32: what they compute from the signedness, the selecting predicate and the operands;
none where the spec states no result. -/
def intWords : Instr → Option (Issue × AluBody × AluOp × (Bool → Bool → Word → Word → Option Word))
  | .intAdd i b => some (i, b, opIntAdd, fun _ _ x y => some (x + y))
  | .intSub i b => some (i, b, opIntSub, fun _ _ x y => some (x - y))
  | .intMullo i b => some (i, b, opIntMullo, fun _ _ x y => some (x * y))
  | .intMulhi i b => some (i, b, opIntMulhi, fun g _ x y =>
      some (if g then ((x.signExtend 64 * y.signExtend 64) >>> 32).setWidth 32
        else ((x.setWidth 64 * y.setWidth 64) >>> 32).setWidth 32))
  | .intDiv i b => some (i, b, opIntDiv, fun g _ x y =>
      some (if y = 0 then 0xFFFFFFFF#32 else if g then x.sdiv y else x / y))
  | .intRem i b => some (i, b, opIntRem, fun g _ x y => some (if y = 0 then x else if g then x.srem y else x % y))
  | .intMin i b => some (i, b, opIntMin, fun g _ x y =>
      some (if g then (if y.slt x then y else x) else (if y.ult x then y else x)))
  | .intMax i b => some (i, b, opIntMax, fun g _ x y =>
      some (if g then (if x.slt y then y else x) else (if x.ult y then y else x)))
  | .intAnd i b => some (i, b, opIntAnd, fun _ _ x y => some (x &&& y))
  | .intOr i b => some (i, b, opIntOr, fun _ _ x y => some (x ||| y))
  | .intXor i b => some (i, b, opIntXor, fun _ _ x y => some (x ^^^ y))
  | .intNot i b => some (i, b, opIntNot, fun _ _ x _ => some (~~~x))
  | .intShl i b => some (i, b, opIntShl, fun _ _ x y => if y.toNat < 32 then some (x <<< y.toNat) else none)
  | .intShr i b => some (i, b, opIntShr, fun _ _ x y => if y.toNat < 32 then some (x >>> y.toNat) else none)
  | .intSar i b => some (i, b, opIntSar, fun _ _ x y => if y.toNat < 32 then some (x.sshiftRight y.toNat) else none)
  | .intPopc i b => some (i, b, opIntPopc, fun _ _ x _ => some (BitVec.ofNat 32 (bitsSet x)))
  | .intClz i b => some (i, b, opIntClz, fun _ _ x _ => some (BitVec.ofNat 32 (if x = 0 then 32 else 31 - x.toNat.log2)))
  | .intBrev i b => some (i, b, opIntBrev, fun _ _ x _ => some x.reverse)
  | .intMov i b => some (i, b, opIntMov, fun _ _ x _ => some x)
  | .intSel i b => some (i, b, opIntSel, fun _ p x y => some (if p then x else y))
  | _ => none

/-- The INT instructions under b64. -/
def intPairs : Instr → Option (Issue × AluBody × AluOp × (Bool → Dword → Dword → Option Dword))
  | .intAdd i b => some (i, b, opIntAdd, fun _ x y => some (x + y))
  | .intSub i b => some (i, b, opIntSub, fun _ x y => some (x - y))
  | .intMullo i b => some (i, b, opIntMullo, fun _ x y => some (x * y))
  | .intAnd i b => some (i, b, opIntAnd, fun _ x y => some (x &&& y))
  | .intOr i b => some (i, b, opIntOr, fun _ x y => some (x ||| y))
  | .intXor i b => some (i, b, opIntXor, fun _ x y => some (x ^^^ y))
  | .intShl i b => some (i, b, opIntShl, fun _ x y => if y.toNat < 64 then some (x <<< y.toNat) else none)
  | .intShr i b => some (i, b, opIntShr, fun _ x y => if y.toNat < 64 then some (x >>> y.toNat) else none)
  | .intMov i b => some (i, b, opIntMov, fun _ x _ => some x)
  | .intSel i b => some (i, b, opIntSel, fun p x y => some (if p then x else y))
  | _ => none

/-- The FP instructions: what they compute from the format, the conversion byte and the operands. -/
def fpWords : Instr → Option (Issue × AluBody × AluOp × (Nat → Nat → Word → Word → Word → Word))
  | .fpAdd i b => some (i, b, opFpAdd, fun _ _ x y _ => Fp.add x y)
  | .fpSub i b => some (i, b, opFpSub, fun _ _ x y _ => Fp.sub x y)
  | .fpMul i b => some (i, b, opFpMul, fun _ _ x y _ => Fp.mul x y)
  | .fpFma i b => some (i, b, opFpFma, fun _ _ x y z => Fp.fma x y z)
  | .fpMin i b => some (i, b, opFpMin, fun _ _ x y _ => Fp.min x y)
  | .fpMax i b => some (i, b, opFpMax, fun _ _ x y _ => Fp.max x y)
  | .fpAbs i b => some (i, b, opFpAbs, fun _ _ x _ _ => Fp.abs x)
  | .fpNeg i b => some (i, b, opFpNeg, fun _ _ x _ _ => Fp.neg x)
  | .fpCopysign i b => some (i, b, opFpCopysign, fun _ _ x y _ => Fp.copysign x y)
  | .fpDiv i b => some (i, b, opFpDiv, fun _ _ x y _ => Fp.div x y)
  | .fpSqrt i b => some (i, b, opFpSqrt, fun _ _ x _ _ => Fp.sqrt x)
  | .fpRsqrt i b => some (i, b, opFpRsqrt, fun _ _ x _ _ => Fp.rsqrt x)
  | .fpRecip i b => some (i, b, opFpRecip, fun _ _ x _ _ => Fp.recip x)
  | .fpExp2 i b => some (i, b, opFpExp2, fun _ _ x _ _ => Fp.exp2 x)
  | .fpLog2 i b => some (i, b, opFpLog2, fun _ _ x _ _ => Fp.log2 x)
  | .cvtF2i i b => some (i, b, opCvtF2i, fun _ v x _ _ => Fp.toS32 (convRnd v 0) x)
  | .cvtF2u i b => some (i, b, opCvtF2u, fun _ v x _ _ => Fp.toU32 (convRnd v 0) x)
  | .cvtI2f i b => some (i, b, opCvtI2f, fun _ _ x _ _ => Fp.ofS32 x)
  | .cvtU2f i b => some (i, b, opCvtU2f, fun _ _ x _ _ => Fp.ofU32 x)
  | .cvtF2n i b => some (i, b, opCvtF2n, fun m v x _ _ =>
      BitVec.ofNat 32 (convert m (convRnd v 0) (convSat v) (toNum x)))
  | .cvtN2f i b => some (i, b, opCvtN2f, fun m _ x _ _ => ofNum (elemNum m (x.toNat % 2 ^ fmtBits m)))
  | _ => none

/-! ### PRED (R197) -/

/-- A comparison of two operands under a format: signed, unsigned, 64-bit unsigned. -/
def intCompare (fmt : Nat) (lt eq gt : Bool) (x y : Dword) : Bool :=
  match fmt with
  | 0x01 => lt && (x.setWidth 32).slt (y.setWidth 32) || eq && (x.setWidth 32 == y.setWidth 32) ||
      gt && (y.setWidth 32).slt (x.setWidth 32)
  | 0x02 => lt && (x.setWidth 32).ult (y.setWidth 32) || eq && (x.setWidth 32 == y.setWidth 32) ||
      gt && (y.setWidth 32).ult (x.setWidth 32)
  | _ => lt && x.ult y || eq && (x == y) || gt && y.ult x

/-- The integer comparisons of PRED. -/
def predRows : Instr → Option (Issue × PredBody × (Nat → Dword → Dword → Bool))
  | .predEq i b => some (i, b, fun m => intCompare m false true false)
  | .predNe i b => some (i, b, fun m => intCompare m true false true)
  | .predLt i b => some (i, b, fun m => intCompare m true false false)
  | .predLe i b => some (i, b, fun m => intCompare m true true false)
  | .predGt i b => some (i, b, fun m => intCompare m false false true)
  | .predGe i b => some (i, b, fun m => intCompare m false true true)
  | _ => none

/-- The FP32 comparisons and class tests: on numbers the order of the values; a NaN is unequal to everything and ordered with
nothing. -/
def predFloatRows : Instr → Option (Issue × PredBody × Bool × (Machine.Num → Machine.Num → Bool))
  | .predEq i b => some (i, b, false, fun x y => Num.eq x y)
  | .predNe i b => some (i, b, false, fun x y => !Num.eq x y)
  | .predLt i b => some (i, b, false, fun x y => Num.lt x y)
  | .predLe i b => some (i, b, false, fun x y => Num.lt x y || Num.eq x y)
  | .predGt i b => some (i, b, false, fun x y => Num.lt y x)
  | .predGe i b => some (i, b, false, fun x y => Num.lt y x || Num.eq x y)
  | .predIsnan i b => some (i, b, true, fun x _ => match x with
      | .nan => true
      | _ => false)
  | .predIsinf i b => some (i, b, true, fun x _ => match x with
      | .inf _ => true
      | _ => false)
  | .predIsfinite i b => some (i, b, true, fun x _ => match x with
      | .fin _ _ _ => true
      | _ => false)
  | _ => none

/-- Predicate logic. -/
def plogRows : Instr → Option (Issue × PlogBody × (Bool → Bool → Bool))
  | .pand i b => some (i, b, fun p q => p && q)
  | .por i b => some (i, b, fun p q => p || q)
  | .pxor i b => some (i, b, fun p q => p != q)
  | .pnot i b => some (i, b, fun p _ => !p)
  | .pmov i b => some (i, b, fun p _ => p)
  | _ => none

/-- The predicate pd takes `v l` in the lanes `ls`; the other lanes and predicates, and the registers, stay. -/
def predFrame (i : Issue) (pd : Nat) (ls : List Nat) (v : Nat → Bool) (x y : Pack) : Prop :=
  y.regs = x.regs ∧ y.uregs = x.uregs ∧ y.mask = x.mask ∧ y.live = x.live ∧ y.stack = x.stack ∧ y.slot = x.slot ∧
  y.wait = x.wait ∧ y.stamp = x.stamp ∧ y.parked = x.parked ∧ y.pc = x.pc + (if i.imm.isSome then 2 else 1) ∧
  (∀ j l, j ≠ pd → preg y j l = preg x j l) ∧
  ∀ l, l < 32 → preg y pd l = if l ∈ ls then v l else preg x pd l

/-- The combination with ps (R194). -/
def combined (comb : BitVec 2) (r p : Bool) : Bool :=
  if comb = 0 then r else if comb = 1 then r && p else if comb = 2 then r || p else r != p

end Sys2Proof.Spec

/-- The integer instructions write the words and register pairs the rules give, in every lane. (10_jeneo_kernel_form (R197), 09_collie_cores_and_packs (R183), 10_jeneo_kernel_form (R189), 10_jeneo_kernel_form (R188)) -/
def Obligations.IntegerInstructionsComputeTheirResults : Prop :=
  (
    ∀ c i b o f, intWords c = some (i, b, o, f) → ∀ s k x it,
      issues s c i k x it → aluOk o k.tregs i b = true → b.fmt ≠ 0x0F →
      ∃ t, exec c s = .next t ∧ coreFrame k i.pack s t ∧
        packFrame i b.dst 1 (x.lanes (aluFields o b) i.guard) x (t.dev.pack i.pack) ∧
        ∀ l ∈ x.lanes (aluFields o b) i.guard, ∀ r,
          f (b.fmt == 1) (preg x (b.cvt.toNat % 8) l) (opnd x i.imm l b.a) (opnd x i.imm l b.b) = some r →
          b.dst ≠ 0xC1#8 → opnd (t.dev.pack i.pack) none l b.dst = r) ∧
  (
    ∀ c i b o f, intPairs c = some (i, b, o, f) → ∀ s k x it,
      issues s c i k x it → aluOk o k.tregs i b = true → b.fmt = 0x0F →
      ∃ t, exec c s = .next t ∧ coreFrame k i.pack s t ∧
        packFrame i b.dst 2 (x.lanes (aluFields o b) i.guard) x (t.dev.pack i.pack) ∧
        ∀ l ∈ x.lanes (aluFields o b) i.guard, ∀ r,
          f (preg x (b.cvt.toNat % 8) l) (opnd64 x i.imm l b.a) (opnd64 x i.imm l b.b) = some r →
          b.dst ≠ 0xC1#8 → opnd64 (t.dev.pack i.pack) none l b.dst = r)

/-- An FP or CVT instruction writes the result of its FP32 operation or conversion, and nothing else. (10_jeneo_kernel_form (R197), 08_vector_engines_and_randomness (R146)) -/
def Obligations.FloatInstructionsComputeWords : Prop :=
  ∀ c i b o f, fpWords c = some (i, b, o, f) → ∀ s k x it,
    issues s c i k x it → aluOk o k.tregs i b = true →
    ∃ t, exec c s = .next t ∧ coreFrame k i.pack s t ∧
      packFrame i b.dst 1 (x.lanes (aluFields o b) i.guard) x (t.dev.pack i.pack) ∧
      ∀ l ∈ x.lanes (aluFields o b) i.guard, b.dst ≠ 0xC1#8 →
        opnd (t.dev.pack i.pack) none l b.dst =
          f b.fmt.toNat b.cvt.toNat (opnd x i.imm l b.a) (opnd x i.imm l b.b) (opnd x i.imm l b.c)

/-- Compares, selects and the predicate instructions set the predicates of the rules. (10_jeneo_kernel_form (R197), 10_jeneo_kernel_form (R194), 10_jeneo_kernel_form (R192)) -/
def Obligations.ComparesAndPredicateLogicSetPredicates : Prop :=
  (
    ∀ c i b f, predRows c = some (i, b, f) → ∀ s k x it,
      issues s c i k x it → predOk false k.tregs i b = true → b.fmt ≠ 0 →
      ∃ t, exec c s = .next t ∧ coreFrame k i.pack s t ∧
        predFrame i b.pd.toNat (lanesOf (x.passing i.guard))
          (fun l => combined b.comb
            (if b.fmt = 0x0F then f 0x0F (opnd64 x i.imm l b.a) (opnd64 x i.imm l b.b)
              else f b.fmt.toNat ((opnd x i.imm l b.a).setWidth 64) ((opnd x i.imm l b.b).setWidth 64))
            (preg x b.ps.toNat l)) x (t.dev.pack i.pack)) ∧
  (
    (∀ c i b cls f, predFloatRows c = some (i, b, cls, f) → ∀ s k x it,
      issues s c i k x it → predOk cls k.tregs i b = true → b.fmt = 0 →
      ∃ t, exec c s = .next t ∧ coreFrame k i.pack s t ∧
        predFrame i b.pd.toNat (lanesOf (x.passing i.guard))
          (fun l => combined b.comb (f (toNum (opnd x i.imm l b.a)) (toNum (opnd x i.imm l b.b))) (preg x b.ps.toNat l))
          x (t.dev.pack i.pack)) ∧
    (∀ c i b f, plogRows c = some (i, b, f) → ∀ s k x it,
      issues s c i k x it → i.imm = none →
      ∃ t, exec c s = .next t ∧ coreFrame k i.pack s t ∧
        predFrame i b.pd.toNat (lanesOf (x.passing i.guard))
          (fun l => f (preg x b.pa.toNat l) (preg x b.pb.toNat l)) x (t.dev.pack i.pack)))

namespace Sys2Proof.Spec

/-- What the issue of an instruction leaves of the pack but its registers: the pc moves past the instruction's words. -/
def movedOn (i : Issue) (x : Pack) : Pack := { x with pc := x.pc + (if i.imm.isSome then 2 else 1) }

/-- No line of a core's data cache lies on an uncorrectable half-line of device memory, so each can be written back (R125). -/
def coreSound (d : Device) (die core : Nat) : Prop :=
  ∀ y ∈ (d.core die core).lines, ∀ a, y.at_ = .dev a →
    FMap.get false d.mem.bad (2 * (a / 128)) = false ∧ FMap.get false d.mem.bad (2 * (a / 128) + 1) = false

/-- Bytes a load of block memory or of the constant pool reads at an address. -/
def innerBytes (b : MemBody) (k : KBlock) (a : Nat) : List Byte :=
  if b.space = 1 then (List.range (memBytes b.fmt.toNat)).map fun j => FMap.get 0 k.mem (a + j)
  else (k.consts.drop a).take (memBytes b.fmt.toNat)

/-- An access of block memory or of the constant pool that R183 and R195 allow. -/
def innerOk (i : Issue) (b : MemBody) (x : Pack) (len l : Nat) : Prop :=
  0 ≤ memAddr i b x l ∧ memAddr i b x l % (memBytes b.fmt.toNat : Nat) = 0 ∧
    memAddr i b x l + memBytes b.fmt.toNat ≤ len

/-- The atomics with their operations. -/
def atomRows : Instr → Option (Issue × AtomBody × AtomOp)
  | .atomAdd i b => some (i, b, .add)
  | .atomMin i b => some (i, b, .min)
  | .atomMax i b => some (i, b, .max)
  | .atomAnd i b => some (i, b, .and)
  | .atomOr i b => some (i, b, .or)
  | .atomXor i b => some (i, b, .xor)
  | .atomXchg i b => some (i, b, .xchg)
  | .atomCas i b => some (i, b, .cas)
  | _ => none

/-- What an atomic writes over an integer location (R129): 32-bit types on words, 64-bit types on double words. -/
def atomResult (op : AtomOp) (ty : AtomTy) (old x cmp : Dword) : Dword :=
  let signed := ty == .s32 || ty == .s64
  if atomBytes ty = 8 then
    match op with
    | .add => old + x
    | .min => if (if signed then x.slt old else x.ult old) then x else old
    | .max => if (if signed then old.slt x else old.ult x) then x else old
    | .and => old &&& x
    | .or => old ||| x
    | .xor => old ^^^ x
    | .xchg => x
    | .cas => if old = cmp then x else old
  else
    let o : Word := old.setWidth 32
    let y : Word := x.setWidth 32
    let r : Word := match op with
      | .add => o + y
      | .min => if (if signed then y.slt o else y.ult o) then y else o
      | .max => if (if signed then o.slt y else o.ult y) then y else o
      | .and => o &&& y
      | .or => o ||| y
      | .xor => o ^^^ y
      | .xchg => y
      | .cas => if o = cmp.setWidth 32 then y else o
    r.setWidth 64

/-- What an atomic writes (R129): FP32 add, min and max follow R28 and R146. -/
def atomWrites (op : AtomOp) (ty : AtomTy) (old x cmp : Dword) : Dword :=
  if ty = .f32 then
    let o : Word := old.setWidth 32
    let y : Word := x.setWidth 32
    match op with
    | .add => (Fp.add o y).setWidth 64
    | .min => (Fp.min o y).setWidth 64
    | .max => (Fp.max o y).setWidth 64
    | _ => atomResult op ty old x cmp
  else atomResult op ty old x cmp

/-- The value a location holds after the first `n` steps of a list. -/
def atomAfter (op : AtomOp) (ty : AtomTy) (v : Dword) (ps : List (Dword × Dword)) (n : Nat) : Dword :=
  (ps.take n).foldl (fun v e => atomWrites op ty v e.1 e.2) v

/-- A pack on the pending path of its top entry. -/
def otherPath (x : Pack) (f : Frame) (fs : List Frame) : Pack :=
  { x with pc := f.pc, mask := f.pend &&& x.live, stack := { f with pend := 0 } :: fs }

end Sys2Proof.Spec

/-- ST to block memory writes the bytes of the highest lane at each address, and no other byte of any memory. (09_collie_cores_and_packs (R168), 10_jeneo_kernel_form (R195)) -/
def Obligations.StoresToBlockMemory : Prop :=
  ∀ i b ev s k x it, issues s (.memSt i b ev) i k x it → memOk false k.tregs i b = true → b.space = 1 →
    (∀ l ∈ x.lanes (memFields false i b) i.guard, innerOk i b x k.memLen l) →
    ∃ t k1, exec (.memSt i b ev) s = .next t ∧ outerFrame k s t ∧
      t.dev.pack i.pack = movedOn i x ∧ (∀ q, q ≠ i.pack → t.dev.pack q = s.dev.pack q) ∧
      t.dev.block (i.pack / 16) = some k1 ∧ (∀ q, q ≠ i.pack / 16 → t.dev.block q = s.dev.block q) ∧
      k1 = { k with mem := k1.mem } ∧
      ∀ a : Nat, FMap.get 0 k1.mem a =
        match ((x.lanes (memFields false i b) i.guard).filter fun l =>
            decide (memAddr i b x l ≤ (a : Int) ∧ (a : Int) < memAddr i b x l + memBytes b.fmt.toNat)).getLast? with
        | some l => (storeBytes i b x l).getD (a - (memAddr i b x l).toNat) 0
        | none => FMap.get 0 k.mem a

/-- Loads and atomics on block memory and constants give and write the bytes of the rules. (10_jeneo_kernel_form (R195), 10_jeneo_kernel_form (R197), 09_collie_cores_and_packs (R161), 09_collie_cores_and_packs (R176), 07_afnex_memory_and_stash (R129)) -/
def Obligations.LoadsAndAtomicsOnBlockMemory : Prop :=
  (
    ∀ i b ev s k x it, issues s (.memLd i b ev) i k x it → memOk true k.tregs i b = true →
      b.space = 1 ∨ b.space = 2 → k.tregs ≤ 128 →
      (∀ l ∈ x.lanes (memFields true i b) i.guard, innerOk i b x (if b.space = 1 then k.memLen else k.consts.length) l) →
      ∃ t, exec (.memLd i b ev) s = .next t ∧ coreFrame k i.pack s t ∧
        packFrame i b.data (memRegs b.fmt.toNat) (x.lanes (memFields true i b) i.guard) x (t.dev.pack i.pack) ∧
        ∀ l ∈ x.lanes (memFields true i b) i.guard, ∀ j, j < memRegs b.fmt.toNat → b.data ≠ 0xC1#8 →
          opnd (t.dev.pack i.pack) none l (b.data + BitVec.ofNat 8 j) =
            (loadWords b.fmt.toNat (innerBytes b k (memAddr i b x l).toNat)).getD j 0) ∧
  (
    ∀ c i b op, atomRows c = some (i, b, op) → ∀ s k x it ty a, issues s c i k x it →
      atomOk op k.tregs i b = true → atomTyOf op b.fmt.toNat = some ty → b.space = 1 →
      let ls := x.lanes (atomFields op b) i.guard
      let n := if atomBytes ty = 8 then 2 else 1
      let ps := ls.map fun l => (x.read i.imm l b.opnd n, x.read i.imm l b.cmp n)
      let old : Dword := BitVec.ofNat 64 (leNat ((List.range (atomBytes ty)).map fun j => FMap.get 0 k.mem (a + j)))
      ls ≠ [] → (∀ l ∈ ls, (opnd x i.imm l b.addr).toNat = a) → a % atomBytes ty = 0 → a + atomBytes ty ≤ k.memLen →
      ∃ t k1, exec c s = .next t ∧ t.dev.mem = s.dev.mem ∧ t.plat = s.plat ∧ t.pending = s.pending ∧
        packFrame i b.dst n ls x (t.dev.pack i.pack) ∧ (∀ q, q ≠ i.pack → t.dev.pack q = s.dev.pack q) ∧
        t.dev.block (i.pack / 16) = some k1 ∧ k1 = { k with mem := k1.mem } ∧
        (∀ j, j < atomBytes ty → FMap.get 0 k1.mem (a + j) =
          (leBytes (atomBytes ty) (atomAfter op ty old ps ps.length).toNat).getD j 0) ∧
        (∀ m, m < a ∨ a + atomBytes ty ≤ m → FMap.get 0 k1.mem m = FMap.get 0 k.mem m) ∧
        ∀ j, j < ls.length → b.dst ≠ 0xC1#8 →
          (if n = 2 then opnd64 (t.dev.pack i.pack) none (ls.getD j 0) b.dst
            else (opnd (t.dev.pack i.pack) none (ls.getD j 0) b.dst).setWidth 64) = atomAfter op ty old ps j)

/-- BRA follows the three rows of the mask-stack table, and the 33rd push raises DIVERGENCE_OVERFLOW. (09_collie_cores_and_packs (R169), 09_collie_cores_and_packs (R171), 10_jeneo_kernel_form (R200)) -/
def Obligations.BranchRowsOfTheMaskStack : Prop :=
  ∀ i b s k x it, issues s (.bra i b) i k x it → i.imm = none →
    let tk := x.passing i.guard
    let fall := x.mask &&& ~~~tk
    let top := (x.stack.head?.map Frame.recon) == some b.recon.toNat
    (∀ y, ((tk = 0 ∧ y = { x with pc := x.pc + 1 }) ∨
        (tk ≠ 0 ∧ fall = 0 ∧ y = { x with pc := b.target.toNat }) ∨
        (tk ≠ 0 ∧ fall ≠ 0 ∧ top = true ∧ b.target.toNat = b.recon.toNat ∧ y = { x with mask := fall, pc := x.pc + 1 }) ∨
        (tk ≠ 0 ∧ fall ≠ 0 ∧ top = true ∧ b.target.toNat ≠ b.recon.toNat ∧ x.pc + 1 = b.recon.toNat ∧
          y = { x with mask := tk, pc := b.target.toNat }) ∨
        (tk ≠ 0 ∧ fall ≠ 0 ∧ ¬(top = true ∧ (b.target.toNat = b.recon.toNat ∨ x.pc + 1 = b.recon.toNat)) ∧
          x.stack.length < 32 ∧
          y = { x with stack := ⟨b.recon.toNat, x.mask, b.target.toNat, tk⟩ :: x.stack, mask := fall, pc := x.pc + 1 })) →
      ∃ t, exec (.bra i b) s = .next t ∧ coreFrame k i.pack s t ∧ t.dev.pack i.pack = y) ∧
    (tk ≠ 0 → fall ≠ 0 → ¬(top = true ∧ (b.target.toNat = b.recon.toNat ∨ x.pc + 1 = b.recon.toNat)) →
      32 ≤ x.stack.length → (s.dev.ctx k.ctx).st = .opened →
      ∃ t, exec (.bra i b) s = .next t ∧ (t.dev.ctx k.ctx).st = .killed ∧ (t.dev.ctx k.ctx).fault.code = 0x0406#16)

/-- EXIT, BAR and NOP, and the barrier instances that complete or time out. (09_collie_cores_and_packs (R170), 09_collie_cores_and_packs (R173), 10_jeneo_kernel_form (R198), 09_collie_cores_and_packs (R187), 09_collie_cores_and_packs (R172), 09_collie_cores_and_packs (R175), 18_fault_accounting (R341)) -/
def Obligations.ThreadsExitAndMeetAtBarriers : Prop :=
  (
    ∀ i s k x it, s.dev.issuer s.plat i = some (k, x, it) → i.imm = none →
      let ls := x.passing i.guard
      (s.dev.atCode (.flowNop i) = true → ∃ t, exec (.flowNop i) s = .next t ∧ coreFrame k i.pack s t ∧ t.dev.pack i.pack = { x with pc := x.pc + 1 }) ∧
      (∀ id, ls = 0 → s.dev.atCode (.bar i id) = true → ∃ t, exec (.bar i id) s = .next t ∧ coreFrame k i.pack s t ∧
        t.dev.pack i.pack = { x with pc := x.pc + 1 }) ∧
      (∀ id, ls ≠ 0 → s.dev.atCode (.bar i id) = true → ∃ t k1, exec (.bar i id) s = .next t ∧ outerFrame k s t ∧
        (t.dev.pack i.pack).mask = x.mask &&& ~~~ls ∧ (t.dev.pack i.pack).live = x.live ∧
        (t.dev.pack i.pack).regs = x.regs ∧ (t.dev.pack i.pack).uregs = x.uregs ∧ (t.dev.pack i.pack).preds = x.preds ∧
        (t.dev.pack i.pack).stack = x.stack ∧
        (t.dev.pack i.pack).parked = x.parked ++ (lanesOf ls).map (fun l => (l, id.toNat, x.pc + 1)) ∧
        t.dev.block (i.pack / 16) = some k1 ∧ k1 = { k with bars := k1.bars } ∧
        (k1.bars.any fun b => b.id == id.toNat) = true ∧ ∀ b ∈ k.bars, b ∈ k1.bars) ∧
      (s.dev.atCode (.exitThreads i) = true → x.live &&& ~~~ls ≠ 0 → ∃ t, exec (.exitThreads i) s = .next t ∧ coreFrame k i.pack s t ∧
        (t.dev.pack i.pack).live = x.live &&& ~~~ls ∧ (t.dev.pack i.pack).mask = x.mask &&& ~~~ls ∧
        (t.dev.pack i.pack).stack =
          x.stack.map (fun f => { f with mask := f.mask &&& ~~~ls, pend := f.pend &&& ~~~ls }) ∧
        (t.dev.pack i.pack).regs = x.regs) ∧
      (s.dev.atCode (.exitThreads i) = true → x.live &&& ~~~ls = 0 → (∃ j, j < k.packs ∧ j ≠ i.pack % 16 ∧ (s.dev.pack (16 * (i.pack / 16) + j)).live ≠ 0) →
        ∃ t, exec (.exitThreads i) s = .next t ∧ coreFrame k i.pack s t ∧ t.dev.pack i.pack = Pack.none) ∧
      (s.dev.atCode (.exitThreads i) = true → x.live &&& ~~~ls = 0 → (∀ j, j < k.packs → j ≠ i.pack % 16 → (s.dev.pack (16 * (i.pack / 16) + j)).live = 0) →
        ∃ t, exec (.exitThreads i) s = .next t ∧ t.plat = s.plat ∧ t.dev.mem = s.dev.mem ∧
          t.dev.block (i.pack / 16) = none ∧ (∀ q, q ≠ i.pack / 16 → t.dev.block q = s.dev.block q) ∧
          (∀ j, j < 16 → t.dev.pack (16 * (i.pack / 16) + j) = Pack.none) ∧
          (∀ e ∈ k.held, (t.dev.vecEng k.die e).holder = none) ∧
          (t.dev.counter k.ctx 79).toNat = min ((s.dev.counter k.ctx 79).toNat + 1) (2 ^ 64 - 1))) ∧
  (
    (∀ s b id k, s.dev.block b = some k → (k.bars.any fun x => x.id == id) = true → id < 16 → k.packs ≤ 16 →
      (∀ j, j < k.packs → ∀ l, l < 32 → (s.dev.pack (16 * b + j)).live.getLsbD l = true →
        ∃ pc, (l, id, pc) ∈ (s.dev.pack (16 * b + j)).parked) →
      ∃ t k1, exec (.barrierInstanceComplete b id) s = .next t ∧ t.plat = s.plat ∧ t.dev.mem = s.dev.mem ∧
        t.dev.eng = s.dev.eng ∧ t.dev.block b = some k1 ∧ k1 = { k with bars := k1.bars } ∧
        (k1.bars.any fun x => x.id == id) = false ∧ (∀ x ∈ k.bars, x.id ≠ id → x ∈ k1.bars) ∧
        (∀ j, j < k.packs → (s.dev.pack (16 * b + j)).live ≠ 0 →
          (∀ e ∈ (t.dev.pack (16 * b + j)).parked, e.2.1 ≠ id) ∧ (t.dev.pack (16 * b + j)).wait ≠ some .barrier ∧
          (t.dev.pack (16 * b + j)).live = (s.dev.pack (16 * b + j)).live ∧
          (t.dev.pack (16 * b + j)).regs = (s.dev.pack (16 * b + j)).regs) ∧
        (t.dev.counter k.ctx 81).toNat = min ((s.dev.counter k.ctx 81).toNat + 1) (2 ^ 64 - 1)) ∧
    (∀ s b id k x i l, s.dev.block b = some k → k.bars.find? (fun x => x.id == id) = some x → 2 ^ 22 ≤ x.cycles →
      s.dev.missing b id k = some (i, l) → (s.dev.ctx k.ctx).st = .opened →
      ∃ t, exec (.barrierTimeout b id) s = .next t ∧ (t.dev.ctx k.ctx).st = .killed ∧
        (t.dev.ctx k.ctx).fault.code = 0x0405#16 ∧ (t.dev.ctx k.ctx).fault.source = 2#8 ∧
        (t.dev.ctx k.ctx).fault.die = BitVec.ofNat 8 k.die ∧ (t.dev.ctx k.ctx).fault.unit = BitVec.ofNat 8 k.core))

/-- PATH_RECONVERGE, PACK_MOVE and BLOCK_PLACE do what R170, R166, R163, R164 and R191 say. (09_collie_cores_and_packs (R170), 09_collie_cores_and_packs (R166), 09_collie_cores_and_packs (R163), 09_collie_cores_and_packs (R164), 10_jeneo_kernel_form (R191)) -/
def Obligations.PacksChangePathMoveAndArePlaced : Prop :=
  (∀ s p f fs x, (s.dev.block (p / 16)).isSome = true → s.dev.pack p = x → x.live ≠ 0 → x.stack = f :: fs → x.pc = f.recon →
    (f.pend &&& x.live ≠ 0 → ∃ t, exec (.pathReconverge p) s = .next t ∧
      (x.parked = [] → t = { s with dev := s.dev.setPack p (otherPath x f fs) }) ∧
      (∃ sl w st, t.dev.pack p = { otherPath x f fs with slot := sl, wait := w, stamp := st }) ∧
      t.plat = s.plat ∧ t.dev.hub = s.dev.hub ∧ t.dev.mem = s.dev.mem ∧ t.dev.eng = s.dev.eng ∧
      ∀ q, q ≠ p → t.dev.pack q = s.dev.pack q) ∧
    (f.pend &&& x.live = 0 → x.parked = [] → ∃ t, exec (.pathReconverge p) s = .next t ∧
      (f.mask &&& x.live ≠ 0 →
        t = { s with dev := s.dev.setPack p { x with pc := f.recon, mask := f.mask &&& x.live, stack := fs } }) ∧
      (t.dev.pack p).mask = f.mask &&& x.live ∧ (t.dev.pack p).stack = fs ∧ (t.dev.pack p).pc = f.recon ∧
      (t.dev.pack p).live = x.live ∧ (t.dev.pack p).regs = x.regs ∧ ∀ q, q ≠ p → t.dev.pack q = s.dev.pack q)) ∧
  (∀ s die core e p k, s.dev.freeSlot die core = some e → s.dev.readyPack die core = some p →
    s.dev.block (p / 16) = some k → ∃ t, exec (.packMove die core Report.zero) s = .next t ∧
      (t.dev.pack p).slot = some e ∧ (t.dev.pack p).wait = none ∧ (t.dev.pack p).regs = (s.dev.pack p).regs ∧
      (t.dev.pack p).pc = (s.dev.pack p).pc ∧ (∀ q, q ≠ p → t.dev.pack q = s.dev.pack q) ∧ t.dev.mem = s.dev.mem ∧
      t.dev.eng = s.dev.eng ∧ (t.dev.counter k.ctx 80).toNat = min ((s.dev.counter k.ctx 80).toNat + 1) (2 ^ 64 - 1)) ∧
  (∀ s c q it y die core, s.dev.item c q = some it → it.typ = 3 → it.phase = .running → it.blocks < field it.desc 0x20 4 →
    s.dev.xlatOf it = some y → s.dev.pickCore it y = some (die, core) →
    (∀ e ∈ s.dev.collie.blocks, e.1 < s.dev.collie.nextBlk) → y.packs ≤ 16 →
    ∃ t k, exec (.blockPlace c q) s = .next t ∧ t.dev.block s.dev.collie.nextBlk = some k ∧ k.die = die ∧ k.core = core ∧
      k.ctx = it.ctx ∧ k.seq = it.seq ∧ k.idx = it.blocks ∧ k.packs = y.packs ∧ k.memLen = y.blkmem ∧ k.mem = [] ∧
      k.consts = y.consts ∧ k.held = [] ∧ k.tokens = [] ∧
      ∀ j, j < y.packs →
        let x := t.dev.pack (16 * s.dev.collie.nextBlk + j)
        x.live = 0xFFFFFFFF#32 ∧ x.mask = 0xFFFFFFFF#32 ∧ x.pc = y.entry ∧ x.stack = [] ∧ x.slot = none ∧ x.wait = none ∧
        x.parked = [] ∧ (∀ l r, r < 128 → treg x l r = 0) ∧ (∀ p l, preg x p l = false) ∧
        ∀ r, r < 64 → ureg x r = if r < 32 then BitVec.ofNat 32 (field it.oprec (4 * r) 4) else 0)

/-- A fence of device or system scope writes the data cache back, and an acquire empties it. (11_memory_ordering (R211), 11_memory_ordering (R213), 11_memory_ordering (R224)) -/
def Obligations.FencesWriteBackAndInvalidate : Prop :=
  ∀ i b w s k x it, issues s (.fence i b w) i k x it → b.kind ≠ 3 → i.imm = none → i.guard = none →
    (b.scope.toNat ≤ 1 → ∃ t, exec (.fence i b w) s = .next t ∧ coreFrame k i.pack s t ∧ t.dev.pack i.pack = movedOn i x) ∧
    (2 ≤ b.scope.toNat → coreSound s.dev k.die k.core → it.phase ≠ .done →
      (b.scope = 3 → b.kind ≠ 0 → ∀ o ∈ s.dev.ports.out, o.write = true →
        (∀ l, o.use ≠ .packStore i.pack l) ∧ ∀ ls dst f, o.use ≠ .atom i.pack ls dst f) →
      ∃ t, exec (.fence i b w) s = .next t ∧ t.plat = s.plat ∧
        (t.dev.counter k.ctx (if b.scope = 3 then 88 else 87)).toNat =
          min ((s.dev.counter k.ctx (if b.scope = 3 then 88 else 87)).toNat + 1) (2 ^ 64 - 1) ∧
        (t.dev.counter k.ctx 90).toNat = min ((s.dev.counter k.ctx 90).toNat + w) (2 ^ 64 - 1) ∧
        (b.kind = 1 → ∀ y ∈ (t.dev.core k.die k.core).lines, y.dirty.any id = false) ∧
        (b.kind ≠ 1 → (t.dev.core k.die k.core).lines = []) ∧
        (t.dev.pack i.pack).slot = none ∧ (t.dev.pack i.pack).wait = none ∧ (t.dev.pack i.pack).regs = x.regs ∧
        (t.dev.pack i.pack).pc = x.pc + 1 ∧ (∀ q, q ≠ i.pack → t.dev.pack q = s.dev.pack q) ∧
        ∀ die core, ¬(die = k.die ∧ core = k.core) → core < 16 → k.core < 16 →
          ((t.dev.core die core).lines.map fun y => { y with pref := none }) =
            ((s.dev.core die core).lines.map fun y => { y with pref := none }))

/-- VACQ, VREL, VSYNC, ENG.WAIT and MOVSR have the effects of R198, R181 and R199. (10_jeneo_kernel_form (R198), 10_jeneo_kernel_form (R199), 09_collie_cores_and_packs (R181)) -/
def Obligations.EngineOwnershipAndTokens : Prop :=
  (∀ i b s k x it, s.dev.issuer s.plat i = some (k, x, it) → engOwnOk i b = true →
    (s.dev.atCode (.vacq i b) = true → b.k.toNat < 8 → k.held.contains b.k.toNat = false → s.dev.vacqFree k b.k.toNat = true →
      ∃ t k1, exec (.vacq i b) s = .next t ∧ (t.dev.vecEng k.die b.k.toNat).holder = some (i.pack / 16) ∧
        (t.dev.vecEng k.die b.k.toNat).regs = [] ∧ (t.dev.vecEng k.die b.k.toNat).masks = [] ∧
        t.dev.block (i.pack / 16) = some k1 ∧ k1 = { k with held := k.held ++ [b.k.toNat] } ∧ t.dev.mem = s.dev.mem ∧
        t.dev.pack i.pack = movedOn i x ∧
        ∀ die e, e < 8 → ¬(die = k.die ∧ e = b.k.toNat) → t.dev.vecEng die e = s.dev.vecEng die e) ∧
    (s.dev.atCode (.vrel i b) = true → b.k.toNat < 8 → k.held.contains b.k.toNat = true →
      (∃ t k1, exec (.vrel i b) s = .next t ∧ (t.dev.vecEng k.die b.k.toNat).holder = none ∧
        t.dev.block (i.pack / 16) = some k1 ∧ k1.held = k.held.filter (fun e => e != b.k.toNat) ∧ t.dev.mem = s.dev.mem ∧
        t.dev.pack i.pack = movedOn i x ∧
        ∀ die e, e < 8 → ¬(die = k.die ∧ e = b.k.toNat) → t.dev.vecEng die e = s.dev.vecEng die e)) ∧
    (s.dev.atCode (.vrel i b) = true → b.k.toNat < 8 → k.held.contains b.k.toNat = false →
      ∃ t, exec (.vrel i b) s = .next t ∧ coreFrame k i.pack s t ∧ t.dev.pack i.pack = movedOn i x) ∧
    (s.dev.atCode (.vsync i b) = true → b.k.toNat < 8 →
      let v := s.dev.vecEng k.die b.k.toNat
      let idle := ¬(v.holder = some (i.pack / 16) ∧ v.stream = true) ∧
        ∀ o ∈ s.dev.ports.out, o.ctx = k.ctx → o.seq = k.seq → o.write = true → o.use ≠ .store
      (idle → ∃ t, exec (.vsync i b) s = .next t ∧ coreFrame k i.pack s t ∧ t.dev.pack i.pack = movedOn i x) ∧
      (¬idle → ∃ t, exec (.vsync i b) s = .next t ∧ (t.dev.pack i.pack).wait = some (.vsync b.k.toNat) ∧
        (t.dev.pack i.pack).slot = none ∧ (t.dev.pack i.pack).pc = x.pc ∧ (t.dev.pack i.pack).regs = x.regs ∧
        t.dev.hub = s.dev.hub))) ∧
  (∀ i b s k x it y st, issues s (.engWait i b) i k x it → engWaitOk i b = true →
    k.tokens.find? (fun y => y.tok == (opnd x none 0 b.src).toNat) = some y → y.status = some st → coreSound s.dev k.die k.core →
    ∃ t, exec (.engWait i b) s = .next t ∧ packFrame i b.result 1 [0] x (t.dev.pack i.pack) ∧
      (b.result ≠ 0xC1#8 → opnd (t.dev.pack i.pack) none 0 b.result = BitVec.ofNat 32 st.code) ∧
      (t.dev.core k.die k.core).lines = [] ∧ ∀ q, q ≠ i.pack → t.dev.pack q = s.dev.pack q) ∧
  (∀ i b s k x it, issues s (.movsr i b) i k x it → b.sr.toNat ≤ 0x0D → (specFields b).ok k.tregs i = true →
    ∃ t, exec (.movsr i b) s = .next t ∧ coreFrame k i.pack s t ∧
      packFrame i b.dst 1 (x.lanes (specFields b) i.guard) x (t.dev.pack i.pack) ∧
      ∀ l ∈ x.lanes (specFields b) i.guard, ∀ v, specValue s.dev k i.pack l (specFields b).uniform b = some v →
        b.dst ≠ 0xC1#8 → opnd (t.dev.pack i.pack) none l b.dst = BitVec.ofNat 32 v)

namespace Sys2Proof.Spec

/-! ### Power, reset and clocks (R357 to R390) -/

/-- Outside the always-on domain a reset leaves every register at its Reset value and every memory of the part empty; the bypass map of
the row engines stands, host memory is not the part's, and key serials are never given twice (R334, R385, R386). -/
def resetDevice (d e : Device) : Prop :=
  e.hub = Hub.reset ∧ e.eng.slices = [] ∧ e.eng.dies = [] ∧ e.eng.ves = [] ∧ e.collie = Device.reset.collie ∧
  { e.mem with blks := [] } = { Mem.reset with nextKey := d.mem.nextKey, hostMem := d.mem.hostMem } ∧ e.ups = Device.reset.ups ∧ e.reel.groups = [] ∧ e.reel.held = [] ∧
  e.ports.port = [] ∧ e.ports.out = [] ∧
  (FMap.wf RowEng.reset d.eng.res → ∀ die k, k < 8 → e.re die k = { RowEng.reset with bad := (d.re die k).bad })

/-- The device is as before but for the management log. -/
def logOnly (d e : Device) : Prop := { e with log := d.log } = d

/-- A warm reset has begun: the wipe of DRAM and SRAM runs, links and dies are down, debug mode and the button's window are
shut, the always-on domain keeps the rest (R385 to R387, R389). -/
def warmStarted (s t : State) : Prop :=
  t.pending = s.pending ∧ t.plat.pow.stage = .wipe ∧ t.plat.pow.cold = false ∧ t.plat.pow.dramWiping = true ∧
  t.plat.pow.sramWiping = true ∧ t.plat.pow.testing = false ∧ t.plat.pow.linkUp = false ∧ t.plat.pow.asleep = false ∧
  t.plat.pow.dieLevel = [] ∧ t.plat.pow.moduleCap = s.plat.pow.moduleCap ∧ t.plat.pow.time = s.plat.pow.time ∧
  t.plat.mas.debugMode = false ∧ t.plat.mas.button = false ∧ t.plat.mas.jumper = s.plat.mas.jumper ∧
  t.plat.mas.sessions = s.plat.mas.sessions ∧ t.plat.mas.queue = s.plat.mas.queue ∧ resetDevice s.dev t.dev ∧
  t.dev.ports.node = s.plat.mas.node ∧ t.dev.ports.topo = s.plat.mas.topo ∧ t.dev.reel.sysCfg = s.plat.mas.sysCfg ∧
  ∀ i, i < 20 → (t.dev.memBlk i).wiping = true

/-- A cold reset has begun at its first stage, with the set points of Sheepdog and the sessions of Mastiff gone. -/
def coldStarted (s t : State) : Prop :=
  t.pending = s.pending ∧ t.plat.fuses = s.plat.fuses ∧ t.plat.pow.stage = .boot ∧ t.plat.pow.cold = true ∧
  t.plat.pow.linkUp = false ∧ t.plat.pow.dieLevel = [] ∧ t.plat.pow.moduleCap = 10400 ∧ t.plat.pow.emergency = false ∧
  t.plat.mas.sessions = [] ∧ t.plat.mas.queue = [] ∧ t.plat.mas.debugMode = false ∧ t.plat.mas.button = false ∧
  resetDevice s.dev t.dev

/-- The junction readings and the inlet after a sample. -/
def sampled (s : State) (temps : List (Nat × Nat)) (inlet : Option Nat) : Power := s.plat.pow.sampled? temps inlet

/-- How many causes cut a die's grant in a sample: its junction at 100 °C or more, and for a lane die an inlet above 45 °C. -/
def cutCauses (p : Power) (die : Nat) : Nat :=
  (if 100 ≤ FMap.get 0 p.dieTemp die then 1 else 0) + (if 450 < p.inlet ∧ die < 40 then 1 else 0)

/-- The power levels and gates, and nothing else of Sheepdog, may differ. -/
def gatesOnly (s t : State) : Prop :=
  { t.plat.pow with gated := s.plat.pow.gated, dieLevel := s.plat.pow.dieLevel } = s.plat.pow ∧
  t.plat.fuses = s.plat.fuses ∧ t.plat.mas = s.plat.mas ∧ t.pending = s.pending

/-- The slices that hold dies, with their dies. -/
def slicesOf (d : Device) : List (Nat × List Nat) :=
  ((List.range 16).filter fun i => (d.slice i).exists?).map fun i => (i, (d.slice i).dieList)

/-- A die's demand in mW under the ceiling of 240 W. -/
def demandOf (demands : List (Nat × Nat)) (die : Nat) : Nat := min (FMap.get 0 (tableOf demands) die) 240000

end Sys2Proof.Spec

/-- POWER_ON, POWER_GOOD, INPUT_LOSS and the two input faults start and stop the part as R369 says. (20_power_clocks_reset (R369), 20_power_clocks_reset (R386), 19_mastiff_presence_lifecycle (R364)) -/
def Obligations.InputPowerStartsAndStopsThePart : Prop :=
  (∀ s mv o, s.plat.pow.alwaysOn = false → 40000 ≤ mv → ∃ t, exec (.powerOn mv o) s = .next t ∧
    t.plat.pow = { s.plat.pow with alwaysOn := true, inputMv := mv, stage := .waitGood, time := 0 } ∧
    t.plat.mas = s.plat.mas ∧ logOnly s.dev t.dev ∧ t.plat.fuses.sealBroken = (s.plat.fuses.sealBroken || o) ∧
    (s.plat.fuses.sealBroken = false → o = true → t.plat.fuses.debugLocked = true) ∧
    (o = false → t.plat.fuses = s.plat.fuses)) ∧
  (∀ s mv j b a x, s.plat.pow.stage = .waitGood → 57000 ≤ mv → mv ≤ 72000 →
    ∃ t, exec (.powerGood mv j b a x) s = .next t ∧ coldStarted s t ∧ t.plat.pow.inputMv = mv ∧ t.plat.pow.romWait = b ∧
      t.plat.pow.twoByEight = x ∧ t.plat.pow.sampled = true ∧ t.plat.mas.addr = a ∧
      t.plat.mas.jumper = (s.plat.mas.jumper || (j && !s.plat.pow.sampled))) ∧
  (∀ s, s.plat.pow.alwaysOn = true → ∃ t, exec .inputLoss s = .next t ∧ t.plat.pow.alwaysOn = false ∧ t.plat.pow.stage = .off ∧
    t.plat.fuses = { s.plat.fuses with life := s.plat.mas.lifePending.getD s.plat.fuses.life } ∧ t.pending = s.pending ∧
    t.plat.mas.sessions = [] ∧ t.dev.hub = Hub.reset ∧
    t.dev.mem = { Mem.reset with nextKey := s.dev.mem.nextKey, hostMem := s.dev.mem.hostMem } ∧ t.dev.log = [] ∧
    t.dev.collie = Device.reset.collie ∧ t.dev.eng.slices = []) ∧
  (∀ s c mv, s.plat.pow.good = true →
    (c = .inputUndervoltageFault mv ∧ 40000 ≤ mv ∧ mv < 55000 ∨ c = .inputOvervoltageFault mv ∧ 72000 < mv) →
    ∃ t, exec c s = .next t ∧ t.plat.pow.stage = .waitGood ∧ t.plat.pow.pfaultSeen = true ∧ t.plat.pow.faultLed = true ∧
      t.plat.pow.inputMv = mv ∧ t.plat.pow.linkUp = false ∧ t.plat.pow.dieLevel = [] ∧ t.plat.fuses = s.plat.fuses ∧
      t.plat.mas.sessions = s.plat.mas.sessions ∧ t.plat.mas.debugMode = false ∧ t.pending = s.pending ∧
      resetDevice s.dev t.dev ∧ t.dev.log = s.dev.log ∧ t.dev.sent = .hostLinkDrop :: s.dev.sent)

/-- The stages of a reset follow R388: image check, firmware, stacks, wipes and self-test, link, ready. (20_power_clocks_reset (R388), 19_mastiff_presence_lifecycle (R357), 19_mastiff_presence_lifecycle (R359), 03_row_engines (R52), 20_power_clocks_reset (R387)) -/
def Obligations.BringUpPassesItsStages : Prop :=
  (∀ s img, s.plat.pow.stage = .boot → s.plat.pow.romWait = false →
    ∃ t, exec (.bootImageCheckDone img) s = .next t ∧ t.pending = s.pending ∧ logOnly s.dev t.dev ∧
      t.plat.mas.flash = s.plat.mas.flash ∧
      if s.plat.mas.flash.isSome = true ∧ s.plat.mas.flash ≠ some img then t = s
      else if s.plat.mas.flash = some img ∧ img.sigOk = true ∧ s.plat.fuses.releaseKey = some img.signer ∧
          img.len ≤ 24 * 2 ^ 20 ∧ s.plat.fuses.minSvn ≤ img.svn ∧ img.svn ≤ 31
      then t.plat.pow = { s.plat.pow with stage := .firmware } ∧ t.plat.mas.fwSvn = img.svn ∧
        t.plat.mas.fwPending = none ∧ t.plat.fuses.minSvn = img.svn
      else t.plat.pow = { s.plat.pow with stage := .recovery, romWait := false } ∧ t.plat.fuses = s.plat.fuses) ∧
  (∀ s, exec .ppBtnNRelease s = .next { s with plat := { s.plat with pow := { s.plat.pow with romWait := false } } }) ∧
  (∀ s, s.plat.pow.stage = .firmware → exec .firmwareStartDone s = .next
    { s with
      plat := { s.plat with pow := { s.plat.pow with stage := .stackInit } }
      dev := { s.dev with
        ports := { s.dev.ports with node := s.plat.mas.node, topo := s.plat.mas.topo }
        reel := { s.dev.reel with sysCfg := s.plat.mas.sysCfg } } }) ∧
  (∀ s, s.plat.pow.stage = .stackInit → ∃ t, exec .stackTrainingDone s = .next t ∧
    t.plat = { s.plat with pow :=
      { s.plat.pow with stage := .wipe, dramWiping := true, sramWiping := true, testing := true } } ∧
    ∀ i, i < 20 → t.dev.memBlk i = { s.dev.memBlk i with wiping := true }) ∧
  (∀ s bad, s.plat.pow.stage = .wipe → s.plat.pow.testing = true → ∃ t, exec (.laneSelfTestDone bad) s = .next t ∧
    t.plat.pow.testing = false ∧ t.plat.pow.dieLevel = [] ∧
    t.plat.pow.stage = (if s.plat.pow.dramWiping || s.plat.pow.sramWiping then .wipe else .link) ∧
    ∀ die k, die < 40 → k < 8 → t.dev.re die k = { s.dev.re die k with
      bad := FMap.get 0 s.plat.fuses.fusedBad (8 * die + k) |||
        ((bad.find? fun e => e.1 == 8 * die + k).map Prod.snd).getD 0 }) ∧
  (∀ s, s.plat.pow.dramWiping = true → s.plat.pow.refHold = false → ∃ t, exec .dramWipeDone s = .next t ∧
    t.plat.pow.dramWiping = false ∧ (∀ i, i < 20 → (t.dev.memBlk i).wiping = false) ∧
    t.plat.pow.stage =
      (if s.plat.pow.stage = .wipe ∧ s.plat.pow.sramWiping = false ∧ s.plat.pow.testing = false then .link
        else s.plat.pow.stage)) ∧
  (∀ s, s.plat.pow.sramWiping = true → s.plat.pow.refHold = false → ∃ t, exec .sramWipeDone s = .next t ∧
    t.plat.pow.sramWiping = false ∧ t.dev.hub = s.dev.hub ∧
    t.plat.pow.stage =
      (if s.plat.pow.stage = .wipe ∧ s.plat.pow.dramWiping = false ∧ s.plat.pow.testing = false then .link
        else s.plat.pow.stage)) ∧
  (∀ s, s.plat.pow.stage = .link → s.plat.pow.perst = false → s.plat.pow.refHold = false → tapHolds s.plat.pow.tap = false →
    s.plat.fuses.life ≠ .decommissioned → ∃ t, exec .hostLinkTrained s = .next t ∧ t.plat.pow.stage = .ready ∧
      t.plat.pow.linkUp = true ∧ t.plat.pow.linkBUp = true ∧ { t.dev with log := s.dev.log, sent := s.dev.sent } = s.dev ∧
      (s.plat.mas.running = none → t.dev.sent = s.dev.sent) ∧ t.plat.mas.running = none ∧
      t.plat.fuses.life = s.plat.mas.lifePending.getD s.plat.fuses.life ∧ t.plat.mas.lifePending = none ∧
      t.plat.mas.debugMode = (s.plat.mas.debugDue && !s.plat.pow.cold) ∧ t.plat.mas.debugDue = false ∧ t.plat.mas.fwPending = none)

/-- A host reset, a lost reference and a pin-holding TAP instruction start a warm reset, and hold it while they last. (20_power_clocks_reset (R385), 20_power_clocks_reset (R386), 20_power_clocks_reset (R377), 22_module_hardware (R416), 13_rings_doorbells_completions (R245)) -/
def Obligations.WarmResetsBeginAndAreHeld : Prop :=
  (∀ s, s.plat.pow.stage = .ready →
    (∃ t, exec .hostPerstAssert s = .next t ∧ warmStarted s t ∧ t.plat.fuses = s.plat.fuses ∧ t.plat.pow.perst = true) ∧
    (∃ t, exec .cxlHotReset s = .next t ∧ warmStarted s t ∧ t.plat.fuses = s.plat.fuses) ∧
    (s.plat.pow.alwaysOn = true → ∃ t, exec .refclkLost s = .next t ∧ warmStarted s t ∧ t.plat.fuses = s.plat.fuses ∧
      t.plat.pow.refHold = true ∧ t.plat.pow.refAbsent = true ∧ t.plat.pow.refclkLost = true) ∧
    (s.plat.pow.alwaysOn = true → ∀ i, i = .extest ∨ i = .clamp ∨ i = .highz →
      ∃ t, exec (.tapInstructionLoad i) s = .next t ∧ warmStarted s t ∧ t.plat.pow.tap = i)) ∧
  (∀ s i, s.plat.pow.alwaysOn = true → tapHolds i = false → exec (.tapInstructionLoad i) s = .next
    { s with plat := { s.plat with pow := { s.plat.pow with
      tap := if i = .debug ∧ s.plat.mas.debugMode = false then .bypass else i } } }) ∧
  (∀ s, exec .hostPerstDeassert s = .next { s with plat := { s.plat with pow := { s.plat.pow with perst := false } } }) ∧
  (∀ s, exec .refclkStable s = .next
    { s with plat := { s.plat with pow := { s.plat.pow with refAbsent := false, refHold := false } } }) ∧
  (∀ s, exec .tapTrst s = .next { s with plat := { s.plat with pow := { s.plat.pow with tap := .bypass } } }) ∧
  (∀ s, exec .linkBDown s = .next { s with plat := { s.plat with pow := { s.plat.pow with
    linkBUp := s.plat.pow.linkBUp && !s.plat.pow.twoByEight } } }) ∧
  (∀ s, exec .linkBRetrain s = .next { s with plat := { s.plat with pow := { s.plat.pow with
    linkBUp := s.plat.pow.linkBUp || (s.plat.pow.twoByEight && s.plat.pow.linkUp) } } }) ∧
  (∀ s, exec .configRead s = .next
    { s with dev := { s.dev with sent := .config (s.plat.pow.stage == .ready) :: s.dev.sent } })

/-- The seal and presence window, and the thermal emergency and trip. (19_mastiff_presence_lifecycle (R361), 19_mastiff_presence_lifecycle (R364), 19_mastiff_presence_lifecycle (R368), 20_power_clocks_reset (R382), 20_power_clocks_reset (R383)) -/
def Obligations.SealWindowAndThermalEvents : Prop :=
  (
    (∀ s, s.plat.pow.alwaysOn = true → s.plat.fuses.sealBroken = false → s.plat.pow.stage = .ready →
      ∃ t, exec (.sealCheck true) s = .next t ∧ warmStarted s t ∧ t.plat.fuses.sealBroken = true ∧
        t.plat.fuses.debugLocked = true ∧ t.plat.fuses.life = s.plat.fuses.life ∧
        t.plat.fuses.permLog = if s.plat.fuses.permLog.length < 64
          then s.plat.fuses.permLog ++ [⟨s.plat.pow.time, 5, 3, 0, 0, .none⟩] else s.plat.fuses.permLog) ∧
    (∀ s, s.plat.pow.alwaysOn = true → s.plat.mas.button = false → ¬(s.plat.pow.stage = .boot ∧ s.plat.pow.romWait = true) →
      exec .presenceButtonHold s = .next { s with
        plat := { s.plat with mas := { s.plat.mas with button := true } }
        dev := { s.dev with log := (⟨s.plat.pow.time, 3, 3, 0, 1, .none⟩ :: s.dev.log).take 4096 } }) ∧
    (∀ s, s.plat.pow.alwaysOn = true → s.plat.pow.stage = .boot → s.plat.pow.romWait = true →
      ∃ t, exec .presenceButtonHold s = .next t ∧ t.plat.pow.stage = .recovery ∧ t.plat.mas.button = true ∧
        t.plat.fuses = s.plat.fuses ∧ logOnly s.dev t.dev) ∧
    (∀ s, s.plat.mas.button = true → exec .presenceWindowExpiry s = .next { s with
      plat := { s.plat with mas := { s.plat.mas with button := false } }
      dev := { s.dev with log := (⟨s.plat.pow.time, 3, 3, 0, 0, .none⟩ :: s.dev.log).take 4096 } })) ∧
  (
    (∀ s temps inlet, s.plat.pow.good = true → s.plat.pow.stage ≠ .tripHold →
      (∃ e ∈ (sampled s temps inlet).dieTemp, 105 ≤ e.2) → ∃ t, exec (.thermalSample temps inlet) s = .next t ∧
        t.plat.pow.stage = .tripHold ∧ t.plat.pow.tripSeen = true ∧ t.plat.pow.faultLed = true ∧ t.plat.pow.coolMs = 0 ∧
        t.plat.pow.dieLevel = [] ∧ t.plat.pow.linkUp = false ∧ t.plat.fuses = s.plat.fuses ∧ resetDevice s.dev t.dev ∧
        t.dev.sent = .hostLinkDrop :: s.dev.sent) ∧
    (∀ s temps inlet, let p := sampled s temps inlet
      s.plat.pow.alwaysOn = true → s.plat.pow.stage ≠ .tripHold → (∀ e ∈ p.dieTemp, e.2 < 105) →
      ((∃ e ∈ p.dieTemp, 100 ≤ e.2) ∨ 450 < p.inlet) → ∃ t, exec (.thermalSample temps inlet) s = .next t ∧
        t.plat.pow = { p with emergency := true, coolMs := 0, dieCut := t.plat.pow.dieCut } ∧
        (∀ die, die < 64 → FMap.get 0 t.plat.pow.dieCut die =
          if cutCauses p die = 0 then FMap.get 0 p.dieCut die else min 100 (FMap.get 0 p.dieCut die + 5 * cutCauses p die)) ∧
        t.dev = { s.dev with hub := { s.dev.hub with items := s.dev.hub.items.map fun i =>
          if i.covered = true ∧ i.phase ≠ .fetched then { i with unmet := i.unmet ||| 32 } else i } }) ∧
    (∀ s temps inlet, let p := sampled s temps inlet
      s.plat.pow.alwaysOn = true → s.plat.pow.stage ≠ .tripHold → p.emergency = true → (∀ e ∈ p.dieTemp, e.2 ≤ 95) →
      p.inlet ≤ 440 → 99 ≤ p.coolMs → exec (.thermalSample temps inlet) s = .next
        { s with plat := { s.plat with pow := { p with emergency := false, coolMs := 0 } } }) ∧
    (∀ s temps inlet, let p := sampled s temps inlet
      s.plat.pow.alwaysOn = true → s.plat.pow.stage = .tripHold → exec (.thermalSample temps inlet) s = .next
        { s with plat := { s.plat with pow := { p with
          coolMs := if (∀ e ∈ p.dieTemp, e.2 ≤ 85) ∧ p.inlet ≤ 450 then p.coolMs + 1 else 0 } } }) ∧
    (∀ s, s.plat.pow.stage = .tripHold → 1000 ≤ s.plat.pow.coolMs → ∃ t, exec .tripHoldExpiry s = .next t ∧ coldStarted s t))

/-- GRANT_EPOCH grants no slice more than its demand and all slices together no more than the lane-die share. (20_power_clocks_reset (R371), 20_power_clocks_reset (R372)) -/
def Obligations.GrantsStayWithinTheBudget : Prop :=
  ∀ s demands drawn, s.plat.pow.stage = .ready →
    let p := { s.plat.pow with dieDemand := tableOf demands }
    let xs := slicesOf s.dev
    ∃ t, exec (.grantEpoch demands drawn) s = .next t ∧ t.dev = s.dev ∧ t.plat.mas = s.plat.mas ∧
      t.plat.fuses = s.plat.fuses ∧ t.pending = s.pending ∧
      { t.plat.pow with
        dieDemand := s.plat.pow.dieDemand, sliceGrant := s.plat.pow.sliceGrant, dieGrant := s.plat.pow.dieGrant
        throttled := s.plat.pow.throttled, sliceDrawn := s.plat.pow.sliceDrawn } = s.plat.pow ∧
      (∀ x ∈ xs, 1000 * FMap.get 0 t.plat.pow.sliceGrant x.1 ≤ (x.2.map (demandOf demands)).sum ∧
        (FMap.get 0 p.sliceCap x.1 ≠ 0 → FMap.get 0 t.plat.pow.sliceGrant x.1 ≤ FMap.get 0 p.sliceCap x.1)) ∧
      (∀ die, FMap.get 0 t.plat.pow.dieGrant die ≤ demandOf demands die) ∧
      ((xs.map fun x => min (1000 * FMap.get 0 p.sliceFloor x.1) (p.sliceDemand x.1 x.2)).sum ≤ p.laneShare →
        (xs.map fun x => 1000 * FMap.get 0 t.plat.pow.sliceGrant x.1).sum ≤ 940 * p.moduleCap - 2380000) ∧
      ((xs.map fun x => p.sliceDemand x.1 x.2).sum ≤ p.laneShare →
        ∀ x ∈ xs, FMap.get 0 t.plat.pow.sliceGrant x.1 = p.sliceDemand x.1 x.2 / 1000)

/-- Sleep, unit gating, PLL off, wake and die power-up change power levels and blocks as R378 to R381 say. (20_power_clocks_reset (R378), 20_power_clocks_reset (R379), 20_power_clocks_reset (R380), 20_power_clocks_reset (R381)) -/
def Obligations.SleepGatingAndWake : Prop :=
  (∀ s, sleepReady s = true → ∃ t, exec .sleepEntry s = .next t ∧ t.plat.pow.asleep = true ∧ t.plat.pow.dieLevel = [] ∧
    (∀ h, h ∈ [1, 2, 3] → FMap.get false t.plat.pow.hubOff h = true) ∧
    (∀ i, i < 20 → t.dev.memBlk i = { s.dev.memBlk i with selfRef := true }) ∧ t.dev.hub = s.dev.hub ∧
    t.dev.mem.dram = s.dev.mem.dram) ∧
  (∀ s u, u.unit < 40 → (FMap.get 3 s.plat.pow.dieLevel u.die).toNat < 2 → s.dev.unitBusy u = false →
    ∃ t, exec (.unitClockGate u) s = .next t ∧ gatesOnly s t ∧ t.dev = s.dev ∧
      (∀ k, FMap.get false t.plat.pow.gated k = (k == 64 * u.die + u.unit || FMap.get false s.plat.pow.gated k)) ∧
      (∀ d, FMap.get 3 t.plat.pow.dieLevel d =
        if d = u.die ∧ ((List.range 40).all fun v => FMap.get false t.plat.pow.gated (64 * u.die + v)) = true then 1
        else FMap.get 3 s.plat.pow.dieLevel d)) ∧
  (∀ s die i, s.plat.pow.pllIdle ≠ 0 → FMap.get 3 s.plat.pow.dieLevel die = 1 →
    (∀ v, v < 40 → FMap.get false s.plat.pow.gated (64 * die + v) = true) → s.dev.sliceOf die = some i →
    (s.dev.slice i).reserved = false → ∃ t, exec (.diePllOff die) s = .next t ∧ gatesOnly s t ∧ t.dev = s.dev ∧
      t.plat.pow.gated = s.plat.pow.gated ∧
      ∀ d, FMap.get 3 t.plat.pow.dieLevel d = if d = die then 2 else FMap.get 3 s.plat.pow.dieLevel d) ∧
  (∀ s u, u.unit < 40 → (FMap.get 3 s.plat.pow.dieLevel u.die).toNat < 2 →
    s.dev.unitBusy u = true ∨ (u.unit < 16 ∧ ∃ i, s.dev.sliceOf u.die = some i ∧ (s.dev.slice i).steal ≠ []) →
    ∃ t, exec (.unitWakeDone (.unit u)) s = .next t ∧ gatesOnly s t ∧ t.dev = s.dev ∧
      (∀ k, FMap.get false t.plat.pow.gated k = (k != 64 * u.die + u.unit && FMap.get false s.plat.pow.gated k)) ∧
      ∀ d, FMap.get 3 t.plat.pow.dieLevel d = if d = u.die then 0 else FMap.get 3 s.plat.pow.dieLevel d) ∧
  (∀ s die i, FMap.get 3 s.plat.pow.dieLevel die = 2 → s.dev.sliceOf die = some i →
    (∃ y ∈ s.dev.hub.items, y.slice = i ∧ (y.phase = .dispatched ∨ y.phase = .running)) →
    ∃ t, exec (.unitWakeDone (.die die)) s = .next t ∧ gatesOnly s t ∧
    t.dev = s.dev ∧
    (∀ u, u < 40 → FMap.get false t.plat.pow.gated (64 * die + u) =
      (FMap.get false s.plat.pow.gated (64 * die + u) && !s.dev.unitBusy ⟨die, u⟩)) ∧
    ∀ d, FMap.get 3 t.plat.pow.dieLevel d = if d = die then
      (if ((List.range 40).any fun u => s.dev.unitBusy ⟨die, u⟩) = true then 0 else 1) else FMap.get 3 s.plat.pow.dieLevel d) ∧
  (∀ s i, i < 40 → s.plat.pow.dieOff i = true → (s.dev.sliceOf i).isSome = true →
    ∃ t, exec (.diePowerUpDone (.lane i)) s = .next t ∧ gatesOnly s t ∧ FMap.get 3 t.plat.pow.dieLevel i = 0 ∧
      (∀ k, k < 8 → t.dev.re i k = if presented (s.dev.re i k).bad = 0 then s.dev.re i k else
        { s.dev.re i k with blk := { (s.dev.re i k).blk with
          st := if (s.dev.re i k).blk.en then .starting else .off } }) ∧
      (t.dev.die i).collie.st = (if (s.dev.die i).collie.en then .starting else .off) ∧
      (t.dev.die i).ve.st = (if (s.dev.die i).ve.en then .starting else .off) ∧ t.dev.hub = s.dev.hub ∧
      t.dev.mem = s.dev.mem) ∧
  (∀ s h, h ∈ [1, 2, 3] → FMap.get false s.plat.pow.hubOff h = true → s.plat.pow.asleep = false → ∃ t, exec (.diePowerUpDone (.hub h)) s = .next t ∧
    (∀ j, FMap.get false t.plat.pow.hubOff j = if j = h then false else FMap.get false s.plat.pow.hubOff j) ∧
    ∀ p, t.dev.port p = if (p = 2 * h - 2 ∨ p = 2 * h - 1) ∧ (s.dev.port p).blk.st = .starting ∧ (s.dev.port p).link = .down
      then { s.dev.port p with link := .training } else s.dev.port p)

namespace Sys2Proof.Spec

/-! ### Management (R349 to R368) -/

/-- The machine once a management command has left Mastiff's queue. -/
def popped (s : State) : State :=
  { s with plat := { s.plat with mas := { s.plat.mas with queue := s.plat.mas.queue.tail } } }

/-- A command is answered: the answer leaves and is logged; one of the three long commands is kept for CMD_STATUS. -/
def answer (sid code : Nat) (r : MgmtCode) (data : MgmtData) (u : State) : State :=
  { u with
    plat := { u.plat with mas := { u.plat.mas with
      lastLong := if code = 0x05 ∨ code = 0x42 ∨ code = 0x44
        then some (code, r == .success, if r = .success then none else some r) else u.plat.mas.lastLong } }
    dev := { u.dev with
      sent := .mgmt sid code r data :: u.dev.sent
      log := (⟨u.plat.pow.time, 1, 1, BitVec.ofNat 8 r.num, BitVec.ofNat 32 code, u.plat.mas.certOf sid r⟩ ::
        u.dev.log).take 4096 } }

/-- The command heads the queue, no command still runs, Mastiff runs its firmware, and a command on contexts, slices, memory or links
does not wait for a reset's wipe. -/
def heads (s : State) (sid code : Nat) : Prop :=
  s.plat.mas.queue.head? = some (sid, code) ∧ s.dev.sliceBusy = false ∧ s.plat.mas.running = none ∧
    s.plat.pow.mastiffUp = true ∧ (1 ≤ code → code ≤ 0x44 → s.plat.pow.stage = .link ∨ s.plat.pow.stage = .ready)

/-- It stands in a session whose key satisfies the life-cycle state, or is the factory fixture's transition of a BLANK part (R352,
R365; log 94). -/
def authentic (s : State) (sid code : Nat) : Prop :=
  (s.plat.fuses.life = .blank ∧ code = 0x70) ∨ ∃ x, s.plat.mas.session sid = some x ∧ sessionOk s.plat.fuses x.key = true

/-- The life-cycle state takes commands of the code (R354, R365). -/
def lifeTakes (s : State) (code : Nat) : Prop :=
  (1 ≤ code → code ≤ 0x50 → s.plat.fuses.life = .owned) ∧ (s.plat.fuses.life = .provisioned → code = 0x70)

/-- The checks every command shares are passed (R353, R354, R363). -/
def granted (s : State) (sid code : Nat) (presence : Bool) : Prop :=
  heads s sid code ∧ authentic s sid code ∧ lifeTakes s code ∧ (presence = true → s.plat.mas.window = true)

/-- The answer stands at the head of what was sent, and the command has left the queue. -/
def answered (s t : State) (sid code : Nat) : Prop :=
  t.dev.sent.head? = some (.mgmt sid code .success .none) ∧ t.plat.mas.queue = s.plat.mas.queue.tail ∧
    t.pending = s.pending

/-- A command has begun: it has left the queue, and its answer waits until its slice has started or stopped, or the reset it began is
over (R353). -/
def begun (s t : State) (sid code : Nat) : Prop :=
  t.plat.mas.running = some (sid, code) ∧ t.plat.mas.queue = s.plat.mas.queue.tail ∧
    (t.dev.sent = s.dev.sent ∨ t.dev.sent = .hostLinkDrop :: s.dev.sent) ∧ t.pending = s.pending

/-- The management commands: session, code, and whether a presence window is needed (R354, R363). -/
def mgmtRows (life : Life) : Instr → Option (Nat × Nat × Bool)
  | .ctxCreate sid _ _ _ _ => some (sid, 0x01, false)
  | .ctxOpen sid _ => some (sid, 0x02, false)
  | .ctxFreeze sid _ => some (sid, 0x03, false)
  | .ctxKill sid _ => some (sid, 0x04, false)
  | .ctxDestroy sid _ => some (sid, 0x05, false)
  | .ctxSet sid _ _ => some (sid, 0x06, false)
  | .map sid _ _ => some (sid, 0x10, false)
  | .unmap sid _ _ => some (sid, 0x11, false)
  | .share sid _ _ _ _ _ _ => some (sid, 0x12, false)
  | .unshare sid _ _ => some (sid, 0x13, false)
  | .hdmBind sid _ _ _ => some (sid, 0x14, false)
  | .grant sid _ _ _ => some (sid, 0x15, false)
  | .sliceCreate sid _ _ => some (sid, 0x20, false)
  | .sliceChange sid _ _ => some (sid, 0x21, false)
  | .sliceDestroy sid _ => some (sid, 0x22, false)
  | .pwrSet sid _ _ _ => some (sid, 0x30, false)
  | .topoSet sid _ _ => some (sid, 0x40, false)
  | .reelSysSet sid _ => some (sid, 0x41, false)
  | .snapshot sid => some (sid, 0x42, false)
  | .resume sid => some (sid, 0x43, false)
  | .reelReset sid => some (sid, 0x44, false)
  | .idePolicy sid _ => some (sid, 0x50, false)
  | .logRead sid => some (sid, 0x60, false)
  | .cmdStatus sid => some (sid, 0x62, false)
  | .lcTransition sid _ _ => some (sid, 0x70, life != .blank)
  | .debugUnlock sid => some (sid, 0x71, true)
  | .ownerKeyRotate sid _ _ => some (sid, 0x72, true)
  | .presenceClose sid => some (sid, 0x73, false)
  | .warmReset sid => some (sid, 0x74, false)
  | _ => none

/-- The endpoint id that Mastiff answers at: the null one until it has one (R350). -/
def answersAt (s : State) : Nat :=
  match s.plat.mas.eid with
  | none => 0
  | some e => e.toNat

/-- Other contexts keep their entries. -/
def otherCtxs (c : Nat) (s t : State) : Prop := ∀ k, k ≠ c → t.dev.ctx k = s.dev.ctx k

/-- Of a context that was killed in `s` no item runs in `d`: one remains only until its writes to partner memory are acknowledged, and
with the last of them the stash entries are gone (R217, R277, R136). A context that reaches no partner memory has none left. -/
def noItems (s : State) (d : Device) (c : Nat) : Prop :=
  (∀ i ∈ d.hub.items, i.ctx = c → i.isWork = true ∨ (i.phase = .done ∧ i.killCode.isSome = true)) ∧
  ((∀ i ∈ d.hub.items, i.ctx ≠ c) → ∀ g ∈ d.mem.segs, g.tag.ctx ≠ c) ∧
  ((∀ va, s.dev.peerVa c va = false) → (∀ o ∈ s.dev.ports.out, o.ctx ≠ c) →
    (∀ i ∈ s.dev.hub.items, i.ctx = c → i.isWork = false) → ∀ i ∈ d.hub.items, i.ctx ≠ c)

/-- Units of device memory that a context owned keep owner and bytes. -/
def ownedKept (s t : State) : Prop :=
  ∀ u, FMap.get 0 s.dev.mem.pages u ≠ 0 → FMap.get 0 t.dev.mem.pages u = FMap.get 0 s.dev.mem.pages u ∧
    ∀ a, 65536 * u ≤ a → a < 65536 * (u + 1) → FMap.get 0 t.dev.mem.dram a = FMap.get 0 s.dev.mem.dram a

/-- A line of a core's data cache lies in one of the units of device memory. -/
def onUnits (x : CLine) (us : List Nat) : Prop := ∃ a, x.at_ = .dev a ∧ a / 65536 ∈ us

/-- The pool has units for as many translation tables as a page can need, besides the units of the page itself. -/
def tableRoom (s : State) (page : List Nat) : Prop :=
  ∃ us : List Nat, us.Nodup ∧ us.length = 3 ∧ ∀ u ∈ us, s.dev.poolFree u = true ∧ u ∉ page

/-- The fault record of a kill by management (R341). -/
def mgmtKillRec (time : Dword) : FaultRec :=
  { FaultRec.clear with
    source := 7, die := 60, unit := 0xFF, pc := 0x7FFFFF#32, time := time.setWidth 32, valid := true }

end Sys2Proof.Spec

/-- Every management command is checked for AUTH, then STATE of the part, then its own state, then PRESENCE, and a refusal changes nothing. (19_mastiff_presence_lifecycle (R352), 19_mastiff_presence_lifecycle (R353), 19_mastiff_presence_lifecycle (R354), 19_mastiff_presence_lifecycle (R363)) -/
def Obligations.ManagementCommandsAreChecked : Prop :=
  ∀ c s sid code p, mgmtRows s.plat.fuses.life c = some (sid, code, p) →
    (¬ heads s sid code → exec c s = .next s) ∧
    (heads s sid code →
      (¬ authentic s sid code → exec c s = .next (answer sid code .auth .none (popped s))) ∧
      (authentic s sid code → ¬ lifeTakes s code →
        exec c s = .next (answer sid code .state .none (popped s))) ∧
      (p = true → s.plat.mas.window = false → ∃ r, (r = .auth ∨ r = .state ∨ r = .presence) ∧
        exec c s = .next (answer sid code r .none (popped s))) ∧
      ((∃ t r data, exec c s = .next t ∧ t.dev.sent.head? = some (.mgmt sid code r data) ∧
          (r ≠ .success → t = answer sid code r data (popped s))) ∨
        ((code = 0x20 ∨ code = 0x21 ∨ code = 0x22 ∨ code = 0x70 ∨ code = 0x71 ∨ code = 0x74) ∧
          ∃ t, exec c s = .next t ∧ begun s t sid code)))

/-- The context commands make the transitions of R327, and a kill leaves no item and no stash entry of the context. (17_tenancy_and_wipe (R327), 17_tenancy_and_wipe (R326), 17_tenancy_and_wipe (R334), 18_fault_accounting (R344)) -/
def Obligations.ContextsAreCreatedOpenedAndKilled : Prop :=
  (∀ s sid c h resv seed, granted s sid 0x01 false → c < 4096 → (s.dev.ctx c).st = .free → s.dev.sliceIs false h = true →
    (∀ i, resv = some i → s.dev.sliceIs true i = true) → (∃ u, s.dev.poolFree u = true) →
    ∃ t u, exec (.ctxCreate sid c (some h) resv seed) s = .next t ∧ answered s t sid 0x01 ∧ otherCtxs c s t ∧
      s.dev.poolFree u = true ∧ (t.dev.ctx c).root = BitVec.ofNat 36 u ∧ FMap.get 0 t.dev.mem.pages u = c + 1 ∧ ownedKept s t ∧
      t.dev.ctx c = { Ctx.free with
        st := .frozen, home := h, resv := resv, key := some s.dev.mem.nextKey
        root := (t.dev.ctx c).root, seed := (t.dev.ctx c).seed } ∧
      (∀ v, seed = some v → (t.dev.ctx c).seed = v) ∧ t.dev.mem.nextKey = s.dev.mem.nextKey + 1 ∧
      (∀ n, n < 141 → t.dev.counter c n = 0) ∧ ∀ k n, n < 256 → k ≠ c → t.dev.counter k n = s.dev.counter k n) ∧
  (∀ s sid c, granted s sid 0x02 false → (s.dev.ctx c).st = .frozen → exec (.ctxOpen sid c) s =
    .next (answer sid 0x02 .success .none
      { popped s with dev := s.dev.setCtx c { s.dev.ctx c with st := .opened } })) ∧
  (∀ s sid c, granted s sid 0x03 false → (s.dev.ctx c).st = .opened → exec (.ctxFreeze sid c) s =
    .next (answer sid 0x03 .success .none
      { popped s with dev := s.dev.setCtx c { s.dev.ctx c with st := .frozen } })) ∧
  (∀ s sid c, granted s sid 0x04 false → (s.dev.ctx c).st = .opened ∨ (s.dev.ctx c).st = .frozen →
    ∃ t, exec (.ctxKill sid c) s = .next t ∧ answered s t sid 0x04 ∧ otherCtxs c s t ∧ noItems s t.dev c ∧
      t.dev.ctx c = { s.dev.ctx c with st := .killed, fault := mgmtKillRec s.plat.pow.time }) ∧
  (∀ s sid c, granted s sid 0x05 false → s.dev.sharesOut c (fun _ => true) = false →
    (s.dev.ctx c).st = .opened ∨ (s.dev.ctx c).st = .frozen ∨ (s.dev.ctx c).st = .killed →
    ∃ t, exec (.ctxDestroy sid c) s = .next t ∧ answered s t sid 0x05 ∧ otherCtxs c s t ∧
      (t.dev.ctx c).st = .teardown ∧ (t.dev.ctx c).step = 1 ∧ (t.dev.ctx c).pt = (s.dev.ctx c).pt ∧
      ((s.dev.ctx c).st ≠ .killed → noItems s t.dev c ∧ (t.dev.ctx c).fault = mgmtKillRec s.plat.pow.time)) ∧
  (∀ s sid c f, granted s sid 0x06 false → fieldOpen s.dev c f = true → fieldOk s.dev f = true →
    ∃ t, exec (.ctxSet sid c f) s = .next t ∧ answered s t sid 0x06 ∧ otherCtxs c s t ∧
      t.dev.ctx c = (s.dev.ctx c).put f ∧ t.dev.mem = s.dev.mem ∧ t.dev.hub.rings = s.dev.hub.rings)

/-- A teardown destroys the key, zeroes every granule of the context, and frees its entry and its rings. (17_tenancy_and_wipe (R336), 17_tenancy_and_wipe (R332), 21_setup_registers (R405)) -/
def Obligations.TeardownReleasesAndWipesAContext : Prop :=
  (∀ s c, (s.dev.ctx c).st = .teardown → (s.dev.ctx c).step = 1 → s.dev.window c = 0 →
    ∃ t, exec (.teardownRecordsDrained c) s = .next t ∧ t.plat = s.plat ∧ otherCtxs c s t ∧
      t.dev.ctx c = { s.dev.ctx c with key := none, grants := [], step := 2 } ∧ t.dev.mem.dram = s.dev.mem.dram ∧
      (∀ g ∈ t.dev.mem.segs, g.tag.ctx ≠ c) ∧ (∀ x ∈ t.dev.hub.xlats, x.ctx ≠ c) ∧
      (∀ w ∈ t.dev.hub.windows, w.2.map Prod.fst ≠ some c) ∧
      ∀ g, (s.dev.group g).owner.toNat = c → (t.dev.group g).en = false) ∧
  (∀ s c, (s.dev.ctx c).st = .teardown → (s.dev.ctx c).step = 2 →
    ∃ t, exec (.teardownScrubDone c) s = .next t ∧ otherCtxs c s t ∧
      t.dev.ctx c = { Ctx.free with fault := (s.dev.ctx c).fault } ∧ t.dev.ring c = Ring.reset ∧
      (∀ p, FMap.get 0 s.dev.mem.pages p = c + 1 → FMap.get 0 t.dev.mem.pages p = 0 ∧
        ∀ a, 65536 * p ≤ a → a < 65536 * (p + 1) → FMap.get 0 t.dev.mem.dram a = 0) ∧
      (∀ a, (∀ e ∈ s.dev.mem.pages, e.2 = c + 1 → ¬(65536 * e.1 ≤ a ∧ a < 65536 * (e.1 + 1))) →
        FMap.get 0 t.dev.mem.dram a = FMap.get 0 s.dev.mem.dram a) ∧
      ∀ w ∈ t.dev.ups.dir, w.owner ≠ c)

/-- MAP, UNMAP, SHARE and UNSHARE put and take leaves that the walk of R331 finds, with owners and rights as R329 and R333 say. (17_tenancy_and_wipe (R328), 17_tenancy_and_wipe (R329), 17_tenancy_and_wipe (R330), 17_tenancy_and_wipe (R331), 17_tenancy_and_wipe (R332), 17_tenancy_and_wipe (R333)) -/
def Obligations.MappingFollowsThePageTables : Prop :=
  (∀ s sid c p, granted s sid 0x10 false → c < 4096 → (s.dev.ctx c).live = true → pageOk p = true →
    (s.dev.ctx c).vacant p = true → pteLeaf (pte (s.dev.ctx c) 0 39 p.va) = false →
    pteLeaf (pte (s.dev.ctx c) 1 30 p.va) = false → (p.kind = .localMem → ∀ u ∈ pageUnits p, s.dev.poolFree u = true) → tableRoom s (pageUnits p) →
    ∃ t, exec (.map sid c [p]) s = .next t ∧ answered s t sid 0x10 ∧ otherCtxs c s t ∧ ownedKept s t ∧
      (∀ o, o < (if p.big then 2 ^ 21 else 2 ^ 16) → ∃ e sh, walk (t.dev.ctx c) (p.va + o) = some (e, sh) ∧
        leafGrants e .read = p.r ∧ leafGrants e .write = p.w ∧ leafPlace e sh (p.va + o) =
          match p.kind with
          | .localMem => .dev (65536 * p.phys + o)
          | .hostMem => .host (65536 * p.phys + o)
          | .peer => .peer p.node p.rctx (p.rva + o)) ∧
      (p.kind = .localMem → ∀ u ∈ pageUnits p, FMap.get 0 t.dev.mem.pages u = c + 1 ∧
        (FMap.get false s.dev.mem.scrubQ u = true → ∀ a, 65536 * u ≤ a → a < 65536 * (u + 1) →
          FMap.get 0 t.dev.mem.dram a = 0))) ∧
  (∀ s sid c va e sh, granted s sid 0x11 false → (s.dev.ctx c).live = true → walk (s.dev.ctx c) va = some (e, sh) →
    leafOf e c = true → s.dev.sharesOut c (fun p => (leafUnits e sh).contains p) = false →
    ∃ t, exec (.unmap sid c va) s = .next t ∧ answered s t sid 0x11 ∧ otherCtxs c s t ∧ walk (t.dev.ctx c) va = none ∧
      (∀ u, FMap.get 0 t.dev.mem.pages u = if u ∈ leafUnits e sh then 0 else FMap.get 0 s.dev.mem.pages u) ∧
      (∀ u ∈ leafUnits e sh, FMap.get false t.dev.mem.scrubQ u = true) ∧
      (∀ die k, k < 16 → ∀ x ∈ (t.dev.core die k).lines, ¬ onUnits x (leafUnits e sh)) ∧
      ((∀ die k, k < 16 → ∀ x ∈ (s.dev.core die k).lines, ¬ onUnits x (leafUnits e sh)) → t.dev.mem.dram = s.dev.mem.dram)) ∧
  (∀ s sid c va e sh, granted s sid 0x11 false → (s.dev.ctx c).live = true → walk (s.dev.ctx c) va = some (e, sh) →
    pteKind e ≠ 0 → ∃ t, exec (.unmap sid c va) s = .next t ∧ answered s t sid 0x11 ∧ otherCtxs c s t ∧
      walk (t.dev.ctx c) va = none ∧ t.dev.mem = s.dev.mem) ∧
  (∀ s sid owner va c toVa r w e sh, granted s sid 0x12 false → owner < 4096 → owner ≠ c →
    (s.dev.ctx owner).live = true → (s.dev.ctx c).live = true → walk (s.dev.ctx owner) va = some (e, sh) →
    leafOf e owner = true → (r = true → leafGrants e .read = true) → (w = true → leafGrants e .write = true) →
    let p : MapPage := ⟨toVa, sh == 21, .localMem, r, w, bitsOf e 51 16, 0, 0, 0⟩
    pageOk p = true → (s.dev.ctx c).vacant p = true → pteLeaf (pte (s.dev.ctx c) 0 39 toVa) = false →
    pteLeaf (pte (s.dev.ctx c) 1 30 toVa) = false → tableRoom s [] →
    ∃ t, exec (.share sid owner va c toVa r w) s = .next t ∧ answered s t sid 0x12 ∧ otherCtxs c s t ∧
      ownedKept s t ∧ ∀ o, o < 2 ^ sh → ∃ f, walk (t.dev.ctx c) (toVa + o) = some (f, sh) ∧
        leafPlace f sh (toVa + o) = .dev (65536 * bitsOf e 51 16 + o) ∧ bitsOf f 63 52 = owner ∧
        leafGrants f .read = r ∧ leafGrants f .write = w) ∧
  (∀ s sid c va e sh, granted s sid 0x13 false → (s.dev.ctx c).live = true → walk (s.dev.ctx c) va = some (e, sh) →
    pteKind e = 0 → leafOf e c = false → ∃ t, exec (.unshare sid c va) s = .next t ∧ answered s t sid 0x13 ∧
      otherCtxs c s t ∧ walk (t.dev.ctx c) va = none ∧ t.dev.mem = s.dev.mem)

/-- HDM_BIND, GRANT, PWR_SET, TOPO_SET, REEL_SYS_SET and IDE_POLICY write the settings they name. (13_rings_doorbells_completions (R247), 17_tenancy_and_wipe (R326), 20_power_clocks_reset (R374), 16_partner_ports (R323), 15_reel_network (R308), 17_tenancy_and_wipe (R338)) -/
def Obligations.BindingsGrantsAndPowerSettings : Prop :=
  (∀ s sid w c base, granted s sid 0x14 false → w < 64 → base < 2 ^ 52 → (∀ k, c = some k → (s.dev.ctx k).live = true) →
    exec (.hdmBind sid w c base) s = .next (answer sid 0x14 .success .none { popped s with
      dev := { s.dev with hub := { s.dev.hub with
        windows := FMap.set none s.dev.hub.windows w (c.map fun k => (k, base)) } } })) ∧
  (∀ s sid c g rev, granted s sid 0x15 false → (s.dev.ctx c).st ≠ .free → g.node < 4096 → g.ctx < 4096 →
    let others := (s.dev.ctx c).grants.filter fun y => !(y.node == g.node && y.ctx == g.ctx)
    (rev = true → others ≠ (s.dev.ctx c).grants) → (rev = false → others.length < 64) →
    exec (.grant sid c g rev) s = .next (answer sid 0x15 .success .none { popped s with
      dev := s.dev.setCtx c { s.dev.ctx c with grants := if rev then others else others ++ [g] } })) ∧
  (∀ s sid cap caps floors, granted s sid 0x30 false →
    let p := s.plat.pow
    let put := fun (t : FMap Nat) (xs : List (Nat × Nat)) => xs.foldl (fun t e => FMap.set 0 t e.1 e.2) t
    (∀ e ∈ caps ++ floors, e.1 < 16) →
    powerOk (cap.getD p.moduleCap) (put p.sliceCap caps) (put p.sliceFloor floors) = true →
    exec (.pwrSet sid cap caps floors) s = .next (answer sid 0x30 .success .none { popped s with
      plat := { (popped s).plat with pow := { p with
        moduleCap := cap.getD p.moduleCap, sliceCap := put p.sliceCap caps, sliceFloor := put p.sliceFloor floors } } })) ∧
  (∀ s sid node topo, granted s sid 0x40 false → (∀ p, p < 6 → (s.dev.port p).blk.st = .off) → node < 4096 →
    ∃ t, exec (.topoSet sid node topo) s = .next t ∧ answered s t sid 0x40 ∧ t.plat.mas.node = BitVec.ofNat 12 node ∧
      t.dev.ports.node = BitVec.ofNat 12 node ∧ t.dev.ports.topo = t.plat.mas.topo ∧ t.dev.ports.port = s.dev.ports.port ∧
      t.plat.mas.topo = topo &&& (if topo.extractLsb' 30 2 = 3 then 0x0FFF0FFF#32 else 0xCFFF0FFF#32) ∧
      t.dev.hub = s.dev.hub) ∧
  (∀ s sid cfg, granted s sid 0x41 false → ∃ t, exec (.reelSysSet sid cfg) s = .next t ∧ answered s t sid 0x41 ∧
    t.dev.reel.sysCfg = t.plat.mas.sysCfg ∧ (∀ i, i < 6 → t.plat.mas.sysCfg.getLsbD (8 + i) = cfg.getLsbD (8 + i)) ∧
    (t.plat.mas.sysCfg.toNat % 16 = if cfg.toNat % 16 ≤ 5 then cfg.toNat % 16 else 15) ∧ t.dev.hub = s.dev.hub ∧
    t.dev.reel.groups = s.dev.reel.groups) ∧
  (∀ s sid b, granted s sid 0x50 false → exec (.idePolicy sid b) s = .next (answer sid 0x50 .success .none { popped s with
    plat := { (popped s).plat with mas := { (popped s).plat.mas with idePolicy := b } } }))

/-- The slice commands start, re-form and stop a slice, and a leaving die is flushed and power-gated. (14_slices_and_service_classes (R279), 14_slices_and_service_classes (R280), 21_setup_registers (R406), 12_caches_prefetch_inflight (R226), 20_power_clocks_reset (R378)) -/
def Obligations.SlicesAreCreatedChangedAndDestroyed : Prop :=
  (∀ s sid i p, granted s sid 0x20 false → (s.dev.slice i).exists? = false → s.dev.dieTaken i p = false →
    sliceFits s i p = true → ∃ t, exec (.sliceCreate sid i p) s = .next t ∧ begun s t sid 0x20 ∧
      (t.dev.slice i).blk.st = .starting ∧ (t.dev.slice i).dies = p.dies ∧ (t.dev.slice i).bw = p.bw ∧
      (t.dev.slice i).reserved = p.reserved ∧ (t.dev.slice i).fabWeight = p.fabWeight ∧
      (t.dev.slice i).ringShare = p.ringShare ∧ (∀ j, j ≠ i → t.dev.slice j = s.dev.slice j) ∧
      FMap.get 0 t.plat.pow.sliceFloor i = p.floorW ∧ t.plat.pow.asleep = false) ∧
  (∀ s sid i p, granted s sid 0x21 false → (s.dev.slice i).exists? = true → s.dev.named i = false →
    s.dev.dieTaken i p = false → sliceFits s i p = true → (∃ d ∈ (s.dev.slice i).dies, d ∉ p.dies) →
    ∃ t, exec (.sliceChange sid i p) s = .next t ∧ begun s t sid 0x21 ∧ (t.dev.slice i).blk.st = .stopping ∧
      (t.dev.slice i).next = some p ∧ (t.dev.slice i).dies = (s.dev.slice i).dies ∧
      (∀ d ∈ (s.dev.slice i).dies, d ∉ p.dies → (t.dev.die d).flushing = true) ∧
      ∀ j, j ≠ i → t.dev.slice j = s.dev.slice j) ∧
  (∀ s sid i, granted s sid 0x22 false → (s.dev.slice i).exists? = true → s.dev.named i = false →
    ∃ t, exec (.sliceDestroy sid i) s = .next t ∧ begun s t sid 0x22 ∧ (t.dev.slice i).blk.st = .stopping ∧
      (t.dev.slice i).next = none ∧ (∀ d ∈ (s.dev.slice i).dies, (t.dev.die d).flushing = true) ∧
      (∀ j, j ≠ i → t.dev.slice j = s.dev.slice j) ∧ t.dev.mem = s.dev.mem) ∧
  (∀ s die i, s.dev.sliceOf die = some i → (s.dev.slice i).blk.st = .stopping → (s.dev.slice i).leaving.contains die = true →
    ∃ t, exec (.dieCacheFlushDone die) s = .next t ∧ FMap.get 3 t.plat.pow.dieLevel die = 3 ∧
      die ∉ (t.dev.slice i).dies ∧ (∀ x ∈ t.dev.mem.lines, x.die ≠ die) ∧ (∀ x ∈ t.dev.mem.misses, x.die ≠ die) ∧
      ((∀ x ∈ s.dev.mem.lines, x.data.length = 128) → ∀ x ∈ s.dev.mem.lines, x.die = die → x.st = .modified →
        x.host = false → (∀ y ∈ s.dev.mem.lines, y.die = die → y.st = .modified → y.host = false → y.line = x.line → y = x) →
        ∀ j, j < 128 → FMap.get 0 t.dev.mem.dram (128 * x.line + j) = x.data.getD j 0) ∧
      ((s.dev.slice i).next = none → (∀ d ∈ (s.dev.slice i).dies, d = die) → (t.dev.slice i).exists? = false ∧
        FMap.get 0 t.plat.pow.sliceFloor i = 0 ∧ FMap.get 0 t.plat.pow.sliceCap i = 0 ∧
        ∀ sid code, s.plat.mas.running = some (sid, code) → 0x20 ≤ code → code ≤ 0x22 → t.dev.sliceBusy = false →
          t.plat.mas.running = none ∧
          t.dev.sent.head? = some (.mgmt sid code .success .none)) ∧
      (∀ j, j ≠ i → t.dev.slice j = s.dev.slice j) ∧ ∀ c, t.dev.ctx c = s.dev.ctx c)

/-- SNAPSHOT freezes exactly the open contexts and RESUME opens exactly those again; REEL_RESET and WARM_RESET begin a warm reset. (15_reel_network (R306), 15_reel_network (R307), 20_power_clocks_reset (R385)) -/
def Obligations.SnapshotsFreezeAndResume : Prop :=
  (∀ s sid, granted s sid 0x42 false → s.dev.reel.snap = 0 → s.dev.reel.sysCfg.toNat % 16 = 15 →
    FMap.wf Ctx.free s.dev.hub.ctxs → ∃ t, exec (.snapshot sid) s = .next t ∧ t.dev.reel.snap = 1 ∧
      t.dev.reel.snapRoot = true ∧ t.plat.mas.lastLong = some (0x42, true, none) ∧
      t.dev.sent.head? = some (.mgmt sid 0x42 .success .none) ∧ t.dev.mem = s.dev.mem ∧
      (∀ c, t.dev.ctx c = if (s.dev.ctx c).st = .opened then { s.dev.ctx c with st := .frozen } else s.dev.ctx c) ∧
      ∀ c, c ∈ t.dev.hub.snapFrozen ↔ (s.dev.ctx c).st = .opened) ∧
  (∀ s, s.dev.reel.snapRoot = true → s.dev.reel.snap = 1 → s.dev.snapDrained = true →
    ∃ t, exec .snapshotTaken s = .next t ∧ t.dev.reel.snap = 2 ∧ t.dev.hub = s.dev.hub ∧ t.dev.mem = s.dev.mem ∧
      (∀ x, s.plat.mas.lastLong = some (0x42, true, x) → t.plat.mas.lastLong = some (0x42, false, some .success))) ∧
  (∀ s sid, granted s sid 0x43 false → s.dev.reel.snapRoot = true → s.dev.reel.snap = 2 →
    ∃ t, exec (.resume sid) s = .next t ∧ answered s t sid 0x43 ∧ t.dev.reel.snap = 0 ∧ t.dev.hub.snapFrozen = [] ∧
      ∀ c, t.dev.ctx c = if c ∈ s.dev.hub.snapFrozen ∧ (s.dev.ctx c).st = .frozen
        then { s.dev.ctx c with st := .opened } else s.dev.ctx c) ∧
  (∀ s sid, granted s sid 0x44 false → s.plat.pow.stage = .ready → ∃ t, exec (.reelReset sid) s = .next t ∧
    warmStarted (popped s) t ∧ t.plat.fuses = s.plat.fuses) ∧
  (∀ s sid, granted s sid 0x74 false → s.plat.pow.stage = .ready → ∃ t, exec (.warmReset sid) s = .next t ∧
    warmStarted (popped s) t ∧ begun s t sid 0x74 ∧ t.plat.fuses = s.plat.fuses)

/-- LC_TRANSITION, DEBUG_UNLOCK, OWNER_KEY_ROTATE and PRESENCE_CLOSE act as R360 to R367 say; LOG_READ and CMD_STATUS answer. (19_mastiff_presence_lifecycle (R365), 19_mastiff_presence_lifecycle (R367), 19_mastiff_presence_lifecycle (R360), 19_mastiff_presence_lifecycle (R363), 19_mastiff_presence_lifecycle (R368), 19_mastiff_presence_lifecycle (R353)) -/
def Obligations.LifeCycleDebugAndOwnerKey : Prop :=
  (∀ s sid dest key, let f := s.plat.fuses
    granted s sid 0x70 (f.life != .blank) → s.dev.allFree = true →
    s.plat.mas.lifePending = none →
    (f.life = .blank ∧ dest = .provisioned ∨
      f.life = .provisioned ∧ dest = .owned ∧ f.ownerUsed < 8 ∨
      f.life = .owned ∧ dest = .service ∧ f.serviceUsed < 16 ∨
      f.life = .service ∧ dest = .owned ∧ (∀ n, s.plat.mas.keyOf sid ≠ .service n) ∨
      (f.life = .service ∨ f.life = .owned) ∧ dest = .provisioned ∨
      (f.life = .provisioned ∨ f.life = .owned ∨ f.life = .service) ∧ dest = .decommissioned) →
    ∃ t, exec (.lcTransition sid dest key) s = .next t ∧
      (if f.life = .blank then t.plat.fuses.life = dest ∧ t.plat.mas.lifePending = none ∧ answered s t sid 0x70 ∧
          t.plat.fuses.deviceKey.isSome = true ∧ t.plat.fuses.releaseKey = some Config.releaseKey ∧
          t.plat.fuses.serviceKey = some Config.serviceKey
        else t.plat.mas.lifePending = some dest ∧ t.plat.fuses.life = f.life ∧ t.plat.fuses.deviceKey = f.deviceKey ∧
          t.plat.fuses.releaseKey = f.releaseKey ∧ t.plat.fuses.serviceKey = f.serviceKey ∧
          (s.plat.pow.stage = .ready → warmStarted (popped s) t ∧ begun s t sid 0x70)) ∧
      t.plat.fuses.ownerUsed = f.ownerUsed + (if f.life = .provisioned ∧ dest = .owned then 1 else 0) ∧
      t.plat.fuses.serviceUsed = f.serviceUsed + (if dest = .service then 1 else 0) ∧
      t.plat.fuses.ownerKey = (if f.life = .provisioned ∧ dest = .owned then some key
        else if dest = .provisioned ∧ f.life ≠ .blank then none else f.ownerKey) ∧
      t.plat.fuses.sealBroken = f.sealBroken ∧ t.plat.fuses.minSvn = f.minSvn) ∧
  (∀ s sid, granted s sid 0x71 true → s.plat.fuses.life = .owned ∨ s.plat.fuses.life = .service →
    s.plat.fuses.debugLocked = false → s.dev.allFree = true → s.plat.pow.stage = .ready →
    ∃ t, exec (.debugUnlock sid) s = .next t ∧ warmStarted (popped s) t ∧ begun s t sid 0x71 ∧ t.plat.mas.debugDue = true ∧
      t.plat.fuses = s.plat.fuses) ∧
  (∀ s sid key, granted s sid 0x72 true → s.plat.fuses.life = .owned →
    ∃ t, exec (.ownerKeyRotate sid key true) s = .next t ∧ answered s t sid 0x72 ∧
      t.plat.fuses = { s.plat.fuses with ownerKey := some key } ∧
      (∀ x ∈ t.plat.mas.sessions, x ∈ s.plat.mas.sessions ∧
        ∀ n, x.key = .owner n → s.plat.fuses.ownerKey ≠ some n) ∧
      (∀ x ∈ s.plat.mas.sessions, (∀ n, x.key ≠ .owner n) → x ∈ t.plat.mas.sessions) ∧ t.dev.hub = s.dev.hub) ∧
  (∀ s sid, granted s sid 0x73 false → ∃ t, exec (.presenceClose sid) s = .next t ∧ answered s t sid 0x73 ∧
    t.plat.mas.button = false ∧ t.plat.mas.jumper = s.plat.mas.jumper ∧ t.dev.hub = s.dev.hub) ∧
  (∀ s sid, granted s sid 0x60 false → exec (.logRead sid) s = .next (answer sid 0x60 .success
    (.entries (s.dev.log.reverse.map LogEntry.bytes) (s.plat.fuses.permLog.map LogEntry.bytes)) (popped s))) ∧
  (∀ s sid, granted s sid 0x62 false → exec (.cmdStatus sid) s = .next (answer sid 0x62 .success
    (match s.plat.mas.lastLong with
      | none => .status 0 false none
      | some (c, r, x) => .status c r x) (popped s)))

/-- The management port dispatches messages, sets up sessions, measures, updates firmware and queues commands as R349 to R359 say. (19_mastiff_presence_lifecycle (R349), 19_mastiff_presence_lifecycle (R350), 19_mastiff_presence_lifecycle (R351), 19_mastiff_presence_lifecycle (R352), 19_mastiff_presence_lifecycle (R353), 19_mastiff_presence_lifecycle (R356), 19_mastiff_presence_lifecycle (R358), 19_mastiff_presence_lifecycle (R359)) -/
def Obligations.TheManagementPortAnswers : Prop :=
  (∀ s typ sid, s.plat.pow.portUp = true → exec (.mctpMessage typ sid) s = .next
    (if mctpTaken s typ = false then { s with dev := { s.dev with sent := .mctpUnsupported typ (answersAt s) :: s.dev.sent } }
      else if (typ = 0x06 ∨ typ = 0x7F) ∧ s.plat.mas.session sid = none then s
      else { s with dev := { s.dev with
        sent := .mctpAnswer typ (answersAt s) (if typ = 0x01 then .pldm s.plat.mas.fwPending.isSome Config.vendorId else .plain) ::
          s.dev.sent } })) ∧
  (∀ s a, s.plat.pow.alwaysOn = true → exec (.dynamicAddressAssign a) s =
    .next { s with plat := { s.plat with mas := { s.plat.mas with dynAddr := some a } } }) ∧
  (∀ s e, s.plat.pow.portUp = true → exec (.setEndpointId e) s =
    .next { s with plat := { s.plat with mas := { s.plat.mas with eid := some e } } }) ∧
  (∀ s sid k, s.plat.pow.mastiffUp = true → ∃ t, exec (.spdmKeyExchange sid k) s = .next t ∧
    let ok := s.plat.fuses.deviceKey.isSome && sessionOk s.plat.fuses k
    let who : ReqKey := if s.plat.fuses.life = .provisioned then .anonymous else k
    t.dev = { s.dev with sent := .session sid ok (s.plat.fuses.deviceKey.map fun i => ⟨i, Config.serialNumber⟩) :: s.dev.sent } ∧
    (ok = true → ⟨sid, who⟩ ∈ t.plat.mas.sessions ∧ ∀ x ∈ t.plat.mas.sessions, x.sid = sid → x = ⟨sid, who⟩) ∧
    (ok = false → t.plat = s.plat)) ∧
  (∀ s key, s.plat.pow.mastiffUp = true → s.plat.fuses.deviceKey = some key → ∃ flags,
    let ws := (List.range 320).map fun i => presented (s.dev.re (i / 8) (i % 8)).bad
    let blocks : List Meas := [.digest Config.romDigest, .digest (Config.imageDigest s.plat.mas.flashImg),
      .raw (leBytes 1 s.plat.mas.fwSvn ++ leBytes 1 s.plat.fuses.minSvn), .raw (leBytes 1 (lifeNum s.plat.fuses.life)),
      .raw (leBytes 1 flags), .raw (leBytes 4 ws.sum ++ leBytes 2 (ws.count 0)),
      .raw (leBytes 1 (if s.plat.mas.idePolicy then 1 else 0)),
      .digest (match s.plat.fuses.ownerKey with
        | none => 0
        | some k => Config.keyDigest k)]
    exec .getMeasurements s = .next { s with dev := { s.dev with
      sent := .measurements blocks (Config.sign key (blocks.flatMap Meas.bytes)) :: s.dev.sent } } ∧
    bitOf flags 0 = s.plat.fuses.sealBroken ∧ bitOf flags 1 = s.plat.mas.debugMode ∧
    bitOf flags 2 = s.plat.fuses.debugLocked) ∧
  (∀ s w v, s.plat.pow.mastiffUp = true → w ≠ .lifeCycle → s.plat.mas.sensors.find? (fun e => e.1 == w) = some (w, v) →
    exec (.pldmSensorRead w) s = .next { s with dev := { s.dev with sent := .sensor w v (sensorLevel s.plat.pow w v) :: s.dev.sent } }) ∧
  (∀ s w v, s.plat.pow.alwaysOn = true → ∃ t, exec (.sensorUpdate w v) s = .next t ∧ t.dev = s.dev ∧
    t.plat.mas.sensors.head? = some (w, sensorNow s w v) ∧
    t.plat.mas.alert = t.plat.mas.sensors.any fun e => sensorLevel s.plat.pow e.1 e.2 != 0) ∧
  (∀ s sid, s.plat.pow.mastiffUp = true → (s.plat.mas.session sid).isSome = true → s.plat.pow.linkUp = true →
    s.plat.fuses.life ≠ .decommissioned → exec (.ideKm sid) s = .next { s with plat := { s.plat with mas := { s.plat.mas with ideUp := true } } }) ∧
  (∀ s sid img, s.plat.pow.mastiffUp = true → ownerSession s sid = true → s.plat.mas.flashBusy = none →
    exec (.firmwareUpdateTransfer sid img) s = .next (
      let ok := imageOk s.plat.fuses img
      { s with
        plat := if ok then { s.plat with mas := { s.plat.mas with flashBusy := some img, flash := none } } else s.plat
        dev := { s.dev with sent := .fwVerify ok :: s.dev.sent } })) ∧
  (∀ s v, s.plat.mas.flashBusy = some v → exec .flashWriteDone s = .next { s with plat := { s.plat with
    mas := { s.plat.mas with flashBusy := none, flash := some v, fwPending := some v.svn } } }) ∧
  (∀ s img, s.plat.pow.stage = .recovery → s.plat.mas.window = true → imageOk s.plat.fuses img = true →
    ∃ t, exec (.recoveryImageLoad img) s = .next t ∧ coldStarted s t ∧ t.plat.mas.flash = some img) ∧
  (∀ s sid code, s.plat.pow.mastiffUp = true → listedCode code = false → (s.plat.fuses.life = .blank → code ≠ 0x70) →
    exec (.mgmtCommandArrival sid code) s = .next (answer sid code
      (match s.plat.mas.session sid with
        | none => .auth
        | some x => if sessionOk s.plat.fuses x.key = false then .auth
          else if (1 ≤ code ∧ code ≤ 0x50 ∧ s.plat.fuses.life ≠ .owned) ∨ s.plat.fuses.life = .provisioned then .state
          else .invalid) .none s)) ∧
  (∀ s sid code, s.plat.pow.mastiffUp = true → listedCode code = true →
    let room := if s.plat.mas.running.isSome then 8 else 9
    (s.plat.mas.queue.length < room → exec (.mgmtCommandArrival sid code) s = .next { s with plat := { s.plat with
      mas := { s.plat.mas with queue := s.plat.mas.queue ++ [(sid, code)] } } }) ∧
    (room ≤ s.plat.mas.queue.length → exec (.mgmtCommandArrival sid code) s = .next { s with dev := { s.dev with
      sent := .mgmt sid code .busy .none :: s.dev.sent
      log := (⟨s.plat.pow.time, 1, 1, 5, BitVec.ofNat 32 code, .none⟩ :: s.dev.log).take 4096 } }))

namespace Sys2Proof.Spec

/-! ### Registers (R391 to R406) -/

/-- A rejected write of a block's CTRL register stands in the reject log and in the block's wrej bit, and changes no enable
and no state (R398, R403). -/
def ctrlRejected (s t : State) (who : Requester) (b : Block) (reason : Nat) : Prop :=
  t.plat = s.plat ∧ t.pending = s.pending ∧ t.dev.mem.dram = s.dev.mem.dram ∧
  (s.dev.hub.rejNext < 32 → FMap.get 0 t.dev.hub.rejLog s.dev.hub.rejNext =
      BitVec.ofNat 32 (2 ^ 31 + reason * 2 ^ 28 + reqNum who * 2 ^ 26 + ctrlOffset b % 2 ^ 24)) ∧
  t.dev.hub.rejNext = (s.dev.hub.rejNext + 1) % 32 ∧
  (∀ x, (t.dev.blk x).st = (s.dev.blk x).st ∧ (t.dev.blk x).en = (s.dev.blk x).en) ∧
  match b with
  | .ring _ => t.dev.hub.ringWrej = true
  | _ => (t.dev.blk b).wrej = true

/-- Blocks with no rule of their own for a write of their enable. -/
def plainBlock : Block → Bool
  | .slc _ => false
  | .ring _ => false
  | .pport _ => false
  | _ => true

/-- Only the block's enable and state may differ, and nothing that is no block's. -/
def onlyBlock (b : Block) (s t : State) : Prop :=
  t.plat = s.plat ∧ t.pending = s.pending ∧ t.dev.hub = s.dev.hub ∧ t.dev.collie = s.dev.collie ∧
  t.dev.mem.dram = s.dev.mem.dram ∧ t.dev.mem.lines = s.dev.mem.lines ∧ t.dev.log = s.dev.log ∧ t.dev.sent = s.dev.sent ∧
  (∀ x, x ≠ b → blockExists x = true → blockExists b = true → t.dev.blk x = s.dev.blk x) ∧
  (t.dev.blk b).wrej = (s.dev.blk b).wrej

/-- OR of the values that writes of a cycle bring through one alias of a slot. -/
def orOf (ws : List RegWrite) (al : Nat) : Word :=
  (ws.filter fun x => x.offset % 16 == al).foldl (fun a x => a ||| x.value) 0

/-- The value of the direct write that counts: Mastiff's before Sheepdog's before the host's, the first of each. -/
def directOf (ws : List RegWrite) : Option Word :=
  let ds := ws.filter fun x => x.offset % 16 == 0
  (((ds.find? fun x => x.who == .mastiff) <|> (ds.find? fun x => x.who == .sheepdog)) <|>
    (ds.find? fun x => x.who == .host)).map RegWrite.value

end Sys2Proof.Spec

/-- Enable writes move blocks through their states, or are rejected. (21_setup_registers (R396), 13_rings_doorbells_completions (R251), 16_partner_ports (R312), 20_power_clocks_reset (R380), 21_setup_registers (R398), 03_row_engines (R53), 06_parameter_update (R119), 07_afnex_memory_and_stash (R140), 15_reel_network (R308)) -/
def Obligations.EnablesMoveBlocksOrAreRejected : Prop :=
  (
    (∀ s who b, blockExists b = true → plainBlock b = true → enableReason s b true = none →
      ∃ t, exec (.enableWriteOne who b) s = .next t ∧ onlyBlock b s t ∧
        t.dev.blk b = if (s.dev.blk b).st = .off
          then { s.dev.blk b with en := true, st := if s.plat.pow.blockOff b then .off else .starting } else s.dev.blk b) ∧
    (∀ s who b, blockExists b = true → plainBlock b = true → enableReason s b false = none →
      ∃ t, exec (.enableWriteZero who b) s = .next t ∧ onlyBlock b s t ∧
        t.dev.blk b = { s.dev.blk b with
          en := false, st := if (s.dev.blk b).st = .on then .stopping else (s.dev.blk b).st }) ∧
    (∀ s b, blockExists b = true → (s.dev.blk b).st = .starting → startReady s b = true → (b = .reel → s.dev.reel.held = []) →
      ∃ t, exec (.blockStarted b) s = .next t ∧ t.dev.hub.items = s.dev.hub.items ∧
        t.dev.blk b = { s.dev.blk b with st := if (s.dev.blk b).en then .on else .stopping } ∧
        (s.plat.mas.running = none → t.plat = s.plat ∧ t.dev.sent = s.dev.sent) ∧
        ∀ sid code, s.plat.mas.running = some (sid, code) → 0x20 ≤ code → code ≤ 0x22 → t.dev.sliceBusy = false →
          t.plat.mas.running = none ∧ t.dev.sent.head? = some (.mgmt sid code .success .none)) ∧
    (∀ s, s.dev.reel.blk.st = .starting → s.dev.reel.blk.en = true → startReady s .reel = true → s.plat.mas.running = none →
      exec (.blockStarted .reel) s = .next (s.dev.reel.held.foldl State.reelMsg { s with dev := { s.dev with reel := { s.dev.reel with
        blk := { s.dev.reel.blk with st := .on }, held := [] } } })) ∧
    (∀ s b, blockExists b = true → (s.dev.blk b).st = .stopping → s.dev.drainedBlk b = true →
      ∃ t, exec (.blockStopped b) s = .next t ∧ t.plat = s.plat ∧ t.dev.hub.items = s.dev.hub.items ∧
        t.dev.blk b = { s.dev.blk b with st := .off } ∧ (∀ p, b = .pport p → (t.dev.port p).link ≠ .up)) ∧
    (∀ s who c, c < 4096 → (s.dev.ctx c).st = .frozen ∨ (s.dev.ctx c).st = .opened → (s.dev.ring c).blk.st = .off →
      ∃ t, exec (.ringEnable who c) s = .next t ∧ t.plat = s.plat ∧ (t.dev.ring c).blk.st = .on ∧
        (t.dev.ring c).blk.en = true ∧ (t.dev.ring c).sqHead = 0 ∧ (t.dev.ring c).sqTail = 0 ∧ (t.dev.ring c).cqHead = 0 ∧
        (t.dev.ring c).cqTail = 0 ∧ (t.dev.ring c).phase = true ∧ (t.dev.ring c).sqBase = (s.dev.ring c).sqBase ∧
        (t.dev.ring c).cqBase = (s.dev.ring c).cqBase ∧ (∀ k, k ≠ c → t.dev.ring k = s.dev.ring k) ∧
        t.dev.mem = s.dev.mem) ∧
    (∀ s who c, c < 4096 → (s.dev.ring c).blk.st = .on → ∃ t, exec (.ringDisable who c) s = .next t ∧ t.plat = s.plat ∧
      t.dev.ring c = { s.dev.ring c with blk := { (s.dev.ring c).blk with
        en := false, st := if s.dev.window c = 0 then .off else .stopping } } ∧
      (∀ k, k ≠ c → t.dev.ring k = s.dev.ring k) ∧ t.dev.mem = s.dev.mem) ∧
    (∀ s who p, p < 6 → (s.dev.port p).blk.st = .off → s.plat.fuses.life ≠ .decommissioned → ∃ t, exec (.pportEnable who p) s = .next t ∧
      (t.dev.port p).blk.st = .starting ∧ (t.dev.port p).blk.en = true ∧ t.plat.pow.asleep = false ∧
      (t.dev.port p).link = (if FMap.get false s.plat.pow.hubOff (p / 2 + 1) then .down else .training) ∧
      (∀ q, q ≠ p → t.dev.port q = s.dev.port q) ∧ t.dev.hub = s.dev.hub)) ∧
  (
    ∀ s who b, blockExists b = true →
      ((plainBlock b = true ∧ (∀ i k, b = .re i k → presented (s.dev.re i k).bad ≠ 0) ∨ (∃ p, b = .pport p) ∨ ∃ c, b = .ring c) →
        (s.dev.blk b).st = .stopping → ∃ t, exec (.enableWriteOne who b) s = .next t ∧
          (who ≠ .mastiff → t.dev.log = s.dev.log) ∧ ctrlRejected s t who b 0) ∧
      ((∃ i k, b = .re i k ∧ presented (s.dev.re i k).bad = 0) →
        (∃ t, exec (.enableWriteOne who b) s = .next t ∧ ctrlRejected s t who b 1) ∧
        ∃ t, exec (.enableWriteZero who b) s = .next t ∧ ctrlRejected s t who b 1) ∧
      (((∃ i, b = .txb i ∧ ∃ j, j < 8 ∧ (s.dev.re i j).blk.st ≠ .off) ∨
        (∃ i, b = .mem i ∧ ∃ j, j < 16 ∧ (s.dev.slice j).exists? = true) ∨
        (∃ i, b = .collie i ∧ ∃ x ∈ s.dev.collie.blocks, x.2.die = i) ∨
        (∃ i, b = .dcache i ∧ (s.dev.sliceOf i).isSome = true) ∨
        (b = .reel ∧ ∃ g ∈ s.dev.reel.groups, g.2.gst = .active) ∨
        (b = .ups ∧ ∃ r ∈ s.dev.ups.runs, r.phase = .layers ∨ r.phase = .undoing)) →
        ∃ t, exec (.enableWriteZero who b) s = .next t ∧ ctrlRejected s t who b 1) ∧
      (∀ c, b = .ring c → (s.dev.ring c).blk.st ≠ .stopping → (s.dev.ctx c).st ≠ .frozen → (s.dev.ctx c).st ≠ .opened →
        ∃ t, exec (.ringEnable who c) s = .next t ∧ ctrlRejected s t who b 1))

/-- The writes of one cycle to a register combine as ((base and not clear) or set) xor toggle, and barred ones are rejected. (21_setup_registers (R392), 21_setup_registers (R394), 21_setup_registers (R397), 21_setup_registers (R399), 21_setup_registers (R402), 07_afnex_memory_and_stash (R140)) -/
def Obligations.RegisterWritesCombineThroughAliases : Prop :=
  (∀ s i ws, i < 20 → ws ≠ [] →
    (∀ x ∈ ws, x.size = 4 ∧ x.offset / 16 * 16 = 0x80040 + 0x1000 * i ∧ x.offset % 4 = 0) →
    ∃ t, exec (.registerWrite ws) s = .next t ∧ t.plat = s.plat ∧ (t.dev.memBlk i).ue = (s.dev.memBlk i).ue ∧
      (t.dev.memBlk i).scrub = (s.dev.memBlk i).scrub ∧ t.dev.mem.dram = s.dev.mem.dram ∧
      (∀ j, j ≠ i → t.dev.memBlk j = s.dev.memBlk j) ∧ (t.dev.memBlk i).ce =
        (((directOf ws).getD (s.dev.memBlk i).ce &&& ~~~(orOf ws 8)) ||| orOf ws 4) ^^^ orOf ws 12) ∧
  (∀ s i who v, i < 20 → (s.dev.memBlk i).blk.st = .off →
    ∃ t, exec (.registerWrite [⟨who, 0x80030 + 0x1000 * i, v, 4, 0⟩]) s = .next t ∧ t.plat = s.plat ∧
      t.dev.memBlk i = { s.dev.memBlk i with
        scrub := v.extractLsb' 16 8, stashGib := BitVec.ofNat 6 (min 48 (v.toNat % 64)) } ∧
      ∀ j, j ≠ i → t.dev.memBlk j = s.dev.memBlk j) ∧
  (∀ s i who v, i < 20 → (s.dev.memBlk i).blk.st ≠ .off →
    ∃ t, exec (.registerWrite [⟨who, 0x80030 + 0x1000 * i, v, 4, 0⟩]) s = .next t ∧ t.plat = s.plat ∧
      t.dev.memBlk i = { s.dev.memBlk i with blk := { (s.dev.memBlk i).blk with wrej := true } } ∧
      FMap.get 0 t.dev.hub.rejLog s.dev.hub.rejNext =
        BitVec.ofNat 32 (2 ^ 31 + reqNum who * 2 ^ 26 + (0x80030 + 0x1000 * i))) ∧
  (∀ s off v, 0x10030 ≤ off → off ≤ 0x10080 → off % 16 = 0 → ∃ t, exec (.registerWrite [⟨.host, off, v, 4, 0⟩]) s = .next t ∧
    t.dev.hub.ctxWrej = true ∧ t.dev.hub.ctxs = s.dev.hub.ctxs ∧ t.plat = s.plat ∧
    FMap.get 0 t.dev.hub.rejLog s.dev.hub.rejNext = BitVec.ofNat 32 (2 ^ 31 + 2 * 2 ^ 28 + off)) ∧
  (∀ s who off v n hi, 0x10030 ≤ off → off ≤ 0x10080 → n ≠ 4 → ¬(n = 8 ∧ off % 8 = 0) → ∃ t, exec (.registerWrite [⟨who, off, v, n, hi⟩]) s = .next t ∧
    t.dev.hub.ctxWrej = true ∧ t.dev.hub.ctxs = s.dev.hub.ctxs ∧ t.plat = s.plat ∧
    FMap.get 0 t.dev.hub.rejLog s.dev.hub.rejNext =
      BitVec.ofNat 32 (2 ^ 31 + 4 * 2 ^ 28 + reqNum who * 2 ^ 26 + off)) ∧
  (∀ s ws, (∀ x ∈ ws, 0x66000 ≤ x.offset ∧ x.offset < 0x70000) → exec (.registerWrite ws) s = .next s) ∧
  (∀ s who off v hi, off % 8 = 0 → ∃ t u, exec (.registerWrite [⟨who, off, v, 4, 0⟩]) s = .next t ∧
    exec (.registerWrite [⟨who, off + 4, hi, 4, 0⟩]) t = .next u ∧ exec (.registerWrite [⟨who, off, v, 8, hi⟩]) s = .next u) ∧
  (∀ s ws, ∃ t, exec (.registerWrite ws) s = .next t ∧ t.pending = s.pending ∧ t.plat.fuses = s.plat.fuses ∧
    t.plat.pow.time = s.plat.pow.time ∧ t.plat.pow.stage = s.plat.pow.stage)

/-- Halt requests act in debug mode alone, and the counter window selects, holds, clears and traces as R425 and R426 say. (03_row_engines (R57), 23_counters_and_debug (R425), 23_counters_and_debug (R426), 23_counters_and_debug (R429)) -/
def Obligations.DebugHaltsAndTheCounterWindow : Prop :=
  (∀ s die k h, k < 8 → ∃ t, exec (.reHaltRequest die k h) s = .next t ∧ t.plat = s.plat ∧ t.dev.hub = s.dev.hub ∧
    (∀ i j, j < 8 → t.dev.re i j = if s.plat.mas.debugMode = true ∧ i = die ∧ j = k
      then { s.dev.re i j with dbgHalt := h, halted := (s.dev.re i j).halted && h } else s.dev.re i j)) ∧
  (∀ s die k, k < 8 → s.plat.mas.debugMode = true → (s.dev.re die k).dbgHalt = true →
    (s.dev.re die k).blk.st = .on ∨ (s.dev.re die k).blk.st = .stopping →
    ((s.dev.re die k).bank0.st = .free → (s.dev.re die k).bank1.st = .free →
      ∀ chunk, ∃ t, exec (.engineDebugHalt die k chunk) s = .next t ∧ t.plat = s.plat ∧ t.dev.hub = s.dev.hub ∧
      ∀ i j, j < 8 → t.dev.re i j = if i = die ∧ j = k then { s.dev.re i j with halted := true } else s.dev.re i j) ∧
    ∀ which chunk d1, (s.dev.re die k).filling = some which → (s.dev.re die k).halted = false →
      (∀ b, b = (s.dev.re die k).bank0 ∨ b = (s.dev.re die k).bank1 → b.st = .free ∨ b.st = .filling) →
      s.dev.advance s.plat die k which chunk = .ok d1 → ∃ t, exec (.engineDebugHalt die k chunk) s = .next t ∧ t.plat = s.plat ∧
        (t.dev.re die k).halted = true ∧ ∀ i j, j < 8 → ¬(i = die ∧ j = k) → t.dev.re i j = d1.re i j) ∧
  (∀ s die c h, c < 16 → ∃ t, exec (.coreHaltRequest die c h) s = .next t ∧ t.plat = s.plat ∧ t.dev.hub = s.dev.hub ∧
    (∀ i j, j < 16 → t.dev.core i j = if s.plat.mas.debugMode = true ∧ i = die ∧ j = c
      then { s.dev.core i j with haltReq := h, halted := (s.dev.core i j).halted && h } else s.dev.core i j)) ∧
  (∀ s die c, c < 16 → s.plat.mas.debugMode = true → (s.dev.core die c).haltReq = true →
    ∃ t, exec (.coreDebugHalt die c) s = .next t ∧ t.plat = s.plat ∧ t.dev.hub = s.dev.hub ∧
      ∀ i j, j < 16 → t.dev.core i j = if i = die ∧ j = c then { s.dev.core i j with halted := true } else s.dev.core i j) ∧
  (∀ s c, exec (.cntSelWrite c) s = .next { s with dev := { s.dev with hub := { s.dev.hub with
    cntSel := BitVec.ofNat 12 c, cntSnap := none, cntUnitsSnap := [] } } }) ∧
  (∀ s, ∃ t, exec .cntSnapTake s = .next t ∧ t.plat = s.plat ∧ t.dev.hub.counters = s.dev.hub.counters ∧
    t.dev.hub.cntSnap.isSome = true ∧ (∀ n, n < 141 → t.dev.cntShown n = s.dev.counter s.dev.hub.cntSel.toNat n) ∧
    (s.dev.hub.cntTrace.toNat % 4096 = s.dev.hub.cntSel.toNat → t.dev.hub.cntUnitsSnap = s.dev.hub.cntUnits)) ∧
  (∀ s, exec .cntSnapRelease s = .next { s with dev := { s.dev with hub := { s.dev.hub with
    cntSnap := none, cntUnitsSnap := [] } } }) ∧
  (∀ s, let c := s.dev.hub.cntSel.toNat
    ∃ t, exec .cntClear s = .next t ∧ t.plat = s.plat ∧ t.dev.mem = s.dev.mem ∧
      (∀ n, n < 141 → t.dev.counter c n = if n = 66 ∨ n = 67 then s.dev.counter c 66 else 0) ∧
      ∀ k n, n < 256 → k ≠ c → t.dev.counter k n = s.dev.counter k n) ∧
  (∀ s v, exec (.cntTraceWrite v) s = .next { s with dev := { s.dev with hub := { s.dev.hub with
    cntTrace := v &&& 0x80000FFF#32, cntUnits := [] } } })

namespace Sys2Proof.Spec

/-! ### Rings and items (R250 to R278) -/

/-- No work record a kernel issued has the number of a fetched item of its context. -/
def numbersApart (d : Device) : Prop :=
  ∀ x ∈ d.hub.items, ∀ y ∈ d.hub.items, x.ctx = y.ctx → x.seq = y.seq → x.isWork = y.isWork

/-- An item of a type whose work the ring engine may start now. -/
def startable (s : State) (c q typ : Nat) (it : Item) : Prop :=
  s.dev.item c q = some it ∧ it.typ = typ ∧ it.isWork = false ∧ it.phase = .dispatched ∧ s.dev.deferWait it = false ∧
  numbersApart s.dev

/-- Its work is done, and other contexts' items are as before. -/
def finished (s t : State) (c q : Nat) : Prop :=
  (t.dev.item c q).map Item.phase = some .done ∧ t.plat = s.plat ∧ t.pending = s.pending ∧
  ∀ k n, k ≠ c → t.dev.item k n = s.dev.item k n

/-- Every byte of device memory, under every key, and of host memory reads as before. -/
def sameBytes (s t : State) : Prop :=
  (∀ rk b, t.dev.mem.devByte rk b = s.dev.mem.devByte rk b) ∧ ∀ b, t.dev.mem.hostByte b = s.dev.mem.hostByte b

/-- Every line a die cache holds has its 128 bytes. -/
def wholeLines (m : Mem) : Prop := ∀ x ∈ m.lines, x.data.length = 128

/-- No codeword has an error that nothing has found yet and that cannot be corrected (R124). -/
def sound (s : State) : Prop := ∀ h, FMap.get 0 s.dev.mem.weak h ≠ 2

/-- The 8 bytes of device memory at `a` under a key, and every byte of other lines, after a write of `v` there. -/
def deviceWord (s t : State) (key a : Nat) (v : Dword) : Prop :=
  t.dev.mem.devNat key a 8 = v.toNat ∧
  ∀ rk b, b / 128 ≠ a / 128 → t.dev.mem.devByte rk b = s.dev.mem.devByte rk b

/-- The ring keeps an item's outcome. -/
def outcomeIs (d : Device) (c q : Nat) (st : Status) : Prop :=
  (FMap.get none (d.ring c).outcomes q).map Prod.fst = some st

end Sys2Proof.Spec

/-- A doorbell in range moves its ring index and nothing else; any other write of the page is ignored and counted. (13_rings_doorbells_completions (R253), 13_rings_doorbells_completions (R254), 11_memory_ordering (R220)) -/
def Obligations.DoorbellsMoveTheRingIndices : Prop :=
  (∀ s c v, let g := s.dev.ring c
    bellsOpen s.plat s.dev c = true → v.toNat < g.sqSize →
    (g.sqTail + g.sqSize - g.sqHead) % g.sqSize ≤ (v.toNat + g.sqSize - g.sqHead) % g.sqSize →
    exec (.sqTailWrite c v []) s = .next { s with dev := s.dev.setRing c { g with
      sqTail := v.toNat
      bells := g.bells ++ [(g.nextSeq + (v.toNat + g.sqSize - g.sqHead) % g.sqSize, s.plat.pow.time)] } }) ∧
  (∀ s c v, let g := s.dev.ring c
    bellsOpen s.plat s.dev c = true → v.toNat < g.cqSize →
    (v.toNat + g.cqSize - g.cqHead) % g.cqSize ≤ (g.cqTail + g.cqSize - g.cqHead) % g.cqSize → v.toNat < 65536 →
    exec (.cqHeadWrite c v) s = .next { s with dev := s.dev.setRing c { g with cqHead := v.toNat } }) ∧
  (∀ s c v x, (bellsOpen s.plat s.dev c = false ∧ (x = .sqTailWrite c v [] ∨ x = .cqHeadWrite c v)) ∨
    (x = .sqTailWrite c v [] ∧ (s.dev.ring c).sqSize ≤ v.toNat) ∨
    (∃ off n, x = .doorbellPageOtherWrite c off n ∧ ¬(n = 4 ∧ (off = 0 ∨ off = 8))) →
    let n : Dword := BitVec.ofNat 64 (min ((s.dev.counter c 118).toNat + 1) (2 ^ 64 - 1))
    exec x s = .next { s with dev := s.dev.setCounter c 118 n }) ∧
  (∀ s c v addr data, ∃ t, exec (.sqTailWrite c v [⟨addr, data⟩]) s = .next t ∧ t.plat = s.plat ∧
    ∀ j, j < data.length → t.dev.mem.hostByte (addr + j) = data.getD j 0) ∧
  (∀ s c v seen, ∃ t, exec (.sqTailWrite c v seen) s = .next t ∧ t.plat = s.plat ∧ t.pending = s.pending ∧
    (∀ k, k ≠ c → t.dev.ring k = s.dev.ring k) ∧ t.dev.mem.dram = s.dev.mem.dram ∧ t.dev.eng = s.dev.eng) ∧
  (∀ s c v, ∃ t, exec (.cqHeadWrite c v) s = .next t ∧ t.plat = s.plat ∧ t.pending = s.pending ∧
    (∀ k, k ≠ c → t.dev.ring k = s.dev.ring k) ∧ t.dev.mem = s.dev.mem ∧ t.dev.eng = s.dev.eng) ∧
  (∀ s c off n, ∃ t, exec (.doorbellPageOtherWrite c off n) s = .next t ∧ t.plat = s.plat ∧ t.pending = s.pending ∧
    t.dev.hub.rings = s.dev.hub.rings ∧ t.dev.mem = s.dev.mem ∧ t.dev.eng = s.dev.eng ∧
    (¬(n = 4 ∧ (off = 0 ∨ off = 8)) →
      (t.dev.counter c 118).toNat = min ((s.dev.counter c 118).toNat + 1) (2 ^ 64 - 1))) ∧
  (∀ (s : State) off, s.doorbellRead off = 0)

/-- A fetch takes the entry at the head into the item window, and a descriptor that fails its check kills the context. (13_rings_doorbells_completions (R255), 13_rings_doorbells_completions (R257), 18_fault_accounting (R347), 18_fault_accounting (R341)) -/
def Obligations.DescriptorsAreFetchedAndChecked : Prop :=
  ∀ s c, let g := s.dev.ring c
    let desc := (List.range 64).map fun i => s.dev.mem.hostByte (g.sqBase + 64 * g.sqHead + i)
    let it := newItem c g.nextSeq ((s.dev.ctx c).sliceFor (field desc 1 1 % 4)) desc (g.bellOf g.nextSeq s.plat.pow.time)
    ((s.dev.ctx c).st ≠ .opened ∨ g.blk.st ≠ .on ∨ g.sqHead = g.sqTail ∨ s.dev.reel.snap ≠ 0 ∨ 1024 ≤ s.dev.window c ∨
      (16384 ≤ s.dev.windowAll ∧ 64 * (s.dev.slice (s.dev.nextSlice c)).ringShare ≤
        (s.dev.hub.items.filter fun x => x.slice == s.dev.nextSlice c && !x.isWork).length) ∨
      s.dev.fetchNext ≠ some c → ∀ ps ns, exec (.descriptorFetch c ps ns) s = .next s) ∧
    (s.dev.fetchNext = some c → (g.sqHead + 1) % g.sqSize = g.sqTail → ∀ ns,
      (s.dev.entryFault c desc = none → bitOf (field desc 1 1) 2 = false → field desc 0 1 ≠ 4 →
        field desc 0 1 ≠ 8 → g.deferFails = [] →
        ∃ t, exec (.descriptorFetch c [] ns) s = .next t ∧ t.plat = s.plat ∧ t.dev.mem = s.dev.mem ∧
          t.dev.hub.items = s.dev.hub.items ++ [{ it with hostNs := ns - 1000 }] ∧ t.dev.hub.lastFetch = c ∧ (t.dev.ring c).sqHead = g.sqTail ∧
          (t.dev.ring c).nextSeq = g.nextSeq + 1 ∧ (∀ k, k ≠ c → t.dev.ring k = s.dev.ring k) ∧
          (t.dev.counter c 117).toNat = min ((s.dev.counter c 117).toNat + 1) (2 ^ 64 - 1)) ∧
      (∀ f, s.dev.entryFault c desc = some f →
        ∃ t, exec (.descriptorFetch c [] ns) s = .next t ∧ (t.dev.ctx c).st = .killed ∧
          (t.dev.ctx c).fault.code.toNat = faultNum f ∧ (t.dev.ctx c).fault.source = 0 ∧
          (t.dev.ctx c).fault.die = 60 ∧ (t.dev.ctx c).fault.unit = 255 ∧ noItems s t.dev c) ∧
      ∃ t, exec (.descriptorFetch c [g.sqHead] ns) s = .next t ∧ (s.dev.item c g.nextSeq = none → t.dev.item c g.nextSeq = none) ∧
        (t.dev.ctx c).st = .opened ∧ (t.dev.ring c).sqHead = g.sqTail ∧ outcomeIs t.dev c g.nextSeq .eccUncorrectable)

/-- A ready item that none outranks is dispatched, one with a failed dependency ends, and an ended item gives its outcome and its record. (13_rings_doorbells_completions (R259), 13_rings_doorbells_completions (R260), 14_slices_and_service_classes (R290), 13_rings_doorbells_completions (R273), 13_rings_doorbells_completions (R275)) -/
def Obligations.ItemsAreDispatchedAndEnd : Prop :=
  (∀ s c q it, s.dev.item c q = some it → it.phase = .fetched → it.isWork = false → s.dev.depLost it = none →
    s.dev.ready it = true → s.dev.outranked it = false → it.deferBit = false →
    it.typ = 0 ∨ it.typ = 5 ∨ it.typ = 6 ∨ it.typ = 7 →
    ∃ t, exec (.itemDispatch c q) s = .next t ∧ t.plat = s.plat ∧ t.dev.mem = s.dev.mem ∧ t.dev.eng = s.dev.eng ∧
      t.dev.item c q = some { it with
        phase := .dispatched, covered := it.cls == 0 && (s.dev.slice it.slice).reserved
        unmet := (s.dev.mark s.plat it).unmet, bell := (s.dev.mark s.plat it).bell } ∧
      ∀ k n, k ≠ c → t.dev.item k n = s.dev.item k n) ∧
  (∀ s c q it x, s.dev.item c q = some it → it.phase = .fetched → it.isWork = false → s.dev.depLost it = some x →
    ∃ t, exec (.itemDispatch c q) s = .next t ∧ t.plat = s.plat ∧ t.dev.mem = s.dev.mem ∧ t.dev.eng = s.dev.eng ∧
      t.dev.item c q = some { it with depFail := some x, phase := .done }) ∧
  (∀ s c q it, s.dev.item c q = some it → s.dev.itemOver it = true →
    (it.typ = 3 → (s.dev.releaseSlice c q it.slice).2 = []) →
    ∃ t, exec (.itemComplete c q) s = .next t ∧ t.plat = s.plat ∧
      (it.outcome.1.success = true ∨ it.issued = false ∨ it.mixed = true →
        t.dev.item c q = none ∧ outcomeIs t.dev c q it.outcome.1) ∧
      (it.typ ≠ 3 → (t.dev.item c q = none ∧ outcomeIs t.dev c q it.outcome.1) ∨
        ((t.dev.item c q).map Item.mixed = some true ∧ t.dev.writesAway c q = true)) ∧
      ((s.dev.ring c).waiting = [] → (s.dev.ring c).room = true → s.dev.invalOut = false → it.outcome.1.success = true →
        it.claims = [] → it.save = none → it.typ = 0 → s.dev.ups.runs = [] →
        ∃ r h, .record c r h ∈ t.dev.sent ∧ r.status = it.outcome.1 ∧ r.tag = BitVec.ofNat 32 it.tag ∧
          r.sqIndex = q % (s.dev.ring c).sqSize ∧ r.result = it.result))

/-- The first fault of a cycle kills the context and fills its record; later faults only count. (18_fault_accounting (R341), 18_fault_accounting (R342), 18_fault_accounting (R343), 17_tenancy_and_wipe (R327)) -/
def Obligations.ContextFaultsKillAndAreRecorded : Prop :=
  (∀ s c f fs, (s.dev.ctx c).st = .opened ∨ (s.dev.ctx c).st = .frozen → ∃ t g, exec (.contextFault c (f :: fs)) s = .next t ∧
    g ∈ f :: fs ∧ (∀ h ∈ f :: fs, faultBefore h g = false) ∧ t.plat = s.plat ∧ otherCtxs c s t ∧ noItems s t.dev c ∧
    t.dev.ctx c = { s.dev.ctx c with
      st := .killed
      fault := ⟨BitVec.ofNat 16 (faultNum g.code), BitVec.ofNat 8 g.source, BitVec.ofNat 8 g.die, BitVec.ofNat 8 g.unit,
        BitVec.ofNat 8 (g.lane % 32), BitVec.ofNat 16 g.sqIndex, BitVec.ofNat 32 (g.pc % 2 ^ 23 + g.packIx * 2 ^ 23),
        BitVec.ofNat 32 g.aux, BitVec.ofNat 64 g.addr, s.plat.pow.time.setWidth 32,
        BitVec.ofNat 16 (min fs.length 0xFFFF), true⟩ }) ∧
  (∀ s c fs, fs ≠ [] → (s.dev.ctx c).st = .killed ∨ (s.dev.ctx c).st = .teardown →
    exec (.contextFault c fs) s = .next { s with dev := s.dev.setCtx c { s.dev.ctx c with
      fault := { (s.dev.ctx c).fault with
        extra := BitVec.ofNat 16 (min ((s.dev.ctx c).fault.extra.toNat + fs.length) 0xFFFF) } } })

/-- Completion records are written and interrupts are sent or pend. (13_rings_doorbells_completions (R273), 13_rings_doorbells_completions (R276), 13_rings_doorbells_completions (R250), 13_rings_doorbells_completions (R246)) -/
def Obligations.CompletionsAreWrittenAndInterruptsSent : Prop :=
  (
    ∀ s c r rs, (s.dev.ring c).waiting = r :: rs →
      let g := s.dev.ring c
      let a := g.cqBase + 32 * g.cqTail
      ((g.cqTail + 1) % 2 ^ g.cqLog = g.cqHead → s.dev.reel.snap ≠ 1 → exec (.completionRecordWrite c) s = .next s) ∧
      ((g.cqTail + 1) % 2 ^ g.cqLog ≠ g.cqHead → s.dev.invalOut = false → g.cqBase % 32 = 0 →
        ∃ t, exec (.completionRecordWrite c) s = .next t ∧ t.plat = s.plat ∧ t.dev.hub.items = s.dev.hub.items ∧
          (t.dev.ring c).waiting = rs ∧ (t.dev.ring c).cqTail = (g.cqTail + 1) % 2 ^ g.cqLog ∧
          (t.dev.ring c).phase = (if (g.cqTail + 1) % 2 ^ g.cqLog = 0 then !g.phase else g.phase) ∧
          (r.irq = true → (t.dev.ring c).msixDue = true) ∧
          (∃ ms, t.dev.sent = ms ++ .record c r g.sqHead :: s.dev.sent ∧ (s.dev.reel.snap ≠ 1 → ms = [])) ∧
          (∀ k, k ≠ c → t.dev.ring k = s.dev.ring k) ∧ t.dev.mem.dram = s.dev.mem.dram ∧
          (∀ b, b < a ∨ a + 32 ≤ b → t.dev.mem.hostByte b = s.dev.mem.hostByte b) ∧
          ∀ j, j < 32 → t.dev.mem.hostByte (a + j) =
            (leBytes 2 r.status.code ++ leBytes 2 ((if g.phase then 1 else 0) + (if r.unmet then 2 else 0)) ++
              leBytes 4 r.tag.toNat ++ leBytes 4 r.time.toNat ++ leBytes 2 g.sqHead ++ leBytes 2 r.sqIndex ++
              leBytes 8 r.detail.toNat ++ leBytes 8 r.result.toNat).getD j 0)) ∧
  (
    (∀ s v, let m := FMap.get Msix.reset s.dev.hub.msix v
      (s.dev.ring v).msixDue = true → (∀ u, m.last = some u → u.toNat + 1000 ≤ s.plat.pow.time.toNat) →
      ∃ t, exec (.msixMessage v) s = .next t ∧ t.plat = s.plat ∧ t.dev.mem = s.dev.mem ∧
        t.dev.ring v = { s.dev.ring v with msixDue := false } ∧ (∀ k, k ≠ v → t.dev.ring k = s.dev.ring k) ∧
        (m.mask = true → t.dev.sent = s.dev.sent ∧ (FMap.get Msix.reset t.dev.hub.msix v).pend = true) ∧
        (m.mask = false → t.dev.sent = .msix v m.addr m.data :: s.dev.sent ∧
          FMap.get Msix.reset t.dev.hub.msix v = { m with pend := false, last := some s.plat.pow.time })) ∧
    (∀ s v (x : Word) r, v < 4096 → r < 4 → let m := FMap.get Msix.reset s.dev.hub.msix v
      ∃ t, exec (.msixTableWrite (16 * v + 4 * r) x) s = .next t ∧ t.plat = s.plat ∧ t.dev.mem = s.dev.mem ∧
        t.dev.hub.rings = s.dev.hub.rings ∧
        (∀ k, k ≠ v → FMap.get Msix.reset t.dev.hub.msix k = FMap.get Msix.reset s.dev.hub.msix k) ∧
        let n := FMap.get Msix.reset t.dev.hub.msix v
        n.addr = (if r = 0 then m.addr.extractLsb' 32 32 ++ x else if r = 1 then x ++ m.addr.extractLsb' 0 32 else m.addr) ∧
        n.data = (if r = 2 then x else m.data) ∧ n.mask = (if r = 3 then x.getLsbD 0 else m.mask) ∧
        (if r = 3 ∧ m.mask = true ∧ x.getLsbD 0 = false ∧ m.pend = true
          then n.pend = false ∧ t.dev.sent = .msix v m.addr m.data :: s.dev.sent
          else n.pend = m.pend ∧ t.dev.sent = s.dev.sent)))

/-- NOP, EVENT and CANCEL items do what R258, R269, R270 and R271 say and end. (13_rings_doorbells_completions (R258), 13_rings_doorbells_completions (R269), 13_rings_doorbells_completions (R270), 13_rings_doorbells_completions (R271)) -/
def Obligations.RingEngineItemsRun : Prop :=
  (∀ s c q it, startable s c q 0 it → ∃ t, exec (.itemNop c q) s = .next t ∧ finished s t c q ∧ t.dev.mem = s.dev.mem ∧
    t.dev.eng = s.dev.eng) ∧
  (∀ s c q it a key, startable s c q 6 it → it.evLoc % 8 = 0 → a % 8 = 0 → wholeLines s.dev.mem →
    translate s.dev c it.evLoc .atomic = .ok (.dev a, key) → FMap.get false s.dev.mem.bad (a / 64) = false → sound s →
    it.evOp = 0 → ∃ t, exec (.eventAdd c q) s = .next t ∧ finished s t c q ∧
      deviceWord s t key a (BitVec.ofNat 64 (s.dev.mem.devNat key a 8) + BitVec.ofNat 64 it.evVal)) ∧
  (∀ s c q it a key, startable s c q 6 it → it.evLoc % 8 = 0 → a % 8 = 0 → wholeLines s.dev.mem →
    translate s.dev c it.evLoc .write = .ok (.dev a, key) → FMap.get false s.dev.mem.bad (a / 64) = false → sound s →
    it.evOp = 1 → ∃ t, exec (.eventSet c q) s = .next t ∧ finished s t c q ∧
      deviceWord s t key a (BitVec.ofNat 64 it.evVal)) ∧
  (∀ s c q it v, startable s c q 6 it → it.evOp = 2 → sound s → s.dev.readNat ⟨c, q, none, none⟩ 8 it.evLoc = .ok v →
    ∃ t, exec (.eventWaitGe c q) s = .next t ∧ t.plat = s.plat ∧ (wholeLines s.dev.mem → sameBytes s t) ∧
      if it.evVal ≤ v then (t.dev.item c q).map (fun x => (x.phase, x.result)) = some (.done, BitVec.ofNat 64 v)
      else (t.dev.item c q).map (fun x => (x.phase, x.waitAt)) = some (.running, some s.plat.pow.time) ∧
        ∃ mon, (c, q, mon) ∈ t.dev.hub.monitors) ∧
  (∀ s c q it v x mon, s.dev.item c q = some it → s.dev.hub.monitors.contains (c, q, mon) = true →
    (x = .eventMonitorReread c q [] ∧ mon = true ∨ x = .eventPoll c q [] ∧ mon = false) → sound s →
    s.dev.readNat ⟨c, q, none, none⟩ 8 it.evLoc = .ok v →
    ∃ t, exec x s = .next t ∧ t.plat = s.plat ∧ (wholeLines s.dev.mem → sameBytes s t) ∧
      (it.evVal ≤ v → (t.dev.item c q).map (fun y => (y.phase, y.result)) = some (.done, BitVec.ofNat 64 v) ∧
        ∀ m ∈ t.dev.hub.monitors, ¬(m.1 = c ∧ m.2.1 = q)) ∧
      (v < it.evVal → t.dev.item c q = some it ∧ t.dev.hub.monitors = s.dev.hub.monitors) ∧
      (mon = false → (t.dev.counter c 121).toNat = min ((s.dev.counter c 121).toNat + 1) (2 ^ 64 - 1))) ∧
  (∀ s c q it, startable s c q 7 it → ∃ t, exec (.cancel c q) s = .next t ∧ t.plat = s.plat ∧
    (t.dev.item c q).map (fun x => (x.phase, x.result)) =
      some (.done, BitVec.ofNat 64 (s.dev.hub.items.filter it.selects).length) ∧
    ∀ x ∈ s.dev.hub.items, it.selects x = true →
      (t.dev.item x.ctx x.seq).map (fun y => (y.phase, y.cancelBy)) = some (.done, some (q % (s.dev.ring c).sqSize)))

/-- CACHE_CTL pins ways or is refused, discards lines, and a host access reads and writes through its window. (12_caches_prefetch_inflight (R228), 12_caches_prefetch_inflight (R230), 12_caches_prefetch_inflight (R232), 13_rings_doorbells_completions (R247), 13_rings_doorbells_completions (R248)) -/
def Obligations.CacheControlAndHostAccess : Prop :=
  (∀ s c q it, startable s c q 5 it → field it.desc 0x10 1 = 0 → (s.dev.slice it.slice).scan = none →
    s.dev.pinNext it.slice = some (c, q) →
    let tc := field it.desc 0x11 1
    let w := field it.desc 0x12 1
    let x := s.dev.slice it.slice
    ((s.dev.ctx c).pinRight = false ∨ 12 < x.otherPins tc + w → ∃ t, exec (.cacheCtlPin c q) s = .next t ∧
      (t.dev.item c q).map (fun y => (y.phase, y.err)) = some (.done, some (it.err.getD
        (.pinRefused, if (s.dev.ctx c).pinRight then 2 else 1))) ∧ (t.dev.slice it.slice).pins = x.pins) ∧
    ((s.dev.ctx c).pinRight = true → x.otherPins tc + w ≤ 12 → w ≤ (x.pins.getD tc []).length →
      ∃ t, exec (.cacheCtlPin c q) s = .next t ∧ finished s t c q ∧ t.dev.mem = s.dev.mem ∧
        t.dev.slice it.slice = { x with pins := x.pins.set tc (x.newWays tc w), lastPin := c }) ∧
    ((s.dev.ctx c).pinRight = true → x.otherPins tc + w ≤ 12 → (x.pins.getD tc []).length < w →
      ∃ t, exec (.cacheCtlPin c q) s = .next t ∧ t.dev.mem = s.dev.mem ∧
        (t.dev.item c q).map Item.phase = some .running ∧ t.dev.slice it.slice = { x with scan := some (c, q), lastPin := c })) ∧
  (∀ s i c q it, (s.dev.slice i).scan = some (c, q) → s.dev.item c q = some it →
    let tc := field it.desc 0x11 1
    let ws := (s.dev.slice i).newWays tc (field it.desc 0x12 1)
    ∃ t, exec (.pinScanDone i) s = .next t ∧ finished s t c q ∧ (t.dev.slice i).scan = none ∧
      (t.dev.slice i).pins = (s.dev.slice i).pins.set tc ws ∧
      ∀ y ∈ t.dev.mem.lines, y ∈ s.dev.mem.lines ∧ ¬(y.die ∈ (s.dev.slice i).dies ∧ y.way ∈ ws ∧
        y.way ∉ (s.dev.slice i).pins.getD tc [] ∧ y.tc ≠ tc ∧ y.st = .modified)) ∧
  (∀ s c q it key, startable s c q 5 it → field it.desc 0x10 1 = 1 → ∀ l,
    (∀ j, j < field it.desc 0x20 8 / 128 →
      translate s.dev c (field it.desc 0x18 8 + 128 * j) .write = .ok (.dev (128 * (l + j)), key)) →
    (∀ m ∈ s.dev.mem.misses, m.line < l ∨ l + field it.desc 0x20 8 / 128 ≤ m.line) →
    ∃ t, exec (.cacheCtlDiscard c q) s = .next t ∧ finished s t c q ∧ t.dev.mem.dram = s.dev.mem.dram ∧
      ∀ j, j < field it.desc 0x20 8 / 128 → t.dev.mem.cached false (l + j) = none ∧
        FMap.get false t.dev.mem.dead (l + j) = true) ∧
  (∀ s w off n, ¬(32 ≤ w ∧ s.plat.pow.twoByEight = true ∧ s.plat.pow.linkBUp = false) →
    (FMap.get none s.dev.hub.windows w = none ∨ s.plat.ideShut = true → ∃ t, exec (.hostMemAccess w off (.read n)) s = .next t ∧
      t.dev.sent = .hdmData (List.replicate n 0) false :: s.dev.sent ∧ t.dev.mem = s.dev.mem ∧ t.plat = s.plat ∧
      (FMap.get 0 t.dev.hub.hostErr w).toNat = min ((FMap.get 0 s.dev.hub.hostErr w).toNat + 1) (2 ^ 32 - 1)) ∧
    ∀ c base, FMap.get none s.dev.hub.windows w = some (c, base) → s.plat.ideShut = false →
      (∀ (at_ key : Nat → Nat), 1 ≤ n → sound s → wholeLines s.dev.mem → (∀ i, i < n → translate s.dev c (base + off + i) .read = .ok (.dev (at_ i), key i) ∧
          s.dev.mem.halfBad (at_ i / 64) = false) →
        ∃ t, exec (.hostMemAccess w off (.read n)) s = .next t ∧ t.plat = s.plat ∧ sameBytes s t ∧
          t.dev.sent = .hdmData ((List.range n).map fun i => s.dev.mem.devByte (key i) (at_ i)) false :: s.dev.sent) ∧
      ∀ a key bs, translate s.dev c (base + off) .write = .ok (.dev a, key) → a % 128 + bs.length ≤ 128 → bs ≠ [] →
        sound s → wholeLines s.dev.mem →
        FMap.get false s.dev.mem.bad (a / 128 * 2) = false → FMap.get false s.dev.mem.bad (a / 128 * 2 + 1) = false →
        ∃ t, exec (.hostMemAccess w off (.write bs)) s = .next t ∧ t.plat = s.plat ∧ t.dev.sent = .hdmDone :: s.dev.sent ∧
          (∀ j, j < bs.length → t.dev.mem.devByte key (a + j) = bs.getD j 0) ∧
          ∀ b, b < a ∨ a + bs.length ≤ b → t.dev.mem.devByte key b = s.dev.mem.devByte key b)

namespace Sys2Proof.Spec

/-! ### Accesses of a core and of the memory system (R123 to R130, R211 to R249) -/

/-- A lane's access of `n` bytes is aligned, granted and leads to device or host memory at a place under a key. -/
def laneAt (s : State) (k : KBlock) (va : Int) (n : Nat) (a : Acc) (pl : Place) (key : Nat) : Prop :=
  s.dev.lanePlace k.ctx va n a = .ok (va.toNat, pl, key) ∧ (∀ nd c r, pl ≠ .peer nd c r)

/-- The core's data cache holds a place's line, whole, and not as a prefetch that has not served. -/
def nearLine (d : Device) (k : KBlock) (pl : Place) (key : Nat) : Prop :=
  ∃ y, (d.core k.die k.core).line pl key = some y ∧ y.pref = none ∧ y.data.length = 128 ∧ y.dirty.length = 128

/-- The low `n` bytes of a word of device memory at `a` under a key. -/
def devWord (m : Mem) (key a n : Nat) : Dword := BitVec.ofNat 64 (m.devNat key a n)

/-- Operand pairs of an atomic request. -/
def reqPairs (q : AtomReq) : List (Dword × Dword) := (List.range q.opnds.length).map fun i =>
  (q.opnds.getD i 0, q.cmps.getD i 0)

/-- The value before each step of a list of steps. -/
def atomBefore (op : AtomOp) (ty : AtomTy) (v : Dword) (ps : List (Dword × Dword)) : List Dword :=
  (List.range ps.length).map fun n => atomAfter op ty v ps n

end Sys2Proof.Spec

/-- A global LD brings each lane the bytes its core sees: its data cache where that holds the line, else the coherent memory. (09_collie_cores_and_packs (R168), 10_jeneo_kernel_form (R195), 11_memory_ordering (R211)) -/
def Obligations.GlobalLoadsReadCoherentBytes : Prop :=
  ∀ i b s k x it (pl : Nat → Place) (key : Nat → Nat) (bs : Nat → List Byte),
    issues s (.memLd i b []) i k x it → memOk true k.tregs i b = true → b.space = 0 →
    let n := memBytes b.fmt.toNat
    let ls := x.lanes (memFields true i b) i.guard
    (∀ l ∈ ls, laneAt s k (memAddr i b x l) n .read (pl l) (key l) ∧
      s.dev.coreBytes k.die k.core ⟨k.ctx, k.seq, some k.die, none⟩ n (memAddr i b x l).toNat = .ok (bs l)) →
    ((s.dev.evictCore k.die k.core []).1.touchLines k i.pack true
      (ls.map fun l => (pl l, key l, (memAddr i b x l).toNat))).2.2 = none → k.tregs ≤ 128 → coreSound s.dev k.die k.core →
    ∃ t, exec (.memLd i b []) s = .next t ∧ t.plat = s.plat ∧ t.pending = s.pending ∧
      (∀ q, q ≠ i.pack → (t.dev.pack q).regs = (s.dev.pack q).regs) ∧
      (t.dev.pack i.pack).pc = x.pc + (if i.imm.isSome then 2 else 1) ∧ (t.dev.pack i.pack).preds = x.preds ∧
      (t.dev.pack i.pack).mask = x.mask ∧ (t.dev.pack i.pack).live = x.live ∧
      (∀ l r, r < 128 → ¬(l ∈ ls ∧ b.data.toNat ≤ r ∧ r < b.data.toNat + memRegs b.fmt.toNat) →
        treg (t.dev.pack i.pack) l r = treg x l r) ∧
      (∀ l ∈ ls, ∀ j, j < memRegs b.fmt.toNat → b.data ≠ 0xC1#8 →
        opnd (t.dev.pack i.pack) none l (b.data + BitVec.ofNat 8 j) = (loadWords b.fmt.toNat (bs l)).getD j 0) ∧
      ((∀ l ∈ ls, nearLine s.dev k (pl l) (key l)) → coreFrame k i.pack s t)

/-- A global ST lays its bytes over the core's own line and marks them dirty; a DISCARD leaves no copy and a dead mark. (09_collie_cores_and_packs (R168), 10_jeneo_kernel_form (R195), 12_caches_prefetch_inflight (R232), 12_caches_prefetch_inflight (R233)) -/
def Obligations.GlobalStoresAndDiscards : Prop :=
  (∀ i b s k x it (pl : Nat → Place) (key : Nat → Nat),
    issues s (.memSt i b []) i k x it → memOk false k.tregs i b = true → b.space = 0 → k.core < 16 →
    let n := memBytes b.fmt.toNat
    let ls := x.lanes (memFields false i b) i.guard
    (∀ l ∈ ls, laneAt s k (memAddr i b x l) n .write (pl l) (key l) ∧ nearLine s.dev k (pl l) (key l)) →
    ∃ t, exec (.memSt i b []) s = .next t ∧ outerFrame k s t ∧ t.dev.pack i.pack = movedOn i x ∧
      (∀ q, q ≠ i.pack → t.dev.pack q = s.dev.pack q) ∧ t.dev.collie.blocks = s.dev.collie.blocks ∧
      ∀ p kk y, (s.dev.core k.die k.core).line p kk = some y → y.data.length = 128 → y.dirty.length = 128 →
        ∃ z, (t.dev.core k.die k.core).line p kk = some z ∧ ∀ o, o < 128 →
          match (ls.filter fun l => decide (linePlace (pl l) = linePlace p ∧ key l = kk ∧
              (memAddr i b x l).toNat % 128 ≤ o ∧ o < (memAddr i b x l).toNat % 128 + n)).getLast? with
          | some l => z.data.getD o 0 = (storeBytes i b x l).getD (o - (memAddr i b x l).toNat % 128) 0 ∧
              z.dirty.getD o false = true
          | none => z.data.getD o 0 = y.data.getD o 0 ∧ z.dirty.getD o false = y.dirty.getD o false) ∧
  (∀ i b s k x it (a : Nat → Nat) (key : Nat → Nat),
    issues s (.memDiscard i b) i k x it → discardOk k.tregs i b = true → k.core < 16 →
    let ls := x.lanes (discardFields i b) i.guard
    (∀ l ∈ ls, laneAt s k (memAddr i b x l) 128 .write (.dev (a l)) (key l) ∧
      ∀ m ∈ s.dev.mem.misses, m.line ≠ a l / 128) →
    ∃ t, exec (.memDiscard i b) s = .next t ∧ t.plat = s.plat ∧ t.dev.pack i.pack = movedOn i x ∧
      t.dev.mem.dram = s.dev.mem.dram ∧ t.dev.mem.bad = s.dev.mem.bad ∧
      ∀ l ∈ ls, t.dev.mem.cached false (a l / 128) = none ∧ FMap.get false t.dev.mem.dead (a l / 128) = true ∧
        ∀ z ∈ (t.dev.core k.die k.core).lines, z.at_ ≠ .dev (a l / 128 * 128))

/-- An atomic on device memory returns each lane the value before its step and leaves the last value, at any scope. (07_afnex_memory_and_stash (R129), 07_afnex_memory_and_stash (R130), 09_collie_cores_and_packs (R176), 13_rings_doorbells_completions (R249)) -/
def Obligations.AtomicsOnGlobalMemory : Prop :=
  (∀ c i b op s k x it ty a va key, atomRows c = some (i, b, op) → issues s c i k x it →
    atomOk op k.tregs i b = true → atomTyOf op b.fmt.toNat = some ty → b.space = 0 →
    let ls := x.lanes (atomFields op b) i.guard
    let n := if atomBytes ty = 8 then 2 else 1
    let ps := ls.map fun l => (x.read i.imm l b.opnd n, x.read i.imm l b.cmp n)
    let old := devWord s.dev.mem key a (atomBytes ty)
    ls ≠ [] → (∀ l ∈ ls, (opnd64 x i.imm l b.addr).toNat = va) → laneAt s k va (atomBytes ty) .atomic (.dev a) key →
    (s.dev.core k.die k.core).line (.dev a) key = none → FMap.get false s.dev.mem.bad (a / 64) = false →
    wholeLines s.dev.mem → FMap.get 0 s.dev.mem.weak (a / 64) ≠ 2 →
    let near := s.dev.touchDie k i.pack [(.dev a, key, va)]
    (b.scope.toNat ≤ 1 → near.2.2 = none) →
    ∃ t, exec c s = .next t ∧ t.plat = s.plat ∧ t.pending = s.pending ∧ (t.dev.pack i.pack).slot = none ∧
      (t.dev.pack i.pack).wait = (if b.scope.toNat ≤ 1 ∧ near.2.1 = .far then some .miss else none) ∧ (t.dev.pack i.pack).pc = x.pc + 1 ∧ (t.dev.pack i.pack).preds = x.preds ∧
      (∀ q, q ≠ i.pack → t.dev.pack q = s.dev.pack q) ∧
      devWord t.dev.mem key a (atomBytes ty) = atomAfter op ty old ps ps.length ∧
      ∀ j, j < ls.length → b.dst ≠ 0xC1#8 →
        (if n = 2 then opnd64 (t.dev.pack i.pack) none (ls.getD j 0) b.dst
          else (opnd (t.dev.pack i.pack) none (ls.getD j 0) b.dst).setWidth 64) = atomAfter op ty old ps j) ∧
  (∀ s c q r a key, atomLegal r.op r.ty = true → r.addr % atomBytes r.ty = 0 → a % atomBytes r.ty = 0 →
    wholeLines s.dev.mem → translate s.dev c r.addr .atomic = .ok (.dev a, key) → FMap.get false s.dev.mem.bad (a / 64) = false →
    FMap.get 0 s.dev.mem.weak (a / 64) ≠ 2 →
    let old := devWord s.dev.mem key a (atomBytes r.ty)
    ∃ t, exec (.combinerAtomic c q r) s = .next t ∧ t.plat = s.plat ∧ t.dev.hub.items = s.dev.hub.items ∧
      t.dev.hub.ctxs = s.dev.hub.ctxs ∧
      t.dev.sent.head? = some (.atomicOld (atomBefore r.op r.ty old (reqPairs r))) ∧
      devWord t.dev.mem key a (atomBytes r.ty) = atomAfter r.op r.ty old (reqPairs r) r.opnds.length ∧
      ∀ rk y, y / 128 ≠ a / 128 → t.dev.mem.devByte rk y = s.dev.mem.devByte rk y) ∧
  (∀ s c q r a key, atomLegal r.op r.ty = true → r.addr % atomBytes r.ty = 0 → a % atomBytes r.ty = 0 →
    wholeLines s.dev.mem → translate s.dev c r.addr .atomic = .ok (.host a, key) →
    FMap.get 0 s.dev.mem.weak (2 ^ 46 + a / 64) ≠ 2 →
    let word := fun (m : Mem) => BitVec.ofNat 64 (leNat ((List.range (atomBytes r.ty)).map fun j => m.hostByte (a + j)))
    ∃ t, exec (.hostLineAtomic c q r) s = .next t ∧ t.plat = s.plat ∧ t.dev.hub = s.dev.hub ∧
      t.dev.sent.head? = some (.atomicOld (atomBefore r.op r.ty (word s.dev.mem) (reqPairs r))) ∧
      word t.dev.mem = atomAfter r.op r.ty (word s.dev.mem) (reqPairs r) r.opnds.length ∧
      t.dev.mem.dram = s.dev.mem.dram ∧
      ∀ y, y < a ∨ a + atomBytes r.ty ≤ y → t.dev.mem.hostByte y = s.dev.mem.hostByte y)

/-- ENG.ISSUE of a vector list writes the core's lines back, queues the record on the engine, and returns a token. (09_collie_cores_and_packs (R179), 09_collie_cores_and_packs (R180), 09_collie_cores_and_packs (R181), 11_memory_ordering (R218)) -/
def Obligations.EngIssueGivesATokenAndQueuesTheWork : Prop :=
  ∀ i b s k x kit rec tok, issues s (.engIssue i b) i k x kit → engIssueOk i b = true → b.kind = 1 →
    b.k.toNat < 8 ∨ b.k = 15 →
    let a := (opnd x none 0 b.src).toNat
    let r := (List.range 64).map fun j => FMap.get 0 k.mem (a + j)
    let q := 2 ^ 32 + s.dev.hub.workSeq
    a + 64 ≤ k.memLen → workRecordOk 1 r = true → field r 0x18 1 = 1 → field r 0x10 8 % 64 = 0 →
    coreSound s.dev k.die k.core → k.freeToken = some tok →
    ((s.dev.cleanCore k.die k.core).1.h0Bytes ⟨k.ctx, k.seq, none, none⟩ 128 (field r 0x10 8)).readBytes
      ⟨k.ctx, k.seq, none, none⟩ 128 (field r 0x10 8) = .ok rec → saveOk rec = true → saves? rec = false →
    claimWords rec = [] → (∀ y ∈ s.dev.hub.items, y.ctx = k.ctx → y.seq ≠ q) → (s.dev.die k.die).ve.st = .on →
    (∀ e, e < 8 → (s.dev.vecEng k.die e).queue.length < 64) →
    ∃ t e k1 w, exec (.engIssue i b) s = .next t ∧ t.plat = s.plat ∧ e < 8 ∧ (b.k.toNat < 8 → e = b.k.toNat) ∧
      (b.k = 15 → ∀ f, f < 8 → (s.dev.vecEng k.die e).queue.length ≤ (s.dev.vecEng k.die f).queue.length) ∧
      t.dev.block (i.pack / 16) = some k1 ∧ k1 = { k with
        tokens := (k.tokens.filter fun y => y.tok != tok) ++ [⟨tok, q, none⟩] } ∧
      (k.tokens.length < 65536 → ∀ y ∈ k.tokens, y.tok ≠ tok) ∧
      (b.result ≠ 0xC1#8 → opnd (t.dev.pack i.pack) none 0 b.result = BitVec.ofNat 32 tok) ∧
      (t.dev.pack i.pack).pc = x.pc + 1 ∧ (k.ctx, q) ∈ (t.dev.vecEng k.die e).queue ∧
      t.dev.item k.ctx q = some w ∧ w.phase = .dispatched ∧ w.cls = kit.cls ∧ w.slice = kit.slice ∧ w.desc = r ∧
      w.oprec = rec ∧ w.issuedBy = some (i.pack / 16, tok) ∧
      (∀ y ∈ (t.dev.core k.die k.core).lines, y.dirty.any id = false)

/-- Fills read and deliver lines, and the host takes its lines back. (07_afnex_memory_and_stash (R122), 07_afnex_memory_and_stash (R124), 07_afnex_memory_and_stash (R125), 07_afnex_memory_and_stash (R126), 12_caches_prefetch_inflight (R235), 12_caches_prefetch_inflight (R239), 11_memory_ordering (R221), 12_caches_prefetch_inflight (R226)) -/
def Obligations.FillsDeliverLinesAndTheHostTakesThemBack : Prop :=
  (
    (∀ s die line lo hi, 40 ≤ die → line < 16106127360 ∨ 2 ^ 45 ≤ line →
      let w := fun e : Ecc => if e = .clean then 0 else if e = .corrected then 1 else 2
      ∃ t, exec (.demandMissFill die line lo hi) s = .next t ∧ t = { s with dev := { s.dev with mem := t.dev.mem } } ∧
        t.dev.mem = { s.dev.mem with weak := t.dev.mem.weak } ∧ FMap.get 0 t.dev.mem.weak (2 * line) = w lo ∧
        FMap.get 0 t.dev.mem.weak (2 * line + 1) = w hi) ∧
    (∀ s die line x, die < 40 → line < 16106127360 → s.dev.mem.misses = [x] → x.die = die → x.line = line → x.pref = false →
      x.discard = false → x.waiters ≠ [] → (s.dev.die die).dcache.st = .on →
      (∀ w ∈ x.waiters, ∀ y, s.dev.item w.ctx w.seq = some y → y.isWork = false) →
      (∀ e ∈ s.dev.collie.cores, ∀ y ∈ e.2.lines, y.at_ = .dev (128 * line) → y.by_ = []) →
      (∀ y ∈ s.dev.mem.lines, y.host = false → y.line ≠ line) →
      ∀ lo hi, FMap.get false s.dev.mem.bad (2 * line) = false → FMap.get false s.dev.mem.bad (2 * line + 1) = false →
      (lo ≠ .uncorrectable → hi ≠ .uncorrectable → ∃ t, exec (.demandMissFill die line lo hi) s = .next t ∧
        t.plat = s.plat ∧ t.dev.mem.misses = [] ∧
        t.dev.hub.items = s.dev.hub.items ∧
        ∃ y ∈ t.dev.mem.lines, y.die = die ∧ y.line = line ∧ y.host = false ∧ y.st = .exclusive ∧ y.tc = x.tc ∧
          y.key = FMap.get 0 s.dev.mem.lineKey line ∧ y.data = s.dev.mem.rawLine line) ∧
      (lo = .uncorrectable → numbersApart s.dev → ∃ t, exec (.demandMissFill die line lo hi) s = .next t ∧
        (∀ w ∈ x.waiters, ∀ y, s.dev.item w.ctx w.seq = some y →
          ∃ z, t.dev.item w.ctx w.seq = some z ∧ z.phase = .done ∧ (y.err = none →
            z.err.map Prod.fst = some .eccUncorrectable)) ∧
        (t.dev.memBlk (128 * line / 4096 % 20)).ueSeen = true ∧ ∀ y ∈ t.dev.mem.lines, ¬(y.host = false ∧ y.line = line))) ∧
    (∀ s die line x lo hi, line < 16106127360 → s.dev.mem.misses = [x] → x.die = die → x.line = line → x.pref = true →
      x.waiters = [] → x.discard = false → x.unit < 16 ∨ (s.dev.die die).l1En = false → (s.dev.die die).dcEn = true → lo ≠ .uncorrectable →
      hi ≠ .uncorrectable → (∀ y ∈ s.dev.mem.lines, y.host = false → y.line ≠ line) →
      FMap.get false s.dev.mem.bad (2 * line) = false → FMap.get false s.dev.mem.bad (2 * line + 1) = false →
      ∃ t, exec (.prefetchFill die line lo hi) s = .next t ∧ t.plat = s.plat ∧ t.dev.mem.misses = [] ∧
        t.dev.hub.items = s.dev.hub.items ∧ ∃ y ∈ t.dev.mem.lines, y.die = die ∧ y.line = line ∧ y.host = false ∧
          y.pref = some x.ctx ∧ y.data = s.dev.mem.rawLine line) ∧
    (∀ s half e, half < 32212254720 → let i := 64 * half / 4096 % 20
      (s.dev.memBlk i).scrub ≠ 0 → (s.dev.memBlk i).blk.st = .on → FMap.get false s.dev.mem.bad half = false →
      ∃ t, exec (.patrolScrubRead half e) s = .next t ∧ t.plat = s.plat ∧ t.dev.hub = s.dev.hub ∧
        t.dev.mem.dram = s.dev.mem.dram ∧
        (t.dev.memBlk i).ce.toNat = min ((s.dev.memBlk i).ce.toNat + if e = .corrected then 1 else 0) (2 ^ 32 - 1) ∧
        (t.dev.memBlk i).ue.toNat = min ((s.dev.memBlk i).ue.toNat + if e = .uncorrectable then 1 else 0) (2 ^ 32 - 1) ∧
        (e = .uncorrectable → (t.dev.memBlk i).eccValid = true ∧
          ((s.dev.memBlk i).eccValid = false → (t.dev.memBlk i).eccAddr = 64 * half / 4096 / 20 * 4096 + 64 * half % 4096))) ∧
    (∀ s die line lo hi e, 16106127360 ≤ line →
      (line < 2 ^ 45 → exec (.demandMissFill die line lo hi) s = .fault .noSuchDeviceAddress) ∧
      exec (.prefetchFill die line lo hi) s = .fault .noSuchDeviceAddress ∧
      exec (.patrolScrubRead (2 * line) e) s = .fault .noSuchDeviceAddress ∧
      exec (.backInvalidationResponse line) s = .fault .noSuchDeviceAddress)) ∧
  (
    (∀ s l takes x, s.dev.mem.cached true l = some x → ∃ t, exec (.cxlCacheSnoop l takes) s = .next t ∧ t.plat = s.plat ∧
      t.dev.mem.dram = s.dev.mem.dram ∧ t.dev.hub = s.dev.hub ∧
      (takes = true → t.dev.mem.cached true l = none) ∧
      (takes = false → ∀ y ∈ t.dev.mem.lines, y.host = true → y.line = l → y.st = .shared) ∧
      (∀ y ∈ s.dev.mem.lines, ¬(y.host = true ∧ y.line = l) → y ∈ t.dev.mem.lines) ∧
      match s.dev.mem.modified true l with
      | some y => t.dev.sent = .snoopData l y.data :: s.dev.sent ∧
          (y.data.length = 128 → ∀ o, o < 128 → FMap.get 0 t.dev.mem.hostMem (128 * y.line + o) = y.data.getD o 0)
      | none => t.dev.sent = s.dev.sent ∧ t.dev.mem.hostMem = s.dev.mem.hostMem) ∧
    (∀ s l, l < 16106127360 → exec (.backInvalidationResponse l) s = .next (
      if FMap.get 0 s.dev.mem.hostHeld l = 2
      then { s with dev := { s.dev with mem := { s.dev.mem with hostHeld := FMap.set 0 s.dev.mem.hostHeld l 0 } } } else s)))

namespace Sys2Proof.Spec

/-! ### Die caches and device bits (R225, R226) -/

/-- The die caches agree: whole lines, one copy a die, and a line that several dies hold is shared in each (R226). -/
def coherent (m : Mem) : Prop :=
  (∀ x ∈ m.lines, x.data.length = 128) ∧ m.lines.Pairwise fun x y => x.host = y.host → x.line = y.line →
    x.die ≠ y.die ∧ x.st = .shared ∧ y.st = .shared

/-- Bit `n` of the bytes from device address `a` on, as a reader under a key sees them. -/
def devBit (m : Mem) (key a n : Nat) : Bool := (m.devByte key (a + n / 8)).getLsbD (n % 8)

/-- `len` bytes of a context's space that may be read and written and lie in good device memory from `a` on. -/
def spanAt (s : State) (c va len key a : Nat) : Prop := ∀ j, j < len →
  translate s.dev c (va + j) .read = .ok (.dev (a + j), key) ∧ translate s.dev c (va + j) .write = .ok (.dev (a + j), key) ∧
    FMap.get false s.dev.mem.bad ((a + j) / 64) = false

/-! ### Vector engines (R142 to R157) -/

/-- The entry of the list that the engine has come to holds the instruction, and its lines have come: the device then (R435). -/
def listHolds (s : State) (c : Instr) (v : VecArgs) (x : VecIn) (d : Device) : Prop := ∃ w mk,
  s.dev.fetch x.actor x.die (8 + x.k) (fun _ => 4) (fun a => s.dev.listEntry x.it a x.eng.listPos) = .got d (w, x.u) ∧
  listWordOk w = true ∧ w.extractLsb' 0 46 = v.body.bits ∧ jkfVec (w.extractLsb' 52 8).toNat = some (mk, v.seg) ∧ mk v = c

/-- A vector instruction that its engine may issue, with N from 1 to 4,096: from a pack whose kernel has it at its pc and whose block holds the engine, or from
an entry of the list the engine runs that is not its last. `x` is what it finds, `d` the device once a list's entry has come. -/
def vecAt (s : State) (c : Instr) (v : VecArgs) (words : Nat) (fmts : List Nat) (draws : Bool) (x : VecIn) (d : Device) :
    Prop :=
  x.body = v.body ∧ 0 < x.n ∧ x.n ≤ 4096 ∧ x.k < 8 ∧ x.eng = s.dev.vecEng x.die x.k ∧ x.held = none ∧
  x.seed = (s.dev.ctx x.it.ctx).seed ∧ v.body.fmt.toNat ∈ fmts ∧
  s.plat.pow.unitRuns x.die (8 + x.k) = true ∧ (draws = true → (s.dev.die x.die).rng.st = .on) ∧
  match v.src with
  | .pack q rep => ∃ k p, issues s c ⟨q, none, none, rep.rivals⟩ k p x.it ∧ x.die = k.die ∧ d = s.dev ∧
      (s.dev.die x.die).ve.st = .on ∧ x.eng.stream = false ∧ x.k = v.body.k.toNat ∧ v.body.k.toNat ∈ k.held ∧ v.body.ub.toNat + words ≤ 64 ∧
      x.u = (List.range words).map fun j => ureg p (v.body.ub.toNat + j)
  | .list die k u _ => listHolds s c v x d ∧ ((s.dev.die x.die).ve.st = .on ∨ (s.dev.die x.die).ve.st = .stopping) ∧ x.die = die ∧ x.k = k ∧ x.u = u ∧ v.body.k = 0 ∧ v.body.ub = 0 ∧
      x.eng.running = some (x.it.ctx, x.it.seq) ∧ s.dev.item x.it.ctx x.it.seq = some x.it ∧ x.it.isList = true ∧
      x.eng.listPos + 1 < field x.it.desc 0x38 4

/-- What a vector instruction leaves: the other engines, the always-on domain, the update sequencer, Reel and ports; it is
counted, and its pack or list moves on. -/
def vecFrame (v : VecArgs) (x : VecIn) (s t : State) : Prop :=
  let a := t.dev.vecEng x.die x.k
  t.pending = s.pending ∧ t.plat = s.plat ∧ t.dev.ups = s.dev.ups ∧ t.dev.reel = s.dev.reel ∧ t.dev.ports = s.dev.ports ∧
  (∀ die e, e < 8 → ¬(die = x.die ∧ e = x.k) → t.dev.vecEng die e = s.dev.vecEng die e) ∧
  a.holder = x.eng.holder ∧ a.queue = x.eng.queue ∧ a.running = x.eng.running ∧ a.parked = x.eng.parked ∧
  (t.dev.counter x.it.ctx 73).toNat = min ((s.dev.counter x.it.ctx 73).toNat + 1) (2 ^ 64 - 1) ∧
  match v.src with
  | .pack q _ => t.dev.collie.blocks = s.dev.collie.blocks ∧
      t.dev.pack q = { s.dev.pack q with pc := (s.dev.pack q).pc + 1 } ∧ ∀ p, p ≠ q → t.dev.pack p = s.dev.pack p
  | .list _ _ _ _ => t.dev.collie = s.dev.collie ∧ a.listPos = x.eng.listPos + 1

/-- Is element `i` active? -/
def vecActive (x : VecIn) (i : Nat) : Prop := i < x.n ∧ x.eng.mbit x.body.vm i = true

/-- The register vd takes `f i` in each active element; every other element and every mask stays. -/
def vecSets (x : VecIn) (t : State) (f : Nat → Option Word) : Prop :=
  (t.dev.vecEng x.die x.k).masks = x.eng.masks ∧ ∀ (r : BitVec 4) i, i < 4096 →
    (r = x.body.vd → vecActive x i → ∀ w, f i = some w → (t.dev.vecEng x.die x.k).elem r i = w) ∧
    (¬(r = x.body.vd ∧ vecActive x i) → (t.dev.vecEng x.die x.k).elem r i = x.eng.elem r i)

/-- The mask vmx takes `f i` in the bit of each active element, but vm0 stays ones; every other bit and register stays. -/
def vecMarks (x : VecIn) (t : State) (f : Nat → Bool) : Prop :=
  (t.dev.vecEng x.die x.k).regs = x.eng.regs ∧ ∀ (j : BitVec 3) i, i < 4096 →
    ((t.dev.vecEng x.die x.k).mbit j i = true ↔
      if j = 0 then True else if j = x.body.vmx ∧ i < x.n ∧ x.eng.mbit x.body.vm i = true then f i = true
      else x.eng.mbit j i = true)

/-- The element-wise instructions: what they compute from the format and the elements; none where no result is stated. -/
def vecRows : Instr → Option (VecArgs × List Nat × (Nat → Word → Word → Word → Option Word))
  | .vecFpAdd v => some (v, [0], fun _ a b _ => some (Fp.add a b))
  | .vecFpSub v => some (v, [0], fun _ a b _ => some (Fp.sub a b))
  | .vecFpMul v => some (v, [0], fun _ a b _ => some (Fp.mul a b))
  | .vecFpFma v => some (v, [0], fun _ a b c => some (Fp.fma a b c))
  | .vecFpMin v => some (v, [0], fun _ a b _ => some (Fp.min a b))
  | .vecFpMax v => some (v, [0], fun _ a b _ => some (Fp.max a b))
  | .vecFpAbs v => some (v, [0], fun _ a _ _ => some (Fp.abs a))
  | .vecFpNeg v => some (v, [0], fun _ a _ _ => some (Fp.neg a))
  | .vecFpCopysign v => some (v, [0], fun _ a b _ => some (Fp.copysign a b))
  | .vecDiv v => some (v, [0], fun _ a b _ => some (Fp.div a b))
  | .vecSqrt v => some (v, [0], fun _ a _ _ => some (Fp.sqrt a))
  | .vecRsqrt v => some (v, [0], fun _ a _ _ => some (Fp.rsqrt a))
  | .vecRecip v => some (v, [0], fun _ a _ _ => some (Fp.recip a))
  | .vecExp2 v => some (v, [0], fun _ a _ _ => some (Fp.exp2 a))
  | .vecLog2 v => some (v, [0], fun _ a _ _ => some (Fp.log2 a))
  | .vecIntAdd v => some (v, [1, 2], fun _ a b _ => some (a + b))
  | .vecIntSub v => some (v, [1, 2], fun _ a b _ => some (a - b))
  | .vecIntMullo v => some (v, [1, 2], fun _ a b _ => some (a * b))
  | .vecIntMin v => some (v, [1, 2], fun m a b _ => some (if (if m = 1 then b.slt a else b.ult a) then b else a))
  | .vecIntMax v => some (v, [1, 2], fun m a b _ => some (if (if m = 1 then a.slt b else a.ult b) then b else a))
  | .vecIntShl v => some (v, [1, 2], fun _ a b _ => if b.toNat < 32 then some (a <<< b.toNat) else none)
  | .vecIntShr v => some (v, [1, 2], fun _ a b _ => if b.toNat < 32 then some (a >>> b.toNat) else none)
  | .vecIntSar v => some (v, [1, 2], fun _ a b _ => if b.toNat < 32 then some (a.sshiftRight b.toNat) else none)
  | .vecIntAnd v => some (v, [1, 2], fun _ a b _ => some (a &&& b))
  | .vecIntOr v => some (v, [1, 2], fun _ a b _ => some (a ||| b))
  | .vecIntXor v => some (v, [1, 2], fun _ a b _ => some (a ^^^ b))
  | .vecIntNot v => some (v, [1, 2], fun _ a _ _ => some (~~~a))
  | _ => none

/-- The random and dropout instructions: what they compute from the word of R154 and element `va` of the operands. -/
def vecRandRows : Instr → Option (VecArgs × Bool × List Nat × (VecIn → Word → Word → Word))
  | .randU32 v => some (v, false, List.range 16, fun _ w _ => w)
  | .randUni v => some (v, false, List.range 16, fun _ w _ => ofNum (.fin false (w.toNat / 256) (-24)))
  | .dropFwd v => some (v, true, [0], fun x w a => if w.toNat < (x.arg 5).toNat then 0 else Fp.mul a (x.arg 6))
  | .dropBwd v => some (v, true, [0], fun x w a => if w.toNat < (x.arg 5).toNat then 0 else Fp.mul a (x.arg 6))
  | _ => none

/-- Comparisons and class tests; a class test sees every integer as finite (log 50). -/
def vecTestRows : Instr → Option (VecArgs × (Nat → Word → Word → Bool))
  | .vecCmpEq v => some (v, fun m a b => if m = 0 then Num.eq (toNum a) (toNum b) else a == b)
  | .vecCmpNe v => some (v, fun m a b => if m = 0 then !Num.eq (toNum a) (toNum b) else a != b)
  | .vecCmpLt v => some (v, fun m a b => if m = 0 then Num.lt (toNum a) (toNum b) else if m = 1 then a.slt b else a.ult b)
  | .vecCmpLe v => some (v, fun m a b => if m = 0 then Num.lt (toNum a) (toNum b) || Num.eq (toNum a) (toNum b)
      else if m = 1 then a.sle b else a.ule b)
  | .vecCmpIsnan v => some (v, fun m a _ => decide (m = 0) && match toNum a with
      | .nan => true
      | _ => false)
  | .vecCmpIsinf v => some (v, fun m a _ => decide (m = 0) && match toNum a with
      | .inf _ => true
      | _ => false)
  | .vecCmpIsfinite v => some (v, fun m a _ => decide (m ≠ 0) || match toNum a with
      | .fin _ _ _ => true
      | _ => false)
  | _ => none

/-- What a reduction or a scan combines with, by the element's type: sums, the smaller, the larger, or bits. -/
def typedAdd (m : Nat) (a b : Word) : Word := if m = 0 then Fp.add a b else a + b
def typedMin (m : Nat) (a b : Word) : Word :=
  if m = 0 then Fp.min a b else if (if m = 1 then b.slt a else b.ult a) then b else a
def typedMax (m : Nat) (a b : Word) : Word :=
  if m = 0 then Fp.max a b else if (if m = 1 then a.slt b else a.ult b) then b else a

/-- Reductions. -/
def vecRedRows : Instr → Option (VecArgs × (Nat → Word → Word → Word))
  | .vecRedSum v => some (v, typedAdd)
  | .vecRedMin v => some (v, typedMin)
  | .vecRedMax v => some (v, typedMax)
  | .vecRedAnd v => some (v, fun _ a b => a &&& b)
  | .vecRedOr v => some (v, fun _ a b => a ||| b)
  | .vecRedXor v => some (v, fun _ a b => a ^^^ b)
  | _ => none

/-- Scans, with whether they are exclusive. -/
def vecScanRows : Instr → Option (VecArgs × Bool × (Nat → Word → Word → Word))
  | .vecScanAddIncl v => some (v, false, typedAdd)
  | .vecScanMinIncl v => some (v, false, typedMin)
  | .vecScanMaxIncl v => some (v, false, typedMax)
  | .vecScanAddExcl v => some (v, true, typedAdd)
  | .vecScanMinExcl v => some (v, true, typedMin)
  | .vecScanMaxExcl v => some (v, true, typedMax)
  | _ => none

/-- An operation on two values of which either may be absent (R148, R149). -/
def join (f : Word → Word → Word) (a b : Option Word) : Option Word :=
  match a, b with
  | some a, some b => some (f a b)
  | none, b => b
  | a, none => a

/-- Lane `l`'s partial value of N elements, in increasing index. -/
def laneVal (f : Word → Word → Word) (n : Nat) (e : Nat → Option Word) (l : Nat) : Option Word :=
  ((List.range n).filter fun i => i % 128 == l).foldl (fun a i => join f a (e i)) none

/-- The tree over lanes: at level `n` value `j` joins values 2j and 2j + 1 of the level below. -/
def redTree (f : Word → Word → Word) (part : Nat → Option Word) : Nat → Nat → Option Word
  | 0, j => part j
  | n + 1, j => join f (redTree f part n (2 * j)) (redTree f part n (2 * j + 1))

/-- Lane `l` of a beat after `k` of the seven steps, whose distances are 1, 2, 4 and so on. -/
def scanLane (f : Word → Word → Word) (g : Nat → Bool) (e : Nat → Option Word) : Nat → Nat → Bool × Option Word
  | 0, l => (g l, e l)
  | k + 1, l =>
    if l < 2 ^ k then scanLane f g e k l
    else
      let a := scanLane f g e k (l - 2 ^ k)
      let b := scanLane f g e k l
      (a.1 || b.1, if b.1 then b.2 else join f a.2 b.2)

/-- The inclusive value of lane `l` of beat `b`, with the carry of the beats before. -/
def scanVal (f : Word → Word → Word) (g : Nat → Bool) (e : Nat → Option Word) : Nat → Nat → Option Word
  | 0, l => (scanLane f g e 7 l).2
  | b + 1, l =>
    let y := scanLane f (fun j => g (128 * (b + 1) + j)) (fun j => e (128 * (b + 1) + j)) 7 l
    if y.1 then y.2 else join f (scanVal f g e b 127) y.2

/-- Element `i` of a scan: the inclusive value, or the value before it in its segment, else the init operand. -/
def scanElem (excl : Bool) (init : Word) (f : Word → Word → Word) (g : Nat → Bool) (e : Nat → Option Word) (i : Nat) :
    Option Word :=
  if excl then
    if i = 0 ∨ g i = true then some init else some ((scanVal f g e ((i - 1) / 128) ((i - 1) % 128)).getD init)
  else scanVal f g e (i / 128) (i % 128)

/-- The bytes of memory that hold `w` bits from bit `n` on, as a number, and those bits. -/
def memCode (m : Nat → Byte) (n w : Nat) : Nat :=
  leNat ((List.range ((n % 8 + w + 7) / 8)).map fun j => m (n / 8 + j)) / 2 ^ (n % 8) % 2 ^ w

/-- An element as a load widens it (R147). -/
def widened (fmt code scale : Nat) : Word :=
  if fmt = 7 then BitVec.ofInt 32 (signed 8 code)
  else if fmt ≤ 2 ∨ fmt = 8 then BitVec.ofNat 32 code
  else if isMx fmt then ofNum (mxNum fmt code scale)
  else ofNum (elemNum fmt code)

/-- The code an element is stored as (R29, R30, R147, R153): none for a raw byte of more than 8 bits. -/
def narrowed (x : VecIn) (i : Nat) : Option Nat :=
  let w := x.eng.elem x.body.va i
  let v := (x.arg 1).toNat % 256
  let r := convRnd v (cb10 x.seed (x.arg 6) (x.arg 7) (x.arg64 8 + i))
  if x.fmt = 1 ∨ x.fmt = 2 then some w.toNat
  else if x.fmt = 7 then some (convert 7 r (convSat v) (ofSigned w.toInt 0))
  else if x.fmt = 8 then (if w.toNat < 256 then some w.toNat else none)
  else if isMx x.fmt then some (x.mxCodes.2.getD i 0)
  else some (convert x.fmt r (convSat v) (toNum w))

/-- The conversion byte is legal and the base aligned to whole-byte elements. -/
def vecBaseOk (x : VecIn) : Prop :=
  convOk ((x.arg 1).toNat % 256) = true ∧ (fmtBits x.fmt % 8 = 0 → x.arg64 2 % (fmtBits x.fmt / 8) = 0)

/-- A value of type fmt in a register: an FP32 NaN is the canonical one (R23). -/
def canon (fmt : Nat) (w : Word) : Word := if fmt = 0 ∧ toNum w = .nan then 0x7FC00000#32 else w

/-- Loads and stores of consecutive and of strided elements. -/
def vecMemRows : Instr → Option (VecArgs × Bool × Nat × (VecIn → Nat))
  | .vecLd v => some (v, true, 10, fun _ => 1)
  | .vecLds v => some (v, true, 11, fun x => (x.arg 10).toNat)
  | .vecSt v => some (v, false, 10, fun _ => 1)
  | .vecSts v => some (v, false, 11, fun x => (x.arg 10).toNat)
  | _ => none

end Sys2Proof.Spec

/-- An element-wise, select, convert, random or dropout instruction writes its result to each active element of vd, and nothing else. (08_vector_engines_and_randomness (R143), 08_vector_engines_and_randomness (R144), 08_vector_engines_and_randomness (R146), 08_vector_engines_and_randomness (R155), 08_vector_engines_and_randomness (R157)) -/
def Obligations.VectorElementsAreComputed : Prop :=
  (∀ c v fmts f s x d, vecRows c = some (v, fmts, f) → vecAt s c v 1 fmts false x d →
    ∃ t, exec c s = .next t ∧ vecFrame v x s t ∧ sameBytes s t ∧
      vecSets x t fun i => f x.fmt (x.eng.elem x.body.va i) (x.eng.elem x.body.vb i) (x.eng.elem x.body.vc i)) ∧
  (∀ c v s x d, (c = .vecFpSel v ∧ vecAt s c v 1 [0] false x d) ∨ (c = .vecIntSel v ∧ vecAt s c v 1 [1, 2] false x d) →
    ∃ t, exec c s = .next t ∧ vecFrame v x s t ∧ sameBytes s t ∧
      vecSets x t fun i =>
        let w := if x.eng.mbit x.body.vmx i then x.eng.elem x.body.va i else x.eng.elem x.body.vb i
        some (canon x.fmt w)) ∧
  (∀ v s x d, vecAt s (.vecCvt v) v 2 [0, 1, 2] false x d → (x.arg 1).toNat ≤ 2 →
    ∃ t, exec (.vecCvt v) s = .next t ∧ vecFrame v x s t ∧ sameBytes s t ∧
      vecSets x t fun i =>
        let w := x.eng.elem x.body.va i
        if x.fmt = 0 then some (if (x.arg 1).toNat = 1 then Fp.ofS32 w else if (x.arg 1).toNat = 2 then Fp.ofU32 w
          else canon 0 w)
        else if (x.arg 1).toNat = 0 then some (if x.fmt = 1 then Fp.toS32 .nearest w else Fp.toU32 .nearest w)
        else some w) ∧
  (∀ c v drop fmts f s x d, vecRandRows c = some (v, drop, fmts, f) → vecAt s c v 8 fmts true x d →
    ∃ t, exec c s = .next t ∧ vecFrame v x s t ∧ sameBytes s t ∧
      vecSets x t fun i =>
        let j := if drop ∧ (x.arg 7).getLsbD 0 = true then (x.eng.elem x.body.vb i).toNat else i
        some (f x (cb10 x.seed (x.arg 1) (x.arg 2) (x.arg64 3 + j)) (x.eng.elem x.body.va i)))

/-- Comparisons and RAND.BERN set mask bits, a reduction writes element 0 in the tree order of R148, a scan follows R149, and a grant counts. (08_vector_engines_and_randomness (R148), 08_vector_engines_and_randomness (R149), 08_vector_engines_and_randomness (R155), 08_vector_engines_and_randomness (R156), 08_vector_engines_and_randomness (R143)) -/
def Obligations.VectorMasksReductionsAndScans : Prop :=
  (∀ c v f s x d, vecTestRows c = some (v, f) → vecAt s c v 1 [0, 1, 2] false x d →
    ∃ t, exec c s = .next t ∧ vecFrame v x s t ∧ sameBytes s t ∧
      vecMarks x t fun i => f x.fmt (x.eng.elem x.body.va i) (x.eng.elem x.body.vb i)) ∧
  (∀ v s x d, vecAt s (.randBern v) v 8 (List.range 16) true x d →
    (x.body.vmx ≠ 0 → ∃ t, exec (.randBern v) s = .next t ∧ vecFrame v x s t ∧ sameBytes s t ∧
      vecMarks x t fun i => decide ((cb10 x.seed (x.arg 1) (x.arg 2) (x.arg64 3 + i)).toNat < (x.arg 5).toNat)) ∧
    (x.body.vmx = 0 → x.it.isWork = false → (s.dev.ctx x.it.ctx).st = .opened → ∃ t, exec (.randBern v) s = .next t ∧
      (t.dev.ctx x.it.ctx).st = .killed ∧ (t.dev.ctx x.it.ctx).fault.code = 0x0403#16)) ∧
  (∀ c v f s x d, vecRedRows c = some (v, f) → vecAt s c v 1 [0, 1, 2] false x d →
    ∃ t, exec c s = .next t ∧ vecFrame v x s t ∧ sameBytes s t ∧
      let e := fun i => if x.eng.mbit x.body.vm i then some (x.eng.elem x.body.va i) else none
      let y := redTree (f x.fmt) (laneVal (f x.fmt) x.n e) 7 0
      (t.dev.vecEng x.die x.k).masks = x.eng.masks ∧ ∀ (r : BitVec 4) i, i < 4096 →
        (t.dev.vecEng x.die x.k).elem r i =
          if r = x.body.vd ∧ i = 0 then (y.map (canon x.fmt)).getD (x.eng.elem r 0) else x.eng.elem r i) ∧
  (∀ c v excl f s x d, vecScanRows c = some (v, excl, f) → vecAt s c v 2 [0, 1, 2] false x d →
    ∃ t, exec c s = .next t ∧ vecFrame v x s t ∧ sameBytes s t ∧
      let g := fun i => decide (i < x.n) && v.seg && x.eng.mbit x.body.vmx i
      let e := fun i => if decide (i < x.n) && x.eng.mbit x.body.vm i then some (x.eng.elem x.body.va i) else none
      vecSets x t fun i => (scanElem excl (x.arg 1) (f x.fmt) g e i).map (canon x.fmt)) ∧
  (∀ s die r it n, (s.dev.die die).rng.st = .on → s.dev.drawer die r.unit = some it → it.cls = r.cls → r.unit < 16 →
    (8 ≤ r.unit → ∃ b, s.dev.vecDraw die (r.unit - 8) = some (it, b) ∧ n = if b % 4 = 0 then 32 else 33) →
    (r.unit < 8 → n = r.blocks ∧ 0 < n ∧ n ≤ 33) →
    ∃ t, exec (.cb10Grant die [r]) s = .next t ∧ t.plat = s.plat ∧ t.dev.mem = s.dev.mem ∧
      t.dev.eng.ves = s.dev.eng.ves ∧ t.dev.eng.res = s.dev.eng.res ∧ t.dev.collie = s.dev.collie ∧
      (t.dev.die die).rngLast = r.unit % 8 ∧ (t.dev.die die).rngWait = 0 ∧
      (t.dev.counter it.ctx 75).toNat = min ((s.dev.counter it.ctx 75).toNat + n) (2 ^ 64 - 1))

/-- VEC loads widen each active element, stores narrow it into its bits, gathers and scatters go by index; nothing else changes. (08_vector_engines_and_randomness (R147), 08_vector_engines_and_randomness (R153), 08_vector_engines_and_randomness (R143), 02_numerics_and_determinism (R29)) -/
def Obligations.VectorLoadsAndStores : Prop :=
  (∀ c v words st s x d d0 (m sc : Nat → Byte), vecMemRows c = some (v, true, words, st) →
    (⟨words, List.range 15, fun _ => false, fun x => x.load (st x)⟩ : VecOp).reads x d = .got d0 () →
    vecAt s c v words (List.range 15) false x d → vecBaseOk x →
    (∀ i, vecActive x i → ∀ j, i * st x * fmtBits x.fmt / 8 ≤ j → j ≤ (i * st x * fmtBits x.fmt + fmtBits x.fmt - 1) / 8 →
      x.byte s.dev (x.arg64 2 + j) = .ok (m j)) →
    (isMx x.fmt = true → ∀ i, vecActive x i → x.byte s.dev (x.arg64 4 + i / 32) = .ok (sc (i / 32))) →
    ∃ t, exec c s = .next t ∧ vecFrame v x s t ∧ sameBytes s t ∧
      vecSets x t fun i =>
        some (widened x.fmt (memCode m (i * st x * fmtBits x.fmt) (fmtBits x.fmt)) (sc (i / 32)).toNat)) ∧
  (∀ c v words st s x d d0 len key a sa sk, vecMemRows c = some (v, false, words, st) →
    (⟨words, List.range 15, VecIn.draws, fun x => x.save (st x)⟩ : VecOp).reads x d = .got d0 () →
    vecAt s c v words (List.range 15) (stochastic ((x.arg 1).toNat % 256) && decide (2 < x.fmt) && x.fmt != 8) x d → vecBaseOk x → coherent s.dev.mem → x.it.claims = [] → x.it.save = none → sound s →
    spanAt s x.it.ctx (x.arg64 2) len key a →
    (∀ i, vecActive x i → (i * st x + 1) * fmtBits x.fmt ≤ 8 * len) →
    (isMx x.fmt = true → spanAt s x.it.ctx (x.arg64 4) ((x.n + 31) / 32) sk sa ∧
      (sa + (x.n + 31) / 32 ≤ a ∨ a + len ≤ sa) ∧ sk = key) →
    ∃ t, exec c s = .next t ∧ vecFrame v x s t ∧ (t.dev.vecEng x.die x.k).regs = x.eng.regs ∧
      (t.dev.vecEng x.die x.k).masks = x.eng.masks ∧ (∀ y, t.dev.mem.hostByte y = s.dev.mem.hostByte y) ∧
      (∀ n, n < 8 * len →
        match ((List.range x.n).filter fun i => x.eng.mbit x.body.vm i && decide (i * st x * fmtBits x.fmt ≤ n ∧
            n < i * st x * fmtBits x.fmt + fmtBits x.fmt)).getLast? with
        | some i => ∀ w, narrowed x i = some w → devBit t.dev.mem key a n = w.testBit (n - i * st x * fmtBits x.fmt)
        | none => devBit t.dev.mem key a n = devBit s.dev.mem key a n) ∧
      (isMx x.fmt = true → ∀ b, b < (x.n + 31) / 32 → t.dev.mem.devByte key (sa + b) =
        if (List.range x.n).any (fun i => x.eng.mbit x.body.vm i && i / 32 == b) = true
        then BitVec.ofNat 8 (x.mxCodes.1.getD b 0) else s.dev.mem.devByte key (sa + b)) ∧
      ∀ y, ¬(a ≤ y ∧ y < a + len) → ¬(isMx x.fmt = true ∧ sa ≤ y ∧ y < sa + (x.n + 31) / 32) →
        t.dev.mem.devByte key y = s.dev.mem.devByte key y) ∧
  (∀ v s x d d0 (m : Nat → Nat → Byte), vecGather.reads x d = .got d0 () → vecAt s (.vecGather v) v 4 [0, 1, 2] false x d → x.arg64 2 % 4 = 0 →
    (∀ i, vecActive x i → ∀ j, j < 4 →
      x.byte s.dev (x.arg64 2 + 4 * (x.eng.elem x.body.vb i).toNat + j) = .ok (m i j)) →
    ∃ t, exec (.vecGather v) s = .next t ∧ vecFrame v x s t ∧ sameBytes s t ∧
      vecSets x t fun i => some (m i 3 ++ m i 2 ++ m i 1 ++ m i 0)) ∧
  (∀ v s x d d0 len key a, vecScatter.reads x d = .got d0 () → vecAt s (.vecScatter v) v 4 [0, 1, 2] false x d → x.arg64 2 % 4 = 0 → coherent s.dev.mem → x.it.save = none → sound s →
    spanAt s x.it.ctx (x.arg64 2) len key a →
    (∀ i, vecActive x i → 4 * (x.eng.elem x.body.vb i).toNat + 4 ≤ len) →
    ∃ t, exec (.vecScatter v) s = .next t ∧ vecFrame v x s t ∧ (t.dev.vecEng x.die x.k).regs = x.eng.regs ∧
      (t.dev.vecEng x.die x.k).masks = x.eng.masks ∧ (∀ y, t.dev.mem.hostByte y = s.dev.mem.hostByte y) ∧
      ∀ y, t.dev.mem.devByte key y =
        match ((List.range x.n).filter fun i => x.eng.mbit x.body.vm i &&
            decide (a ≤ y ∧ (y - a) / 4 = (x.eng.elem x.body.vb i).toNat)).getLast? with
        | some i => (leBytes 4 (x.eng.elem x.body.va i).toNat).getD ((y - a) % 4) 0
        | none => s.dev.mem.devByte key y)

namespace Sys2Proof.Spec

/-! ### Stream operations (R150 to R152, R264, R265) -/

/-- A stream operation, command c, that runs now on engine k of a die, with nothing claimed or saved: an item that engine takes or
runs, or the operation that a pack has begun on an engine its block holds. -/
def streamSet (s : State) (c : Instr) (src : StreamSrc) (code : Nat) (it : Item) (die k : Nat) : Prop :=
  sound s ∧ it.claims = [] ∧ it.save = none ∧ streamLegal it = true ∧ streamAligned it = true ∧ field it.desc 0x19 1 = code ∧ k < 8 ∧
  s.dev.item it.ctx it.seq = some it ∧
  match src with
  | .item c q _ => s.dev.item c q = some it ∧ it.isStream = true ∧ it.isWork = false ∧ s.dev.deferWait it = false ∧
      ((it.phase = .dispatched ∧ s.dev.veOf it = some (die, k) ∧ s.dev.veReady s.plat it die k = true) ∨
        (it.phase = .running ∧ s.dev.streamAt it = some (die, k)))
  | .pack p b rep => (∃ kb x kit, issues s c ⟨p, none, none, rep.rivals⟩ kb x kit ∧
      vecOk 1 (decide (b.fmt.toNat ≤ 15)) b kb = true ∧ die = kb.die ∧ k = b.k.toNat) ∧
      ((s.dev.die die).ve.st = .on ∨ (s.dev.die die).ve.st = .stopping) ∧ s.plat.pow.unitRuns die (8 + k) = true ∧
      s.dev.streamOf p = some it ∧ it.phase = .dispatched ∧ s.dev.writesAway it.ctx it.seq = false ∧
      s.dev.issuedTiles it.ctx it.seq = 0

/-- The pieces of its input that an item's operation has come to the end of (R288). -/
def streamPos (s : State) (it : Item) (die k : Nat) : Nat := if it.phase = .dispatched then 0 else (s.dev.vecEng die k).listPos

/-- A stream operation that comes to its end: a pack's, or an item's at the last piece of its input. -/
def streamHere (s : State) (c : Instr) (src : StreamSrc) (code : Nat) (it : Item) (die k : Nat) : Prop :=
  streamSet s c src code it die k ∧ match src with
    | .item _ _ _ => it.streamParts ≤ streamPos s it die k + 1
    | .pack _ _ _ => True

/-- The device as the operation's reads find it: an item that its engine takes has started there. -/
def streamFrom (s : State) (src : StreamSrc) (it : Item) (die k : Nat) : Device :=
  match src with
  | .item _ _ _ => if it.phase = .dispatched then s.dev.veStart it die k else s.dev
  | .pack _ _ _ => s.dev

/-- Every line the operation reads has a slot or is at hand. -/
def streamFed (s : State) (src : StreamSrc) (op : StreamOp) (it : Item) (die k : Nat) : Prop :=
  ∃ d, op.reads it die k (streamFrom s src it die k) = .got d ()

/-- It has ended: the item's work is done, or the pack has moved on and its work record is gone once no line it asked for is out. Nothing outside the device
changes, and host memory and every context stay. -/
def streamDone (s t : State) (src : StreamSrc) (it : Item) : Prop :=
  t.pending = s.pending ∧ t.plat = s.plat ∧ (∀ c, t.dev.ctx c = s.dev.ctx c) ∧
  (∀ y, t.dev.mem.hostByte y = s.dev.mem.hostByte y) ∧
  match src with
  | .item c q _ => (t.dev.item c q).map Item.phase = some .done
  | .pack p _ _ => (t.dev.readsOut it.ctx it.seq = false → t.dev.item it.ctx it.seq = none) ∧
      (∀ y, t.dev.item it.ctx it.seq = some y → y.phase = .done) ∧ (t.dev.pack p).pc = (s.dev.pack p).pc + 1 ∧
      (t.dev.pack p).regs = (s.dev.pack p).regs ∧ (t.dev.pack p).uregs = (s.dev.pack p).uregs

/-- The stream operations: their source, code and operation. -/
def streamRows : Instr → Option (StreamSrc × Nat × StreamOp)
  | .zcCompress src => some (src, 0x60, zcCompress)
  | .s24Compress src => some (src, 0x61, s24Compress)
  | .prune24t src => some (src, 0x62, prune24t)
  | .nnzHist src => some (src, 0x63, nnzHist)
  | _ => none

/-- Output arrays: a virtual address, the device address it leads to, and the bytes written there. -/
abbrev Outs := List (Nat × Nat × List Byte)

/-- The arrays may be written, lie in good device memory under one key, and do not meet. -/
def outsAt (s : State) (c key : Nat) (o : Outs) : Prop :=
  (∀ x ∈ o, spanAt s c x.1 x.2.2.length key x.2.1) ∧
  o.Pairwise fun x y => x.2.1 + x.2.2.length ≤ y.2.1 ∨ y.2.1 + y.2.2.length ≤ x.2.1

/-- Device memory holds the arrays, and every byte outside them is as before. -/
def laid (s t : State) (key : Nat) (o : Outs) : Prop := ∀ y, t.dev.mem.devByte key y =
  match o.find? fun x => decide (x.2.1 ≤ y ∧ y < x.2.1 + x.2.2.length) with
  | some x => x.2.2.getD (y - x.2.1) 0
  | none => s.dev.mem.devByte key y

/-- Bits `w` wide at the places (row, column) of an array with a row stride, in device memory: a code in each, and every other
bit of `len` bytes as before. -/
def laidCodes (s t : State) (key a len w stride rows cols : Nat) (code : Nat → Nat → Nat) : Prop := ∀ n, n < 8 * len →
  devBit t.dev.mem key a n =
    if n / w / stride < rows ∧ n / w % stride < cols then (code (n / w / stride) (n / w % stride)).testBit (n % w)
    else devBit s.dev.mem key a n

/-- Beats of a row whose stored positions are `ps`, in windows of 2n positions (R74, R152). -/
def beatsOf (n cols : Nat) (ps : List Nat) : Nat :=
  ((List.range ((cols + 2 * n - 1) / (2 * n))).map fun w => ((ps.filter fun p => p / (2 * n) == w).length + n - 1) / n).sum

/-- Little-endian 32-bit words. -/
def u32Bytes (xs : List Nat) : List Byte := xs.flatMap (leBytes 4)

end Sys2Proof.Spec

/-- A stream operation reads its tensor and writes the arrays R150 to R152 give, and no other byte of memory. (08_vector_engines_and_randomness (R150), 08_vector_engines_and_randomness (R151), 08_vector_engines_and_randomness (R152), 04_sparse_operands (R68), 04_sparse_operands (R60), 04_sparse_operands (R73), 14_slices_and_service_classes (R288)) -/
def Obligations.StreamOperationsWriteTheirArrays : Prop :=
  (∀ src s it die k (xs : Nat → List Nat) key (o : Outs) a b c, streamHere s (.zcCompress src) src 0x60 it die k → streamFed s src zcCompress it die k →
    coherent s.dev.mem →
    (∀ r, r < it.sRows → s.dev.rowBits (it.actor (some die)) (it.sTen true) r = .ok (xs r)) → 0 < it.sCols →
    it.sRows * zcRowBytes it.sCols it.sFmt ≤ field it.desc 0x28 8 →
    let rows := (List.range it.sRows).map fun r => zcRowOf it.sFmt (xs r)
    o = [(it.opAddr 0x38, a, rows.flatMap Prod.fst), (it.opAddr 0x30, b, rows.flatMap Prod.snd),
      (it.opAddr 0x58, c, rowTable 0 (rows.map Prod.snd))] →
    it.opAddr 0x38 ≠ 0 → it.opAddr 0x30 ≠ 0 → it.opAddr 0x58 ≠ 0 → outsAt s it.ctx key o →
    (rows.flatMap Prod.snd).length < 2 ^ 37 →
    ∃ t, exec (.zcCompress src) s = .next t ∧ streamDone s t src it ∧ laid s t key o) ∧
  (∀ c q rep s it die k, streamHere s (.zcCompress (.item c q rep)) (.item c q rep) 0x60 it die k → it.err = none → numbersApart s.dev →
    s.dev.ups.runs = [] →
    field it.desc 0x28 8 < it.sRows * zcRowBytes it.sCols it.sFmt →
    ∃ t, exec (.zcCompress (.item c q rep)) s = .next t ∧ t.plat = s.plat ∧ t.dev.mem.dram = s.dev.mem.dram ∧
      t.dev.mem.lines = s.dev.mem.lines ∧
      (t.dev.item c q).map (fun y => (y.phase, y.err)) = some (.done, some (.indexRange, 0))) ∧
  (∀ src s it die k (gr : Nat → Nat → Group24) key a b len, streamHere s (.s24Compress src) src 0x61 it die k →
    streamFed s src s24Compress it die k → coherent s.dev.mem →
    s.dev.badPatterns it (it.actor (some die)) = .ok [] →
    (∀ c g, c < it.sCols → g < (it.sRows + 3) / 4 → s.dev.group24 it (it.actor (some die)) c g = .ok (gr c g)) →
    (it.sFlag 0 = true ∨ ∀ c g, c < it.sCols → g < (it.sRows + 3) / 4 → (gr c g).bad = false) →
    let ms := (List.range it.sCols).flatMap fun c => metaBytes ((List.range ((it.sRows + 3) / 4)).map (gr c))
    let stride := if field it.oprec 0x68 4 = 0 then it.sCols else field it.oprec 0x68 4
    0 < it.sCols → it.sCols ≤ stride → it.opAddr 0x30 ≠ 0 → it.opAddr 0x38 ≠ 0 →
    2 * ((it.sRows + 3) / 4) * stride * fmtBits it.sFmt ≤ 8 * len →
    spanAt s it.ctx (it.opAddr 0x30) len key a → spanAt s it.ctx (it.opAddr 0x38) ms.length key b →
    a + len ≤ b ∨ b + ms.length ≤ a →
    ∃ t, exec (.s24Compress src) s = .next t ∧ streamDone s t src it ∧
      laidCodes s t key a len (fmtBits it.sFmt) stride (2 * ((it.sRows + 3) / 4)) it.sCols
        (fun r c => if r % 2 = 0 then (gr c (r / 2)).vals.1 else (gr c (r / 2)).vals.2) ∧
      (∀ j, j < ms.length → t.dev.mem.devByte key (b + j) = ms.getD j 0) ∧
      ∀ y, ¬(a ≤ y ∧ y < a + len) → ¬(b ≤ y ∧ y < b + ms.length) →
        t.dev.mem.devByte key y = s.dev.mem.devByte key y) ∧
  (∀ src s it die k (es : Nat → Nat → List (List (Nat × Machine.Num))) key a b len, streamHere s (.prune24t src) src 0x62 it die k →
    streamFed s src prune24t it die k →
    coherent s.dev.mem → it.sRows % 4 = 0 → it.sCols % 4 = 0 → 0 < it.sCols →
    (∀ x y, x < it.sRows / 4 → y < it.sCols / 4 → s.dev.block44 it (it.actor (some die)) x y = .ok (es x y)) →
    let stride := if field it.oprec 0x68 4 = 0 then it.sCols else field it.oprec 0x68 4
    let np := it.sRows / 4 * (it.sCols / 4)
    it.sCols ≤ stride → it.opAddr 0x38 ≠ 0 → spanAt s it.ctx (it.opAddr 0x38) np key b →
    (it.sFlag 2 = true → it.opAddr 0x30 ≠ 0 ∧ it.sRows * stride * fmtBits it.sFmt ≤ 8 * len ∧
      spanAt s it.ctx (it.opAddr 0x30) len key a ∧ (a + len ≤ b ∨ b + np ≤ a)) →
    (it.sFlag 2 = false → len = 0) →
    ∃ (t : State) (pat : Nat → Nat → Nat), exec (.prune24t src) s = .next t ∧ streamDone s t src it ∧
      (∀ x y, x < it.sRows / 4 → y < it.sCols / 4 →
        let key := fun p => pruneKey (fun i j => (blockAt (es x y) i j).2) (patterns.getD p [])
        pat x y < 90 ∧ ∀ p, p < 90 → keyLt (key (pat x y)) (key p) = false ∧ (p < pat x y → keyLt (key p) (key (pat x y)) = true)) ∧
      (∀ j, j < np → t.dev.mem.devByte key (b + j) = BitVec.ofNat 8 (pat (j / (it.sCols / 4)) (j % (it.sCols / 4)))) ∧
      (it.sFlag 2 = true → laidCodes s t key a len (fmtBits it.sFmt) stride it.sRows it.sCols fun r c =>
        if (patternKeeps (pat (r / 4) (c / 4)) (c % 4)).contains (r % 4) = true
        then (blockAt (es (r / 4) (c / 4)) (r % 4) (c % 4)).1 else 0) ∧
      ∀ y, ¬(a ≤ y ∧ y < a + len) → ¬(b ≤ y ∧ y < b + np) → t.dev.mem.devByte key y = s.dev.mem.devByte key y) ∧
  (∀ src s it die k (ps : Nat → List Nat) key (o : Outs) a b c, streamHere s (.nnzHist src) src 0x63 it die k →
    streamFed s src nnzHist it die k → coherent s.dev.mem →
    (∀ r, r < it.sRows → s.dev.nnzRow it (it.actor (some die)) r = .ok (ps r) ∧ ∀ p ∈ ps r, p < it.sCols) →
    let n := if it.sFlag 4 then 64 else 32
    let beats := (List.range it.sRows).map fun r => beatsOf n it.sCols (ps r)
    o = [(it.opAddr 0x30, a, u32Bytes beats), (it.opAddr 0x38, b, u32Bytes ((List.range it.sRows).map fun r => (ps r).length)),
      (it.opAddr 0x58, c, u32Bytes ((List.range 256).map fun j => (beats.filter fun x => min x 255 == j).length))] →
    it.opAddr 0x30 ≠ 0 → it.opAddr 0x38 ≠ 0 → it.opAddr 0x58 ≠ 0 → outsAt s it.ctx key o →
    ∃ t, exec (.nnzHist src) s = .next t ∧ streamDone s t src it ∧ laid s t key o) ∧
  (∀ i c q rep code op s it die k, streamRows i = some (.item c q rep, code, op) → streamSet s i (.item c q rep) code it die k →
    (streamPos s it die k = 0 → streamFed s (.item c q rep) op it die k) → coherent s.dev.mem →
    streamPos s it die k + 1 < it.streamParts →
    ∃ t, exec i s = .next t ∧ t.plat = s.plat ∧ sameBytes s t ∧ (t.dev.vecEng die k).listPos = streamPos s it die k + 1 ∧
      (t.dev.item c q).map Item.phase = some .running)

namespace Sys2Proof.Spec

/-! ### Kernels, lists and products (R40 to R48, R202 to R206, R264, R283 to R288) -/

/-- A device as before but for entries of the item window. -/
def onlyItems (s t : State) : Prop :=
  t.pending = s.pending ∧ t.plat = s.plat ∧ t.dev.mem = s.dev.mem ∧ t.dev.eng = s.dev.eng ∧ t.dev.collie = s.dev.collie ∧
  t.dev.ups = s.dev.ups ∧ t.dev.reel = s.dev.reel ∧ t.dev.ports = s.dev.ports ∧ t.dev.sent = s.dev.sent ∧
  ∀ c, t.dev.ctx c = s.dev.ctx c ∧ t.dev.ring c = s.dev.ring c

/-- The same, but for the lines that a read through H0 made the dies share. -/
def onlyItemsRead (s t : State) : Prop :=
  t.pending = s.pending ∧ t.plat = s.plat ∧ (wholeLines s.dev.mem → sameBytes s t) ∧ t.dev.eng = s.dev.eng ∧
  t.dev.collie = s.dev.collie ∧ t.dev.ups = s.dev.ups ∧ t.dev.reel = s.dev.reel ∧ t.dev.ports = s.dev.ports ∧
  t.dev.sent = s.dev.sent ∧ ∀ c, t.dev.ctx c = s.dev.ctx c ∧ t.dev.ring c = s.dev.ring c

/-- The context is killed with a fault code. -/
def killedBy (t : State) (c code : Nat) : Prop :=
  (t.dev.ctx c).st = .killed ∧ (t.dev.ctx c).fault.code.toNat = code

/-- The value at a position of stored ones, +0 elsewhere. -/
def valAt (xs : List (Nat × Machine.Num)) (p : Nat) : Machine.Num := ((xs.find? fun e => e.1 == p).map Prod.snd).getD (.fin false 0 0)

/-- One step of a lane: the exact sum of a chunk and the accumulator rounded once, or the INT32 sum (R24, R27). -/
def step1 (int : Bool) (acc : Word) (ps : List Machine.Num) : Word :=
  if int then intSum acc (ps.map (Num.toInt .zero)) else chunkSum acc ps

/-- What a lane adds for the unit of K from position `lo` in each mode: dense chunks, stored B positions, stored A positions a
chunk at a time, or the positions both store (R25, R65, R75, R78). -/
def unitAcc (p : Prod) (acc : Word) (A B : List (Nat × Machine.Num)) (lo : Nat) : Word :=
  let win := fun (xs : List (Nat × Machine.Num)) => xs.filter fun e => decide (lo ≤ e.1 ∧ e.1 < lo + p.unit)
  let pad := fun (xs : List Machine.Num) => xs ++ List.replicate (p.chunk - xs.length) (Machine.Num.fin false 0 0)
  match p.mode with
  | 0 => step1 p.int acc (pad ((List.range (min (lo + p.unit) p.k - lo)).map fun i =>
      (valAt A (lo + i)).mul (valAt B (lo + i))))
  | 1 => step1 p.int acc (pad ((win B).map fun e => (valAt A e.1).mul e.2))
  | 2 => (List.range (((win A).length + p.chunk - 1) / p.chunk)).foldl (fun acc j =>
      step1 p.int acc ((((win A).drop (p.chunk * j)).take p.chunk).map fun e => e.2.mul (valAt B e.1))) acc
  | _ => if win A = [] then acc
      else step1 p.int acc (((win B).filter fun e => (win A).any fun y => y.1 == e.1).map fun e =>
        (valAt (win A) e.1).mul e.2)

/-- The accumulator of a place: from `x` on, the units `u0` to `u1 - 1` of K in increasing order (R25, R34, R43). -/
def placeAcc (p : Prod) (u0 u1 : Nat) (x : Word) (A B : List (Nat × Machine.Num)) : Word :=
  (List.range (u1 - u0)).foldl (fun acc u => unitAcc p acc A B ((u0 + u) * p.unit)) x

/-- The sum of the partials of a place, in split order (R34, R48). -/
def partSum (int : Bool) (xs : List Word) : Word := if int then sat32 ((xs.map BitVec.toInt).sum) else chunkSum 0 (xs.map toNum)

/-- The work that fills a bank can come to unit `n` of its split, a combine to row `n`, and its entries then hold `X`: its stored
tiles are turned, every line it reads is at hand or has a slot, and a tile that comes to its end has no sparse violation. -/
def comesTo (s : State) (die k : Nat) (which : Bool) (tl : Tile) (it : Item) (n : Nat) (X : Nat → Nat → Word) : Prop :=
  let r := s.dev.re die k
  let b := r.bank which
  let pr := s.dev.prod it
  let a : Actor := ⟨it.ctx, it.seq, some die, none⟩
  let u0 := tl.split * pr.units / pr.split
  let u1 := (tl.split + 1) * pr.units / pr.split
  b.st = .filling ∧ b.tile = some tl ∧ s.dev.item tl.ctx tl.seq = some it ∧ b.pos ≤ n ∧ tl.w ≤ 512 ∧
  if b.comb = true then
    n ≤ tl.m ∧ (∃ d x, s.dev.fetch a die k (fun _ => 0) (fun a => pr.partials s.dev it a tl b.pos n) = .got d x) ∧
    ∃ parts : Nat → Nat → Nat → Nat,
      (∀ i j u, b.pos ≤ i → i < n → j < tl.w → u < pr.split →
        s.dev.readNat a 4 (it.opAddr 0x48 + 4 * ((u * pr.m + tl.row + i) * pr.n + tl.col + j)) = .ok (parts i j u)) ∧
      ∀ i j, i < tl.m → j < tl.w → X i j = if b.pos ≤ i ∧ i < n
        then partSum pr.int ((List.range pr.split).map fun u => BitVec.ofNat 32 (parts i j u)) else b.get i j
  else
    n ≤ u1 - u0 ∧ ∃ A B : Nat → List (Nat × Machine.Num),
      (b.pos < n →
        (∀ x ∈ pr.turns r tl b.pos n, r.hasTurned tl x = true) ∧ (∃ d x, s.dev.tileReads die k r it tl b.pos n = .got d x) ∧
        (n = u1 - u0 → pr.tileChecks s.dev a tl = .ok [] ∧ ∃ z, pr.zcCounts s.dev a tl = .ok z) ∧
        (∀ i, i < tl.m → pr.rowOf s.dev a (tl.row + i) ((u0 + b.pos) * pr.unit) ((u0 + n) * pr.unit) = .ok (A i)) ∧
        match r.resident tl with
        | some x => x.cols.length = tl.w ∧ ∀ j, j < tl.w → B j = elemVals pr.bFmt (x.cols.getD j [])
        | none => ∀ j, j < tl.w → (if pr.panelFits r tl then pr.colOf s.dev a (tl.col + j) (u0 * pr.unit) (u1 * pr.unit)
            else pr.colOf s.dev a (tl.col + j) ((u0 + b.pos) * pr.unit) ((u0 + n) * pr.unit)) = .ok (B j)) ∧
      ∀ i j, i < tl.m → j < tl.w → X i j = placeAcc pr (u0 + b.pos) (u0 + n) (b.get i j) (A i) (B j)

/-- Where the work of a tile in a bank ends. -/
def workEnd (d : Device) (b : Bank) (tl : Tile) (it : Item) : Nat :=
  let pr := d.prod it
  if b.comb then tl.m else (tl.split + 1) * pr.units / pr.split - tl.split * pr.units / pr.split

/-- The bank beside the next one fills only with work that can come to its end, and then holds `X` (R42). -/
def otherEnds (s : State) (die k : Nat) (X : Nat → Nat → Word) : Prop :=
  let r := s.dev.re die k
  (r.bank !r.turn).st = .filling → ∃ tl it, comesTo s die k (!r.turn) tl it (workEnd s.dev (r.bank !r.turn) tl it) X

/-- What the next bank's start does to the other one: work that fills it has come to its end and drains. -/
def otherDrains (s t : State) (die k : Nat) (X : Nat → Nat → Word) : Prop :=
  let r := s.dev.re die k
  let o := r.bank !r.turn
  let o' := (t.dev.re die k).bank !r.turn
  o'.tile = o.tile ∧ o'.comb = o.comb ∧ o'.st = (if o.st = .filling then .draining else o.st) ∧
  (o.st ≠ .filling → o' = o) ∧
  ∀ tl, o.st = .filling → o.tile = some tl → ∀ i j, i < tl.m → j < tl.w → o'.get i j = X i j

/-- A row engine that may issue: ON or finishing its work, not halted nor asked to halt, its clock running (R54, R57, R378). -/
def mayIssue (s : State) (die k : Nat) : Prop :=
  let r := s.dev.re die k
  (r.blk.st = .on ∨ r.blk.st = .stopping) ∧ r.halted = false ∧ r.dbgHalt = false ∧ s.plat.pow.unitRuns die k = true

/-- A row engine that may start the tile at the head of its queue (R42, R48, R54, R57, R288). -/
def mayStart (s : State) (die k : Nat) (tl : Tile) (rest : List Tile) : Prop :=
  let r := s.dev.re die k
  r.queue = tl :: rest ∧ mayIssue s die k ∧
  ((r.bank r.turn).st = .free ∨ (r.bank r.turn).st = .loading) ∧
  (∀ y ∈ r.combines, tl.rank < y.rank) ∧ (r.parked.isSome = true → tl.rank = 1)

/-- Other row engines, the packs, the ports and the always-on domain stay. -/
def otherEngines (s t : State) (die k : Nat) : Prop :=
  t.pending = s.pending ∧ t.plat = s.plat ∧ t.dev.collie = s.dev.collie ∧ t.dev.ports = s.dev.ports ∧
  t.dev.reel = s.dev.reel ∧ t.dev.eng.ves = s.dev.eng.ves ∧
  ∀ i j, j < 8 → ¬(i = die ∧ j = k) → t.dev.re i j = s.dev.re i j

end Sys2Proof.Spec

/-- KERNEL, JKF_TRANSLATION_DONE, VEC_LIST, RE_PRODUCT and TILE_DEAL start the work of an item as R191, R202, R264, R40 and R283 say. (10_jeneo_kernel_form (R191), 10_jeneo_kernel_form (R202), 10_jeneo_kernel_form (R203), 13_rings_doorbells_completions (R264), 03_row_engines (R40), 14_slices_and_service_classes (R283), 14_slices_and_service_classes (R288)) -/
def Obligations.WorkIsStarted : Prop :=
  (∀ s c q it x, s.dev.item c q = some it → it.typ = 3 → it.isWork = false → it.phase = .dispatched → s.dev.deferWait it = false →
    s.dev.xlatOf it = some x →
    (∀ bs, s.dev.everFits it x = true → sound s → wholeLines s.dev.mem → s.dev.readBytes ⟨c, q, none, none⟩ 128 (field it.desc 0x18 8) = .ok bs →
      ∃ t, exec (.kernel c q) s = .next t ∧ onlyItemsRead s t ∧ t.dev.item c q = some { it with oprec := bs, phase := .running } ∧
        ∀ k n, ¬(k = c ∧ n = q) → t.dev.item k n = s.dev.item k n) ∧
    (s.dev.everFits it x = false → (s.dev.ctx c).st = .opened → ∃ t, exec (.kernel c q) s = .next t ∧ killedBy t c 0x0403)) ∧
  (∀ s c q it h, s.dev.item c q = some it → it.typ = 3 → it.phase = .fetched → it.waitAt.isSome = true →
    sound s → wholeLines s.dev.mem → s.dev.readBytes ⟨c, q, none, none⟩ 64 it.addr0 = .ok h →
    (∀ img, imgHeaderOk h = true → s.dev.readBytes ⟨c, q, none, none⟩ (imgBytes h) it.addr0 = .ok img → imgFault img = none →
      s.dev.hub.xlats.length < 65536 → (s.dev.ctx c).st = .opened → s.dev.reel.snap = 0 →
      ∃ t x, exec (.jkfTranslationDone c q) s = .next t ∧ onlyItemsRead s t ∧ x ∈ t.dev.hub.xlats ∧ x.ctx = c ∧
        x.addr = it.addr0 ∧ x.check = imgCheck img ∧ x.entry = imgEntry img ∧ x.tregs = imgTregs img ∧
        x.packs = imgPacks img ∧ x.blkmem = imgBlkmem img ∧ x.code = imgWords img ∧ x.consts = imgConsts img ∧
        ∀ n y, s.dev.item c n = some y → y.typ = 3 → y.phase = .fetched → y.waitAt.isSome = true → y.addr0 = it.addr0 →
          (t.dev.item c n).map (fun z => (z.phase, z.layerIx, z.waitAt)) = some (.dispatched, imgCheck img, none)) ∧
    ((s.dev.ctx c).st = .opened → imgHeaderOk h = false →
      ∃ t, exec (.jkfTranslationDone c q) s = .next t ∧ killedBy t c 0x0403) ∧
    (∀ img pc, (s.dev.ctx c).st = .opened → imgHeaderOk h = true →
      s.dev.readBytes ⟨c, q, none, none⟩ (imgBytes h) it.addr0 = .ok img → imgFault img = some pc →
      ∃ t, exec (.jkfTranslationDone c q) s = .next t ∧ killedBy t c 0x0403 ∧
        (t.dev.ctx c).fault.addr = BitVec.ofNat 64 it.addr0)) ∧
  (∀ s c q it die k, s.dev.item c q = some it → it.phase = .dispatched → it.isList = true → it.claims = [] →
    s.dev.deferWait it = false → k < 8 → s.dev.veOf it = some (die, k) → s.dev.veReady s.plat it die k = true →
    ∃ t, exec (.vecList c q) s = .next t ∧ t.plat = s.plat ∧ t.dev.mem = s.dev.mem ∧ t.dev.collie = s.dev.collie ∧
      (t.dev.item c q).map Item.phase = some .running ∧ (t.dev.vecEng die k).running = some (c, q) ∧
      (t.dev.vecEng die k).listPos = 0 ∧ (t.dev.vecEng die k).regs = [] ∧ (t.dev.vecEng die k).masks = [] ∧
      (t.dev.vecEng die k).queue = (s.dev.vecEng die k).queue.drop 1 ∧
      (∀ y, (s.dev.vecEng die k).running = some y → (t.dev.vecEng die k).parked =
        some ⟨y, (s.dev.vecEng die k).listPos, (s.dev.vecEng die k).stream, (s.dev.vecEng die k).regs,
          (s.dev.vecEng die k).masks⟩) ∧
      ∀ i j, j < 8 → ¬(i = die ∧ j = k) → t.dev.vecEng i j = s.dev.vecEng i j) ∧
  (∀ s v x d die k u rep, v.src = .list die k u rep → v.body.fmt = 0 → listHolds s (.vecFpAdd v) v x d →
    x.die = die → x.k = k → x.u = u → x.body = v.body → x.held = none → x.eng = s.dev.vecEng die k → k < 8 → x.n ≤ 4096 →
    ((s.dev.die die).ve.st = .on ∨ (s.dev.die die).ve.st = .stopping) → s.plat.pow.unitRuns die (8 + k) = true →
    x.eng.running = some (x.it.ctx, x.it.seq) → s.dev.item x.it.ctx x.it.seq = some x.it → x.it.isList = true →
    x.it.isWork = false → field x.it.desc 0x38 4 ≤ x.eng.listPos + 1 →
    ∃ t, exec (.vecFpAdd v) s = .next t ∧ t.plat = s.plat ∧ sameBytes s t ∧
      (t.dev.item x.it.ctx x.it.seq).map Item.phase = some .done ∧
      (t.dev.vecEng die k).queue = x.eng.queue ∧ (x.eng.parked = none → (t.dev.vecEng die k).running = none)) ∧
  (∀ s c q it, s.dev.item c q = some it → it.typ = 1 → it.phase = .dispatched →
    let pr := s.dev.prod it
    (prodLegal it pr = true → prodAligned it pr = true → it.claims = [] → s.dev.deferWait it = false →
      ∃ t, exec (.reProduct c q) s = .next t ∧ onlyItems s t ∧
        t.dev.item c q = some { it with phase := .running, deal := ⟨0, 0, 0, 0, true⟩ }) ∧
    ((s.dev.ctx c).st = .opened → prodLegal it pr = false → ∃ t, exec (.reProduct c q) s = .next t ∧ killedBy t c 0x0403) ∧
    ((s.dev.ctx c).st = .opened → prodLegal it pr = true → prodAligned it pr = false →
      ∃ t, exec (.reProduct c q) s = .next t ∧ killedBy t c 0x0404)) ∧
  (∀ s c q it e, s.dev.item c q = some it → it.dealing = true → it.isWork = false →
    (it.rank = 4 → s.dev.olderFiller it = false) →
    let pr := s.dev.prod it
    let es := (s.dev.sliceEngines it.slice).filter fun e => s.dev.dealable it it.deal.width e.1 e.2
    (∃ xs ys, es = xs ++ e :: ys ∧ (∀ f ∈ xs, (s.dev.re e.1 e.2).queue.length < (s.dev.re f.1 f.2).queue.length) ∧
      ∀ f ∈ ys, (s.dev.re e.1 e.2).queue.length ≤ (s.dev.re f.1 f.2).queue.length) →
    let r := s.dev.re e.1 e.2
    let w := if it.deal.width = 0 then min (presented r.bad) (pr.n - it.deal.col) else it.deal.width
    let groups := (pr.m + 63) / 64
    let len := if it.rank = 4 then 1 else min (min 8 (64 - r.queue.length)) (groups - it.deal.group)
    ∃ t y, exec (.tileDeal c q) s = .next t ∧ otherEngines s t e.1 e.2 ∧ t.dev.mem = s.dev.mem ∧
      (t.dev.re e.1 e.2).queue.length = r.queue.length + len ∧
      (∀ x, x ∈ (t.dev.re e.1 e.2).queue ↔ x ∈ r.queue ∨ ∃ i, i < len ∧ x = ⟨it.ctx, it.seq, 64 * (it.deal.group + i),
        it.deal.col, min 64 (pr.m - 64 * (it.deal.group + i)), w, it.deal.split, it.rank⟩) ∧
      t.dev.item c q = some y ∧ y.out = it.out + len ∧ y.deal.ready = it.deal.ready ∧
      (it.deal.group + len < groups → y.deal.group = it.deal.group + len ∧ y.deal.split = it.deal.split ∧
        y.deal.col = it.deal.col ∧ y.deal.width = w) ∧
      (groups ≤ it.deal.group + len → it.deal.split + 1 < pr.split → y.deal.group = 0 ∧ y.deal.split = it.deal.split + 1 ∧
        y.deal.col = it.deal.col ∧ y.deal.width = w) ∧
      (groups ≤ it.deal.group + len → pr.split ≤ it.deal.split + 1 → y.deal.group = 0 ∧ y.deal.split = 0 ∧
        y.deal.col = it.deal.col + w ∧ y.deal.width = 0)) ∧
  (∀ s c q it, s.dev.item c q = some it → it.dealing = true → it.isWork = true →
    (it.rank = 4 → s.dev.olderFiller it = false) →
    let die := it.blocks / 8
    let k := it.blocks % 8
    let len := (s.dev.re die k).queue.length
    let ts := if s.dev.dealsFirst it die k = true then [] else ((workTiles it (s.dev.prod it)).drop it.deal.group).take (64 - len)
    s.dev.fitsTile it (s.dev.prod it).n die k = true → len < 64 →
    ∃ t y, exec (.tileDeal c q) s = .next t ∧ otherEngines s t die k ∧ t.dev.mem = s.dev.mem ∧
      (∀ x, x ∈ (t.dev.re die k).queue ↔ x ∈ (s.dev.re die k).queue ∨ x ∈ ts) ∧
      (t.dev.re die k).queue.length = len + ts.length ∧
      t.dev.item c q = some y ∧ y.out = it.out + ts.length ∧ y.deal.group = it.deal.group + ts.length)

/-- A tile starts from its initial sums and reduces in the order of R25; tiles are stolen, parked, resumed and turned as R285, R288 and R103 say. (02_numerics_and_determinism (R25), 03_row_engines (R43), 14_slices_and_service_classes (R285), 14_slices_and_service_classes (R288), 05_backward_pass (R103), 04_sparse_operands (R65), 04_sparse_operands (R75), 04_sparse_operands (R78), 03_row_engines (R57)) -/
def Obligations.TilesAreReducedAndMoved : Prop :=
  (∀ s die k rep tl rest it d0 ini (init X : Nat → Nat → Word), mayStart s die k tl rest → k < 8 →
    s.dev.item tl.ctx tl.seq = some it → otherEnds s die k X → tl.w ≤ 512 →
    let r := s.dev.re die k
    let pr := s.dev.prod it
    let a : Actor := ⟨it.ctx, it.seq, some die, none⟩
    (it.isWork = false ∨ it.claims = []) →
    (if (r.bank r.turn).loaded = true ∧ (r.bank r.turn).tile = some tl
      then ∀ i j, i < tl.m → j < tl.w → init i j = (r.bank r.turn).get i j
      else ((r.bank !r.turn).st ≠ .filling ∧
          s.dev.fetch a die k (fun _ => it.operandClass 2) (fun a => pr.initials s.dev a tl) = .got d0 ini ∨
          pr.load = false ∨ tl.split ≠ 0) ∧
        ∀ i j, i < tl.m → j < tl.w → pr.initial s.dev a tl.split (tl.row + i) (tl.col + j) = .ok (init i j)) →
    ∃ t, exec (.tileStart die k rep) s = .next t ∧ otherEngines s t die k ∧ sameBytes s t ∧ otherDrains s t die k X ∧
      (t.dev.re die k).queue = rest ∧ (t.dev.re die k).turn = !r.turn ∧ (t.dev.re die k).combines = r.combines ∧
      (t.dev.re die k).parked = r.parked ∧
      let b := (t.dev.re die k).bank r.turn
      b.st = .filling ∧ b.tile = some tl ∧ b.comb = false ∧ b.pos = 0 ∧
      ∀ i j, j < 512 → b.get i j = if i < tl.m ∧ j < tl.w then init i j else (r.bank r.turn).get i j) ∧
  (∀ s die k which tl it n (X : Nat → Nat → Word), let r := s.dev.re die k
    comesTo s die k which tl it n X → n ≤ workEnd s.dev (r.bank which) tl it →
    ((r.bank !which).st = .free ∨ (r.bank !which).st = .loading ∧ (r.bank !which).loaded = true) → r.dbgHalt = true → r.halted = false → (r.blk.st = .on ∨ r.blk.st = .stopping) → k < 8 →
    ∃ t, exec (.engineDebugHalt die k n) s = .next t ∧ otherEngines s t die k ∧ sameBytes s t ∧
      (t.dev.re die k).halted = true ∧ (t.dev.re die k).queue = r.queue ∧ (t.dev.re die k).bank (!which) = r.bank !which ∧
      let b := (t.dev.re die k).bank which
      b.st = .filling ∧ b.tile = some tl ∧ b.comb = (r.bank which).comb ∧ b.pos = n ∧
      ∀ i j, i < tl.m → j < tl.w → b.get i j = X i j) ∧
  (∀ s die k sl it, s.dev.sliceOf die = some sl → s.dev.idleEngine die k = true → k < 8 → s.dev.fromPool sl die k = some it →
    ∃ t, exec (.stealAttempt die k) s = .next t ∧ otherEngines s t die k ∧ t.dev.mem = s.dev.mem ∧
      (∀ x, x ∈ (t.dev.re die k).queue ↔ s.dev.dealsFirst it die k = false ∧
        x ∈ ((workTiles it (s.dev.prod it)).drop it.deal.group).take 64) ∧
      (∀ x ∈ (t.dev.slice sl).steal, x ∈ (s.dev.slice sl).steal ∧ ¬(x.1 = it.ctx ∧ x.2.1 = it.seq)) ∧
      (t.dev.counter it.ctx 128).toNat = min ((s.dev.counter it.ctx 128).toNat + 1) (2 ^ 64 - 1)) ∧
  (∀ s die k sl, s.dev.sliceOf die = some sl → s.dev.idleEngine die k = true → k < 8 → s.dev.fromPool sl die k = none →
    die ∈ (s.dev.slice sl).dieList → (s.dev.re die k).stealIn = true →
    (∃ j, j < 8 ∧ j ≠ k ∧ s.dev.stealFrom (die, j) die k ≠ []) →
    ∃ t j tl, exec (.stealAttempt die k) s = .next t ∧ t.plat = s.plat ∧ t.dev.mem = s.dev.mem ∧ j < 8 ∧ j ≠ k ∧
      tl ∈ s.dev.stealFrom (die, j) die k ∧ (t.dev.re die k).queue = [tl] ∧ tl.rank ≠ 4 ∧
      (∀ x ∈ s.dev.stealFrom (die, j) die k, tl.rank ≤ x.rank) ∧
      (∀ m, m < 8 → m ≠ k → (s.dev.stealFrom (die, m) die k).length ≤ (s.dev.stealFrom (die, j) die k).length) ∧
      (s.dev.re die j).queue.Perm (tl :: (t.dev.re die j).queue) ∧
      (t.dev.counter tl.ctx 127).toNat = min ((s.dev.counter tl.ctx 127).toNat + 1) (2 ^ 64 - 1) ∧
      ∀ i m, m < 8 → ¬(i = die ∧ (m = k ∨ m = j)) → t.dev.re i m = s.dev.re i m) ∧
  (∀ s die k which it n tl x rest (X : Nat → Nat → Word), let r := s.dev.re die k
    r.queue = tl :: rest → tl.rank = 1 → 1 < x.rank → r.parked = none → mayIssue s die k → k < 8 →
    comesTo s die k which x it n X → n < workEnd s.dev (r.bank which) x it → (r.bank !which).st = .free →
    ∃ t b, exec (.tilePark die k n) s = .next t ∧ otherEngines s t die k ∧ sameBytes s t ∧
      (t.dev.re die k).parked = some b ∧ b.tile = some x ∧ b.comb = (r.bank which).comb ∧ b.pos = n ∧
      (∀ i j, i < x.m → j < x.w → b.get i j = X i j) ∧ (t.dev.re die k).turn = which ∧ (t.dev.re die k).queue = r.queue ∧
      ((t.dev.re die k).bank which).st = .free ∧ (t.dev.re die k).bank (!which) = r.bank !which ∧
      (t.dev.counter x.ctx 129).toNat = min ((s.dev.counter x.ctx 129).toNat + 1) (2 ^ 64 - 1)) ∧
  (∀ s die k b x (X : Nat → Nat → Word), let r := s.dev.re die k
    r.parked = some b → b.tile = some x → x.w ≤ 512 → (∀ y ∈ r.queue, y.rank ≠ 1) →
    ((r.bank r.turn).st = .free ∨ (r.bank r.turn).st = .loading) →
    otherEnds s die k X → mayIssue s die k → k < 8 →
    ∃ t, exec (.parkedTileResume die k) s = .next t ∧ otherEngines s t die k ∧ sameBytes s t ∧ otherDrains s t die k X ∧
      (t.dev.re die k).parked = none ∧ (t.dev.re die k).queue = r.queue ∧ (t.dev.re die k).turn = !r.turn ∧
      let n := (t.dev.re die k).bank r.turn
      n.st = .filling ∧ n.tile = some x ∧ n.comb = b.comb ∧ n.pos = b.pos ∧
      ∀ i j, i < x.m → j < x.w → n.get i j = b.get i j) ∧
  (∀ s die k isB row col tl it, let r := s.dev.re die k
    ((s.dev.die die).txb.st = .on ∨ (s.dev.die die).txb.st = .stopping) → s.plat.pow.unitRuns die (32 + k) = true → k < 8 →
    s.dev.turning die k (isB, row, col) = some (tl, it) →
    (isB = true → (s.dev.prod it).b24 = true → s.dev.turnChecks ⟨it.ctx, it.seq, some die, none⟩ (s.dev.prod it).s24 (row / 4)
      (min (row / 4 + 32) (((s.dev.prod it).n + 3) / 4)) (col / 4) (min (col / 4 + 32) (((s.dev.prod it).k + 3) / 4)) = .ok []) →
    ∃ t, exec (.txbTurnDone die k isB row col) s = .next t ∧ otherEngines s t die k ∧ t.dev.mem = s.dev.mem ∧
      t.dev.hub.items = s.dev.hub.items ∧ (t.dev.re die k).hasTurned tl (isB, row, col) = true ∧
      (∀ x ∈ r.turned, x ∈ (t.dev.re die k).turned) ∧ (t.dev.re die k).queue = r.queue ∧ (t.dev.re die k).bank0 = r.bank0 ∧
      (t.dev.re die k).bank1 = r.bank1 ∧ (t.dev.re die k).combines = r.combines ∧
      (t.dev.counter tl.ctx 52).toNat = min ((s.dev.counter tl.ctx 52).toNat + 1) (2 ^ 64 - 1) ∧
      (t.dev.counter tl.ctx 53).toNat =
        min ((s.dev.counter tl.ctx 53).toNat + (s.dev.prod it).turnBlocks isB row col) (2 ^ 64 - 1))

namespace Sys2Proof.Spec

/-- The entries of a bank that drains, or comes to its end first, are `X`. -/
def drainsTo (s : State) (die k : Nat) (which : Bool) (tl : Tile) (it : Item) (X : Nat → Nat → Word) : Prop :=
  let b := (s.dev.re die k).bank which
  b.st = .draining ∧ (∀ i j, i < tl.m → j < tl.w → X i j = b.get i j) ∨
    comesTo s die k which tl it (workEnd s.dev b tl it) X

/-- A product with a plain destination for a tile: no row map, tap, save or block scales, its codes' bytes in good device memory. -/
def plainDest (s : State) (it : Item) (tl : Tile) (len key a : Nat) : Prop :=
  let pr := s.dev.prod it
  let ldc := if field it.oprec 0x68 4 = 0 then pr.n else field it.oprec 0x68 4
  coherent s.dev.mem ∧ it.save = none ∧ pr.tap = false ∧ pr.cFmt ≤ 8 ∧ it.opAddr 0x58 = 0 ∧ it.opAddr 0x30 ≠ 0 ∧ 0 < pr.n ∧
  tl.col + tl.w ≤ ldc ∧ (tl.row + tl.m) * ldc * fmtBits pr.cFmt ≤ 8 * len ∧ spanAt s it.ctx (it.opAddr 0x30) len key a

/-- The lines that the drain of a bank reads or writes in part are at hand or have slots (R225, R234). -/
def drainLines (d : Device) (die k : Nat) (which : Bool) (tl : Tile) (it : Item) : Prop := ∃ d2,
  d.fetch ⟨it.ctx, it.seq, some die, none⟩ die k ((d.prod it).drainClass it) (fun a =>
    (d.drainWrites it (d.prod it) a ((d.re die k).bank which) tl).map fun _ => ()) = .got d2 ()

/-- They are so once the bank's work has come to its end; and no item's end mixes what it wrote (R81). -/
def drainReady (s : State) (die k : Nat) (rep : Report) (which : Bool) (tl : Tile) (it : Item) : Prop :=
  (it.isWork = true → it.outcome.1.success = true) ∧ sound s ∧ ∀ d,
    (if ((s.dev.re die k).bank which).st = .filling then s.dev.advance s.plat die k which toEnd else .ok s.dev) = .ok d →
    drainLines (d.charge tl.ctx die k rep) die k which tl it

/-- Each code of a tile stands in exactly its bits of C, and every other bit of memory stays. -/
def codesIn (s t : State) (it : Item) (tl : Tile) (len key a : Nat) (X : Nat → Nat → Word) : Prop :=
  let pr := s.dev.prod it
  let ldc := if field it.oprec 0x68 4 = 0 then pr.n else field it.oprec 0x68 4
  let w := fmtBits pr.cFmt
  (∀ n, n < 8 * len → devBit t.dev.mem key a n =
    let row := n / w / ldc
    let col := n / w % ldc
    if tl.row ≤ row ∧ row < tl.row + tl.m ∧ tl.col ≤ col ∧ col < tl.col + tl.w then
      (convert pr.cFmt (convRnd pr.conv (cb10 (s.dev.ctx it.ctx).seed pr.srT pr.srS (row * pr.n + col)))
        (convSat pr.conv) (accNum pr.int (X (row - tl.row) (col - tl.col)))).testBit (n % w)
    else devBit s.dev.mem key a n) ∧
  (∀ y, t.dev.mem.hostByte y = s.dev.mem.hostByte y) ∧
  ∀ y, ¬(a ≤ y ∧ y < a + len) → t.dev.mem.devByte key y = s.dev.mem.devByte key y

end Sys2Proof.Spec

/-- TILE_DRAIN_DONE writes the converted accumulators to their places and frees the bank, and SPLIT_COMBINE combines the partials of a split in split order. (03_row_engines (R45), 03_row_engines (R48), 02_numerics_and_determinism (R32), 02_numerics_and_determinism (R34), 13_rings_doorbells_completions (R262)) -/
def Obligations.TilesAreDrainedAndCombined : Prop :=
  (∀ s die k rep which b tl it d1 d2, let r := s.dev.re die k
    let pr := s.dev.prod it
    let act : Actor := ⟨it.ctx, it.seq, some die, none⟩
    let d := s.dev.charge tl.ctx die k rep
    r.drainBank = some (which, b) → b.tile = some tl → s.dev.item tl.ctx tl.seq = some it → k < 8 →
    s.dev.engineRuns s.plat die k = true → b.st = .draining → b.comb = false →
    (pr.split ≤ 1 → stochastic pr.conv = true → (s.dev.die die).rng.st = .on) →
    d.fetch act die k (pr.drainClass it) (fun a => (d.drainWrites it pr a b tl).map fun _ => ()) = .got d1 () →
    (if pr.split ≤ 1 then d1.drainTile it pr act tl (b.rows tl) else d1.drainPartial it pr act tl (b.rows tl)) = .ok d2 →
    ∃ t, exec (.tileDrainDone die k rep) s = .next t ∧ t.plat = s.plat ∧ t.pending = s.pending ∧
      (it.isWork = false → t.dev.mem = d2.mem) ∧
      ((t.dev.re die k).bank which).st = .free ∧ (t.dev.re die k).bank (!which) = r.bank !which ∧
      (t.dev.re die k).queue = r.queue ∧ (t.dev.re die k).parked = r.parked ∧
      (it.phase = .done ∨ pr.split ≤ 1 ∨ ((it.drained.filter fun e => e.1 == tl.row && e.2.1 == tl.col).length + 1 < pr.split) →
        (t.dev.re die k).combines = r.combines) ∧
      (it.phase ≠ .done → 1 < pr.split →
        pr.split ≤ (it.drained.filter fun e => e.1 == tl.row && e.2.1 == tl.col).length + 1 →
        (t.dev.re die k).combines = r.combines ++ [tl]) ∧
      (pr.split ≤ 1 → it.isWork = false → it.phase = .running → it.dealing = false →
        (t.dev.item tl.ctx tl.seq).map (fun y => (y.out, y.phase)) =
          some (it.out - 1, if it.out ≤ 1 then .done else .running))) ∧
  (∀ s die k rep which b tl it len key a (X : Nat → Nat → Word), let r := s.dev.re die k
    let pr := s.dev.prod it
    r.drainBank = some (which, b) → b.tile = some tl → s.dev.item tl.ctx tl.seq = some it → k < 8 →
    s.dev.engineRuns s.plat die k = true → (b.st = .filling → r.dbgHalt = false) → drainsTo s die k which tl it X →
    (b.comb = true ∨ pr.split ≤ 1) → (stochastic pr.conv = true → (s.dev.die die).rng.st = .on) →
    plainDest s it tl len key a → drainReady s die k rep which tl it →
    ∃ t, exec (.tileDrainDone die k rep) s = .next t ∧ t.plat = s.plat ∧ codesIn s t it tl len key a X ∧
      ((t.dev.re die k).bank which).st = .free ∧ (t.dev.re die k).queue = r.queue) ∧
  (∀ s die k rep which b tl it key a (X : Nat → Nat → Word), let r := s.dev.re die k
    let pr := s.dev.prod it
    let at_ := fun (i j : Nat) => 4 * ((tl.split * pr.m + tl.row + i) * pr.n + tl.col + j)
    r.drainBank = some (which, b) → b.tile = some tl → s.dev.item tl.ctx tl.seq = some it → k < 8 →
    s.dev.engineRuns s.plat die k = true → (b.st = .filling → r.dbgHalt = false) → drainsTo s die k which tl it X →
    b.comb = false → 1 < pr.split → tl.col + tl.w ≤ pr.n → tl.row + tl.m ≤ pr.m → tl.split < pr.split → coherent s.dev.mem →
    drainReady s die k rep which tl it →
    spanAt s it.ctx (it.opAddr 0x48) (4 * pr.split * pr.m * pr.n) key a →
    ∃ t, exec (.tileDrainDone die k rep) s = .next t ∧ t.plat = s.plat ∧ ((t.dev.re die k).bank which).st = .free ∧
      (∀ i j, i < tl.m → j < tl.w → t.dev.mem.devNat key (a + at_ i j) 4 = (X i j).toNat) ∧
      (∀ y, t.dev.mem.hostByte y = s.dev.mem.hostByte y) ∧
      ∀ y, (∀ i j, i < tl.m → j < tl.w → ¬(a + at_ i j ≤ y ∧ y < a + at_ i j + 4)) →
        t.dev.mem.devByte key y = s.dev.mem.devByte key y) ∧
  (∀ s die k rep tl xs ys it n (parts : Nat → Nat → Nat → Nat), let r := s.dev.re die k
    let pr := s.dev.prod it
    let act : Actor := ⟨it.ctx, it.seq, some die, none⟩
    let sums := fun (i j : Nat) => partSum pr.int ((List.range pr.split).map fun u => BitVec.ofNat 32 (parts i j u))
    r.combines = xs ++ tl :: ys → (∀ x ∈ xs, tl.rank < x.rank) → (∀ x ∈ ys, tl.rank ≤ x.rank) → tl ∉ xs →
    s.dev.item tl.ctx tl.seq = some it → k < 8 → mayIssue s die k →
    ((r.bank r.turn).st = .free ∨ (r.bank r.turn).st = .loading) →
    (r.bank !r.turn).st ≠ .filling → (∀ x ∈ r.queue, tl.rank ≤ x.rank) → (r.parked.isSome = true → tl.rank = 1) →
    tl.w ≤ 512 → n ≤ tl.m → (∃ d x, s.dev.fetch act die k (fun _ => 0) (fun a => pr.partials s.dev it a tl 0 n) = .got d x) →
    (∀ i j u, i < n → j < tl.w → u < pr.split →
      s.dev.readNat act 4 (it.opAddr 0x48 + 4 * ((u * pr.m + tl.row + i) * pr.n + tl.col + j)) = .ok (parts i j u)) →
    (n < tl.m → ∃ t, exec (.splitCombine die k n rep) s = .next t ∧ otherEngines s t die k ∧ sameBytes s t ∧
      (t.dev.re die k).combines = xs ++ ys ∧ (t.dev.re die k).queue = r.queue ∧ (t.dev.re die k).turn = (!r.turn) ∧
      let b := (t.dev.re die k).bank r.turn
      b.st = .filling ∧ b.tile = some tl ∧ b.comb = true ∧ b.pos = n ∧
      ∀ i j, i < n → j < tl.w → b.get i j = sums i j) ∧
    (∀ len key a, n = tl.m → (stochastic pr.conv = true → (s.dev.die die).rng.st = .on) → plainDest s it tl len key a →
      (it.isWork = true → it.outcome.1.success = true) → sound s →
      (∀ d1 d2, s.dev.startCombine s.plat die k tl = .ok d1 → d1.advance s.plat die k r.turn n = .ok d2 →
        drainLines (d2.charge tl.ctx die k rep) die k r.turn tl it) →
      ∃ t, exec (.splitCombine die k n rep) s = .next t ∧ t.plat = s.plat ∧ codesIn s t it tl len key a sums ∧
        (t.dev.re die k).combines = xs ++ ys ∧ (t.dev.re die k).queue = r.queue ∧ ((t.dev.re die k).bank r.turn).st = .free ∧
        (it.isWork = false → (t.dev.item tl.ctx tl.seq).map Item.out = some (it.out - 1)))) ∧
  (∀ s die k rep tl it n len key a (X : Nat → Nat → Word), let r := s.dev.re die k
    let pr := s.dev.prod it
    let b := r.bank !r.turn
    mayIssue s die k → k < 8 → b.comb = true → comesTo s die k (!r.turn) tl it n X →
    (n < tl.m → ∃ t, exec (.splitCombine die k n rep) s = .next t ∧ otherEngines s t die k ∧ sameBytes s t ∧
      (t.dev.re die k).combines = r.combines ∧ (t.dev.re die k).bank r.turn = r.bank r.turn ∧
      let b' := (t.dev.re die k).bank !r.turn
      b'.st = .filling ∧ b'.tile = some tl ∧ b'.comb = true ∧ b'.pos = n ∧
      ∀ i j, i < tl.m → j < tl.w → b'.get i j = X i j) ∧
    (n = tl.m → (stochastic pr.conv = true → (s.dev.die die).rng.st = .on) → plainDest s it tl len key a →
      drainReady s die k rep (!r.turn) tl it →
      ∃ t, exec (.splitCombine die k n rep) s = .next t ∧ t.plat = s.plat ∧ codesIn s t it tl len key a X ∧
        ((t.dev.re die k).bank !r.turn).st = .free ∧ (t.dev.re die k).combines = r.combines))

namespace Sys2Proof.Spec

/-! ### Norm-and-update (R105 to R117) -/

/-- A layer whose arrays the sequencer has read: new weights in FP32 and new moments, element by element (R111); the model's
polynomial steps follow where the entry has rows. -/
def newLayer (e : List Byte) (scale eta : Word) (x : LayerIn) : List Word × List Word × List Word :=
  let one : Word := 0x3F800000#32
  let b1 := coefWord e 0x10
  let b2 := coefWord e 0x14
  let n := coefElems e
  let g := fun i => Fp.mul scale (x.g.getD i 0)
  let m1 := (List.range n).map fun i => Fp.fma b1 (x.m1.getD i 0) (Fp.mul (Fp.sub one b1) (g i))
  let m2 := (List.range n).map fun i => Fp.fma b2 (x.m2.getD i 0) (Fp.mul (Fp.sub one b2) (Fp.mul (g i) (g i)))
  let dir := (List.range n).map fun i =>
    if coefNorm e then Fp.div (m1.getD i 0) (Fp.add (Fp.sqrt (m2.getD i 0)) (coefWord e 0x18)) else m1.getD i 0
  let y := if coefN e = 0 then dir else
    ((polyRows e).foldl (fun y r => polyStep (coefSplit e) y r.1 r.2.1 r.2.2) ⟨coefRows e, coefCols e, dir⟩).els
  ((List.range n).map fun i => Fp.fma (Fp.neg (Fp.mul eta (coefWord e 0x20))) (y.getD i 0)
    (Fp.mul (Fp.sub one (Fp.mul eta (coefWord e 0x1C))) (x.w.getD i 0)), m1, m2)

/-- The bytes of a layer's new weights: frozen elements keep the bits they have (R113). -/
def newWeights (e : List Byte) (seed step : Dword) (fz : List Nat) (old : Nat → Nat) (w : List Word) : List Byte :=
  (List.range (coefElems e)).flatMap fun i => leBytes (fmtBits (coefFmt e) / 8)
    (if fz.contains i then old i
    else convert (coefFmt e) (convRnd (coefConv e) (cb10 seed (coefWord e 0x24) (step.setWidth 32) i)) (convSat (coefConv e))
      (toNum (w.getD i 0)))

/-- The bytes of FP32 values of which the frozen ones stay. -/
def newMoments (fz : List Nat) (old new : List Word) (n : Nat) : List Byte :=
  (List.range n).flatMap fun i => leBytes 4 ((if fz.contains i then old else new).getD i 0).toNat

end Sys2Proof.Spec

/-- NORM_UPDATE forms the partial sum, LAYER_WRITE_START waits for the slot's holders, LAYER_SWAP writes the recurrence to the other slot and swaps it. (06_parameter_update (R105), 06_parameter_update (R107), 06_parameter_update (R108), 06_parameter_update (R111), 06_parameter_update (R113), 06_parameter_update (R116), 06_parameter_update (R117)) -/
def Obligations.UpdatesRunTheirPhases : Prop :=
  (∀ s c q it w r, s.dev.item c q = some it → it.typ = 4 → it.phase = .dispatched → s.dev.deferWait it = false →
    s.dev.setOf it = some w → sound s → wholeLines s.dev.mem → s.dev.readBytes ⟨c, q, none, none⟩ 64 it.addr0 = .ok r →
    (∀ Q : Nat → Word, stepOk r = true → (∀ i, i < w.layers.length → s.dev.layerQ ⟨c, q, none, none⟩ it i = .ok (Q i)) →
      s.dev.runOf c q = none →
      ∃ t, exec (.normUpdate c q) s = .next t ∧ t.plat = s.plat ∧ sameBytes s t ∧ t.dev.eng = s.dev.eng ∧
        t.dev.ups.dir = s.dev.ups.dir ∧ (t.dev.item c q).map Item.phase = some .running ∧
        t.dev.ups.runs = s.dev.ups.runs ++ [⟨c, q, .norm, w.recAt, bitOf (field r 2 2) 0, bitOf (field r 2 2) 1,
          BitVec.ofNat 64 (field r 8 8), BitVec.ofNat 32 (field r 0x10 4), BitVec.ofNat 32 (field r 0x14 4),
          (List.range w.layers.length).foldl (fun a i => Fp.add a (Q i)) 0, true, 0, 0, 0, false, []⟩]) ∧
    ((s.dev.ctx c).st = .opened → s.dev.runOf c q = none → stepOk r = false → ∃ t, exec (.normUpdate c q) s = .next t ∧ killedBy t c 0x0403)) ∧
  (∀ s c q it w u (Q : Nat → Word), s.dev.item c q = some it → it.typ = 4 → it.phase = .dispatched →
    s.dev.deferWait it = false → s.dev.setOf it = some w → s.dev.runOf c q = some u → sound s → wholeLines s.dev.mem →
    (∀ i, i < w.layers.length → s.dev.layerQ ⟨c, q, none, none⟩ it i = .ok (Q i)) →
    ∃ t, exec (.normUpdate c q) s = .next t ∧ t.plat = s.plat ∧ sameBytes s t ∧
      (t.dev.item c q).map Item.phase = some .running ∧ t.dev.runOf c q =
        some { u with qShard := (List.range w.layers.length).foldl (fun a i => Fp.add a (Q i)) 0, summed := true }) ∧
  (∀ s c q n held it r w l, s.dev.item c q = some it → s.dev.runOf c q = some r → r.phase = .layers → r.writing = false →
    s.dev.runLayer r = some (w, l) →
    (s.dev.slotHeld w.recAt r.layer (!l.slot) = true → exec (.layerWriteStart c q n held) s = .next s) ∧
    (∀ e key (pa : Nat → Nat), s.dev.slotHeld w.recAt r.layer (!l.slot) = false → s.dev.coefEntry ⟨c, q, none, none⟩ it r.layer = .ok e →
      sound s → coherent s.dev.mem → (∀ x ∈ layerRanges e (!l.slot), spanAt s c x.1 x.2 key (pa x.1)) →
      ∃ t, exec (.layerWriteStart c q n held) s = .next t ∧ t.plat = s.plat ∧
        (t.dev.counter c 62).toNat = min ((s.dev.counter c 62).toNat + n) (2 ^ 64 - 1) ∧ t.dev.ups.dir = s.dev.ups.dir ∧
        t.dev.runOf c q = some { r with writing := true } ∧ (t.dev.item c q).map Item.layerIx = some r.layer ∧
        (∀ y, t.dev.mem.hostByte y = s.dev.mem.hostByte y) ∧
        ∀ y, (∀ x ∈ layerRanges e (!l.slot), ¬(pa x.1 ≤ y ∧ y < pa x.1 + x.2)) →
          t.dev.mem.devByte key y = s.dev.mem.devByte key y)) ∧
  (∀ s c q it r w l e x fz (old : Nat → Nat) key pw p1 p2 pr pv (o : Outs), s.dev.item c q = some it →
    s.dev.runOf c q = some r → r.phase = .layers → r.writing = true → s.dev.runLayer r = some (w, l) →
    sound s → coherent s.dev.mem →
    s.dev.coefEntry ⟨c, q, none, none⟩ it r.layer = .ok e → s.dev.readArrays ⟨c, q, none, none⟩ e l.slot = .ok x →
    s.dev.frozen ⟨c, q, none, none⟩ e = .ok fz →
    (∀ i ∈ fz, s.dev.srcElem ⟨c, q, none, none⟩ (.va (slotAddrs e l.slot).1) (coefFmt e) i = .ok (old i)) →
    let y := newLayer e r.scale r.eta x
    let dst := slotAddrs e (!l.slot)
    let n := coefElems e
    let v := w.published + 1
    let last := decide (w.layers.length ≤ r.layer + 1)
    o = [(dst.1, pw, newWeights e (s.dev.ctx c).seed r.step fz old y.1), (dst.2.1, p1, newMoments fz x.m1 y.2.1 n)] ++
      (if coefM2 e then [(dst.2.2, p2, newMoments fz x.m2 y.2.2 n)] else []) ++
      [(w.recVa + 0x40 + 16 * r.layer, pr, leBytes 8 v.toNat ++ leBytes 8 (if l.slot then 0 else 1))] ++
      (if last then [(w.recVa, pv, leBytes 8 v.toNat)] else []) →
    outsAt s c key o →
    ∃ t, exec (.layerSwap c q) s = .next t ∧ t.plat = s.plat ∧ laid s t key o ∧
      (∀ y, t.dev.mem.hostByte y = s.dev.mem.hostByte y) ∧
      (t.dev.counter c 58).toNat = min ((s.dev.counter c 58).toNat + 1) (2 ^ 64 - 1) ∧
      (t.dev.counter c 61).toNat = min ((s.dev.counter c 61).toNat + fz.length) (2 ^ 64 - 1) ∧
      (∃ w1, t.dev.ups.dir.find? (fun z => z.recAt == w.recAt) = some w1 ∧
        w1.published = (if last then v else w.published) ∧ w1.layers[r.layer]? = some { l with version := v, slot := !l.slot } ∧
        ∀ i, i ≠ r.layer → w1.layers[i]? = w.layers[i]?) ∧
      (last = false → t.dev.runOf c q =
        some { r with swapped := r.swapped ++ [r.layer], layer := r.layer + 1, writing := false }) ∧
      (last = true → t.dev.runOf c q = none ∧ (t.dev.item c q).map Item.phase = some .done))

namespace Sys2Proof.Spec

/-! ### The Reel network (R296 to R309) -/

/-- Reel values combined in the order given, place by place; an FP32 NaN is the canonical one (R23, R300, R301). -/
def foldValues (fmt : Nat) : List (List Word) → List Word
  | [] => []
  | x :: xs => (xs.foldl (fun a y => List.zipWith (fun u v => if fmt = 0 then Fp.add u v else u + v) a y) x).map (canon fmt)

/-- The arrival of a shard. -/
def shardOf (x : Group) (sh : Nat) : Option Arrival := x.arrived.find? fun a => a.shard == sh

/-- A message for a partner has been handed to a port whose link is UP: it has left, or waits there for its flits' credits
(R315). -/
def handed (s t : State) (p : Nat) (o : Output) : Prop :=
  (s.dev.port p).link = .up → o ∈ t.dev.sent ∨ ∃ w ∈ (t.dev.port p).waiting, w.msg = o

/-- REEL acts now: its block is ON and no message waits for it. -/
def reelOn (s : State) : Prop := s.dev.reel.blk.st = .on ∧ s.dev.reel.held = []

/-- Of the Reel network only one entry may change; memory, engines, contexts and the always-on domain stay. -/
def onlyGroup (g : Nat) (s t : State) : Prop :=
  t.pending = s.pending ∧ t.plat = s.plat ∧ t.dev.mem = s.dev.mem ∧ t.dev.eng = s.dev.eng ∧ t.dev.collie = s.dev.collie ∧
  t.dev.ups = s.dev.ups ∧ (∀ c, t.dev.ctx c = s.dev.ctx c) ∧ ∀ h, h ≠ g → t.dev.group h = s.dev.group h

/-- Instance `i` of a group is aborted by shard `sh`: its unfinished items fail, the other ports of the tree hear of it with the
instance's parameters, and the instance in flight is past it, or it is marked (R304). -/
def abortedAs (s t : State) (g i sh : Nat) (ps : ReelParams) (come : Option Nat) : Prop :=
  let x := s.dev.group g
  t.plat = s.plat ∧
  ((∀ y ∈ s.dev.instItems g i, s.dev.worksOf y.ctx y.seq = []) → t.dev.mem.dram = s.dev.mem.dram) ∧
  (∀ y ∈ s.dev.instItems g i, y.depFail = none → s.dev.item y.ctx y.seq = some y →
    (t.dev.item y.ctx y.seq).map (fun z => (z.phase, z.depFail)) = some (.done, some (5 + sh * 2 ^ 16))) ∧
  (∀ p ∈ x.ports, some p ≠ come → handed s t p (.reel p (.abort g i ps sh))) ∧
  (if i = x.inst then i < (t.dev.group g).inst else (t.dev.group g).inst = x.inst ∧ i ∈ (t.dev.group g).skipped) ∧
  (t.dev.counter x.owner.toNat 132).toNat = min ((s.dev.counter x.owner.toNat 132).toNat + 1) (2 ^ 64 - 1)

end Sys2Proof.Spec

/-- Reel items read what they give, shards arrive, the last one fixes the result in shard order, and completion writes it to every shard. (15_reel_network (R299), 15_reel_network (R300), 15_reel_network (R301), 15_reel_network (R302), 06_parameter_update (R110), 13_rings_doorbells_completions (R272)) -/
def Obligations.ReelInstancesRun : Prop :=
  (∀ s c q it op n bs x, startable s c q 8 it → field it.desc 0x10 1 = op →
    (x = Instr.reelBarrier c q ∧ op = 0 ∧ n = 0) ∨
      (x = .reelBroadcast c q ∧ op = 1 ∧ n = if field it.desc 0x14 2 = it.shard then field it.desc 0x16 2 else 0) ∨
      (x = .reelReduce c q ∧ op = 2 ∧ n = 4 * field it.desc 0x16 2) →
    sound s → wholeLines s.dev.mem → s.dev.readBytes ⟨c, q, none, none⟩ n (field it.desc 0x18 8) = .ok bs →
    ∃ t, exec x s = .next t ∧ onlyItemsRead s t ∧ t.dev.item c q = some { it with oprec := bs, phase := .running, issued := true }) ∧
  (∀ s c q it g sh, reelOn s → s.dev.item c q = some it → it.group = some (g, sh) → s.dev.mayArrive it = true →
    let x := s.dev.group g
    let a : Arrival := ⟨sh, c, q, it.reelParams, s.dev.reelValues it,
      if it.typ = 8 ∧ field it.desc 0x10 1 = 1 then it.oprec else []⟩
    let y := { x with arrived := x.arrived ++ [a] }
    ((∃ i, i < x.count.toNat ∧ shardOf y (x.base.toNat + i) = none) →
      ∃ t, exec (.reelArrival c q) s = .next t ∧ onlyGroup g s t ∧ t.dev.group g = { y with gst := .active } ∧
        t.dev.item c q = some { it with arrivedAt := some s.plat.pow.time }) ∧
    (∀ (z : Nat → Arrival), x.childPorts = [] → x.parent = 0xF → x.total.toNat = x.count.toNat → 0 < x.count.toNat →
      x.down = none → x.sentUp = false → (∀ i, i < x.count.toNat → shardOf y (x.base.toNat + i) = some (z i)) →
      ∃ t dn, exec (.reelArrival c q) s = .next t ∧ onlyGroup g s t ∧
        t.dev.group g = { y with gst := .active, down := some dn } ∧
        dn.values = foldValues (z 0).params.fmt ((List.range x.count.toNat).map fun i => (z i).values) ∧
        dn.bad = ((List.range x.count.toNat).find? fun i => decide ((z i).params ≠ (z 0).params)).map (fun i => (z i).shard) ∧
        ((z 0).params.op = 1 → ∀ i, i < x.count.toNat → (z i).params.op = 1 → (z i).params.root = (z i).shard →
          (∀ j, j < i → ¬((z j).params.op = 1 ∧ (z j).params.root = (z j).shard)) → dn.bytes = (z i).bytes))) ∧
  (∀ s g dn key (o : Outs) (pa : Arrival → Nat) (its : Arrival → Item), reelOn s → sound s → coherent s.dev.mem →
    let x := s.dev.group g
    x.en = true → x.down = some dn → dn.bad = none → 0 < x.count.toNat →
    x.shards.Pairwise (fun a b => ¬(a.ctx = b.ctx ∧ a.seq = b.seq)) →
    (∀ a ∈ x.shards, s.dev.item a.ctx a.seq = some (its a) ∧ (its a).typ = 8 ∧ a.ctx = x.owner.toNat) →
    o = x.shards.map (fun a => (field (its a).desc 0x20 8, pa a,
      if a.params.op = 2 then dn.values.flatMap fun w => leBytes 4 w.toNat else if a.params.op = 1 then dn.bytes else [])) →
    outsAt s x.owner.toNat key o →
    ∃ t, exec (.reelInstanceComplete g) s = .next t ∧ t.plat = s.plat ∧ t.pending = s.pending ∧ laid s t key o ∧
      (∀ y, t.dev.mem.hostByte y = s.dev.mem.hostByte y) ∧
      (∀ a ∈ x.shards, (t.dev.item a.ctx a.seq).map Item.phase = some .done) ∧
      x.inst < (t.dev.group g).inst ∧ (t.dev.group g).arrived = [] ∧ (t.dev.group g).down = none ∧
      (x.skipped = [] → (t.dev.group g).inst = x.inst + 1)) ∧
  (∀ s g dn b a it, reelOn s → numbersApart s.dev → s.dev.ups.runs = [] → let x := s.dev.group g
    x.down = some dn → dn.bad = some b → x.shards = [a] → 0 < x.count.toNat → s.dev.item a.ctx a.seq = some it →
    it.err = none → it.isWork = false →
    ∃ t, exec (.reelInstanceComplete g) s = .next t ∧ t.plat = s.plat ∧ x.inst < (t.dev.group g).inst ∧
      (t.dev.item a.ctx a.seq).map (fun y => (y.phase, y.err)) = some (.done, some (.indexRange, detailPos b 4))) ∧
  (∀ s g dn a it r, reelOn s → let x := s.dev.group g
    x.down = some dn → dn.bad = none → x.shards = [a] → 0 < x.count.toNat → s.dev.item a.ctx a.seq = some it → it.typ = 4 →
    s.dev.runOf a.ctx a.seq = some r →
    let norm := Fp.sqrt (dn.values.headD 0)
    ∃ t, exec (.reelInstanceComplete g) s = .next t ∧ t.plat = s.plat ∧ t.dev.mem = s.dev.mem ∧
      x.inst < (t.dev.group g).inst ∧ (t.dev.item a.ctx a.seq).map Item.result = some (norm ++ r.eta) ∧
      (¬(r.skip = true ∧ finite norm = false) → t.dev.runOf a.ctx a.seq = some { r with
        phase := .layers, norm := norm,
        scale := if r.clipEn = false ∨ Num.lt (toNum norm) (toNum r.clip) = true ∨ Num.eq (toNum norm) (toNum r.clip) = true
          then 0x3F800000#32 else Fp.div r.clip norm }) ∧
      (r.skip = true → finite norm = false → t.dev.runOf a.ctx a.seq = none ∧
        (t.dev.item a.ctx a.seq).map Item.phase = some .done))

/-- An abort fails the items of its instance and tells the tree; a message acts on its group, and waits while REEL is not ON. (15_reel_network (R301), 15_reel_network (R302), 15_reel_network (R304), 15_reel_network (R305), 15_reel_network (R306), 15_reel_network (R307), 15_reel_network (R308)) -/
def Obligations.ReelAbortsAndMessages : Prop :=
  (∀ s g sh i ps, reelOn s → numbersApart s.dev → s.dev.ups.runs = [] → let x := s.dev.group g
    x.en = true → x.gst ≠ .down → x.skipped.contains i = false → x.inst ≤ i →
    x.aborting.find? (fun a => a.2.1 == sh && decide (x.inst ≤ a.1) && !x.skipped.contains a.1) = some (i, sh, ps) →
    ∃ t, exec (.reelAbort g sh) s = .next t ∧ abortedAs s t g i sh ps none) ∧
  (∀ s p m, s.dev.reel.blk.st ≠ .on → s.dev.carries p = true → exec (.reelMessageReceive p m) s = .next
    { s with dev := { s.dev with reel := { s.dev.reel with held := s.dev.reel.held ++ [(p, m)] } } }) ∧
  (∀ s p m, reelOn s ∨ s.dev.reel.blk.st ≠ .on → s.dev.carries p = false → exec (.reelMessageReceive p m) s = .next s) ∧
  (∀ s p, reelOn s → s.dev.carries p = true →
    (∀ g i ps vs n low bytes bad, let x := s.dev.group g
      x.en = true → x.gst ≠ .down → p ∈ x.childPorts → x.inst ≤ i → x.skipped.contains i = false →
      (x.kids.any fun k => k.port == p && k.inst == i) = false →
      ∃ t, exec (.reelMessageReceive p (.partialUp g i ps vs n low bytes bad)) s = .next t ∧ onlyGroup g s t ∧
        (t.dev.group g).kids = x.kids ++ [⟨p, i, ps, vs, n, low, bytes, bad⟩] ∧ (t.dev.group g).arrived = x.arrived ∧
        (t.dev.group g).inst = x.inst) ∧
    (∀ g i m dn, let x := s.dev.group g
      x.en = true → x.gst ≠ .down → x.parent.toNat = p → x.inst = i → x.sentUp = true →
      (∃ ps vs bs, m = ReelMsg.resultDown g i ps vs bs ∧ dn = (⟨vs, bs, none⟩ : Down)) ∨
        (∃ ps b, m = .failDown g i ps b ∧ dn = ⟨[], [], some b⟩) →
      ∃ t, exec (.reelMessageReceive p m) s = .next t ∧ onlyGroup g s t ∧ t.dev.group g = { x with down := some dn } ∧
        ∀ k ∈ x.childPorts, handed s t k (.reel k m)) ∧
    (∀ g, let x := s.dev.group g
      x.en = true → x.gst ≠ .down → p ∈ x.ports →
      ∃ t, exec (.reelMessageReceive p (.downEntry g)) s = .next t ∧ t.plat = s.plat ∧ (t.dev.group g).gst = .down ∧
        (t.dev.group g).downPort = p ∧ (t.dev.group g).arrived = [] ∧ (t.dev.group g).en = true ∧
        ∀ k ∈ x.ports, k ≠ p → handed s t k (.reel k (.downEntry g))) ∧
    (∀ g i ps sh, numbersApart s.dev → s.dev.ups.runs = [] → let x := s.dev.group g
      x.en = true → x.gst ≠ .down → p ∈ x.ports → x.inst ≤ i → x.skipped.contains i = false →
      ∃ t, exec (.reelMessageReceive p (.abort g i ps sh)) s = .next t ∧ abortedAs s t g i sh ps (some p)) ∧
    (s.dev.reel.parentPort = p → s.dev.reel.snapRoot = false →
      ∃ t u, exec (.reelMessageReceive p .freeze) s = .next t ∧ exec (.reelMessageReceive p .resume) s = .next u ∧
        t.dev.reel.snap = 1 ∧ t.plat = s.plat ∧ t.dev.mem = s.dev.mem ∧
        (∀ k ∈ s.dev.reel.childPorts, handed s t k (.reel k .freeze)) ∧
        (FMap.wf Ctx.free s.dev.hub.ctxs → ∀ c, (t.dev.ctx c).st =
          if (s.dev.ctx c).st = .opened then .frozen else (s.dev.ctx c).st) ∧
        u.dev.reel.snap = 0 ∧ u.plat = s.plat ∧ u.dev.mem = s.dev.mem ∧
        (∀ k ∈ s.dev.reel.childPorts, handed s u k (.reel k .resume)) ∧
        ∀ c, (u.dev.ctx c).st =
          if s.dev.hub.snapFrozen.contains c = true ∧ (s.dev.ctx c).st = .frozen then .opened else (s.dev.ctx c).st) ∧
    (p ∈ s.dev.reel.childPorts → p ∉ s.dev.reel.reports →
      ∃ t, exec (.reelMessageReceive p .drained) s = .next t ∧ p ∈ t.dev.reel.reports ∧ t.plat = s.plat ∧
        t.dev.mem = s.dev.mem ∧ t.dev.hub = s.dev.hub) ∧
    (s.dev.reel.parentPort = p →
      ∃ t, exec (.reelMessageReceive p .taken) s = .next t ∧ t.dev.reel.snap = 2 ∧ t.plat = s.plat ∧ t.dev.mem = s.dev.mem ∧
        t.dev.hub = s.dev.hub ∧ ∀ k ∈ s.dev.reel.childPorts, handed s t k (.reel k .taken)) ∧
    (s.dev.reel.parentPort = p → s.plat.pow.stage = .ready → ∃ t, exec (.reelMessageReceive p .reset) s = .next t ∧
      warmStarted s t))

namespace Sys2Proof.Spec

/-! ### Partner ports (R310 to R324) -/

/-- Of the device only one port may differ. -/
def onlyPort (p : Nat) (s t : State) : Prop :=
  t.pending = s.pending ∧ t.plat = s.plat ∧ t.dev.hub = s.dev.hub ∧ t.dev.mem = s.dev.mem ∧ t.dev.eng = s.dev.eng ∧
  t.dev.collie = s.dev.collie ∧ t.dev.reel = s.dev.reel ∧ t.dev.ups = s.dev.ups ∧ t.dev.ports.out = s.dev.ports.out ∧
  ∀ q, q ≠ p → t.dev.port q = s.dev.port q

/-- The context holds a grant for the source with the right of the access, and its teardown has not begun (R319). -/
def hasGrant (s : State) (c node src : Nat) (a : Acc) : Prop :=
  (s.dev.ctx c).st ≠ .free ∧ (s.dev.ctx c).st ≠ .teardown ∧ ∃ g ∈ (s.dev.ctx c).grants, g.node = node ∧ g.ctx = src ∧
    (match a with
      | .read => g.r
      | .write => g.w
      | .atomic => g.a) = true

end Sys2Proof.Spec

/-- Training, handshake and timeouts move a link through its states; flits are taken in sequence, replayed on request, and a lost link fails what used it. (16_partner_ports (R311), 16_partner_ports (R313), 16_partner_ports (R314), 16_partner_ports (R316), 16_partner_ports (R322), 15_reel_network (R305)) -/
def Obligations.LinksAreTrainedAndFall : Prop :=
  (∀ s p lanes, let x := s.dev.port p
    let hello := Output.handshake p s.dev.ports.node.toNat s.dev.ports.topo Config.portVersion
    (x.blk.st = .starting ∨ x.blk.st = .on) → (x.link = .training ∨ x.link = .handshake ∧ x.hsFault = true) →
    (lanes = 0xFFFF#16 → ∃ t, exec (.portTrainingDone p lanes) s = .next t ∧ onlyPort p s t ∧
      t.dev.port p = { x with link := .handshake, narrow := false, hsFault := false, noPartner := false } ∧
      t.dev.sent = hello :: s.dev.sent) ∧
    (lanes ≠ 0xFFFF#16 → (lanes.extractLsb' 0 8 = 0xFF#8 ∨ lanes.extractLsb' 8 8 = 0xFF#8) → x.allowNarrow = true →
      ∃ t, exec (.portTrainingDone p lanes) s = .next t ∧ onlyPort p s t ∧
        t.dev.port p = { x with link := .handshake, narrow := true, hsFault := false, noPartner := false } ∧
        t.dev.sent = hello :: s.dev.sent) ∧
    (lanes ≠ 0xFFFF#16 → (x.allowNarrow = false ∨ (lanes.extractLsb' 0 8 ≠ 0xFF#8 ∧ lanes.extractLsb' 8 8 ≠ 0xFF#8)) →
      ∃ t, exec (.portTrainingDone p lanes) s = .next t ∧ onlyPort p s t ∧ t.dev.port p = { x with link := .training, hsFault := false })) ∧
  (∀ s p lanes m, (s.dev.port p).blk.st ≠ .starting → (s.dev.port p).blk.st ≠ .on →
    (∃ t, exec (.portTrainingDone p lanes) s = .next t ∧ onlyPort p s t ∧ t.dev.port p = s.dev.port p) ∧
    exec (.portHandshake p m) s = .next s) ∧
  (∀ s p, let x := s.dev.port p
    x.link = .training → ∃ t, exec (.noPartnerTimeout p) s = .next t ∧ onlyPort p s t ∧ t.dev.port p = { x with noPartner := true }) ∧
  (∀ s p m, let x := s.dev.port p
    x.link = .handshake → x.hsFault = false → (x.blk.st = .starting ∨ x.blk.st = .on) →
    (s.dev.handshakeBad p m = true → ∃ t, exec (.portHandshake p m) s = .next t ∧ onlyPort p s t ∧
      t.dev.port p = { x with hsFault := true }) ∧
    (s.dev.handshakeBad p m = false → m.node < 4096 → m.port < 8 → ∃ t, exec (.portHandshake p m) s = .next t ∧ onlyPort p s t ∧
      (t.dev.port p).link = .up ∧ (t.dev.port p).peerNode.toNat = m.node ∧ (t.dev.port p).peerPort.toNat = m.port ∧
      (t.dev.port p).peerValid = true ∧ (t.dev.port p).txSeq = 0 ∧ (t.dev.port p).rxSeq = 0 ∧ (t.dev.port p).replay = [] ∧
      (t.dev.port p).waiting = [] ∧ (∀ v, v < 4 → (t.dev.port p).credits.getD v 0 = Config.portCredits v) ∧
      (x.blk.st = .starting → (t.dev.port p).blk.st = .on))) ∧
  (∀ s p (f : Flit), let x := s.dev.port p
    x.link = .up →
    ∃ t, exec (.flitReceive p f) s = .next t ∧ onlyPort p s t ∧
      (t.dev.port p).fecUncorr.toNat = min (x.fecUncorr.toNat + f.fecBad) 0xFFFF ∧
      (f.crcOk = false → t.dev.sent = .nak p f.seq :: s.dev.sent ∧
        t.dev.port p = { x with fecUncorr := (t.dev.port p).fecUncorr }) ∧
      (f.crcOk = true → f.seq ≠ x.rxSeq → (t.dev.port p).rxSeq = x.rxSeq ∧
        (x.waiting = [] → (t.dev.port p).replay = x.replay ∧ (t.dev.port p).credits = x.credits)) ∧
      (f.crcOk = true → f.seq = x.rxSeq → (t.dev.port p).rxSeq = x.rxSeq + 1 ∧
        (t.dev.port p).lastAck = max x.lastAck f.acked ∧
        (∀ e ∈ x.replay, f.acked ≤ e.1 → e ∈ (t.dev.port p).replay) ∧
        (∀ e ∈ (t.dev.port p).replay, (e ∈ x.replay ∧ f.acked ≤ e.1) ∨ (x.txSeq ≤ e.1 ∧ e.1 < (t.dev.port p).txSeq ∧ e.2 = 0)) ∧
        (x.waiting = [] → (t.dev.port p).txSeq = x.txSeq ∧ ∀ v, v < 4 → x.credits.length = 4 → f.credits.length = 4 →
          (t.dev.port p).credits.getD v 0 = x.credits.getD v 0 + f.credits.getD v 0) ∧
        (∀ w, x.waiting = [w] → w.left = 1 → w.vc < 4 → 0 < (List.zipWith (· + ·) x.credits f.credits).getD w.vc 0 →
          x.replay.length < 2048 → (t.dev.port p).waiting = [] ∧ t.dev.sent = w.msg ::
            .flit p x.txSeq w.vc w.second (x.rxSeq + 1) (x.owed.modify f.vc (· + 1)) :: s.dev.sent) ∧
        ((∀ w ∈ x.waiting, 0 < w.left) → (t.dev.port p).flits + (t.dev.port p).txSeq = x.flits + x.txSeq))) ∧
  (∀ s p n, let x := s.dev.port p
    x.link = .up → ∃ t, exec (.flitNak p n) s = .next t ∧ onlyPort p s t ∧
      t.dev.sent = ((x.replay.filter fun e => decide (n ≤ e.1)).map fun e => Output.replay p e.1).reverse ++ s.dev.sent ∧
      (t.dev.port p).replays.toNat = min (x.replays.toNat + (x.replay.filter fun e => decide (n ≤ e.1)).length) 0xFFFF ∧
      (if ∃ e ∈ x.replay, n ≤ e.1 ∧ 15 ≤ e.2 then (t.dev.port p).link = .down ∧ (t.dev.port p).downSeen = true
        else (t.dev.port p).link = .up ∧
          (t.dev.port p).replay = x.replay.map fun e => if n ≤ e.1 then (e.1, e.2 + 1) else e)) ∧
  (∀ s p c, let x := s.dev.port p
    (x.replay = [] → exec (.ackTimeout p) s = .next s) ∧
    (x.link = .up → (c = Instr.ackTimeout p ∧ x.replay ≠ [] ∨ c = .blockLockLoss p) → ∃ t, exec c s = .next t ∧ onlyPort p s t ∧
      t.dev.port p = { x with link := .down, downSeen := true, downDue := true, replay := [], waiting := [] })) ∧
  (∀ s p, let x := s.dev.port p
    x.link = .down → x.downDue = true → numbersApart s.dev → s.dev.ups.runs = [] →
    ∃ t, exec (.linkDown p) s = .next t ∧ t.plat = s.plat ∧ t.pending = s.pending ∧ (t.dev.port p).downDue = false ∧
      (t.dev.port p).link = (if x.autoRetrain = true ∧ x.blk.st = .on then .training else .down) ∧
      (∀ o ∈ s.dev.ports.out, o.port = p → ∀ y, s.dev.item o.ctx o.seq = some y → y.isWork = false → y.err = none →
        ∃ z, t.dev.item o.ctx o.seq = some z ∧ z.phase = .done ∧ z.err ≠ none ∧
          ((∀ w ∈ s.dev.hub.items, w.isWork = false) → z.err = some (.linkLost, p))) ∧
      (∀ e ∈ t.dev.ports.passed, e ∈ s.dev.ports.passed ∧ e.port ≠ p) ∧
      (∀ e ∈ s.dev.ports.passed, e.port = p → let q := (s.dev.route e.src).getD p
        q ≠ p → handed s t q (.peerAns q e.tag .lost e.src s.dev.ports.node.toNat)) ∧
      ∀ g, g < 256 → (s.dev.group g).en = true → (s.dev.group g).gst ≠ .down → p ∈ (s.dev.group g).ports →
        (t.dev.group g).gst = .down ∧ (t.dev.group g).downPort = p)

/-- A granted peer request is performed at its target, any other is refused and counted; an answer goes to the line, atomic or item that waits for it. (16_partner_ports (R317), 16_partner_ports (R318), 16_partner_ports (R319), 16_partner_ports (R320), 16_partner_ports (R321), 16_partner_ports (R322), 16_partner_ports (R324), 18_fault_accounting (R341)) -/
def Obligations.PeersAreServedAndAnswered : Prop :=
  (∀ s p (r : PeerReq) (f : ZcFrame), s.dev.carries p = false →
    exec (.peerRequestReceive p r) s = .next s ∧ exec (.zcFrameReceive p f) s = .next s) ∧
  (∀ s p (r : PeerReq), r.dst = s.dev.ports.node.toNat → s.dev.carries p = true → let q := (s.dev.route r.srcNode).getD p
    let ans := fun (t : State) (y : PeerAns) => handed s t q (.peerAns q r.tag y r.srcNode s.dev.ports.node.toNat)
    (∀ n bs, r.op = .read n → hasGrant s r.ctx r.srcNode r.srcCtx .read → s.dev.hereFor r.ctx r.va n .read = true →
      sound s → wholeLines s.dev.mem → s.dev.readBytes ⟨r.ctx, 0, none, none⟩ n r.va = .ok bs →
      ∃ t, exec (.peerRequestReceive p r) s = .next t ∧ t.plat = s.plat ∧ sameBytes s t ∧
        t.dev.hub.items = s.dev.hub.items ∧ ans t (.data bs)) ∧
    (∀ bs key a, r.op = .write bs → hasGrant s r.ctx r.srcNode r.srcCtx .write → sound s → coherent s.dev.mem →
      spanAt s r.ctx r.va bs.length key a →
      ∃ t, exec (.peerRequestReceive p r) s = .next t ∧ t.plat = s.plat ∧ laid s t key [(r.va, a, bs)] ∧
        (∀ y, t.dev.mem.hostByte y = s.dev.mem.hostByte y) ∧
        ans t .done) ∧
    (∀ op ty os cs key a, r.op = .atomic op ty os cs → hasGrant s r.ctx r.srcNode r.srcCtx .atomic → sound s → wholeLines s.dev.mem →
      atomLegal op ty = true → s.dev.hereFor r.ctx r.va (atomBytes ty) .atomic = true → r.va % atomBytes ty = 0 →
      a % atomBytes ty = 0 → translate s.dev r.ctx r.va .atomic = .ok (.dev a, key) →
      FMap.get false s.dev.mem.bad (a / 64) = false →
      let ps := os.zip (cs ++ List.replicate os.length 0)
      let old := devWord s.dev.mem key a (atomBytes ty)
      ∃ t, exec (.peerRequestReceive p r) s = .next t ∧ t.plat = s.plat ∧
        ans t (.old (atomBefore op ty old ps)) ∧
        devWord t.dev.mem key a (atomBytes ty) = atomAfter op ty old ps ps.length) ∧
    (¬hasGrant s r.ctx r.srcNode r.srcCtx (peerAcc r) ∨ s.dev.hereFor r.ctx r.va (peerSize r) (peerAcc r) = false ∨
        (∃ op ty os cs, r.op = .atomic op ty os cs ∧ r.va % atomBytes ty ≠ 0) →
      ∃ t, exec (.peerRequestReceive p r) s = .next t ∧ t.plat = s.plat ∧ t.dev.mem = s.dev.mem ∧
        ans t .refused ∧
        t.dev.hub = { s.dev.hub with peerRef := BitVec.ofNat 32 (min (s.dev.hub.peerRef.toNat + 1) (2 ^ 32 - 1)) })) ∧
  (∀ s p (f : ZcFrame) key (at_ : Nat → Nat), f.dst = s.dev.ports.node.toNat → s.dev.carries p = true →
    let q := (s.dev.route f.srcNode).getD p
    hasGrant s f.ctx f.srcNode f.srcCtx .write → sound s → coherent s.dev.mem →
    let o : Outs := (f.masks ++ f.vals ++ [(f.rowVa, leBytes 8 f.row.toNat)]).map fun e => (e.1, at_ e.1, e.2)
    outsAt s f.ctx key o →
    ∃ t, exec (.zcFrameReceive p f) s = .next t ∧ t.plat = s.plat ∧ laid s t key o ∧
      (∀ y, t.dev.mem.hostByte y = s.dev.mem.hostByte y) ∧ handed s t q (.peerAns q f.tag .done f.srcNode s.dev.ports.node.toNat)) ∧
  (∀ s p q (r : PeerReq) (f : ZcFrame) (x : AnsPath) tag ans, (s.dev.port q).link = .up →
    (r.dst ≠ s.dev.ports.node.toNat → s.dev.carries p = true → s.dev.route r.dst = some q → ∃ t, exec (.peerRequestReceive p r) s = .next t ∧
      t.plat = s.plat ∧ t.dev.mem = s.dev.mem ∧ t.dev.hub = s.dev.hub ∧
      t.dev.ports.passed = s.dev.ports.passed ++ [⟨r.srcNode, r.tag, q⟩] ∧ handed s t q (.peerReq q r.tag r)) ∧
    (f.dst ≠ s.dev.ports.node.toNat → s.dev.carries p = true → s.dev.route f.dst = some q → ∃ t, exec (.zcFrameReceive p f) s = .next t ∧
      t.plat = s.plat ∧ t.dev.mem = s.dev.mem ∧ t.dev.hub = s.dev.hub ∧
      t.dev.ports.passed = s.dev.ports.passed ++ [⟨f.srcNode, f.tag, q⟩] ∧ handed s t q (.zcFrame q f)) ∧
    (x.dst ≠ s.dev.ports.node.toNat → s.dev.route x.dst = some q → ∃ t, exec (.peerResponseReceive x tag ans) s = .next t ∧
      t.plat = s.plat ∧ t.dev.mem = s.dev.mem ∧ t.dev.hub = s.dev.hub ∧
      (∀ e ∈ t.dev.ports.passed, e ∈ s.dev.ports.passed ∧ ¬(e.src = x.dst ∧ e.tag = tag)) ∧
      handed s t q (.peerAns q tag ans x.dst x.src))) ∧
  (∀ s p (r : PeerReq) (f : ZcFrame), s.dev.carries p = true → (r.dst ≠ s.dev.ports.node.toNat →
      (∀ q, s.dev.route r.dst = some q → (s.dev.port q).link ≠ .up) → ∃ t, exec (.peerRequestReceive p r) s = .next t ∧
      t.dev.mem = s.dev.mem ∧ t.dev.hub = s.dev.hub ∧
      handed s t ((s.dev.route r.srcNode).getD p)
        (.peerAns ((s.dev.route r.srcNode).getD p) r.tag .lost r.srcNode s.dev.ports.node.toNat)) ∧
    (f.dst ≠ s.dev.ports.node.toNat →
      (∀ q, s.dev.route f.dst = some q → (s.dev.port q).link ≠ .up) → ∃ t, exec (.zcFrameReceive p f) s = .next t ∧
      t.dev.mem = s.dev.mem ∧ t.dev.hub = s.dev.hub ∧
      handed s t ((s.dev.route f.srcNode).getD p)
        (.peerAns ((s.dev.route f.srcNode).getD p) f.tag .lost f.srcNode s.dev.ports.node.toNat))) ∧
  (∀ s (node : AnsPath) tag ans, node.dst = s.dev.ports.node.toNat → (∀ o ∈ s.dev.ports.out, o.tag ≠ tag) →
    exec (.peerResponseReceive node tag ans) s = .next s) ∧
  (∀ s (node : AnsPath) tag o, node.dst = s.dev.ports.node.toNat → s.dev.ports.out.find? (fun y => y.tag == tag) = some o →
    let gone := fun (t : State) => ∀ y ∈ t.dev.ports.out, y ∈ s.dev.ports.out ∧ y.tag ≠ tag
    let ring := (s.dev.item o.ctx o.seq).any Item.isWork = false
    (∀ bs pk l key rctx rva keep, o.use = .line pk l key rctx rva keep →
      ∃ t, exec (.peerResponseReceive node tag (.data bs)) s = .next t ∧ t.plat = s.plat ∧
        (ring → gone t) ∧
        (t.dev.counter o.ctx 133).toNat = min ((s.dev.counter o.ctx 133).toNat + o.bytes) (2 ^ 64 - 1) ∧
        ∀ kb, ring → s.dev.block (pk / 16) = some kb → keep = true → bs.length = 128 →
          ((s.dev.core kb.die kb.core).line (.peer o.node rctx rva) key).isNone = true →
          (s.dev.core kb.die kb.core).lines.length < coreLines →
          t.dev.mem = s.dev.mem ∧ ((t.dev.core kb.die kb.core).line (.peer o.node rctx rva) key).map CLine.data = some bs ∧
          ((s.dev.pack pk).wait = some .memory → (∀ y ∈ s.dev.ports.out, y.use.lines pk = true → y.tag = tag) →
            (t.dev.pack pk).wait = none)) ∧
    (∀ vs pk lanes dst fmt, o.use = .atom pk lanes dst fmt → lanes.Nodup → (∀ l ∈ lanes, l < 32) → dst.toNat < 127 → ring →
      ∃ t, exec (.peerResponseReceive node tag (.old vs)) s = .next t ∧ t.plat = s.plat ∧ t.dev.mem = s.dev.mem ∧ gone t ∧
        (∀ (i l : Nat) (v : Dword), lanes[i]? = some l → vs[i]? = some v → treg (t.dev.pack pk) l dst.toNat = v.setWidth 32 ∧
          (fmt = 0x0F ∨ fmt = 0x11 → treg (t.dev.pack pk) l (dst.toNat + 1) = (v >>> 32).setWidth 32)) ∧
        (t.dev.counter o.ctx 135).toNat = min ((s.dev.counter o.ctx 135).toNat + 1) (2 ^ 64 - 1)) ∧
    (∀ bs rctx rva, o.use = .fill rctx rva → ring → s.dev.waitsBy o.ctx o.seq false = false →
      ∃ t, exec (.peerResponseReceive node tag (.data bs)) s = .next t ∧ t.plat = s.plat ∧ t.dev.mem = s.dev.mem ∧ gone t ∧
        t.dev.ports.buf = s.dev.ports.buf ++ (List.range bs.length).map fun i =>
          ⟨o.ctx, o.seq, o.node, rctx, rva + i, bs.getD i 0⟩) ∧
    (∃ t, exec (.peerResponseReceive node tag .done) s = .next t ∧ t.plat = s.plat ∧ (ring → t.dev.mem = s.dev.mem ∧ gone t) ∧
      (t.dev.counter o.ctx 134).toNat = min ((s.dev.counter o.ctx 134).toNat + o.bytes) (2 ^ 64 - 1)) ∧
    (∀ it ans e, s.dev.item o.ctx o.seq = some it → it.isWork = false → it.err = none → numbersApart s.dev → s.dev.ups.runs = [] →
      (ans = PeerAns.eccError ∧ e = (Status.eccUncorrectable, detailHalf o.va)) ∨ (ans = .lost ∧ e = (.linkLost, o.port)) →
      ∃ t, exec (.peerResponseReceive node tag ans) s = .next t ∧ t.plat = s.plat ∧
        (t.dev.item o.ctx o.seq).map (fun y => (y.phase, y.err)) = some (.done, some e)) ∧
    ((s.dev.ctx o.ctx).st = .opened → ∃ t, exec (.peerResponseReceive node tag .refused) s = .next t ∧
      killedBy t o.ctx 0x0402 ∧ (t.dev.ctx o.ctx).fault.source = 6 ∧ (t.dev.ctx o.ctx).fault.aux = BitVec.ofNat 32 o.node ∧
      (t.dev.ctx o.ctx).fault.addr = BitVec.ofNat 64 o.va))

namespace Sys2Proof.Spec

/-! ### The whole machine -/

/-- The line or half-line a memory command names exists (R122), or is a host line. -/
def namesMemory : Instr → Bool
  | .patrolScrubRead h _ => decide (h < 2 * 16106127360)
  | .demandMissFill _ l _ _ => decide (l < 16106127360 ∨ 2 ^ 45 ≤ l)
  | .prefetchFill _ l _ _ => decide (l < 16106127360)
  | .backInvalidationResponse l => decide (l < 16106127360)
  | _ => true

/-- The transitions of the life cycle (R365). -/
def lifeMove : Life → Life → Bool
  | .blank, .provisioned => true
  | .provisioned, .owned => true
  | .owned, .service => true
  | .service, .owned => true
  | .service, .provisioned => true
  | .owned, .provisioned => true
  | .provisioned, .decommissioned => true
  | .owned, .decommissioned => true
  | .service, .decommissioned => true
  | _, _ => false

/-- What holds of the fuses: a state that waits to take effect is one the present state may pass to, and no more slots,
entries and records are used than the fuses hold, and a BLANK part has no device identity key (R355, R365, R368). -/
def fusesLegal (p : Platform) : Prop :=
  (∀ l, p.mas.lifePending = some l → lifeMove p.fuses.life l = true) ∧
  p.fuses.ownerUsed ≤ 8 ∧ p.fuses.serviceUsed ≤ 16 ∧ p.fuses.permLog.length ≤ 64 ∧
  (p.fuses.life = .blank → p.fuses.deviceKey = none)

/-- The fuses `g` may follow `f`. -/
def fusesFollow (f g : Fuses) : Prop :=
  (g.life = f.life ∨ lifeMove f.life g.life = true) ∧
  f.ownerUsed ≤ g.ownerUsed ∧ f.serviceUsed ≤ g.serviceUsed ∧ f.minSvn ≤ g.minSvn ∧
  (f.debugLocked = true → g.debugLocked = true) ∧ (f.sealBroken = true → g.sealBroken = true) ∧
  f.permLog <+: g.permLog ∧ g.fusedBad = f.fusedBad ∧ ∀ k, f.deviceKey = some k → g.deviceKey = some k

/-- Every line of a core's data cache has its 128 bytes and its 128 dirty marks. -/
def coreLinesWhole (c : Collie) : Prop :=
  ∀ e ∈ c.cores, ∀ x ∈ e.2.lines, x.data.length = 128 ∧ x.dirty.length = 128

/-- Memory is in its canonical form and the caches agree. -/
def memorySound (d : Device) : Prop := Memory.wf d.mem ∧ coherent d.mem ∧ coreLinesWhole d.collie

/-- Fetched items are numbered below 2^32, work records from there on (the model's numbering, log 76). -/
def itemsNumbered (d : Device) : Prop :=
  ∀ x ∈ d.hub.items, if x.isWork then 2 ^ 32 ≤ x.seq else x.seq < 2 ^ 32

/-- BAR0 offsets with what they read right after reset: GLB, CTX, RING, PWR, REEL, UPS, CNT, and the first block of the SLC,
PPORT and MEM windows. -/
def resetReads : List (Nat × Nat) :=
  [(0x000000, 0x21), (0x000020, 0x64200101), (0x000030, 0x04140828), (0x000040, 0x6014), (0x000050, 0x00108000),
    (0x000060, 0x08040800), (0x000070, 0x00901000), (0x000080, 0x1006), (0x000090, 0), (0x0000A0, 0), (0x000100, 0),
    (0x000400, 0)] ++
  [(0x010000, 0x21), (0x010010, 0), (0x010020, 0), (0x010030, 0x1F00), (0x010040, 0), (0x010100, 0)] ++
  [(0x020000, 0x21), (0x020010, 0), (0x020020, 0), (0x020030, 0), (0x020040, 0x0606), (0x020050, 0), (0x020070, 0),
    (0x020090, 0), (0x0200A0, 0)] ++
  [(0x030000, 0), (0x030020, 0), (0x030030, 0), (0x030050, 0)] ++
  [(0x040000, 0x21), (0x040010, 0), (0x040020, 0xA282D500), (0x040030, 0x708000F0), (0x040040, 0x28A0), (0x040050, 0),
    (0x040060, 0), (0x040070, 0), (0x040080, 0x140A), (0x040090, 0), (0x0400A0, 0xFFFFFFFF), (0x0400B0, 0xFFFFFFFF),
    (0x0400C0, 0xFFFF), (0x040100, 0), (0x040110, 0)] ++
  [(0x050000, 1), (0x050010, 0), (0x050020, 0xFF402040), (0x050030, 0xF), (0x051000, 0), (0x051010, 0x10000),
    (0x051020, 0xF)] ++
  [(0x060000, 0), (0x060010, 0), (0x060020, 0x1084D800), (0x060030, 0x10000), (0x060040, 0), (0x060050, 0), (0x060800, 0),
    (0x060810, 0)] ++
  [(0x070000, 1), (0x070010, 0), (0x070020, 0x84001000), (0x080000, 1), (0x080010, 0), (0x080020, 0x10204060),
    (0x080030, 0x180010), (0x080040, 0), (0x080050, 0), (0x080060, 0), (0x080070, 0), (0x080080, 0)] ++
  [(0x400000, 0x21), (0x400010, 0), (0x400020, 0), (0x400050, 0)]

/-- Registers of a lane die's blocks with their Reset values. -/
def resetDie (die k : Nat) : List ((Block × Nat) × Nat) :=
  [((.re die k, 0x00), 1), ((.re die k, 0x40), 0x31), ((.re die k, 0x50), 0), ((.re die k, 0x60), 0), ((.re die k, 0x70), 0),
    ((.txb die, 0x00), 1), ((.txb die, 0x10), 0), ((.txb die, 0x20), 0x02800100), ((.txb die, 0x30), 1)] ++
  [((.ve die, 0x00), 1), ((.ve die, 0x10), 0), ((.ve die, 0x20), 0x80421000), ((.rng die, 0x00), 1), ((.rng die, 0x10), 0),
    ((.rng die, 0x20), 0x0A200000), ((.collie die, 0x00), 1), ((.collie die, 0x10), 0), ((.collie die, 0x20), 0x10404844),
    ((.collie die, 0x30), 0x40204100)] ++
  [((.dcache die, 0x00), 1), ((.dcache die, 0x10), 0), ((.dcache die, 0x20), 0xC0878000), ((.dcache die, 0x30), 3),
    ((.dcache die, 0x40), 0), ((.dcache die, 0x50), 0), ((.retr die, 0x00), 1), ((.retr die, 0x10), 0),
    ((.retr die, 0x20), 0x40000400), ((.retr die, 0x30), 0x04000310)]

end Sys2Proof.Spec

/-- A step takes the command at the front of the queue and is its exec on the state with the queue's rest; with an empty queue a clock period passes (log 2). (20_power_clocks_reset (R376), 13_rings_doorbells_completions (R255), 06_parameter_update (R116), 06_parameter_update (R120)) -/
def Obligations.AStepRunsTheFrontCommand : Prop :=
  (∀ (s : State) (c : Instr) (rest : List Instr), s.pending = c :: rest → step s = exec c { s with pending := rest }) ∧
  (∀ s : State, s.pending = [] → ∃ t, step s = .next t ∧ t.pending = [] ∧ t.plat.fuses = s.plat.fuses ∧ t.plat.mas = s.plat.mas ∧
    t.plat.pow.time = (if s.plat.pow.alwaysOn then s.plat.pow.time + (if s.plat.pow.refAbsent then 125 else 10) else s.plat.pow.time)) ∧
  (∀ (s : State) it, s.pending = [] → s.plat.pow.alwaysOn = true → s.plat.pow.refAbsent = false → s.dev.hub.items = [it] →
    it.typ = 4 → it.isWork = false → it.phase = .running → s.dev.pinWaits it = true → ∃ t, step s = .next t ∧
    (t.dev.counter it.ctx 62).toNat = min ((s.dev.counter it.ctx 62).toNat + 18) (2 ^ 64 - 1)) ∧
  (∀ (s : State) n w, s.withFetchWord n w = s)

/-- Every command answers a next state and leaves the queue to step; only a line of device memory that does not exist faults. (07_afnex_memory_and_stash (R122), 18_fault_accounting (R340)) -/
def Obligations.EveryCommandCompletes : Prop :=
  ∀ (c : Instr) (s : State),
    if namesMemory c then ∃ t, exec c s = .next t ∧ t.pending = s.pending
    else exec c s = .fault .noSuchDeviceAddress

/-- A device address maps to its stack, channel and bank as R122 says, and pages spread over the stacks. (07_afnex_memory_and_stash (R122)) -/
def Obligations.DeviceAddressesMapToStacks : Prop :=
  (∀ D, stackOf D = D / 4096 % 20 ∧ stackOffset D = D / 4096 / 20 * 4096 + D % 4096 ∧
    channelOf D = (stackOffset D / 2 ^ 8 % 32) ^^^ (stackOffset D / 2 ^ 17 % 32) ∧
    bankOf D = (stackOffset D / 2 ^ 13 % 64) ^^^ (stackOffset D / 2 ^ 19 % 64)) ∧
  (∀ D, stackOf (D + 4096) = (stackOf D + 1) % 20) ∧
  (∀ D x, D % 256 = 0 → x < 256 → stackOf (D + x) = stackOf D ∧ channelOf (D + x) = channelOf D) ∧
  (∀ P, P % 65536 = 0 → ((List.range 16).map fun i => stackOf (P + 4096 * i)).Nodup) ∧
  (∀ P n, P % 2 ^ 21 = 0 → n < 20 → let k := ((List.range 512).filter fun i => stackOf (P + 4096 * i) == n).length; k = 25 ∨ k = 26) ∧
  stackOf 0x2468DA80 = 13 ∧ stackOffset 0x2468DA80 = 0x01D20A80 ∧ channelOf 0x2468DA80 = 3 ∧ bankOf 0x2468DA80 = 42 ∧
  stackOf (0x2468DA80 + 0x1000) = 14

/-- Reset leaves every register at its Reset value, nothing open, held or cached, memory zero and canonical, and every invariant stated here true. (20_power_clocks_reset (R386), 17_tenancy_and_wipe (R337), 21_setup_registers (R396), 21_setup_registers (R403), 21_setup_registers (R404), 21_setup_registers (R405), 20_power_clocks_reset (R390), 03_row_engines (R58)) -/
def Obligations.ResetLeavesTheResetValues : Prop :=
  (∀ e ∈ resetReads, State.reset.regRead e.1 = e.2) ∧
  (∀ die k, ∀ e ∈ resetDie die k, blockRead State.reset e.1.1 e.1.2 = e.2) ∧
  State.reset.pending = [] ∧ (∀ c, (State.reset.dev.ctx c).st = .free) ∧ (∀ i, (State.reset.dev.slice i).dies = []) ∧
  State.reset.dev.hub.items = [] ∧ State.reset.dev.mem.lines = [] ∧ State.reset.dev.collie.blocks = [] ∧
  (∀ a, FMap.get 0 State.reset.dev.mem.dram a = 0) ∧ (∀ c n, State.reset.dev.counter c n = 0) ∧
  fusesLegal State.reset.plat ∧ memorySound State.reset.dev ∧ itemsNumbered State.reset.dev ∧
  numbersApart State.reset.dev

/-- Decoding an encoded JKF instruction gives it back, and encoding a decoded word gives the word back. (10_jeneo_kernel_form (R192), 10_jeneo_kernel_form (R194), 10_jeneo_kernel_form (R197), 10_jeneo_kernel_form (R198)) -/
def Obligations.InstructionWordsRoundTrip : Prop :=
  (∀ c w imm p, jkfParts c = some p → jkfEncode c = some (w, imm) → ∃ c', jkfDecode p.2.2.1.pack w imm = some c' ∧ jkfParts c' = some p) ∧
  (∀ pack w imm c, jkfDecode pack w imm = some c → (jkfParts c).map (fun p => p.2.2.1.pack) = some pack ∧
    jkfEncode c = some (if w.getLsbD 50 then w else w &&& 0xFFFC3FFFFFFFFFFF#64, imm)) ∧
  (∀ b, AluBody.ofBits b.bits = b) ∧ (∀ b, PredBody.ofBits b.bits = b) ∧ (∀ b, PlogBody.ofBits b.bits = b) ∧
  (∀ b, MemBody.ofBits b.bits = b) ∧ (∀ b, AtomBody.ofBits b.bits = b) ∧ (∀ b, BraBody.ofBits b.bits = b) ∧
  (∀ b, SyncBody.ofBits b.bits = b) ∧ (∀ b, EngBody.ofBits b.bits = b) ∧ (∀ b, SpecBody.ofBits b.bits = b) ∧
  (∀ b, VecBody.ofBits b.bits = b)

/-- No step takes a fuse back: the life cycle follows its transitions, counts and the minimum SVN rise, the lock and the seal stay, the permanent log grows. (19_mastiff_presence_lifecycle (R357), 19_mastiff_presence_lifecycle (R364), 19_mastiff_presence_lifecycle (R365), 19_mastiff_presence_lifecycle (R366), 19_mastiff_presence_lifecycle (R368)) -/
def Obligations.FusesOnlyAdvance : Prop :=
  ∀ s t : State, fusesLegal s.plat → step s = .next t → fusesLegal t.plat ∧ fusesFollow s.plat.fuses t.plat.fuses

/-- Every step keeps the two memories in canonical form and the die caches coherent: whole lines, one copy a die, a line in several dies shared in each. (12_caches_prefetch_inflight (R226), 12_caches_prefetch_inflight (R225), 09_collie_cores_and_packs (R168)) -/
def Obligations.MemoryStaysCanonicalAndCoherent : Prop :=
  ∀ s t : State, memorySound s.dev → step s = .next t → memorySound t.dev

/-- Every step keeps fetched items and work records of a context under different numbers while no ring has fetched 2^32 descriptors. (13_rings_doorbells_completions (R255), 09_collie_cores_and_packs (R179)) -/
def Obligations.ItemNumbersStayApart : Prop :=
  (∀ s t : State, itemsNumbered s.dev → (∀ c, (s.dev.ring c).nextSeq + 16 ≤ 2 ^ 32) → step s = .next t → itemsNumbered t.dev) ∧
  (∀ d : Device, itemsNumbered d → numbersApart d)
end

