-- ==== Sys2Proof/Laws/Table.lean ====
section
/-! SUPPORT. Laws of the sparse tables: reading after writing, and the canonical form. -/

namespace Sys2Proof

variable {α : Type} {d v w : α} {m : FMap α} {a b : Nat}

@[simp] theorem FMap.get_nil : FMap.get d [] a = d := rfl

theorem FMap.get_cons (e : Nat × α) : FMap.get d (e :: m) a = if e.1 = a then e.2 else FMap.get d m a := rfl

/-- A key that a filter drops reads as the default. -/
theorem FMap.get_erase_self : FMap.get d (FMap.erase m a) a = d := by
  induction m with
  | nil => rfl
  | cons e m ih =>
    by_cases h : e.1 = a
    · simpa [FMap.erase, List.filter_cons, h] using ih
    · simpa [FMap.erase, List.filter_cons, h, FMap.get_cons] using ih

/-- Erasing a key leaves the others. -/
theorem FMap.get_erase_ne (h : b ≠ a) : FMap.get d (FMap.erase m a) b = FMap.get d m b := by
  induction m with
  | nil => rfl
  | cons e m ih =>
    by_cases he : e.1 = a
    · have : e.1 ≠ b := fun hb => h (hb ▸ he)
      simpa [FMap.erase, List.filter_cons, he, FMap.get_cons, this, Ne.symm h] using ih
    · simp only [FMap.erase, List.filter_cons, FMap.get_cons, Bool.not_eq_true'] at ih ⊢
      simp [FMap.get_cons, he, ih]

/-- An inserted key that was absent reads as its value. -/
theorem FMap.get_insert_self (h : ∀ e ∈ m, e.1 ≠ a) : FMap.get d (FMap.insertSorted a v m) a = v := by
  induction m with
  | nil => simp [FMap.insertSorted, FMap.get_cons]
  | cons e m ih =>
    obtain ⟨k, x⟩ := e
    have hk : k ≠ a := h (k, x) (by simp)
    unfold FMap.insertSorted
    split
    · simp [FMap.get_cons]
    · simpa [FMap.get_cons, hk] using ih fun e he => h e (by simp [he])

/-- Inserting a key leaves the others. -/
theorem FMap.get_insert_ne (h : b ≠ a) : FMap.get d (FMap.insertSorted a v m) b = FMap.get d m b := by
  induction m with
  | nil => simp [FMap.insertSorted, FMap.get_cons, Ne.symm h]
  | cons e m ih =>
    obtain ⟨k, x⟩ := e
    unfold FMap.insertSorted
    split
    · simp [FMap.get_cons, Ne.symm h]
    · simp [FMap.get_cons, ih]

variable [DecidableEq α]

/-- What was written is read. -/
@[simp] theorem FMap.get_set_self : FMap.get d (FMap.set d m a v) a = v := by
  unfold FMap.set
  split
  · subst_vars; exact FMap.get_erase_self
  · exact FMap.get_insert_self fun e he => by simpa [FMap.erase] using (List.mem_filter.mp he).2

/-- A write leaves every other key. -/
theorem FMap.get_set_ne (h : b ≠ a) : FMap.get d (FMap.set d m a v) b = FMap.get d m b := by
  unfold FMap.set
  split
  · exact FMap.get_erase_ne h
  · rw [FMap.get_insert_ne h, FMap.get_erase_ne h]

/-- Reading any key after a write. -/
theorem FMap.get_set : FMap.get d (FMap.set d m a v) b = if b = a then v else FMap.get d m b := by
  split
  · subst_vars; exact FMap.get_set_self
  · exact FMap.get_set_ne ‹_›

/-- Reading any key after an update. -/
theorem FMap.get_upd (f : α → α) :
    FMap.get d (FMap.upd d m a f) b = if b = a then f (FMap.get d m a) else FMap.get d m b := FMap.get_set

omit [DecidableEq α] in
/-- Keys of an insertion. -/
theorem FMap.mem_insert {e : Nat × α} : e ∈ FMap.insertSorted a v m ↔ e = (a, v) ∨ e ∈ m := by
  induction m with
  | nil => simp [FMap.insertSorted]
  | cons x m ih =>
    obtain ⟨k, y⟩ := x
    unfold FMap.insertSorted
    split
    · simp
    · simp only [List.mem_cons, ih]; tauto

omit [DecidableEq α] in
/-- Insertion keeps the keys rising. -/
theorem FMap.sorted_insert (h : m.Pairwise fun x y => x.1 < y.1) (hn : ∀ e ∈ m, e.1 ≠ a) :
    (FMap.insertSorted a v m).Pairwise fun x y => x.1 < y.1 := by
  induction m with
  | nil => simp [FMap.insertSorted]
  | cons x m ih =>
    obtain ⟨k, y⟩ := x
    rw [List.pairwise_cons] at h
    unfold FMap.insertSorted
    split
    · rename_i hlt
      refine List.pairwise_cons.mpr ⟨fun e he => ?_, List.pairwise_cons.mpr h⟩
      rcases List.mem_cons.mp he with rfl | he
      · exact hlt
      · exact hlt.trans (h.1 e he)
    · rename_i hge
      have hk : k ≠ a := hn (k, y) (by simp)
      refine List.pairwise_cons.mpr ⟨fun e he => ?_, ih h.2 fun e he => hn e (by simp [he])⟩
      rcases FMap.mem_insert.mp he with rfl | he
      · show k < a; omega
      · exact h.1 e he

/-- A write keeps the canonical form. -/
theorem FMap.wf_set (h : FMap.wf d m) : FMap.wf d (FMap.set d m a v) := by
  have he : FMap.wf d (FMap.erase m a) :=
    ⟨h.1.filter _, fun e he => h.2 e (List.mem_filter.mp he).1⟩
  unfold FMap.set
  split
  · exact he
  · refine ⟨FMap.sorted_insert he.1 fun e hm => by simpa [FMap.erase] using (List.mem_filter.mp hm).2, fun e hm => ?_⟩
    rcases FMap.mem_insert.mp hm with rfl | hm
    · assumption
    · exact he.2 e hm

/-- A run of writes keeps the canonical form. -/
theorem FMap.wf_foldl_set {β : Type} (key : β → Nat) (val : β → α) (l : List β) (h : FMap.wf d m) :
    FMap.wf d (l.foldl (fun t e => FMap.set d t (key e) (val e)) m) := by
  induction l generalizing m with
  | nil => exact h
  | cons x l ih => exact ih (FMap.wf_set h)

end Sys2Proof
end

