-- ==== Sys2Proof/Laws/State.lean ====
section
/-! SUPPORT. One lemma per field per update of the state, and what the lookups read after the updates. -/

namespace Sys2Proof.Machine

/-! ### Updates of the device part by part -/

section MapHub
variable (d : Device) (f : Hub → Hub)
@[simp] theorem Device.mapHub_hub : (d.mapHub f).hub = f d.hub := rfl
@[simp] theorem Device.mapHub_eng : (d.mapHub f).eng = d.eng := rfl
@[simp] theorem Device.mapHub_collie : (d.mapHub f).collie = d.collie := rfl
@[simp] theorem Device.mapHub_mem : (d.mapHub f).mem = d.mem := rfl
@[simp] theorem Device.mapHub_ups : (d.mapHub f).ups = d.ups := rfl
@[simp] theorem Device.mapHub_reel : (d.mapHub f).reel = d.reel := rfl
@[simp] theorem Device.mapHub_ports : (d.mapHub f).ports = d.ports := rfl
@[simp] theorem Device.mapHub_log : (d.mapHub f).log = d.log := rfl
@[simp] theorem Device.mapHub_sent : (d.mapHub f).sent = d.sent := rfl
@[simp] theorem Device.mapHub_freeCtr : (d.mapHub f).freeCtr = d.freeCtr := rfl
@[simp] theorem Device.mapHub_lruTick : (d.mapHub f).lruTick = d.lruTick := rfl
end MapHub

section MapEng
variable (d : Device) (f : Engines → Engines)
@[simp] theorem Device.mapEng_hub : (d.mapEng f).hub = d.hub := rfl
@[simp] theorem Device.mapEng_eng : (d.mapEng f).eng = f d.eng := rfl
@[simp] theorem Device.mapEng_collie : (d.mapEng f).collie = d.collie := rfl
@[simp] theorem Device.mapEng_mem : (d.mapEng f).mem = d.mem := rfl
@[simp] theorem Device.mapEng_ups : (d.mapEng f).ups = d.ups := rfl
@[simp] theorem Device.mapEng_reel : (d.mapEng f).reel = d.reel := rfl
@[simp] theorem Device.mapEng_ports : (d.mapEng f).ports = d.ports := rfl
@[simp] theorem Device.mapEng_log : (d.mapEng f).log = d.log := rfl
@[simp] theorem Device.mapEng_sent : (d.mapEng f).sent = d.sent := rfl
@[simp] theorem Device.mapEng_freeCtr : (d.mapEng f).freeCtr = d.freeCtr := rfl
@[simp] theorem Device.mapEng_lruTick : (d.mapEng f).lruTick = d.lruTick := rfl
end MapEng

section MapCollie
variable (d : Device) (f : Collie → Collie)
@[simp] theorem Device.mapCollie_hub : (d.mapCollie f).hub = d.hub := rfl
@[simp] theorem Device.mapCollie_eng : (d.mapCollie f).eng = d.eng := rfl
@[simp] theorem Device.mapCollie_collie : (d.mapCollie f).collie = f d.collie := rfl
@[simp] theorem Device.mapCollie_mem : (d.mapCollie f).mem = d.mem := rfl
@[simp] theorem Device.mapCollie_ups : (d.mapCollie f).ups = d.ups := rfl
@[simp] theorem Device.mapCollie_reel : (d.mapCollie f).reel = d.reel := rfl
@[simp] theorem Device.mapCollie_ports : (d.mapCollie f).ports = d.ports := rfl
@[simp] theorem Device.mapCollie_log : (d.mapCollie f).log = d.log := rfl
@[simp] theorem Device.mapCollie_sent : (d.mapCollie f).sent = d.sent := rfl
@[simp] theorem Device.mapCollie_freeCtr : (d.mapCollie f).freeCtr = d.freeCtr := rfl
@[simp] theorem Device.mapCollie_lruTick : (d.mapCollie f).lruTick = d.lruTick := rfl
end MapCollie

section MapMem
variable (d : Device) (f : Mem → Mem)
@[simp] theorem Device.mapMem_hub : (d.mapMem f).hub = d.hub := rfl
@[simp] theorem Device.mapMem_eng : (d.mapMem f).eng = d.eng := rfl
@[simp] theorem Device.mapMem_collie : (d.mapMem f).collie = d.collie := rfl
@[simp] theorem Device.mapMem_mem : (d.mapMem f).mem = f d.mem := rfl
@[simp] theorem Device.mapMem_ups : (d.mapMem f).ups = d.ups := rfl
@[simp] theorem Device.mapMem_reel : (d.mapMem f).reel = d.reel := rfl
@[simp] theorem Device.mapMem_ports : (d.mapMem f).ports = d.ports := rfl
@[simp] theorem Device.mapMem_log : (d.mapMem f).log = d.log := rfl
@[simp] theorem Device.mapMem_sent : (d.mapMem f).sent = d.sent := rfl
@[simp] theorem Device.mapMem_freeCtr : (d.mapMem f).freeCtr = d.freeCtr := rfl
@[simp] theorem Device.mapMem_lruTick : (d.mapMem f).lruTick = d.lruTick := rfl
end MapMem

section MapUps
variable (d : Device) (f : Ups → Ups)
@[simp] theorem Device.mapUps_hub : (d.mapUps f).hub = d.hub := rfl
@[simp] theorem Device.mapUps_eng : (d.mapUps f).eng = d.eng := rfl
@[simp] theorem Device.mapUps_collie : (d.mapUps f).collie = d.collie := rfl
@[simp] theorem Device.mapUps_mem : (d.mapUps f).mem = d.mem := rfl
@[simp] theorem Device.mapUps_ups : (d.mapUps f).ups = f d.ups := rfl
@[simp] theorem Device.mapUps_reel : (d.mapUps f).reel = d.reel := rfl
@[simp] theorem Device.mapUps_ports : (d.mapUps f).ports = d.ports := rfl
@[simp] theorem Device.mapUps_log : (d.mapUps f).log = d.log := rfl
@[simp] theorem Device.mapUps_sent : (d.mapUps f).sent = d.sent := rfl
@[simp] theorem Device.mapUps_freeCtr : (d.mapUps f).freeCtr = d.freeCtr := rfl
@[simp] theorem Device.mapUps_lruTick : (d.mapUps f).lruTick = d.lruTick := rfl
end MapUps

section MapReel
variable (d : Device) (f : Reel → Reel)
@[simp] theorem Device.mapReel_hub : (d.mapReel f).hub = d.hub := rfl
@[simp] theorem Device.mapReel_eng : (d.mapReel f).eng = d.eng := rfl
@[simp] theorem Device.mapReel_collie : (d.mapReel f).collie = d.collie := rfl
@[simp] theorem Device.mapReel_mem : (d.mapReel f).mem = d.mem := rfl
@[simp] theorem Device.mapReel_ups : (d.mapReel f).ups = d.ups := rfl
@[simp] theorem Device.mapReel_reel : (d.mapReel f).reel = f d.reel := rfl
@[simp] theorem Device.mapReel_ports : (d.mapReel f).ports = d.ports := rfl
@[simp] theorem Device.mapReel_log : (d.mapReel f).log = d.log := rfl
@[simp] theorem Device.mapReel_sent : (d.mapReel f).sent = d.sent := rfl
@[simp] theorem Device.mapReel_freeCtr : (d.mapReel f).freeCtr = d.freeCtr := rfl
@[simp] theorem Device.mapReel_lruTick : (d.mapReel f).lruTick = d.lruTick := rfl
end MapReel

section MapPorts
variable (d : Device) (f : Ports → Ports)
@[simp] theorem Device.mapPorts_hub : (d.mapPorts f).hub = d.hub := rfl
@[simp] theorem Device.mapPorts_eng : (d.mapPorts f).eng = d.eng := rfl
@[simp] theorem Device.mapPorts_collie : (d.mapPorts f).collie = d.collie := rfl
@[simp] theorem Device.mapPorts_mem : (d.mapPorts f).mem = d.mem := rfl
@[simp] theorem Device.mapPorts_ups : (d.mapPorts f).ups = d.ups := rfl
@[simp] theorem Device.mapPorts_reel : (d.mapPorts f).reel = d.reel := rfl
@[simp] theorem Device.mapPorts_ports : (d.mapPorts f).ports = f d.ports := rfl
@[simp] theorem Device.mapPorts_log : (d.mapPorts f).log = d.log := rfl
@[simp] theorem Device.mapPorts_sent : (d.mapPorts f).sent = d.sent := rfl
@[simp] theorem Device.mapPorts_freeCtr : (d.mapPorts f).freeCtr = d.freeCtr := rfl
@[simp] theorem Device.mapPorts_lruTick : (d.mapPorts f).lruTick = d.lruTick := rfl
end MapPorts

/-! ### Updates of the whole state -/

section StateMapPow
variable (s : State) (f : Power → Power)
@[simp] theorem State.mapPow_pending : (s.mapPow f).pending = s.pending := rfl
@[simp] theorem State.mapPow_fuses : (s.mapPow f).plat.fuses = s.plat.fuses := rfl
@[simp] theorem State.mapPow_pow : (s.mapPow f).plat.pow = f s.plat.pow := rfl
@[simp] theorem State.mapPow_mas : (s.mapPow f).plat.mas = s.plat.mas := rfl
@[simp] theorem State.mapPow_dev : (s.mapPow f).dev = s.dev := rfl
end StateMapPow

section StateMapMas
variable (s : State) (f : Mastiff → Mastiff)
@[simp] theorem State.mapMas_pending : (s.mapMas f).pending = s.pending := rfl
@[simp] theorem State.mapMas_fuses : (s.mapMas f).plat.fuses = s.plat.fuses := rfl
@[simp] theorem State.mapMas_pow : (s.mapMas f).plat.pow = s.plat.pow := rfl
@[simp] theorem State.mapMas_mas : (s.mapMas f).plat.mas = f s.plat.mas := rfl
@[simp] theorem State.mapMas_dev : (s.mapMas f).dev = s.dev := rfl
end StateMapMas

section StateMapFuses
variable (s : State) (f : Fuses → Fuses)
@[simp] theorem State.mapFuses_pending : (s.mapFuses f).pending = s.pending := rfl
@[simp] theorem State.mapFuses_fuses : (s.mapFuses f).plat.fuses = f s.plat.fuses := rfl
@[simp] theorem State.mapFuses_pow : (s.mapFuses f).plat.pow = s.plat.pow := rfl
@[simp] theorem State.mapFuses_mas : (s.mapFuses f).plat.mas = s.plat.mas := rfl
@[simp] theorem State.mapFuses_dev : (s.mapFuses f).dev = s.dev := rfl
end StateMapFuses

section StateMapDev
variable (s : State) (f : Device → Device)
@[simp] theorem State.mapDev_pending : (s.mapDev f).pending = s.pending := rfl
@[simp] theorem State.mapDev_fuses : (s.mapDev f).plat.fuses = s.plat.fuses := rfl
@[simp] theorem State.mapDev_pow : (s.mapDev f).plat.pow = s.plat.pow := rfl
@[simp] theorem State.mapDev_mas : (s.mapDev f).plat.mas = s.plat.mas := rfl
@[simp] theorem State.mapDev_dev : (s.mapDev f).dev = f s.dev := rfl
end StateMapDev

/-! ### Updates of tables leave the other parts -/

section SetCtx
variable (d : Device) (c : Nat) (x : Ctx)
@[simp] theorem Device.setCtx_eng : (d.setCtx c x).eng = d.eng := rfl
@[simp] theorem Device.setCtx_collie : (d.setCtx c x).collie = d.collie := rfl
@[simp] theorem Device.setCtx_mem : (d.setCtx c x).mem = d.mem := rfl
@[simp] theorem Device.setCtx_ups : (d.setCtx c x).ups = d.ups := rfl
@[simp] theorem Device.setCtx_reel : (d.setCtx c x).reel = d.reel := rfl
@[simp] theorem Device.setCtx_ports : (d.setCtx c x).ports = d.ports := rfl
@[simp] theorem Device.setCtx_log : (d.setCtx c x).log = d.log := rfl
@[simp] theorem Device.setCtx_sent : (d.setCtx c x).sent = d.sent := rfl
@[simp] theorem Device.setCtx_freeCtr : (d.setCtx c x).freeCtr = d.freeCtr := rfl
@[simp] theorem Device.setCtx_lruTick : (d.setCtx c x).lruTick = d.lruTick := rfl
end SetCtx

section UpdCtx
variable (d : Device) (c : Nat) (f : Ctx → Ctx)
@[simp] theorem Device.updCtx_eng : (d.updCtx c f).eng = d.eng := rfl
@[simp] theorem Device.updCtx_collie : (d.updCtx c f).collie = d.collie := rfl
@[simp] theorem Device.updCtx_mem : (d.updCtx c f).mem = d.mem := rfl
@[simp] theorem Device.updCtx_ups : (d.updCtx c f).ups = d.ups := rfl
@[simp] theorem Device.updCtx_reel : (d.updCtx c f).reel = d.reel := rfl
@[simp] theorem Device.updCtx_ports : (d.updCtx c f).ports = d.ports := rfl
@[simp] theorem Device.updCtx_log : (d.updCtx c f).log = d.log := rfl
@[simp] theorem Device.updCtx_sent : (d.updCtx c f).sent = d.sent := rfl
@[simp] theorem Device.updCtx_freeCtr : (d.updCtx c f).freeCtr = d.freeCtr := rfl
@[simp] theorem Device.updCtx_lruTick : (d.updCtx c f).lruTick = d.lruTick := rfl
end UpdCtx

section SetRing
variable (d : Device) (c : Nat) (x : Ring)
@[simp] theorem Device.setRing_eng : (d.setRing c x).eng = d.eng := rfl
@[simp] theorem Device.setRing_collie : (d.setRing c x).collie = d.collie := rfl
@[simp] theorem Device.setRing_mem : (d.setRing c x).mem = d.mem := rfl
@[simp] theorem Device.setRing_ups : (d.setRing c x).ups = d.ups := rfl
@[simp] theorem Device.setRing_reel : (d.setRing c x).reel = d.reel := rfl
@[simp] theorem Device.setRing_ports : (d.setRing c x).ports = d.ports := rfl
@[simp] theorem Device.setRing_log : (d.setRing c x).log = d.log := rfl
@[simp] theorem Device.setRing_sent : (d.setRing c x).sent = d.sent := rfl
@[simp] theorem Device.setRing_freeCtr : (d.setRing c x).freeCtr = d.freeCtr := rfl
@[simp] theorem Device.setRing_lruTick : (d.setRing c x).lruTick = d.lruTick := rfl
end SetRing

section UpdRing
variable (d : Device) (c : Nat) (f : Ring → Ring)
@[simp] theorem Device.updRing_eng : (d.updRing c f).eng = d.eng := rfl
@[simp] theorem Device.updRing_collie : (d.updRing c f).collie = d.collie := rfl
@[simp] theorem Device.updRing_mem : (d.updRing c f).mem = d.mem := rfl
@[simp] theorem Device.updRing_ups : (d.updRing c f).ups = d.ups := rfl
@[simp] theorem Device.updRing_reel : (d.updRing c f).reel = d.reel := rfl
@[simp] theorem Device.updRing_ports : (d.updRing c f).ports = d.ports := rfl
@[simp] theorem Device.updRing_log : (d.updRing c f).log = d.log := rfl
@[simp] theorem Device.updRing_sent : (d.updRing c f).sent = d.sent := rfl
@[simp] theorem Device.updRing_freeCtr : (d.updRing c f).freeCtr = d.freeCtr := rfl
@[simp] theorem Device.updRing_lruTick : (d.updRing c f).lruTick = d.lruTick := rfl
end UpdRing

section SetSlice
variable (d : Device) (i : Nat) (x : Slice)
@[simp] theorem Device.setSlice_hub : (d.setSlice i x).hub = d.hub := rfl
@[simp] theorem Device.setSlice_collie : (d.setSlice i x).collie = d.collie := rfl
@[simp] theorem Device.setSlice_mem : (d.setSlice i x).mem = d.mem := rfl
@[simp] theorem Device.setSlice_ups : (d.setSlice i x).ups = d.ups := rfl
@[simp] theorem Device.setSlice_reel : (d.setSlice i x).reel = d.reel := rfl
@[simp] theorem Device.setSlice_ports : (d.setSlice i x).ports = d.ports := rfl
@[simp] theorem Device.setSlice_log : (d.setSlice i x).log = d.log := rfl
@[simp] theorem Device.setSlice_sent : (d.setSlice i x).sent = d.sent := rfl
@[simp] theorem Device.setSlice_freeCtr : (d.setSlice i x).freeCtr = d.freeCtr := rfl
@[simp] theorem Device.setSlice_lruTick : (d.setSlice i x).lruTick = d.lruTick := rfl
end SetSlice

section UpdSlice
variable (d : Device) (i : Nat) (f : Slice → Slice)
@[simp] theorem Device.updSlice_hub : (d.updSlice i f).hub = d.hub := rfl
@[simp] theorem Device.updSlice_collie : (d.updSlice i f).collie = d.collie := rfl
@[simp] theorem Device.updSlice_mem : (d.updSlice i f).mem = d.mem := rfl
@[simp] theorem Device.updSlice_ups : (d.updSlice i f).ups = d.ups := rfl
@[simp] theorem Device.updSlice_reel : (d.updSlice i f).reel = d.reel := rfl
@[simp] theorem Device.updSlice_ports : (d.updSlice i f).ports = d.ports := rfl
@[simp] theorem Device.updSlice_log : (d.updSlice i f).log = d.log := rfl
@[simp] theorem Device.updSlice_sent : (d.updSlice i f).sent = d.sent := rfl
@[simp] theorem Device.updSlice_freeCtr : (d.updSlice i f).freeCtr = d.freeCtr := rfl
@[simp] theorem Device.updSlice_lruTick : (d.updSlice i f).lruTick = d.lruTick := rfl
end UpdSlice

section UpdDie
variable (d : Device) (i : Nat) (f : DieBlocks → DieBlocks)
@[simp] theorem Device.updDie_hub : (d.updDie i f).hub = d.hub := rfl
@[simp] theorem Device.updDie_collie : (d.updDie i f).collie = d.collie := rfl
@[simp] theorem Device.updDie_mem : (d.updDie i f).mem = d.mem := rfl
@[simp] theorem Device.updDie_ups : (d.updDie i f).ups = d.ups := rfl
@[simp] theorem Device.updDie_reel : (d.updDie i f).reel = d.reel := rfl
@[simp] theorem Device.updDie_ports : (d.updDie i f).ports = d.ports := rfl
@[simp] theorem Device.updDie_log : (d.updDie i f).log = d.log := rfl
@[simp] theorem Device.updDie_sent : (d.updDie i f).sent = d.sent := rfl
@[simp] theorem Device.updDie_freeCtr : (d.updDie i f).freeCtr = d.freeCtr := rfl
@[simp] theorem Device.updDie_lruTick : (d.updDie i f).lruTick = d.lruTick := rfl
end UpdDie

section UpdRe
variable (d : Device) (i k : Nat) (f : RowEng → RowEng)
@[simp] theorem Device.updRe_hub : (d.updRe i k f).hub = d.hub := rfl
@[simp] theorem Device.updRe_collie : (d.updRe i k f).collie = d.collie := rfl
@[simp] theorem Device.updRe_mem : (d.updRe i k f).mem = d.mem := rfl
@[simp] theorem Device.updRe_ups : (d.updRe i k f).ups = d.ups := rfl
@[simp] theorem Device.updRe_reel : (d.updRe i k f).reel = d.reel := rfl
@[simp] theorem Device.updRe_ports : (d.updRe i k f).ports = d.ports := rfl
@[simp] theorem Device.updRe_log : (d.updRe i k f).log = d.log := rfl
@[simp] theorem Device.updRe_sent : (d.updRe i k f).sent = d.sent := rfl
@[simp] theorem Device.updRe_freeCtr : (d.updRe i k f).freeCtr = d.freeCtr := rfl
@[simp] theorem Device.updRe_lruTick : (d.updRe i k f).lruTick = d.lruTick := rfl
end UpdRe

section UpdVe
variable (d : Device) (i k : Nat) (f : VecEng → VecEng)
@[simp] theorem Device.updVe_hub : (d.updVe i k f).hub = d.hub := rfl
@[simp] theorem Device.updVe_collie : (d.updVe i k f).collie = d.collie := rfl
@[simp] theorem Device.updVe_mem : (d.updVe i k f).mem = d.mem := rfl
@[simp] theorem Device.updVe_ups : (d.updVe i k f).ups = d.ups := rfl
@[simp] theorem Device.updVe_reel : (d.updVe i k f).reel = d.reel := rfl
@[simp] theorem Device.updVe_ports : (d.updVe i k f).ports = d.ports := rfl
@[simp] theorem Device.updVe_log : (d.updVe i k f).log = d.log := rfl
@[simp] theorem Device.updVe_sent : (d.updVe i k f).sent = d.sent := rfl
@[simp] theorem Device.updVe_freeCtr : (d.updVe i k f).freeCtr = d.freeCtr := rfl
@[simp] theorem Device.updVe_lruTick : (d.updVe i k f).lruTick = d.lruTick := rfl
end UpdVe

section SetPack
variable (d : Device) (p : Nat) (x : Pack)
@[simp] theorem Device.setPack_hub : (d.setPack p x).hub = d.hub := rfl
@[simp] theorem Device.setPack_eng : (d.setPack p x).eng = d.eng := rfl
@[simp] theorem Device.setPack_mem : (d.setPack p x).mem = d.mem := rfl
@[simp] theorem Device.setPack_ups : (d.setPack p x).ups = d.ups := rfl
@[simp] theorem Device.setPack_reel : (d.setPack p x).reel = d.reel := rfl
@[simp] theorem Device.setPack_ports : (d.setPack p x).ports = d.ports := rfl
@[simp] theorem Device.setPack_log : (d.setPack p x).log = d.log := rfl
@[simp] theorem Device.setPack_sent : (d.setPack p x).sent = d.sent := rfl
@[simp] theorem Device.setPack_freeCtr : (d.setPack p x).freeCtr = d.freeCtr := rfl
@[simp] theorem Device.setPack_lruTick : (d.setPack p x).lruTick = d.lruTick := rfl
end SetPack

section UpdPack
variable (d : Device) (p : Nat) (f : Pack → Pack)
@[simp] theorem Device.updPack_hub : (d.updPack p f).hub = d.hub := rfl
@[simp] theorem Device.updPack_eng : (d.updPack p f).eng = d.eng := rfl
@[simp] theorem Device.updPack_mem : (d.updPack p f).mem = d.mem := rfl
@[simp] theorem Device.updPack_ups : (d.updPack p f).ups = d.ups := rfl
@[simp] theorem Device.updPack_reel : (d.updPack p f).reel = d.reel := rfl
@[simp] theorem Device.updPack_ports : (d.updPack p f).ports = d.ports := rfl
@[simp] theorem Device.updPack_log : (d.updPack p f).log = d.log := rfl
@[simp] theorem Device.updPack_sent : (d.updPack p f).sent = d.sent := rfl
@[simp] theorem Device.updPack_freeCtr : (d.updPack p f).freeCtr = d.freeCtr := rfl
@[simp] theorem Device.updPack_lruTick : (d.updPack p f).lruTick = d.lruTick := rfl
end UpdPack

section UpdBlock
variable (d : Device) (b : Nat) (f : KBlock → KBlock)
@[simp] theorem Device.updBlock_hub : (d.updBlock b f).hub = d.hub := rfl
@[simp] theorem Device.updBlock_eng : (d.updBlock b f).eng = d.eng := rfl
@[simp] theorem Device.updBlock_mem : (d.updBlock b f).mem = d.mem := rfl
@[simp] theorem Device.updBlock_ups : (d.updBlock b f).ups = d.ups := rfl
@[simp] theorem Device.updBlock_reel : (d.updBlock b f).reel = d.reel := rfl
@[simp] theorem Device.updBlock_ports : (d.updBlock b f).ports = d.ports := rfl
@[simp] theorem Device.updBlock_log : (d.updBlock b f).log = d.log := rfl
@[simp] theorem Device.updBlock_sent : (d.updBlock b f).sent = d.sent := rfl
@[simp] theorem Device.updBlock_freeCtr : (d.updBlock b f).freeCtr = d.freeCtr := rfl
@[simp] theorem Device.updBlock_lruTick : (d.updBlock b f).lruTick = d.lruTick := rfl
end UpdBlock

section UpdCore
variable (d : Device) (i c : Nat) (f : CoreSt → CoreSt)
@[simp] theorem Device.updCore_hub : (d.updCore i c f).hub = d.hub := rfl
@[simp] theorem Device.updCore_eng : (d.updCore i c f).eng = d.eng := rfl
@[simp] theorem Device.updCore_mem : (d.updCore i c f).mem = d.mem := rfl
@[simp] theorem Device.updCore_ups : (d.updCore i c f).ups = d.ups := rfl
@[simp] theorem Device.updCore_reel : (d.updCore i c f).reel = d.reel := rfl
@[simp] theorem Device.updCore_ports : (d.updCore i c f).ports = d.ports := rfl
@[simp] theorem Device.updCore_log : (d.updCore i c f).log = d.log := rfl
@[simp] theorem Device.updCore_sent : (d.updCore i c f).sent = d.sent := rfl
@[simp] theorem Device.updCore_freeCtr : (d.updCore i c f).freeCtr = d.freeCtr := rfl
@[simp] theorem Device.updCore_lruTick : (d.updCore i c f).lruTick = d.lruTick := rfl
end UpdCore

section UpdMemBlk
variable (d : Device) (i : Nat) (f : MemBlk → MemBlk)
@[simp] theorem Device.updMemBlk_hub : (d.updMemBlk i f).hub = d.hub := rfl
@[simp] theorem Device.updMemBlk_eng : (d.updMemBlk i f).eng = d.eng := rfl
@[simp] theorem Device.updMemBlk_collie : (d.updMemBlk i f).collie = d.collie := rfl
@[simp] theorem Device.updMemBlk_ups : (d.updMemBlk i f).ups = d.ups := rfl
@[simp] theorem Device.updMemBlk_reel : (d.updMemBlk i f).reel = d.reel := rfl
@[simp] theorem Device.updMemBlk_ports : (d.updMemBlk i f).ports = d.ports := rfl
@[simp] theorem Device.updMemBlk_log : (d.updMemBlk i f).log = d.log := rfl
@[simp] theorem Device.updMemBlk_sent : (d.updMemBlk i f).sent = d.sent := rfl
@[simp] theorem Device.updMemBlk_freeCtr : (d.updMemBlk i f).freeCtr = d.freeCtr := rfl
@[simp] theorem Device.updMemBlk_lruTick : (d.updMemBlk i f).lruTick = d.lruTick := rfl
end UpdMemBlk

section SetGroup
variable (d : Device) (g : Nat) (x : Group)
@[simp] theorem Device.setGroup_hub : (d.setGroup g x).hub = d.hub := rfl
@[simp] theorem Device.setGroup_eng : (d.setGroup g x).eng = d.eng := rfl
@[simp] theorem Device.setGroup_collie : (d.setGroup g x).collie = d.collie := rfl
@[simp] theorem Device.setGroup_mem : (d.setGroup g x).mem = d.mem := rfl
@[simp] theorem Device.setGroup_ups : (d.setGroup g x).ups = d.ups := rfl
@[simp] theorem Device.setGroup_ports : (d.setGroup g x).ports = d.ports := rfl
@[simp] theorem Device.setGroup_log : (d.setGroup g x).log = d.log := rfl
@[simp] theorem Device.setGroup_sent : (d.setGroup g x).sent = d.sent := rfl
@[simp] theorem Device.setGroup_freeCtr : (d.setGroup g x).freeCtr = d.freeCtr := rfl
@[simp] theorem Device.setGroup_lruTick : (d.setGroup g x).lruTick = d.lruTick := rfl
end SetGroup

section UpdPort
variable (d : Device) (p : Nat) (f : Port → Port)
@[simp] theorem Device.updPort_hub : (d.updPort p f).hub = d.hub := rfl
@[simp] theorem Device.updPort_eng : (d.updPort p f).eng = d.eng := rfl
@[simp] theorem Device.updPort_collie : (d.updPort p f).collie = d.collie := rfl
@[simp] theorem Device.updPort_mem : (d.updPort p f).mem = d.mem := rfl
@[simp] theorem Device.updPort_ups : (d.updPort p f).ups = d.ups := rfl
@[simp] theorem Device.updPort_reel : (d.updPort p f).reel = d.reel := rfl
@[simp] theorem Device.updPort_log : (d.updPort p f).log = d.log := rfl
@[simp] theorem Device.updPort_sent : (d.updPort p f).sent = d.sent := rfl
@[simp] theorem Device.updPort_freeCtr : (d.updPort p f).freeCtr = d.freeCtr := rfl
@[simp] theorem Device.updPort_lruTick : (d.updPort p f).lruTick = d.lruTick := rfl
end UpdPort

section UpdItem
variable (d : Device) (c q : Nat) (f : Item → Item)
@[simp] theorem Device.updItem_eng : (d.updItem c q f).eng = d.eng := rfl
@[simp] theorem Device.updItem_collie : (d.updItem c q f).collie = d.collie := rfl
@[simp] theorem Device.updItem_mem : (d.updItem c q f).mem = d.mem := rfl
@[simp] theorem Device.updItem_ups : (d.updItem c q f).ups = d.ups := rfl
@[simp] theorem Device.updItem_reel : (d.updItem c q f).reel = d.reel := rfl
@[simp] theorem Device.updItem_ports : (d.updItem c q f).ports = d.ports := rfl
@[simp] theorem Device.updItem_log : (d.updItem c q f).log = d.log := rfl
@[simp] theorem Device.updItem_sent : (d.updItem c q f).sent = d.sent := rfl
@[simp] theorem Device.updItem_freeCtr : (d.updItem c q f).freeCtr = d.freeCtr := rfl
@[simp] theorem Device.updItem_lruTick : (d.updItem c q f).lruTick = d.lruTick := rfl
end UpdItem

section SetCounter
variable (d : Device) (c n : Nat) (v : Dword)
@[simp] theorem Device.setCounter_eng : (d.setCounter c n v).eng = d.eng := rfl
@[simp] theorem Device.setCounter_collie : (d.setCounter c n v).collie = d.collie := rfl
@[simp] theorem Device.setCounter_mem : (d.setCounter c n v).mem = d.mem := rfl
@[simp] theorem Device.setCounter_ups : (d.setCounter c n v).ups = d.ups := rfl
@[simp] theorem Device.setCounter_reel : (d.setCounter c n v).reel = d.reel := rfl
@[simp] theorem Device.setCounter_ports : (d.setCounter c n v).ports = d.ports := rfl
@[simp] theorem Device.setCounter_log : (d.setCounter c n v).log = d.log := rfl
@[simp] theorem Device.setCounter_sent : (d.setCounter c n v).sent = d.sent := rfl
@[simp] theorem Device.setCounter_freeCtr : (d.setCounter c n v).freeCtr = d.freeCtr := rfl
@[simp] theorem Device.setCounter_lruTick : (d.setCounter c n v).lruTick = d.lruTick := rfl
end SetCounter

section PumpPort
variable (d : Device) (p : Nat)
@[simp] theorem Device.pumpPort_hub : (d.pumpPort p).hub = d.hub := rfl
@[simp] theorem Device.pumpPort_eng : (d.pumpPort p).eng = d.eng := rfl
@[simp] theorem Device.pumpPort_collie : (d.pumpPort p).collie = d.collie := rfl
@[simp] theorem Device.pumpPort_mem : (d.pumpPort p).mem = d.mem := rfl
@[simp] theorem Device.pumpPort_ups : (d.pumpPort p).ups = d.ups := rfl
@[simp] theorem Device.pumpPort_reel : (d.pumpPort p).reel = d.reel := rfl
@[simp] theorem Device.pumpPort_log : (d.pumpPort p).log = d.log := rfl
@[simp] theorem Device.pumpPort_freeCtr : (d.pumpPort p).freeCtr = d.freeCtr := rfl
@[simp] theorem Device.pumpPort_lruTick : (d.pumpPort p).lruTick = d.lruTick := rfl
end PumpPort

section Emit
variable (d : Device) (o : Output)
@[simp] theorem Device.emit_hub : (d.emit o).hub = d.hub := by
  unfold Device.emit; split; rfl; split <;> rfl
@[simp] theorem Device.emit_eng : (d.emit o).eng = d.eng := by
  unfold Device.emit; split; rfl; split <;> rfl
@[simp] theorem Device.emit_collie : (d.emit o).collie = d.collie := by
  unfold Device.emit; split; rfl; split <;> rfl
@[simp] theorem Device.emit_mem : (d.emit o).mem = d.mem := by
  unfold Device.emit; split; rfl; split <;> rfl
@[simp] theorem Device.emit_ups : (d.emit o).ups = d.ups := by
  unfold Device.emit; split; rfl; split <;> rfl
@[simp] theorem Device.emit_reel : (d.emit o).reel = d.reel := by
  unfold Device.emit; split; rfl; split <;> rfl
@[simp] theorem Device.emit_log : (d.emit o).log = d.log := by
  unfold Device.emit; split; rfl; split <;> rfl
@[simp] theorem Device.emit_freeCtr : (d.emit o).freeCtr = d.freeCtr := by
  unfold Device.emit; split; rfl; split <;> rfl
@[simp] theorem Device.emit_lruTick : (d.emit o).lruTick = d.lruTick := by
  unfold Device.emit; split; rfl; split <;> rfl
/-- What is no flit leaves at once. -/
theorem Device.emit_now (h : o.flitPort = none) : d.emit o = { d with sent := o :: d.sent } := by
  unfold Device.emit; rw [h]
/-- What is a flit waits at its port, where the link is UP. -/
theorem Device.emit_port (p : Nat) (h : o.flitPort = some p) : d.emit o = if (d.port p).link = .up then
    (d.updPort p fun x => { x with waiting := x.waiting ++ [⟨o.channel, o.flits, d.ports.second p o, o⟩] }).pumpPort p
    else d := by
  unfold Device.emit; rw [h]
end Emit

/-! ### Reading a table after a write -/

section Reads
variable (d : Device)

@[simp] theorem Device.ctx_setCtx (c : Nat) (x : Ctx) (b : Nat) :
    (d.setCtx c x).ctx b = if b = c then x else d.ctx b := FMap.get_set
@[simp] theorem Device.ctx_updCtx (c : Nat) (f : Ctx → Ctx) (b : Nat) :
    (d.updCtx c f).ctx b = if b = c then f (d.ctx c) else d.ctx b := FMap.get_set
@[simp] theorem Device.ring_setRing (c : Nat) (x : Ring) (b : Nat) :
    (d.setRing c x).ring b = if b = c then x else d.ring b := FMap.get_set
@[simp] theorem Device.ring_updRing (c : Nat) (f : Ring → Ring) (b : Nat) :
    (d.updRing c f).ring b = if b = c then f (d.ring c) else d.ring b := FMap.get_set
@[simp] theorem Device.slice_setSlice (i : Nat) (x : Slice) (b : Nat) :
    (d.setSlice i x).slice b = if b = i then x else d.slice b := FMap.get_set
@[simp] theorem Device.slice_updSlice (i : Nat) (f : Slice → Slice) (b : Nat) :
    (d.updSlice i f).slice b = if b = i then f (d.slice i) else d.slice b := FMap.get_set
@[simp] theorem Device.die_updDie (i : Nat) (f : DieBlocks → DieBlocks) (b : Nat) :
    (d.updDie i f).die b = if b = i then f (d.die i) else d.die b := FMap.get_upd f
@[simp] theorem Device.pack_setPack (p : Nat) (x : Pack) (b : Nat) :
    (d.setPack p x).pack b = if b = p then x else d.pack b := FMap.get_set
@[simp] theorem Device.pack_updPack (p : Nat) (f : Pack → Pack) (b : Nat) :
    (d.updPack p f).pack b = if b = p then f (d.pack p) else d.pack b := FMap.get_set
@[simp] theorem Device.memBlk_updMemBlk (i : Nat) (f : MemBlk → MemBlk) (b : Nat) :
    (d.updMemBlk i f).memBlk b = if b = i then f (d.memBlk i) else d.memBlk b := FMap.get_upd f
@[simp] theorem Device.group_setGroup (g : Nat) (x : Group) (b : Nat) :
    (d.setGroup g x).group b = if b = g then x else d.group b := FMap.get_set
@[simp] theorem Device.port_updPort (p : Nat) (f : Port → Port) (b : Nat) :
    (d.updPort p f).port b = if b = p then f (d.port p) else d.port b := FMap.get_upd f
theorem Device.re_updRe (i k : Nat) (f : RowEng → RowEng) (j l : Nat) :
    (d.updRe i k f).re j l = if 8 * j + l = 8 * i + k then f (d.re i k) else d.re j l := FMap.get_upd f
theorem Device.vecEng_updVe (i k : Nat) (f : VecEng → VecEng) (j l : Nat) :
    (d.updVe i k f).vecEng j l = if 8 * j + l = 8 * i + k then f (d.vecEng i k) else d.vecEng j l := FMap.get_upd f
theorem Device.core_updCore (i c : Nat) (f : CoreSt → CoreSt) (j e : Nat) :
    (d.updCore i c f).core j e = if 16 * j + e = 16 * i + c then f (d.core i c) else d.core j e := FMap.get_upd f
theorem Device.counter_setCounter (c n : Nat) (v : Dword) (b m : Nat) :
    (d.setCounter c n v).counter b m = if 256 * b + m = 256 * c + n then v else d.counter b m := FMap.get_set

/-- The lookup of a part reads that part alone. -/
theorem Device.ctx_of_hub {d e : Device} (h : e.hub = d.hub) (c : Nat) : e.ctx c = d.ctx c := by
  unfold Device.ctx; rw [h]
theorem Device.item_of_hub {d e : Device} (h : e.hub = d.hub) (c q : Nat) : e.item c q = d.item c q := by
  unfold Device.item; rw [h]

/-- An update of an item that keeps its names is what a lookup then finds. -/
theorem Device.item_updItem (c q : Nat) (f : Item → Item)
    (hf : ∀ it, (f it).ctx = it.ctx ∧ (f it).seq = it.seq) :
    (d.updItem c q f).item c q = (d.item c q).map f := by
  have key : ((fun i : Item => i.ctx == c && i.seq == q) ∘ fun i => if i.ctx == c && i.seq == q then f i else i) =
      fun i => i.ctx == c && i.seq == q := by
    funext x
    by_cases hx : (x.ctx == c && x.seq == q) = true
    · simp only [Function.comp, hx, if_true]; rw [(hf x).1, (hf x).2]; exact hx
    · simp [Function.comp, hx]
  unfold Device.item Device.updItem Device.mapHub
  simp only [List.find?_map, key]
  cases h : d.hub.items.find? fun i => i.ctx == c && i.seq == q with
  | none => rfl
  | some it =>
    have hp := List.find?_some h
    simp [show it.ctx = c ∧ it.seq = q by simpa using hp]

end Reads

/-! ### Counters (R421) -/

/-- A count changes the counters of the hub alone. -/
theorem Device.count_eq (d : Device) (c n k : Nat) :
    d.count c n k = if k = 0 then d else d.setCounter c n (satAdd64 (d.counter c n) k) := rfl

section Count
variable (d : Device) (c n k : Nat)
@[simp] theorem Device.count_eng : (d.count c n k).eng = d.eng := by unfold Device.count; split <;> rfl
@[simp] theorem Device.count_collie : (d.count c n k).collie = d.collie := by unfold Device.count; split <;> rfl
@[simp] theorem Device.count_mem : (d.count c n k).mem = d.mem := by unfold Device.count; split <;> rfl
@[simp] theorem Device.count_ups : (d.count c n k).ups = d.ups := by unfold Device.count; split <;> rfl
@[simp] theorem Device.count_reel : (d.count c n k).reel = d.reel := by unfold Device.count; split <;> rfl
@[simp] theorem Device.count_ports : (d.count c n k).ports = d.ports := by unfold Device.count; split <;> rfl
@[simp] theorem Device.count_log : (d.count c n k).log = d.log := by unfold Device.count; split <;> rfl
@[simp] theorem Device.count_sent : (d.count c n k).sent = d.sent := by unfold Device.count; split <;> rfl
@[simp] theorem Device.count_freeCtr : (d.count c n k).freeCtr = d.freeCtr := by unfold Device.count; split <;> rfl
@[simp] theorem Device.count_lruTick : (d.count c n k).lruTick = d.lruTick := by unfold Device.count; split <;> rfl
@[simp] theorem Device.count_ctx (b : Nat) : (d.count c n k).ctx b = d.ctx b := by unfold Device.count; split <;> rfl
@[simp] theorem Device.count_ring (b : Nat) : (d.count c n k).ring b = d.ring b := by unfold Device.count; split <;> rfl
@[simp] theorem Device.count_item (b q : Nat) : (d.count c n k).item b q = d.item b q := by
  unfold Device.count; split <;> rfl
@[simp] theorem Device.count_items : (d.count c n k).hub.items = d.hub.items := by unfold Device.count; split <;> rfl
@[simp] theorem Device.count_pack (p : Nat) : (d.count c n k).pack p = d.pack p := by unfold Device.count; split <;> rfl

/-- What a counter reads after a count: the sum, saturating at 2^64 - 1; another counter stays. -/
theorem Device.counter_count (b m : Nat) :
    (d.count c n k).counter b m = if 256 * b + m = 256 * c + n then satAdd64 (d.counter c n) k else d.counter b m := by
  unfold Device.count
  split
  · rename_i h; subst h
    split
    · rename_i e
      have : d.counter b m = d.counter c n := by unfold Device.counter; rw [e]
      rw [this]
      unfold satAdd64
      rw [Nat.add_zero, Nat.min_eq_left (by have := (d.counter c n).isLt; omega)]
      simp
    · rfl
  · exact Device.counter_setCounter d c n _ b m
end Count

/-! ### Counters of single units (R425) -/

section CountUnit
variable (d : Device) (c die u j k : Nat)
@[simp] theorem Device.countUnit_eng : (d.countUnit c die u j k).eng = d.eng := by unfold Device.countUnit; split <;> rfl
@[simp] theorem Device.countUnit_collie : (d.countUnit c die u j k).collie = d.collie := by unfold Device.countUnit; split <;> rfl
@[simp] theorem Device.countUnit_mem : (d.countUnit c die u j k).mem = d.mem := by unfold Device.countUnit; split <;> rfl
@[simp] theorem Device.countUnit_ups : (d.countUnit c die u j k).ups = d.ups := by unfold Device.countUnit; split <;> rfl
@[simp] theorem Device.countUnit_reel : (d.countUnit c die u j k).reel = d.reel := by unfold Device.countUnit; split <;> rfl
@[simp] theorem Device.countUnit_ports : (d.countUnit c die u j k).ports = d.ports := by unfold Device.countUnit; split <;> rfl
@[simp] theorem Device.countUnit_log : (d.countUnit c die u j k).log = d.log := by unfold Device.countUnit; split <;> rfl
@[simp] theorem Device.countUnit_sent : (d.countUnit c die u j k).sent = d.sent := by unfold Device.countUnit; split <;> rfl
@[simp] theorem Device.countUnit_freeCtr : (d.countUnit c die u j k).freeCtr = d.freeCtr := by unfold Device.countUnit; split <;> rfl
@[simp] theorem Device.countUnit_lruTick : (d.countUnit c die u j k).lruTick = d.lruTick := by unfold Device.countUnit; split <;> rfl
@[simp] theorem Device.countUnit_ctx (b : Nat) : (d.countUnit c die u j k).ctx b = d.ctx b := by unfold Device.countUnit; split <;> rfl
@[simp] theorem Device.countUnit_ring (b : Nat) : (d.countUnit c die u j k).ring b = d.ring b := by unfold Device.countUnit; split <;> rfl
@[simp] theorem Device.countUnit_pack (p : Nat) : (d.countUnit c die u j k).pack p = d.pack p := by unfold Device.countUnit; split <;> rfl
@[simp] theorem Device.countUnit_item (b q : Nat) : (d.countUnit c die u j k).item b q = d.item b q := by
  unfold Device.countUnit; split <;> rfl
@[simp] theorem Device.countUnit_items : (d.countUnit c die u j k).hub.items = d.hub.items := by
  unfold Device.countUnit; split <;> rfl
@[simp] theorem Device.countUnit_counter (b m : Nat) : (d.countUnit c die u j k).counter b m = d.counter b m := by
  unfold Device.countUnit; split <;> rfl
end CountUnit

end Sys2Proof.Machine
end

