-- ==== Sys2Proof/Laws/Issue.lean ====
section
/-! SUPPORT. What the issue of a JKF instruction can do: the cases of runJkf, and what counting and marking an issue leave. -/

namespace Sys2Proof.Machine

/-! ### An issue (R165, R187, R291) -/

/-- Counting an instruction changes the hub's counters and the core's round-robin. -/
theorem Device.issued_eq (d : Device) (k : KBlock) (e : Option Nat) :
    d.issued k e = (((d.count k.ctx 78 1).count k.ctx 44 1).countUnit k.ctx k.die (16 + k.core) 12 1).updCore k.die k.core
      fun c => { c with last := e.getD c.last } := rfl

/-- The first issue of an item marks it and may raise CLASS0_START_MAX: the cases. -/
theorem Device.firstIssue_cases (d : Device) (t : Dword) (c q : Nat) :
    d.firstIssue t c q = d ∨ (∃ d1, d1 = d.updItem c q (fun x => { x with issued := true }) ∧ d.firstIssue t c q = d1) ∨
      ∃ v, d.firstIssue t c q = (d.updItem c q fun x => { x with issued := true }).setCounter c 125 v := by
  unfold Device.firstIssue
  split
  · exact .inl rfl
  · split
    · exact .inl rfl
    · simp only
      split
      · exact .inr (.inr ⟨_, rfl⟩)
      · exact .inr (.inl ⟨_, rfl, rfl⟩)

/-- What runJkf answers for a pack that may issue a legal instruction, by what its body comes to; an illegal one faults the
context; a pack that may not issue changes nothing. -/
theorem Device.runJkf_cases (i : Issue) (legal : KBlock → Bool) (body : KBlock → Pack → Device → Ran) (pl : Platform)
    (d : Device) :
    (d.issuer pl i = none ∧ d.runJkf i legal body pl = d) ∨
    ∃ k x it, d.issuer pl i = some (k, x, it) ∧
      ((legal k = false ∧ d.runJkf i legal body pl = d.coreFault pl i.pack k .illegalInstr 0 0 0) ∨
       (legal k = true ∧
        ((∃ d1, body k x d = .go d1 ∧ d.runJkf i legal body pl =
            ((d1.updPack i.pack fun y => { y with pc := x.pc + wordsOf i }).issued k x.slot).firstIssue pl.pow.time k.ctx k.seq) ∨
         (∃ d1, body k x d = .jump d1 ∧ d.runJkf i legal body pl =
            (d1.issued k x.slot).firstIssue pl.pow.time k.ctx k.seq) ∨
         (∃ w d1, body k x d = .wait w d1 ∧ d.runJkf i legal body pl = d1.parkPack i.pack (some w)) ∨
         (body k x d = .stall ∧ d.runJkf i legal body pl = d) ∨
         (∃ d1, body k x d = .hold d1 ∧ d.runJkf i legal body pl = d1) ∨
         ∃ e l n, body k x d = .fail e l n ∧ d.runJkf i legal body pl = d.coreFail pl i.pack k e l n))) := by
  unfold Device.runJkf
  cases h : d.issuer pl i with
  | none => exact .inl ⟨rfl, rfl⟩
  | some e =>
    obtain ⟨k, x, it⟩ := e
    refine .inr ⟨k, x, it, rfl, ?_⟩
    cases hl : legal k with
    | false => exact .inl ⟨rfl, by simp [hl]⟩
    | true =>
      refine .inr ⟨rfl, ?_⟩
      simp only [hl, if_true]
      cases hb : body k x d with
      | go d1 => exact .inl ⟨d1, rfl, rfl⟩
      | jump d1 => exact .inr (.inl ⟨d1, rfl, rfl⟩)
      | wait w d1 => exact .inr (.inr (.inl ⟨w, d1, rfl, rfl⟩))
      | stall => exact .inr (.inr (.inr (.inl ⟨rfl, rfl⟩)))
      | hold d1 => exact .inr (.inr (.inr (.inr (.inl ⟨d1, rfl, rfl⟩))))
      | fail e l n => exact .inr (.inr (.inr (.inr (.inr ⟨e, l, n, rfl, rfl⟩))))

/-- A pack that issues is the one the state holds. -/
theorem Device.issuer_pack {d : Device} {pl : Platform} {i : Issue} {k : KBlock} {x : Pack} {it : Item}
    (h : d.issuer pl i = some (k, x, it)) :
    d.block (i.pack / 16) = some k ∧ d.pack i.pack = x ∧ d.item k.ctx k.seq = some it := by
  unfold Device.issuer at h
  simp only at h
  split at h
  · cases h
  · rename_i k1 hk
    split at h
    · cases h
    · rename_i it1 hi
      split at h
      · simp only [Option.some.injEq, Prod.mk.injEq] at h
        obtain ⟨rfl, rfl, rfl⟩ := h
        exact ⟨hk, rfl, hi⟩
      · cases h

end Sys2Proof.Machine
end

