-- ==== Sys2Proof/Laws/Memory.lean ====
section
/-! SUPPORT. Laws of the memory operations: the canonical form is kept, a written line reads back, other lines stay. -/

namespace Sys2Proof.Machine

/-- Reset memory lists nothing. -/
theorem memory_wf_reset : Memory.wf State.reset.dev.mem := by decide

/-! ### Every operation keeps the canonical form -/

theorem Mem.wf_dramPut {m : Mem} (h : Memory.wf m) (k l : Nat) (bs : List Byte) : Memory.wf (m.dramPut k l bs) :=
  ⟨FMap.wf_foldl_set (fun e : Byte × Nat => 128 * l + e.2) (fun e => e.1) _ h.1, h.2⟩

theorem Mem.wf_hostPut {m : Mem} (h : Memory.wf m) (l : Nat) (bs : List Byte) : Memory.wf (m.hostPut l bs) :=
  ⟨h.1, FMap.wf_foldl_set (fun e : Byte × Nat => 128 * l + e.2) (fun e => e.1) _ h.2⟩

theorem Mem.wf_writeBack {m : Mem} (h : Memory.wf m) (x : DLine) : Memory.wf (m.writeBack x) := by
  unfold Mem.writeBack
  split
  · split
    · exact Mem.wf_hostPut h _ _
    · exact Mem.wf_dramPut h _ _ _
  · exact h

theorem Mem.wf_dropCopies {m : Mem} (h : Memory.wf m) (host : Bool) (l : Nat) : Memory.wf (m.dropCopies host l) := h

theorem Mem.wf_recall {m : Mem} (h : Memory.wf m) (host : Bool) (l : Nat) : Memory.wf (m.recall host l) := by
  unfold Mem.recall
  split
  · exact h
  · exact Mem.wf_dropCopies (Mem.wf_writeBack h _) _ _

theorem Mem.wf_scrubLines {m : Mem} (h : Memory.wf m) (ls : List Nat) : Memory.wf (m.scrubLines ls) := by
  unfold Mem.scrubLines
  generalize List.replicate 128 (0 : Byte) = zs
  induction ls generalizing m with
  | nil => exact h
  | cons l ls ih => exact ih (Mem.wf_dramPut (Mem.wf_dropCopies h _ _) _ _ _)

theorem Device.wf_prefUsed {d : Device} (h : Memory.wf d.mem) (die l c : Nat) : Memory.wf (d.prefUsed die l c).mem := by
  unfold Device.prefUsed; rw [Device.count_mem]; exact h

/-- A cached line is put in place, its victim written back. -/
theorem Device.wf_cachePut {d : Device} (h : Memory.wf d.mem) (die : Nat) (host : Bool) (l tc : Nat) (st : LineSt)
    (key : Nat) (data : List Byte) (pref : Option Nat) :
    Memory.wf (d.cachePut die host l tc st key data pref).mem := by
  unfold Device.cachePut
  simp only
  split
  · split
    · exact h
    · exact Device.wf_prefUsed (by exact h) _ _ _
  · have hw := fun x => Mem.wf_writeBack h x
    repeat' split
    all_goals first
      | exact h
      | exact hw _

theorem Device.wf_backInval {d : Device} (h : Memory.wf d.mem) (l : Nat) : Memory.wf (d.backInval l).mem := by
  unfold Device.backInval; split
  · rw [Device.emit_mem]; exact h
  · exact h

theorem Device.wf_unusedLines {d : Device} (h : Memory.wf d.mem) (f : DLine → Bool) : Memory.wf (d.unusedLines f).mem := by
  unfold Device.unusedLines
  generalize d.mem.lines.filter f = ls
  induction ls generalizing d with
  | nil => exact h
  | cons x ls ih =>
    rw [List.foldl_cons]
    refine ih ?_
    split
    · split
      · exact h
      · rw [Device.count_mem]; exact h
    · exact h

theorem Device.wf_findWeak {d : Device} (h : Memory.wf d.mem) (half : Nat) : Memory.wf (d.findWeak half).mem := by
  unfold Device.findWeak
  repeat' split
  all_goals exact h

theorem Device.wf_findWeaks {d : Device} (h : Memory.wf d.mem) (hs : List Nat) (f : Nat → Nat) :
    Memory.wf (hs.foldl (fun d h => d.findWeak (f h)) d).mem := by
  induction hs generalizing d with
  | nil => exact h
  | cons x hs ih => exact ih (Device.wf_findWeak h _)

/-- Stores to device memory. -/
theorem Device.wf_storeLine {d d1 : Device} (h : Memory.wf d.mem) {die : Option Nat} {tc key l : Nat}
    {patch : List (Option Byte)} (hs : d.storeLine die tc key l patch = some d1) : Memory.wf d1.mem := by
  have h0 : Memory.wf (if die.isNone then
      (partialHalves patch).foldl (fun d h => d.findWeak (2 * l + h)) d else d).mem := by
    split
    · exact Device.wf_findWeaks h _ _
    · exact h
  unfold Device.storeLine at hs
  simp only at hs
  generalize (if die.isNone then (partialHalves patch).foldl (fun d h => d.findWeak (2 * l + h)) d else d) = e at h0 hs
  split at hs
  · cases hs
  · split at hs
    · cases hs
      exact Device.wf_cachePut (d := Device.mapMem _ _) (by exact Device.wf_backInval (Device.wf_unusedLines h0 _) l)
        _ _ _ _ _ _ _ _
    · cases hs
      exact Mem.wf_dramPut (Mem.wf_dropCopies (Device.wf_backInval (Device.wf_unusedLines h0 _) l) false l) key l _

/-- Stores to host memory. -/
theorem Device.wf_storeHostLine {d : Device} (h : Memory.wf d.mem) (die : Option Nat) (tc l : Nat)
    (patch : List (Option Byte)) : Memory.wf (d.storeHostLine die tc l patch).mem := by
  unfold Device.storeHostLine
  simp only
  split
  · exact Device.wf_cachePut (d := d.mapMem _) (by exact h) _ _ _ _ _ _ _ _
  · exact Mem.wf_hostPut (Mem.wf_dropCopies h _ _) _ _

theorem Mem.wf_recalls {m : Mem} (h : Memory.wf m) (host : Bool) (ls : List Nat) :
    Memory.wf (ls.foldl (fun m l => m.recall host l) m) := by
  induction ls generalizing m with
  | nil => exact h
  | cons l ls ih => exact ih (Mem.wf_recall h _ _)

theorem Mem.wf_hostWrites {m : Mem} (h : Memory.wf m) (w : HostWrite) : Memory.wf (m.hostWrites w) := by
  unfold Mem.hostWrites
  have h1 : ∀ ls : List Nat, Memory.wf (if w.data.isEmpty then m else ls.foldl (fun m l => m.recall true l) m) := by
    intro ls; split
    · exact h
    · exact Mem.wf_recalls h _ _
  exact ⟨(h1 _).1, FMap.wf_foldl_set (fun e : Byte × Nat => w.addr + e.2) (fun e => e.1) _ (h1 _).2⟩

/-- Host writes that become visible. -/
theorem Device.wf_see {d : Device} (h : Memory.wf d.mem) (ws : List HostWrite) : Memory.wf (d.see ws).mem := by
  unfold Device.see
  rw [Device.mapMem_mem]
  generalize d.mem = m at h ⊢
  induction ws generalizing m with
  | nil => exact h
  | cons w ws ih => exact ih _ (Mem.wf_hostWrites h w)

/-! ### Reading after writing -/

/-- Writing listed bytes one by one: a written place reads as its byte, the others stand. -/
theorem get_putBytes (bs : List Byte) (m : FMap Byte) (base n b : Nat) :
    FMap.get 0 ((bs.zipIdx n).foldl (fun t e => FMap.set 0 t (base + e.2) e.1) m) b =
      if base + n ≤ b ∧ b < base + n + bs.length then bs.getD (b - (base + n)) 0 else FMap.get 0 m b := by
  induction bs generalizing m n with
  | nil =>
    rw [if_neg (by simp only [List.length_nil]; omega)]; rfl
  | cons x bs ih =>
    rw [List.zipIdx_cons, List.foldl_cons, ih]
    by_cases h1 : base + (n + 1) ≤ b ∧ b < base + (n + 1) + bs.length
    · rw [if_pos h1, if_pos (by simp only [List.length_cons]; omega)]
      rw [show b - (base + n) = (b - (base + (n + 1))) + 1 by omega, List.getD_cons_succ]
    · rw [if_neg h1]
      by_cases h2 : b = base + n
      · subst h2
        rw [if_pos (by simp), FMap.get_set_self]; simp
      · rw [FMap.get_set_ne h2, if_neg (by simp only [List.length_cons]; omega)]

/-- What the DRAM holds after a line has been put: its own bytes there, the old ones elsewhere. -/
theorem Mem.dram_dramPut (m : Mem) (k l : Nat) (bs : List Byte) (a : Nat) :
    FMap.get 0 (m.dramPut k l bs).dram a =
      if 128 * l ≤ a ∧ a < 128 * l + bs.length then bs.getD (a - 128 * l) 0 else FMap.get 0 m.dram a := by
  have := get_putBytes bs m.dram (128 * l) 0 a
  rw [Nat.add_zero] at this
  exact this

/-- A put line reads back under its key. -/
theorem Mem.dramByte_dramPut (m : Mem) (k l : Nat) (bs : List Byte) (i : Nat) (hi : i < 128) (hb : bs.length = 128) :
    (m.dramPut k l bs).dramByte k (128 * l + i) = bs.getD i 0 := by
  have h1 : (128 * l + i) / 128 = l := by omega
  unfold Mem.dramByte
  rw [h1, show FMap.get 0 (m.dramPut k l bs).lineKey l = k from FMap.get_set_self]
  simp only [if_true]
  rw [Mem.dram_dramPut, if_pos (by omega)]
  congr 1; omega

/-- A put line leaves every byte of the other lines, under every key. -/
theorem Mem.dramByte_dramPut_ne (m : Mem) (k l : Nat) (bs : List Byte) (rk a : Nat) (ha : a / 128 ≠ l)
    (hb : bs.length ≤ 128) : (m.dramPut k l bs).dramByte rk a = m.dramByte rk a := by
  have hk : FMap.get 0 (m.dramPut k l bs).lineKey (a / 128) = FMap.get 0 m.lineKey (a / 128) := FMap.get_set_ne ha
  have hraw : ∀ x, x / 128 = a / 128 → FMap.get 0 (m.dramPut k l bs).dram x = FMap.get 0 m.dram x := by
    intro x hx
    rw [Mem.dram_dramPut, if_neg (by omega)]
  unfold Mem.dramByte
  rw [hk, hraw a rfl]
  have : (m.dramPut k l bs).rawLine (a / 128) = m.rawLine (a / 128) := by
    unfold Mem.rawLine
    refine List.map_congr_left fun i hi => hraw _ ?_
    have := List.mem_range.mp hi
    omega
  rw [this]

end Sys2Proof.Machine
end

