-- ==== Sys2Proof/Tests/Slice0.lean ====
section
/-! SUPPORT. Small states; witnesses for the hypotheses of the statements; decoding of words written out from the spec; the
well-formedness checks. -/

namespace Sys2Proof.Tests

set_option Elab.async false
set_option maxRecDepth 100000
set_option linter.unusedVariables false

open Sys2Proof Sys2Proof.Machine Sys2Proof.Spec

/-! ### States -/

def on : Blk := ⟨.on, true, false⟩
def die0 : DieBlocks :=
  { DieBlocks.reset with ve := on, txb := on, collie := on, dcache := on, retr := on, rng := on }
def pow0 : Power :=
  { Power.reset with
    stage := .ready, cold := false, perst := false, linkUp := true, inputMv := 64000, dieLevel := [(0, 0), (1, 0)] }
def mas0 : Mastiff := { Mastiff.reset with sessions := [⟨1, .owner 7⟩] }
def fuses0 : Fuses := { Fuses.reset with life := .owned, ownerUsed := 1, ownerKey := some 7 }
def plat0 : Platform := ⟨fuses0, pow0, mas0⟩

/-- Leaf entry of a page: kind, physical or remote base in 64 KiB, owner; readable and writable. -/
def leaf (kind base own : Nat) : Dword := BitVec.ofNat 64 (15 + kind * 2 ^ 4 + base * 2 ^ 16 + own * 2 ^ 52)

/-- Context 1: 2 MiB of device memory at 0, 2 MiB of host memory at 2 MiB, 2 MiB of device memory at 6 MiB, a page of node
3's context 2 at 4 MiB, and one of device memory at 8 MiB that is read only. -/
def ctx1 : Ctx :=
  { Ctx.free with
    st := .opened, classes := 15, pinRight := true, portMask := 63, quota := 100, key := some 1
    pt := [(0, 1), (2 ^ 40, 1), (2 * 2 ^ 40, leaf 0 32 1), (2 * 2 ^ 40 + 1, leaf 1 64 1), (2 * 2 ^ 40 + 2, 1),
      (2 * 2 ^ 40 + 3, leaf 0 96 1), (2 * 2 ^ 40 + 4, BitVec.ofNat 64 (7 + 128 * 2 ^ 16 + 2 ^ 52)),
      (3 * 2 ^ 40 + 64, BitVec.ofNat 64 (15 + 2 * 2 ^ 4 + 3 * 2 ^ 6 + 2 * 2 ^ 18 + 9 * 2 ^ 30))] }
def ring1 : Ring := { Ring.reset with blk := on, sqBase := 2 ^ 21 * 2, cqBase := 2 ^ 21 * 2 + 4096, nextSeq := 9 }
def slice0 : Slice :=
  { Slice.none with blk := on, dies := [0, 1], bw := List.replicate 20 32, fabWeight := 1, ringShare := 64 }

/-- An item of context 1 on slice 0 in a phase with the bytes of its descriptor. -/
def itemOf (seq typ : Nat) (ph : Phase) (tail : List Byte) : Item :=
  { newItem 1 seq 0 (([BitVec.ofNat 8 typ] : List Byte) ++ tail ++ List.replicate (63 - tail.length) 0) 0 with phase := ph }

def dev0 : Device :=
  { Device.reset with
    hub := { Hub.reset with ctxs := [(1, ctx1)], rings := [(1, ring1)], items := [itemOf 5 3 .running []] }
    eng := ⟨[(0, slice0)], [(0, die0), (1, die0)], [(0, { RowEng.reset with blk := on })], []⟩ }

def s0 : State := ⟨[], plat0, dev0⟩

/-- `s` with its device changed. -/
def withDev (s : State) (f : Device → Device) : State := { s with dev := f s.dev }
/-- `s` with an item more. -/
def plus (s : State) (it : Item) : State := withDev s fun d => d.mapHub fun h => { h with items := h.items ++ [it] }

/-! ### A block on core 0 of die 0 -/

def blk0 : KBlock := ⟨0, 0, 1, 5, 0, 2, 32, 1024, [(0, 1), (1, 2), (8, 0x80), (64, 5)], [7, 0, 0, 0, 9, 1, 2, 3], [], [], []⟩
def pack0 : Pack :=
  { Pack.none with
    regs := [(0, 5), (1, 3), (2, 0x40490FDB), (3, 0x3F800000), (4, 8), (5, 0), (128, 0xFFFFFFFE), (129, 7), (132, 12)]
    uregs := [(0, 100), (1, 0), (2, 9), (4, 64)], preds := [(1, 0x0000FFFF), (2, 3)]
    mask := 0xFFFFFFFF, live := 0xFFFFFFFF, pc := 10, slot := some 0 }
def pack1 : Pack := { Pack.none with mask := 1, live := 1, pc := 3, slot := some 1, stamp := 4 }
def sB : State := withDev s0 fun d => { d with collie := ⟨[(0, blk0)], [(0, pack0), (1, pack1)], [], 1, 5⟩ }
/-- `sB` with its pack changed. -/
def withPack (f : Pack → Pack) : State := withDev sB fun d => d.updPack 0 f
def withBlock (f : KBlock → KBlock) : State := withDev sB fun d => d.updBlock 0 f
def iss : Issue := ⟨0, none, none, 0⟩
def issG : Issue := ⟨0, some ⟨false, 1⟩, none, 0⟩
def issI : Issue := ⟨0, none, some 0x0000000700000004, 0⟩

/-! ### Reading what a partial operation answers -/

/-- Whether a read answers. -/
def isOk {α ε : Type} (e : Except ε α) : Bool :=
  match e with
  | .ok _ => true
  | .error _ => false
/-- No codeword awaits an uncorrectable error. -/
theorem soundWhen {s : State} (h : s.dev.mem.weak = []) : sound s := by
  intro n; rw [h]; exact (by decide : (0 : Nat) ≠ 2)
/-- No half-line is bad. -/
theorem coreSoundWhen {d : Device} {die core : Nat} (h : d.mem.bad = []) : coreSound d die core := by
  intro y _ a _; rw [h]; exact ⟨rfl, rfl⟩
/-- A read that answers what is said. -/
theorem okWhen {α ε : Type} [DecidableEq α] {e : Except ε α} {r : α}
    (h : (match e with | .ok b => decide (b = r) | .error _ => false) = true) : e = .ok r := by
  cases e with
  | ok b => exact congrArg _ (of_decide_eq_true h)
  | error _ => cases h
/-- A thread waits at a barrier. -/
theorem parkedWhen {p : List (Nat × Nat × Nat)} {l id : Nat} (h : (p.any fun e => e.1 == l && e.2.1 == id) = true) :
    ∃ pc, (l, id, pc) ∈ p := by
  obtain ⟨⟨a, b, c⟩, he, h⟩ := List.any_eq_true.mp h
  simp at h
  obtain ⟨rfl, rfl⟩ := h
  exact ⟨c, he⟩
/-- Whether a read answers what is said. -/
def answers {α ε : Type} [DecidableEq α] (e : Except ε α) (r : α) : Bool :=
  match e with
  | .ok b => decide (b = r)
  | .error _ => false
theorem answersWhen {α ε : Type} [DecidableEq α] {e : Except ε α} {r : α} (h : answers e r = true) : e = .ok r := by
  cases e with
  | ok b => exact congrArg _ (of_decide_eq_true h)
  | error _ => cases h

/-- What a read answers. -/
def okOf {α ε : Type} (e : Except ε (List α)) : List α :=
  match e with
  | .ok b => b
  | .error _ => []
theorem okOfWhen {α ε : Type} {e : Except ε (List α)} (h : isOk e = true) :
    e = .ok (okOf e) := by
  cases e with
  | ok _ => rfl
  | error _ => cases h
/-- The device a fetch that has come leaves. -/
def gotDev {α : Type} (f : Fetch α) : Device :=
  match f with
  | .got d _ => d
  | _ => Device.reset
def gets {α : Type} [DecidableEq α] (f : Fetch α) (r : α) : Bool :=
  match f with
  | .got _ x => decide (x = r)
  | _ => false
theorem getsWhen {α : Type} [DecidableEq α] {f : Fetch α} {r : α} (h : gets f r = true) : f = .got (gotDev f) r := by
  cases f with
  | got d x => exact congrArg _ (of_decide_eq_true h)
  | stall _ => cases h
  | err _ => cases h

/-- A span of device memory that may be read and written. -/
theorem spanWhen {s : State} {c va len key a : Nat}
    (h : ∀ j < len, answers (translate s.dev c (va + j) .read) (.dev (a + j), key) = true ∧
      answers (translate s.dev c (va + j) .write) (.dev (a + j), key) = true ∧
      FMap.get false s.dev.mem.bad ((a + j) / 64) = false) : spanAt s c va len key a :=
  fun j hj => ⟨answersWhen (h j hj).1, answersWhen (h j hj).2.1, (h j hj).2.2⟩
/-- The device that a command leaves. -/
def okDev {ε : Type} (e : Except ε Device) : Device :=
  match e with
  | .ok d => d
  | .error _ => Device.reset
theorem okDevWhen {ε : Type} {e : Except ε Device} (h : isOk e = true) :
    e = .ok (okDev e) := by
  cases e with
  | ok _ => rfl
  | error _ => cases h

/-- A number that is read. -/
def okNat {ε : Type} (e : Except ε Nat) : Nat :=
  match e with
  | .ok n => n
  | .error _ => 0
theorem okNatWhen {ε : Type} {e : Except ε Nat} (h : isOk e = true) :
    e = .ok (okNat e) := by
  cases e with
  | ok _ => rfl
  | error _ => cases h
/-- A fetch that comes. -/
def comes {α : Type} (f : Fetch α) : Bool :=
  match f with
  | .got _ _ => true
  | _ => false
theorem comesWhen {α : Type} {f : Fetch α} (h : comes f = true) :
    ∃ d x, f = .got d x := by
  cases f with
  | got d x => exact ⟨d, x, rfl⟩
  | stall _ => cases h
  | err _ => cases h

/-- What a read answers, or `d`. -/
def okElse {α ε : Type} (d : α) (e : Except ε α) : α :=
  match e with
  | .ok x => x
  | .error _ => d
theorem okElseWhen {α ε : Type} {d : α} {e : Except ε α} (h : isOk e = true) : e = .ok (okElse d e) := by
  cases e with
  | ok _ => rfl
  | error _ => cases h

/-! ### States of the witnesses -/

/-- `s` with an instruction at the pc of its pack, in the translated code of the pack's kernel. -/
def fit (c : Instr) (s : State) : State :=
  match jkfParts c, jkfEncode c with
  | some (_, _, i, _), some (w, imm) =>
    match s.dev.block (i.pack / 16) with
    | none => s
    | some k =>
      match s.dev.item k.ctx k.seq with
      | none => s
      | some it =>
        let pc := (s.dev.pack i.pack).pc
        let x := (s.dev.xlatOf it).getD { (default : Xlat) with ctx := it.ctx, addr := it.addr0, check := it.layerIx }
        let code := (x.code ++ List.replicate (pc + 8 - x.code.length) 0).set pc w
        let y := { x with code := match imm with
          | some v => code.set (pc + 1) v
          | none => code }
        withDev s fun d => d.mapHub fun h => { h with xlats :=
          if (s.dev.xlatOf it).isSome then
            (h.xlats.map fun z => if z.ctx == x.ctx && z.addr == x.addr && z.check == x.check then y else z)
          else h.xlats ++ [y] }
  | _, _ => s
def rp0 : Report := Report.zero
def vbd (k vd va vb vc vm vmx ub fmt : Nat) : VecBody := ⟨.ofNat 4 k,.ofNat 4 vd,.ofNat 4 va,.ofNat 4 vb,.ofNat 4 vc,.ofNat 3 vm,.ofNat 3 vmx,.ofNat 6 ub,.ofNat 6 fmt⟩
def bs : List Block := [.re 0 0, .re 1 7, .ve 0, .txb 0, .collie 1, .dcache 2, .retr 0, .rng 1, .mem 0, .mem 19, .ups, .reel]
/-- Cells of bytes that are not 0. -/
def cells (a : Nat) (bs : List Byte) : List Host.Cell := (bs.zipIdx.map fun b => (a + b.2, b.1)).filter fun c => c.2 != 0
def devm (s : State) (a : Nat) (bs : List Byte) (key : Nat) : State := withDev s fun d => d.mapMem fun m => { m with
  dram := (m.dram.filter fun c => c.1 < a) ++ cells a bs ++ (m.dram.filter fun c => a + bs.length ≤ c.1)
  lineKey := FMap.set 0 m.lineKey (a / 128) key }
def sM : State := devm (devm sB 2097152 ((List.range 200).map fun i => BitVec.ofNat 8 (i * 7 + 3)) 1) (2097152+128) [] 1
def kV : KBlock := { blk0 with held := [2] }
def uw (ws : List Nat) : FMap Word := (List.range ws.length).foldl (fun t i => FMap.set 0 t i (BitVec.ofNat 32 (ws.getD i 0))) []
def pV (ws : List Nat) : Pack := { pack0 with uregs := uw ws }
def vE : VecEng := { VecEng.reset with
  regs := (List.range 140).map (fun i => (4096 + i, BitVec.ofNat 32 (0x3F800000 + 0x123457 * i))) ++ (List.range 140).map (fun i => (8192 + i, BitVec.ofNat 32 ((i * 37) % 50))) ++ (List.range 140).map (fun i => (12288 + i, BitVec.ofNat 32 (0xC0000000 + i)))
  masks := (List.range 140).filterMap (fun i => if i % 3 = 0 then none else some (4096 + i, true)) ++ (List.range 140).filterMap (fun i => if i % 7 = 0 then some (8192 + i, true) else none) }
def vEn : VecEng := { vE with holder := some 0 }
def sVp (ws : List Nat) : State := withDev (withDev sM fun d => d.updBlock 0 fun _ => kV) fun d => (d.updPack 0 fun _ => pV ws).updVe 0 2 fun _ => vEn
def it5 : Item := itemOf 5 3 .running []
def xV (ws : List Nat) (n : Nat) (b : VecBody) (s : State) : VecIn := ⟨0, 2, it5, (List.range n).map fun j => ureg (pV ws) j, b, vEn, (s.dev.ctx 1).seed, none⟩
def byF (x : VecIn) (s : State) (base j : Nat) : Byte := match x.byte s.dev (base + j) with | .ok b => b | _ => 0
def gotD {α} (f : Fetch α) (d : Device) : Device := match f with | .got d _ => d | _ => d
def withLines (s : State) (ls : List DLine) : State := withDev s fun d => d.mapMem fun m => { m with lines := ls }
def dl (die line : Nat) (st : LineSt) (n : Nat) (way : Nat := 0) (tc : Nat := 0) : DLine := ⟨die, false, line, way, st, tc, 1, 1, List.replicate n 0xAB, none⟩
def L0 : Nat := 2097152 / 128
def dirtyL (s : State) : State := withLines s [dl 0 L0 .modified 128, dl 1 (L0 + 1) .shared 128, dl 0 (L0+1) .shared 128]
def mb (d a fmt sp off : Nat) : MemBody := ⟨.ofNat 8 d,.ofNat 8 a,.ofNat 6 fmt,.ofNat 2 sp,.ofNat 22 off⟩
def x1 : Pack := { pack0 with mask := 3, live := 3 }
def one (s : State) : State := withDev s fun d => d.updPack 0 fun _ => x1
def cl0 : CLine := ⟨.dev 2097152, 1, 0, List.replicate 128 5, true :: List.replicate 127 false, [], none⟩
def sMC : State := withDev sM fun d => d.updCore 0 0 fun c => { c with lines := [cl0, { cl0 with at_ := .dev (2097152 + 128), data := List.replicate 128 9 }] }
def oneK (_ : Nat) : Nat := 1
def hl (die line : Nat) (st : LineSt) (n : Nat) : DLine := ⟨die, true, line, 0, st, 0, 1, 0, List.replicate n 0xAB, none⟩
def keyAll (s : State) : State := withDev s fun d => d.mapMem fun m => { m with lineKey := (List.range 200).map fun i => (L0 + i, 1) }
def withIt (s : State) (it : Item) : State := withDev s fun d => d.mapHub fun h => { h with items := [it] }
def srcBytes : List Byte := (List.range 400).map fun i => if i * i * 31 % 7 < 3 then 0 else BitVec.ofNat 8 (i * 37 + 11)
def sP (it : Item) (f : RowEng → RowEng) : State := keyAll (devm (devm (withDev (withIt sM it) fun d => ({ d with collie := Device.reset.collie }).updRe 0 0 f) (2097152 + 1024) srcBytes 1) (2097152+2048) ((List.range 300).map fun i => BitVec.ofNat 8 (i * 5 % 90)) 1)
def sD (it : Item) (f : RowEng → RowEng) : State := withDev (sP it f) fun d => d.updDie 0 fun x => { x with rng := on }
def prT (w a b c conv sp m n k : Nat) : List Byte :=
  List.replicate 15 0 ++ leBytes 8 0 ++ leBytes 4 m ++ leBytes 4 n ++ leBytes 8 k ++ [BitVec.ofNat 8 w, BitVec.ofNat 8 a, BitVec.ofNat 8 b, BitVec.ofNat 8 c, BitVec.ofNat 8 conv, BitVec.ofNat 8 sp] ++ [0,0] ++ leBytes 4 7 ++ leBytes 4 9
def oprecOf (fs : List (Nat × Nat × Nat)) : List Byte := fs.foldl (fun o f => o.take f.1 ++ leBytes f.2.1 f.2.2 ++ o.drop (f.1 + f.2.1)) (List.replicate 128 0)
def prI (w a b c conv sp m n k : Nat) (ph : Phase) (fs : List (Nat × Nat × Nat)) : Item := { itemOf 5 1 ph (prT w a b c conv sp m n k) with oprec := oprecOf fs, deal := ⟨0,0,0,0,ph == .running⟩ }
def fs1 : List (Nat × Nat × Nat) := [(0,8,1024),(0x18,8,1024+128),(0x30,8,8192),(0x60,4,0),(0x64,4,0),(0x68,4,0)]
def prA := prI 0 3 3 0 0 1 5 3 40 .running fs1
def prAo : Item := { prA with deal := ⟨5,0,0,0,true⟩, out := 1 }
def accM (rows : List (List Word)) : FMap Word := rows.zipIdx.flatMap fun r => (r.1.zipIdx.filter fun x => x.1 ≠ 0).map fun x => (512 * r.2 + x.2, x.1)
def bkT (tl : Tile) (rows : List (List Word)) (st : BankSt := .filling) (comb : Bool := false) (pos : Nat := 0) : Bank := ⟨st, some tl, comb, pos, false, accM rows⟩
def tlo (it : Item) (row col m w sp : Nat) : Tile := ⟨it.ctx, it.seq, row, col, m, w, sp, it.rank⟩
def z5 : Tile := tlo prAo 0 0 5 3 0
def acc53 : List (List Word) := (List.range 5).map fun i => (List.range 3).map fun j => BitVec.ofNat 32 (0x3F800000 + 0x1234567 * i + 0x777 * j)
def z6 : Bank := bkT z5 acc53 .draining false 0
def z7 : State := sD prAo (fun r => { r with turn := false, bank1 := z6 , parked := some (bkT (tlo prA 0 0 1 1 0) [[5]]) })
def prB := prI 0 7 7 7 0x08 2 3 4 130 .running (fs1 ++ [(0x48,8,16384)])
def prBo : Item := { prB with out := 2, drained := [(0,0,0)] }
def z17 : Tile := tlo prBo 0 0 2 4 1
def acc24 : List (List Word) := (List.range 2).map fun i => (List.range 4).map fun j => BitVec.ofNat 32 (77 + 1000003 * i - 555 * j)
def z18 : Bank := bkT z17 acc24 .draining false 0
def z19 : State := sD prBo (fun r => { r with turn := true, bank0 := z18  })
def prF := prI (4+16) 0xD 9 0 0 3 2 3 200 .running (fs1 ++ [(8,8,2048),(0x20,8,2048),(0x40,8,1024),(0x48,8,16384)])
def prFo : Item := { prF with out := 2, drained := [(0,0,0),(64,0,1)] }
def z60 : Tile := tlo prFo 0 0 2 2 1
def z61 : State := sD prFo (fun r => { r with combines := ([] : List Tile) ++ z60 :: ([] : List Tile) , turn := true, bank0 := bkT (tlo prF 0 0 1 1 1) [[5]] .draining })
def z66 : Tile := tlo prBo 0 0 2 4 1
def z67 : Bank := bkT z66 acc24 .filling true 0
def z68 : State := sD prBo (fun r => { r with turn := true, bank0 := z67  })
def reT (tl : List Tile) (f : RowEng → RowEng := id) : RowEng → RowEng := fun r => f { r with queue := tl }
def tS (it : Item) (tl : Tile) (f : RowEng → RowEng := id) : State := sP it (reT [tl, { tl with row := 64 }] f)
def y46 : Tile := tlo prB 0 0 2 4 0
def y47 : State := tS prB y46 (fun r => { r with queue := [], turn := false, bank1 := bkT y46 acc24 .filling false 0, dbgHalt := true })
def y86 : Tile := tlo prA 0 0 5 3 0
def y87 : Bank := bkT y86 acc53 .filling false 1
def y88 : State := tS prA y86 (fun r => { r with queue := [⟨1,6,0,0,1,1,0,2⟩], turn := false, parked := some y87  })
def y1 : Tile := tlo prA 0 0 5 3 0
def y2 : State := tS prA y1 (id)
def sSt0 : State := devm (devm (withDev sM fun d => { d with collie := Device.reset.collie }) (2097152 + 1024) srcBytes 1) (2097152+2048) ((List.range 64).map fun i => BitVec.ofNat 8 (i * 5 % 90)) 1
def sSt (it : Item) : State := keyAll (withDev (withIt sSt0 it) fun d => d.updVe 0 1 fun v => { v with queue := [(1, 5)] })
def stTail (op fmt flags rows cols size : Nat) : List Byte :=
  List.replicate 15 0 ++ List.replicate 8 0 ++ [0, BitVec.ofNat 8 op, BitVec.ofNat 8 fmt, BitVec.ofNat 8 flags] ++ List.replicate 4 0 ++ leBytes 4 rows ++ leBytes 4 cols ++ leBytes 8 size
def stIt (op fmt flags rows cols size : Nat) (fs : List (Nat × Nat × Nat)) : Item := { itemOf 5 2 .dispatched (stTail op fmt flags rows cols size) with oprec := oprecOf fs }
def i100 : Item := stIt 0x60 3 0 3 20 65536 [(0,8,1024),(96,4,0),(48,8,8192),(56,8,12288),(88,8,16384)]
def s100 : State := (dirtyL (sSt i100))
def x100 : VecIn := xV [130] 1 (vbd 2 3 1 2 3 1 2 0 0) s100
def itL : Item := { itemOf 5 2 .running (List.replicate 23 0 ++ [1] ++ List.replicate 23 0 ++ leBytes 8 0x100000 ++ [9]) with }
def vEl : VecEng := { vE with running := some (1, 5), listPos := 3 }
def xL (ws : List Nat) (b : VecBody) (s : State) : VecIn := ⟨0, 1, itL, (List.range 14).map fun j => BitVec.ofNat 32 (ws.getD j 0), b, vEl, (s.dev.ctx 1).seed, none⟩
def opOf (c : Instr) (v : VecArgs) : Nat := ((List.range 256).find? fun o => match jkfVec o with | some (mk, sg) => decide (mk v = c) && sg == v.seg | none => false).getD 255
def entB (c : Instr) (v : VecArgs) (ws : List Nat) : List Byte :=
  leBytes 8 (8 * 2^60 + opOf c v * 2^52 + v.body.bits.toNat) ++ (List.range 14).flatMap fun j => leBytes 4 (ws.getD j 0)
def sVlc (s : State) (c : Instr) (v : VecArgs) (ws : List Nat) : State := devm s (2097152 + 0x100000 + 192) (entB c v ws) 1
def sVl : State := withDev (withIt sM itL) fun d => ({ d with collie := Device.reset.collie }).updVe 0 1 fun _ => vEl
def u14 (ws : List Nat) : List Word := (List.range 14).map fun j => BitVec.ofNat 32 (ws.getD j 0)
def v200 : VecArgs := ⟨.list 0 1 (u14 [130]) rp0, vbd 0 3 1 2 3 1 1 0 0, false⟩
def s200 : State := (sVlc sVl (.vecCmpEq v200) v200 [130])
def x200 : VecIn := xL [130] (vbd 0 3 1 2 3 1 1 0 0) s200
def withIts (s : State) (it : List Item) : State := withDev s fun d => d.mapHub fun h => { h with items := it }
def recOf (n : Nat) (fs : List (Nat × Nat × Nat)) : List Byte := fs.foldl (fun o f => o.take f.1 ++ leBytes f.2.1 f.2.2 ++ o.drop (f.1 + f.2.1)) (List.replicate n 0)
def fOne : Nat := 0x3F800000
def coef (ctrl rows cols : Nat) (base : Nat) (xs : List (Nat × Nat × Nat) := []) : List Byte :=
  recOf 256 ([(0,4,ctrl),(4,4,rows),(8,4,cols),(0xC,1,2),(0x10,4,0x3F666666),(0x14,4,0x3F7FBE77),(0x18,4,0x3A83126F),(0x1C,4,0x3C23D70A),(0x20,4,fOne),(0x24,4,77),
    (0x40,8,base),(0x48,8,base+0x400),(0x50,8,base+0x800),(0x58,8,base+0xC00),(0x60,8,base+0x1000),(0x68,8,base+0x1400),(0x70,8,base+0x1800),(0x78,8,base+0x1C00),(0x80,8,base+0x2000),
    (0x90,4,0x405C6A7F),(0x94,4,0xC098E560),(0x98,4,0x40020C4A),(0x9C,4,fOne),(0xA0,4,0),(0xA4,4,0x80000000)] ++ xs)
def e0 := coef 0x0E 3 4 0x1000
def itU (ph : Phase) : Item := itemOf 5 4 ph (List.replicate 15 0 ++ leBytes 8 0x100 ++ leBytes 8 0x200 ++ leBytes 8 0x800)
def step0 (fl clip : Nat) : List Byte := recOf 64 [(0,2,1),(2,2,fl),(8,8,0x123456789A),(0x10,4,0x3C23D70A),(0x14,4,clip)]
def u7 : Update := ⟨1, 7, .norm, 3, true, false, 1, 2, 3, 4, true, 5, 6, 0, false, []⟩
def un : Update := { u7 with seq := 5, summed := false, qShard := 0 }
def run0 (ly : Nat) (wr : Bool) : Update := ⟨1, 5, .layers, 2097152+0x200, true, false, 0x123456789A, 0x3C23D70A, 0x3F800000, 0x40000000, true, 0x3FB504F3, 0x3F3504F3, ly, wr, if ly = 0 then [] else [0]⟩
def withMas (s : State) (f : Mastiff → Mastiff) : State := { s with plat := { s.plat with mas := f s.plat.mas } }
def q (s : State) (code : Nat) : State := withMas s fun m => { m with queue := [(1, code), (2, 5)] }
def gr (n c : Nat) (r w a : Bool) : PeerGrant := ⟨n, c, r, w, a⟩
def ms (die line : Nat) (ws : List Waiter) (pref : Bool) : Miss := ⟨die, 3, line, 2, ws, pref, 1, 5, 1, false⟩
def withPort (s : State) (p : Nat) (x : Port) : State := withDev s fun d => d.updPort p fun _ => x
def pUp (n : Nat) : Port := { Port.reset with blk := on, link := .up, peerValid := true, peerNode := BitVec.ofNat 12 n, credits := [8,8,8,8] }
def cxG (gs : List PeerGrant) : Ctx := { ctx1 with grants := gs }
def sPe (gs : List PeerGrant) : State := withDev (withPort (withPort sM 2 (pUp 4)) 1 (pUp 7)) fun d => ({ d with ports := { d.ports with node := 3 } }).setCtx 1 (cxG gs)
def allG := [gr 9 9 false false false, gr 4 2 true true true]
def sAn (o : List PeerOut) : State := withDev (sPe allG) fun d => { d with ports := { d.ports with out := o } }
def po (tag p c q n : Nat) (w : Bool) (u : PeerUse) : PeerOut := ⟨tag, p, c, q, n, 2, 0x70000, 64, w, 0x400040, u, 0⟩
def pLine : PeerOut := po 5 2 1 5 4 false (.line 0 0 1 2 0x70000 true)
def sAnL : State := withDev (sAn [po 4 2 1 5 4 false .store, pLine]) fun d => d.updPack 0 fun x => { x with wait := some .memory }
def pAt : PeerOut := po 5 2 1 5 4 false (.atom 0 [2, 0, 5] 20 0x0F)
def pFi : PeerOut := po 5 2 1 5 4 false (.fill 2 0x70000)
def ab (d a b c : Nat) (fmt cvt : Nat) : AluBody := ⟨.ofNat 8 d,.ofNat 8 a,.ofNat 8 b,.ofNat 8 c,.ofNat 6 fmt,.ofNat 8 cvt⟩
def sC : State := withDev sB fun d => d.updCore 0 0 fun c => { c with lines := [cl0] }
def sBx : State := withDev sB fun d => { d with mem := { d.mem with dram := [(5, 3)] }, eng := { d.eng with res := [(0, { RowEng.reset with blk := on, bad := 5 }), (9, { RowEng.reset with bad := 0xFFFF })] }, log := [⟨1,2,3,4,5,.none⟩] }
def bell (s : State) : State := withDev s fun d => d.updRing 1 fun g => { g with sqTail := 1, bells := [(10, 3)] }
def withPow (s : State) (f : Power → Power) : State := { s with plat := { s.plat with pow := f s.plat.pow } }
def sSeg : State := withDev sBx fun d => { d with mem := { d.mem with dram := [(5, 3), (2097152, 9), (65536 * 33 + 5, 8)], pages := [(32, 2), (33, 2), (96, 2), (128, 2), (200, 5)] } }
def sT0 : State := withPow (withDev sSeg fun d => { d with mem := { d.mem with nextKey := 9 } }) fun p => { p with time := 5000 }
def withFuses (s : State) (f : Fuses → Fuses) : State := { s with plat := { s.plat with fuses := f s.plat.fuses } }
def sR : State := withDev sSeg fun d => { d with
  ups := { d.ups with blk := on }, reel := { d.reel with blk := on, groups := [(3, { (default : Group) with en := true, gst := .idle })] }
  mem := { d.mem with blks := [(0, { MemBlk.reset with blk := on, ce := 0xF0F0, ue := 3 }), (1, { MemBlk.reset with blk := ⟨.off, false, false⟩, ce := 5 })] } }
def host (s : State) (a : Nat) (bs : List Byte) : State := withDev s fun d => d.mapMem fun m => { m with hostMem := (List.range bs.length).foldl (fun t i => FMap.set 0 t (a + i) (bs.getD i 0)) m.hostMem }
def dsc (hdr : Nat) (dl : Nat) (deps : List Nat) (tag : Nat) (body : List Byte) : List Byte :=
  leBytes 1 hdr ++ leBytes 2 dl ++ (deps ++ List.replicate (4 - deps.length) 0).flatMap (leBytes 2) ++ leBytes 4 tag ++ body
def sFl (pref : Bool) (ws : List Waiter) : State := withDev sM fun d => d.mapMem fun m => { m with misses := [ms 0 L0 ws pref], lines := [dl 0 (L0+5) .modified 128 3 2, hl 0 L0 .modified 128] }
def kx (ph : Phase) (seq : Nat) (cls : Nat) : Item := { itemOf seq 3 ph (List.replicate 15 0 ++ leBytes 8 0 ++ leBytes 8 512) with cls := cls, waitAt := none, layerIx := 0 }
def sX (it : Item) (x : Xlat) : State := withDev (withIts sM [it, kx .running 9 1]) fun d => { d with hub := { d.hub with xlats := [x] } }
def xl0 : Xlat := ⟨1, 0, 0, 0, 32, 2, 1024, [5, 6], [1, 2], false, 0⟩
def sImg (its : List Item) (img : List Byte) : State := keyAll (devm (withIts sM its) 2097152 img 1)
def wf (i : Item) (t : Dword) : Item := { i with waitAt := some t }
def mkImg (words : List Nat) (entry : Nat) (tregs packs blkmem : Nat) : List Byte :=
  let code := words.flatMap (leBytes 8)
  let h0 := leBytes 4 0x00464B4A ++ [1, 0, 0, 0] ++ leBytes 4 (64 + code.length) ++ leBytes 4 64 ++ leBytes 4 words.length ++ leBytes 4 entry ++ leBytes 4 0 ++ leBytes 4 0 ++ [BitVec.ofNat 8 tregs, BitVec.ofNat 8 packs, 0, 0] ++ leBytes 4 blkmem ++ leBytes 8 3
  h0 ++ leBytes 4 (crc32c code) ++ List.replicate 12 0 ++ code
def exitW : Nat := 0x5 * 2^60 + 2 * 2^52
def img1 : List Byte := mkImg [0x1036814040A0C000, exitW] 0 32 2 1024
def sRl (its : List Item) (g : Group) : State := keyAll (withDev (withPort (withPort (withIts sM its) 2 (pUp 4)) 1 (pUp 7)) fun d => { d with collie := Device.reset.collie, reel := { d.reel with blk := on, groups := [(3, g)] } })
def itd (seq typ : Nat) (ph : Phase) (hdr dl : Nat) (deps : List Nat) (body : List Byte) : Item := { itemOf seq typ ph (dsc hdr dl deps 0x77 body) with }
def rlB (op fmt root cnt src dst : Nat) (g : Nat) : List Byte := leBytes 1 op ++ leBytes 1 fmt ++ leBytes 2 g ++ leBytes 2 root ++ leBytes 2 cnt ++ leBytes 8 src ++ leBytes 8 dst
def rlI (seq : Nat) (ph : Phase) (op fmt root cnt src dst sh inst : Nat) : Item := { itd seq 8 ph 0 0 [] (rlB op fmt root cnt src dst 3) with shard := sh, inst := inst }
def rb0 := rlI 5 .dispatched 0 0 0 0 16 32 2 4
def gp (total base count : Nat) : Group := { Group.reset with owner := 1, en := true, total := BitVec.ofNat 16 total, base := BitVec.ofNat 16 base, count := BitVec.ofNat 7 count, inst := 4 }
def nI (ph : Phase) : Item := { itemOf 5 4 ph (List.replicate 15 0 ++ leBytes 8 0x100 ++ leBytes 8 0x200 ++ leBytes 8 0x800 ++ leBytes 2 3 ++ leBytes 2 2) with shard := 2, inst := 4 }
def nRun : Update := ⟨1, 5, .norm, 2097152+0x200, true, false, 0x123456789A, 0x3C23D70A, 0x3F800000, 0x40000000, true, 0, 0, 0, false, []⟩
def sNr (g : Group) : State := withDev (sRl [nI .running] g) fun d => { d with ups := { d.ups with blk := on, runs := [nRun] } }
def xF (fs : List Frame) : Pack := { pack0 with stack := fs }
def ra1 : Item := { rlI 5 .running 1 0 2 7 16 32 2 4 with oprec := [1,2,3,4,5,6,7] }
def av (sh q op fmt cnt root : Nat) (vs : List Nat) (bs : List Byte := []) : Arrival := ⟨sh, 1, q, ⟨op, fmt, cnt, root⟩, vs.map (BitVec.ofNat 32), bs⟩
def s2c1 : State := sRl [ra1] { gp 2 2 2 with arrived := [av 3 6 1 0 7 2 [] [9,9]] }
def zA (s : State) (z0 : Arrival) (n : Nat) (i : Nat) : Arrival := (((s.dev.group 3).arrived ++ [z0]).find? fun a => a.shard == (s.dev.group 3).base.toNat + i).getD default
def aOf (s : State) (it : Item) : Arrival := ⟨2, 1, 5, it.reelParams, s.dev.reelValues it, if it.typ = 8 ∧ field it.desc 0x10 1 = 1 then it.oprec else []⟩
def ra2 (cnt : Nat) : Item := { rlI 5 .running 2 0 0 cnt 16 32 2 4 with oprec := (List.range (4*cnt)).map fun i => if i % 4 = 3 then 0x3F else BitVec.ofNat 8 (i * 37) }
def it6 : Item := { rlI 6 .running 2 0 0 2 16 96 3 4 with }
def gD (dn : Down) (as : List Arrival) (n : Nat) : Group := { gp n 2 n with arrived := as, down := some dn, gst := .active }
def dn1 : Down := ⟨[0x3F800001, 0x40000002], [], none⟩
def sDn1 : State := sRl [ra2 2, it6] (gD dn1 [av 3 6 2 0 2 0 [5,6], av 2 5 2 0 2 0 [1, 2]] 2)
def itsF (s : State) (a : Arrival) : Item := (s.dev.item a.ctx a.seq).getD default
def paF (s : State) (a : Arrival) : Nat := 2097152 + field (itsF s a).desc 0x20 8
def outF (s : State) (g : Nat) (dn : Down) : Outs := (s.dev.group g).shards.map (fun a => (field (itsF s a).desc 0x20 8, paF s a, if a.params.op = 2 then dn.values.flatMap fun w => leBytes 4 w.toNat else if a.params.op = 1 then dn.bytes else []))
def dnB : Down := ⟨[], [], some 7⟩
def sDn4 : State := sRl [ra2 2] (gD dnB [av 2 5 2 0 2 0 [1, 2]] 1)
def sDn5 (v : Nat) (sk : Bool) : State := withDev (sNr (gD ⟨[BitVec.ofNat 32 v], [], none⟩ [av 2 5 2 0 1 0 [1]] 1)) fun d => { d with ups := { d.ups with runs := [{ nRun with skip := sk }] } }
def gT : Group := { gp 6 2 2 with children := 4, parent := 1, gst := .active, arrived := [av 3 6 2 0 2 0 [0x3F800000, 0x40000000]] }
def sAb (i : Nat) : State := sRl [ra2 2, { it6 with inst := 5 }] { gT with aborting := [(i, 2, ⟨2, 0, 2, 0⟩), (3, 2, ⟨1,1,1,1⟩)] }
def sUpd : State := sRl [ra2 2, it6] { gT with sentUp := true }
def ctx2 : Ctx := { Ctx.free with st := .opened, key := some 2 }
def sCf (v : Nat) : State := withDev sUpd fun d => { d with reel := { d.reel with sysCfg := BitVec.ofNat 32 v }, hub := { d.hub with ctxs := [(1, ctx1), (2, { ctx2 with st := .frozen }), (3, ctx2)], snapFrozen := [2] } }
def sPn (p : Nat) (x : Port) : State := withPort sM p x
def pTr : Port := { Port.reset with blk := ⟨.starting, true, false⟩, link := .training, allowNarrow := true, noPartner := true }
def pHs : Port := { Port.reset with blk := ⟨.starting, true, false⟩, link := .handshake, txSeq := 4, replay := [(3,1)], waiting := [⟨0,1,false,.nak 1 1⟩] }
def pFl : Port := { pUp 4 with txSeq := 9, rxSeq := 5, fecUncorr := 0xFFFE, replay := [(6, 0), (7, 3), (8, 14)], lastAck := 6, credits := [1, 0, 2, 3], owed := [1, 2, 3, 4] }
def pFl2 : Port := { pFl with waiting := [⟨0, 1, true, .nak 1 1⟩] }
def pDn : Port := { pFl with link := .down, downDue := true, downSeen := true, replay := [] }
def evb (op loc v : Nat) : List Byte := leBytes 1 op ++ List.replicate 7 0 ++ leBytes 8 loc ++ leBytes 8 v
def gA (ps : List Nat) (st : GState) : Group := { Group.reset with en := true, gst := st, total := 4, count := 1, children := 4, parent := 1 }
def sLd : State := withDev (withPort (withPort sM 2 pDn) 1 (pUp 7)) fun d => { d with hub := { d.hub with items := [itemOf 5 3 .running [], itemOf 6 6 .running (evb 2 0 0)] }, ports := { d.ports with out := [po 1 2 1 5 4 false (.line 0 0 1 2 0x70000 true), po 2 1 1 6 7 true .store, po 3 2 1 6 4 true .event], passed := [⟨9, 4, 2⟩, ⟨8, 5, 1⟩, ⟨7, 6, 2⟩] }, reel := { d.reel with blk := on, groups := [(3, gA [1, 2] .active), (4, { gA [2] .active with children := 0, parent := 2 }), (5, gA [0] .idle)] } }
def rq (op : PeerOp) (va : Nat) (dst : Nat := 3) : PeerReq := ⟨4, 2, 1, va, 77, op, dst, 0⟩
def zf (m v : List (Nat × List Byte)) (rowVa : Nat) (dst : Nat := 3) : ZcFrame := ⟨78, 4, 2, 1, m, v, rowVa, 0x0000000500000064, dst, 0⟩
def rdB (s : State) (va n : Nat) : List Byte := match s.dev.readBytes ⟨1, 0, none, none⟩ n va with | .ok b => b | _ => []
def pb (pd a b fmt ps comb : Nat) : PredBody := ⟨.ofNat 3 pd,.ofNat 8 a,.ofNat 8 b,.ofNat 6 fmt,.ofNat 3 ps,.ofNat 2 comb⟩
def atb (d a o c fmt sc sp : Nat) : AtomBody := ⟨.ofNat 8 d,.ofNat 8 a,.ofNat 8 o,.ofNat 8 c,.ofNat 6 fmt,.ofNat 2 sc,.ofNat 1 sp⟩
def sF (fs : List Frame) : State := withPack fun p => { p with stack := fs }
def f1 : Frame := ⟨50, 0xFFFFFFFF, 30, 0xFF⟩
def itK : Item := { itemOf 6 3 .running (List.replicate 15 0 ++ [0,0x10,0,0,0,0,0,0] ++ List.replicate 8 0 ++ [2]) with layerIx := 77, oprec := List.replicate 128 3 }
def xl : Xlat := ⟨1, 0x1000, 77, 4, 32, 2, 1024, [], [1,2,3,4], false, 0⟩
def sK : State := withDev (plus sB itK) fun d => d.mapHub fun h => { h with xlats := [xl] }
def eb (r s k n : Nat) : EngBody := ⟨.ofNat 8 r,.ofNat 8 s,.ofNat 2 k,.ofNat 4 n⟩
def sV : State := withBlock fun k => { k with held := [2] }
def sV2 : State := withDev sV fun d => d.updVe 0 2 fun v => { v with holder := some 0, regs := [(1, 3)] }
def blkV : KBlock := { blk0 with held := [2] }
def sT : State := withBlock fun k => { k with tokens := [⟨9, 2^32, some .ok⟩] }
def blkT : KBlock := { blk0 with tokens := [⟨9, 2^32, some .ok⟩] }
def sOff2 : State := withPow State.reset fun p => { p with alwaysOn := false, stage := .off }
def atStage (s : State) (g : Stage) : State := withPow s fun p => { p with stage := g }
def imgOk : ImageCheck := ⟨true, Config.releaseKey, 0, 3, 5⟩
def sSl : State := withPow (withDev (withDev State.reset id) fun d => d) fun p => { pow0 with sleepMs := 10000 }
def sIdle : State := { sBx with dev := { dev0 with hub := { dev0.hub with items := [] } } }
def sGated : State := withPow sIdle fun p => { p with pllIdle := 100, gated := ((List.range 40)).map fun u => (64 + u, true), dieLevel := [(0,0), (1, 1)] }
def s2c : State := withDev sSeg fun d => d.setCtx 2 ctx2
def sFr (st : CtxState) : State := withDev sBx fun d => d.updCtx 1 fun c => { c with st := st }
def pgA : MapPage := ⟨0x10000000, false, .localMem, true, false, 300, 0, 0, 0⟩
def slPar (ds : List Nat) : SliceParams := ⟨false, ds, List.replicate 20 8, 1, 8, 1, false⟩
def qw (s : State) (code : Nat) : State := withMas s fun m => { m with queue := [(1, code), (2, 5)], button := true }
def setBlk (s : State) (b : Block) (k : Blk) : State := withDev s fun d => d.updBlk b fun _ => k
def evS (it : Item) : State := devm (withIt sT0 it) (2097152 + 64) [1,2,3,4,5,6,7,0xFF, 9] 1
def wrec : List Byte := [2] ++ List.replicate 11 0 ++ [9,0,0,0] ++ leBytes 8 0 ++ [1, 0] ++ List.replicate 22 0 ++ leBytes 8 64 ++ leBytes 4 3 ++ List.replicate 4 0
def kW : KBlock := { blk0 with mem := (List.range 64).foldl (fun t i => FMap.set 0 t (64 + i) (wrec.getD i 0)) [] }
def sW : State := withDev (withLines (withBlock fun _ => kW) []) fun d => { d with collie := { d.collie with cores := [(0, { CoreSt.reset with lines := [cl0] })] } }
def vR : VecArgs := ⟨.list 0 1 (u14 [5, 1, 2, 3, 4, 5, 6, 7]) rp0, vbd 0 3 1 2 3 1 2 0 2, false⟩
def sDraw : State := sVlc sVl (.randU32 vR) vR [5, 1, 2, 3, 4, 5, 6, 7]
def i109 : Item := stIt 0x60 3 0 3 20 5 [(0,8,1024),(48,8,8192),(56,8,12288),(88,8,16384)]
def s109 : State := (sSt i109)
def sLs (its : List Item) (f : VecEng → VecEng) (die k : Nat) : State := withDev (withIts sM its) fun d => ({ d with collie := Device.reset.collie }).updVe die k f
def lT (n : Nat) : List Byte := List.replicate 23 0 ++ [1] ++ List.replicate 31 0 ++ leBytes 4 n
def lIt (seq n cls : Nat) (ph : Phase) : Item := { itemOf seq 2 ph (lT n) with cls := cls }
def vEe : VecArgs := ⟨.list 0 1 (u14 [130]) rp0, vbd 0 4 1 2 0 0 0 0 0, false⟩
def itE : Item := { itemOf 5 2 .running (List.replicate 23 0 ++ [1] ++ List.replicate 23 0 ++ leBytes 8 0x100000 ++ [4]) with }
def sEe : State := sVlc (withDev (withIt sM itE) fun d => ({ d with collie := Device.reset.collie }).updVe 0 1 fun _ => { vEl with queue := [(1, 7)] }) (.vecFpAdd vEe) vEe [130]
def xEe : VecIn := { xL [130] vEe.body sEe with it := itE, eng := sEe.dev.vecEng 0 1 }
def sDl (it : Item) : State := withDev (sP it (reT [tlo it 0 0 1 1 0])) fun d => (d.updRe 0 1 fun r => { RowEng.reset with blk := on, queue := List.replicate 2 ⟨1,9,0,0,1,1,0,2⟩ }).updRe 1 3 fun r => { RowEng.reset with blk := on, bad := 7 }
def big (m n sp cls hdr : Nat) (dl : Deal) : Item := { prI 0 3 3 0 0 sp m n 40 .running fs1 with cls := cls, deal := dl, out := 3 }
def itDf : Item := { big 300 700 1 2 0 ⟨0,0,0,0,true⟩ with desc := (big 300 700 1 2 0 ⟨0,0,0,0,true⟩).desc.set 1 4 }
def wk (sp m n : Nat) : Item := { prI 0 3 3 0 0 sp m n 40 .dispatched (fs1 ++ [(0x48,8,16384)]) with seq := 2^32+3, issuedBy := some (0, 65536) }
def wkD (sp m n : Nat) : Item := { wk sp m n with phase := .running, blocks := 1 * 8 + 3, deal := ⟨0,0,0,0,true⟩ }
def sPool (pool : List (Nat × Nat × Nat)) (its : List Item) (f : Device → Device := id) : State := withDev (withIts sM its) fun d => f ({ d with collie := Device.reset.collie }.updSlice 0 fun x => { x with steal := pool })
def vict (f : RowEng → RowEng) (g : RowEng → RowEng) : State := sPool [(1,9,0)] [prA, { prA with seq := 6, cls := 0 }, { prA with seq := 7, cls := 2 }] fun d => ((d.updRe 0 0 fun r => f { r with stealIn := true, stealOut := true }).updRe 0 4 fun r => g { RowEng.reset with blk := on, stealOut := true }).updRe 0 3 fun r => { RowEng.reset with blk := on, stealOut := true, queue := [⟨1,7,0,0,1,1,0,3⟩] }
def tq : List Tile := [⟨1,6,0,0,1,1,0,1⟩, ⟨1,5,0,0,1,1,0,3⟩, ⟨1,5,0,0,1,1,0,3⟩, ⟨1,5,0,64,1,1,0,4⟩]
def y97 : Tile := tlo prF 0 0 2 3 0
def y98 : State := sP prF (reT [{ y97 with split := 0 }, y97])
def y99 : Item := prF
def y100 : Tile × Item := ((y98.dev.turning 0 0 (true, 0, 0)).getD (y97, y99))
def e1 := coef 0x2002010A 2 5 0x5000
def arr (s : State) (base : Nat) : State := [0,0x400,0x800,0xC00,0x1000,0x1400,0x1800,0x1C00].foldl (fun s o => devm s (2097152 + base + o) (((List.range 24).map fun i => (if o = 0x1C00 then 0x22 else 0x3F000000 + (i * 7919 + o * 31) % 0x00FFFFFF + (if i % 3 = 0 ∧ (o = 0 ∨ o = 0x1800) then 2^31 else 0))).flatMap (leBytes 4)) 1) s
def w0 : WSet := ⟨2097152 + 0x200, 0x200, 1, [32], 6, [⟨6, false, 0x1000, 0x1400, [32], [32]⟩, ⟨5, true, 0x5000, 0x5400, [32], [32]⟩]⟩
def sU (it : Item) (e0 e1 : List Byte) (st : List Byte) (runs : List Update) (hl : List (Nat × Nat × Nat)) : State :=
  keyAll (withDev (devm (devm (devm (arr (arr (withIts sM [it, { itemOf 6 1 .running [] with holds := hl }]) 0x1000) 0x5000) (2097152+0x100) st 1) (2097152+0x800) (e0 ++ e1) 1) (2097152 + 0x200) (recOf 128 [(0,8,6),(8,4,2),(0x40,8,6),(0x48,8,0),(0x50,8,5),(0x58,8,1)]) 1)
   fun d => { d with collie := Device.reset.collie, ups := { d.ups with blk := on, dir := [w0], runs := runs } })

/-! ### Words of JKF instructions, bit by bit (R192 to R194) -/

/-- R205, first example. -/
theorem test_decode_ffma : jkfDecode 3 0x1036814040A0C000 none =
    some (.fpFma ⟨3, some ⟨true, 2⟩, none, 0⟩ ⟨5, 1, 2, 0x83, 0, 0⟩) := by decide +kernel
/-- R205, second example. -/
theorem test_decode_uniform_add : jkfDecode 3 0x0008212130304200 (some 0x1000) =
    some (.intAdd ⟨3, none, some 0x1000, 0⟩ ⟨0x84, 0x84, 0xC0, 0xC1, 2, 0⟩) := by decide +kernel
/-- R194, R197. -/
theorem test_decode_compare : jkfDecode 3 0x2020180810290000 none =
    some (.predLt ⟨3, none, none, 0⟩ ⟨3, 1, 2, 1, 2, 1⟩) := by decide +kernel
/-- R194, R197. -/
theorem test_decode_pand : jkfDecode 3 0x2100194000000000 none = some (.pand ⟨3, none, none, 0⟩ ⟨3, 1, 2⟩) := by decide +kernel
/-- R194. -/
theorem test_decode_load : jkfDecode 3 0x30044261027FFFF8 none =
    some (.memLd ⟨3, some ⟨false, 1⟩, none, 0⟩ ⟨9, 0x84, 2, 1, 0x3FFFF8⟩ []) := by decide +kernel
/-- R194, R197. -/
theorem test_decode_cas : jkfDecode 3 0x407001A101C202A0 none =
    some (.atomCas ⟨3, none, none, 0⟩ ⟨6, 0x84, 7, 8, 2, 2, 1⟩) := by decide +kernel
/-- R194. -/
theorem test_decode_branch : jkfDecode 3 0x5007C00014000032 none =
    some (.bra ⟨3, some ⟨true, 7⟩, none, 0⟩ ⟨40, 50⟩) := by decide +kernel
/-- R194, R197. -/
theorem test_decode_exit : jkfDecode 3 0x5020000000000000 none = some (.exitThreads ⟨3, none, none, 0⟩) := by decide +kernel
/-- R194. -/
theorem test_decode_bar : jkfDecode 3 0x50302C0000000000 none = some (.bar ⟨3, none, none, 0⟩ 11) := by decide +kernel
/-- R194. -/
theorem test_decode_fence : jkfDecode 3 0x6000380000000000 none =
    some (.fence ⟨3, none, none, 0⟩ ⟨3, 2⟩ 0) := by decide +kernel
/-- R194. -/
theorem test_decode_engIssue : jkfDecode 3 0x700021A112000000 none =
    some (.engIssue ⟨3, none, none, 0⟩ ⟨0x86, 0x84, 1, 2⟩) := by decide +kernel
/-- R194, R198. -/
theorem test_decode_vadd : jkfDecode 3 0x81000848D2E1C100 none =
    some (.vecIntAdd ⟨.pack 3 Report.zero, ⟨2, 1, 2, 3, 4, 5, 6, 7, 1⟩, false⟩) := by decide +kernel
/-- R194. -/
theorem test_decode_movsr : jkfDecode 3 0x90000180C0000000 none =
    some (.movsr ⟨3, none, none, 0⟩ ⟨6, 3, 0⟩) := by decide +kernel
/-- R193: classes 0xA to 0xF are illegal. -/
theorem test_decode_refuses_class_ten : jkfDecode 3 0xA000000000000000 none = none := by decide +kernel
/-- R194: reserved bits must be 0. -/
theorem test_decode_refuses_exit_body : jkfDecode 3 0x5020000000000001 none = none := by decide +kernel
/-- R194. -/
theorem test_decode_refuses_bar_body : jkfDecode 3 0x5030020000000000 none = none := by decide +kernel
/-- R190. -/
theorem test_decode_refuses_vec_guard : jkfDecode 3 0x8104400000000000 none = none := by decide +kernel
/-- R189: x = 1 needs an immediate word. -/
theorem test_decode_refuses_missing_imm : jkfDecode 3 0x0008004080F04200 none = none := by decide +kernel
/-- R197: no operation 1. -/
theorem test_decode_refuses_flow_op_one : jkfDecode 3 0x5010000000000000 none = none := by decide +kernel

/-! ### Well-formedness: an ill-formed term for each check -/

def fault0 : FaultInfo := ⟨.translation, 0, 0, 0, 0, 0, 0, 0, 0, 0⟩
def peer0 : PeerReq := ⟨1, 0, 1, 64, 0, .read 8, 2, 0⟩
def frame0 : ZcFrame := ⟨0, 1, 0, 1, [(64, List.replicate 8 0)], [(128, List.replicate 32 0)], 256, 0, 2, 3⟩
def vecOf (die k n : Nat) (r : Report) : VecArgs := ⟨.list die k (List.replicate n 0) r, ⟨0, 0, 0, 0, 0, 0, 0, 0, 0⟩, false⟩
/-- A report of a code past the codes' 12 bits. -/
def badReport : Report := ⟨[(4096, 1)], 0, 0⟩

theorem test_wf_accepts : ([.ringEnable .mastiff 255, .dieCacheFlushDone 39, .stealAttempt 39 7, .packMove 39 15 Report.zero,
    .linkDown 5, .pinScanDone 15, .contextFault 255 [fault0], .vecFpAdd (vecOf 39 7 14 Report.zero),
    .peerRequestReceive 5 peer0, .zcFrameReceive 5 frame0] : List Instr).all Instr.wf = true := by decide +kernel
/-- R250, R2, R4, R297, R122: numbers of units past the last. -/
theorem test_wf_numbers : ([.ringEnable .mastiff 4096, .dieCacheFlushDone 40, .stealAttempt 39 8, .packMove 39 16 Report.zero,
    .linkDown 6, .pinScanDone 16, .hostMemAccess 64 0 (.read 8), .reelInstanceComplete 256, .msixMessage 4096,
    .patrolScrubRead (30 * 2 ^ 30) .clean, .barrierTimeout 0 16] : List Instr).any Instr.wf = false := by decide +kernel
theorem test_wf_reports : ([.tileStart 0 0 badReport, .zcCompress (.item 1 2 badReport), .zcCompress (.item 4096 2 Report.zero),
    .zcCompress (.pack 0 ⟨0, 0, 0, 0, 0, 0, 0, 0, 0⟩ badReport)] : List Instr).any Instr.wf = false := by decide +kernel
theorem test_wf_lists : ([vecOf 40 0 14 Report.zero, vecOf 0 8 14 Report.zero, vecOf 0 0 13 Report.zero, vecOf 0 0 14 badReport,
    ⟨.pack 0 badReport, ⟨0, 0, 0, 0, 0, 0, 0, 0, 0⟩, false⟩].any fun v => (Instr.vecFpAdd v).wf) = false := by decide +kernel
theorem test_wf_blocks : ([.re 40 0, .re 0 8, .ve 40, .txb 40, .collie 40, .dcache 40, .retr 40, .rng 40, .mem 20, .pport 6,
    .ring 4096, .slc 16] : List Block).any (fun b => (Instr.blockStarted b).wf) = false := by decide +kernel
theorem test_wf_units : ([.unitClockGate ⟨40, 0⟩, .unitClockGate ⟨0, 40⟩, .unitWakeDone (.unit ⟨0, 40⟩), .unitWakeDone (.die 40),
    .diePowerUpDone (.lane 40), .diePowerUpDone (.hub 0), .diePowerUpDone (.hub 4), .sensorUpdate (.junction 64) 0,
    .sensorUpdate (.eccCe 20) 0, .sensorUpdate (.eccUe 20) 0, .thermalSample [(64, 1)] none, .laneSelfTestDone [(320, 1)],
    .cb10Grant 0 [⟨16, 0, 1, 0⟩]] : List Instr).any Instr.wf = false := by decide +kernel
theorem test_wf_accesses : ([.registerWrite [⟨.mastiff, 2 ^ 24, 0, 4, 0⟩], .hostMemAccess 0 120 (.read 9),
    .hostMemAccess 0 127 (.write [0, 0])] : List Instr).any Instr.wf = false := by decide +kernel
theorem test_wf_atomics : ([⟨.add, .u32, 64, [], []⟩, ⟨.add, .u32, 64, List.replicate 33 0, []⟩, ⟨.add, .u64, 4, [0], []⟩].any
    fun r => (Instr.combinerAtomic 1 5 r).wf) = false := by decide +kernel
theorem test_wf_peers : ([{ peer0 with srcNode := 4096 }, { peer0 with dst := 4096 }, { peer0 with ctx := 4096 },
    { peer0 with srcCtx := 4096 }, { peer0 with vc := 2 }, { peer0 with op := .write [0], vc := 1 },
    { peer0 with va := 4, op := .atomic .add .u64 [0] [] }].any fun r => (Instr.peerRequestReceive 0 r).wf) = false := by
  decide +kernel
theorem test_wf_frames : ([{ frame0 with dst := 4096 }, { frame0 with ctx := 4096 }, { frame0 with masks := [(64, [0])] },
    { frame0 with vals := [(128, [0])] }, { frame0 with vc := 1 }].any fun f => (Instr.zcFrameReceive 0 f).wf) = false := by
  decide +kernel
theorem test_wf_links : ([.portHandshake 0 ⟨4096, 0, 0, 1⟩, .portHandshake 0 ⟨1, 6, 0, 1⟩, .flitReceive 0 ⟨0, true, 4, 0, [0, 0, 0, 0], 0⟩,
    .flitReceive 0 ⟨0, true, 0, 0, [0, 0, 0], 0⟩, .peerResponseReceive ⟨4096, 1⟩ 0 .done, .reelMessageReceive 0 (.downEntry 256)]
    : List Instr).any Instr.wf = false := by decide +kernel
theorem test_wf_faults : ([{ fault0 with source := 8 }, { fault0 with die := 64 }, { fault0 with lane := 32 }].any
    fun f => (Instr.contextFault 1 [f]).wf) = false := by decide +kernel

/-! ### Tables -/

/-- R68: 90 admissible patterns of a 4 by 4 tile. -/
theorem test_patterns : patterns.length = 90 := by decide +kernel

/-! ### What the invariants and the words need -/

/-- A step that answers. -/
theorem nextWhen {o : Host.Outcome State Fault Refusal} (h : (match o with | .next _ => true | _ => false) = true) :
    ∃ t, o = .next t := by
  cases o with
  | next t => exact ⟨t, rfl⟩
  | fault _ => cases h
  | refused _ => cases h

/-- An addition is in front. -/
def sStep : State := { sB with pending := [.intAdd iss ⟨5, 0, 1, 0xC1, 2, 0⟩] }

theorem test_hypotheses_FusesOnlyAdvance : ∃ s t : State, fusesLegal s.plat ∧ step s = .next t := by
  obtain ⟨t, h⟩ : ∃ t, step sStep = .next t := nextWhen (by decide +kernel)
  refine ⟨sStep, t, ⟨?_, by decide, by decide, by decide, ?_⟩, h⟩
  · intro l h; cases h
  · intro h; exact absurd h (by decide)
theorem test_hypotheses_MemoryStaysCanonicalAndCoherent : ∃ s t : State, memorySound s.dev ∧ step s = .next t := by
  obtain ⟨t, h⟩ : ∃ t, step sStep = .next t := nextWhen (by decide +kernel)
  exact ⟨sStep, t, ⟨by decide +kernel, ⟨by decide +kernel, by decide +kernel⟩, by unfold coreLinesWhole; decide +kernel⟩, h⟩
theorem test_hypotheses_ItemNumbersStayApart_1 : ∃ d : Device, itemsNumbered d :=
  ⟨sStep.dev, by unfold itemsNumbered; decide +kernel⟩
theorem test_hypotheses_ItemNumbersStayApart_0 : ∃ s t : State, itemsNumbered s.dev ∧
    (∀ c, (s.dev.ring c).nextSeq + 16 ≤ 2 ^ 32) ∧ step s = .next t := by
  obtain ⟨t, h⟩ : ∃ t, step sStep = .next t := nextWhen (by decide +kernel)
  refine ⟨sStep, t, by unfold itemsNumbered; decide +kernel, fun c => ?_, h⟩
  show (FMap.get Ring.reset [(1, ring1)] c).nextSeq + 16 ≤ 2 ^ 32
  unfold FMap.get
  split
  · decide
  · exact (by decide : (Ring.reset).nextSeq + 16 ≤ 2 ^ 32)
theorem test_hypotheses_InstructionWordsRoundTrip_0 : ∃ c : Instr, ∃ w : Dword, ∃ imm : Option Dword,
    ∃ p : Nat × Nat × Issue × BitVec 46, jkfParts c = some p ∧ jkfEncode c = some (w, imm) :=
  ⟨.fpFma ⟨3, some ⟨true, 2⟩, none, 0⟩ ⟨5, 1, 2, 0x83, 0, 0⟩, 0x1036814040A0C000, none,
    (1, 3, ⟨3, some ⟨true, 2⟩, none, 0⟩, (⟨5, 1, 2, 0x83, 0, 0⟩ : AluBody).bits), by decide +kernel, by decide +kernel⟩
theorem test_hypotheses_InstructionWordsRoundTrip_1 : ∃ pack : Nat, ∃ w : Dword, ∃ imm : Option Dword, ∃ c : Instr,
    jkfDecode pack w imm = some c :=
  ⟨3, 0x0008212130304200, some 0x1000, .intAdd ⟨3, none, some 0x1000, 0⟩ ⟨0x84, 0x84, 0xC0, 0xC1, 2, 0⟩, by decide +kernel⟩
theorem test_hypotheses_ResetLeavesTheResetValues_0 : ∃ e : Nat × Nat, e ∈ resetReads := ⟨(0x000000, 0x21), by decide +kernel⟩
theorem test_hypotheses_ResetLeavesTheResetValues_1 : ∃ die k : Nat, ∃ e : (Block × Nat) × Nat, e ∈ resetDie die k :=
  ⟨39, 7, _, List.mem_of_getElem? (i := 0) rfl⟩
/-- The queue is empty after reset, and memory has its canonical form. -/
theorem test_reset_queue : State.reset.pending = [] := rfl
theorem test_reset_memory : Memory.wf State.reset.dev.mem := by decide +kernel

/-! ### Witnesses: a state and operands that meet what a statement, or a clause of it, supposes -/

theorem test_hypotheses_FencesWriteBackAndInvalidate_1 : ∃ i : Issue, ∃ b : SyncBody, ∃ w : Nat, ∃ s : State, ∃ k : KBlock, ∃ x : Pack,
    ∃ it : Item, (issues s (.fence i b w) i k x it) ∧ (b.kind ≠ 3) ∧ (i.imm = none) ∧ (i.guard = none) ∧ (2 ≤ b.scope.toNat) ∧
    (coreSound s.dev k.die k.core) ∧ (it.phase ≠ .done) ∧
    (b.scope = 3 → b.kind ≠ 0 → ∀ o ∈ s.dev.ports.out, o.write = true → (∀ l, o.use ≠ .packStore i.pack l) ∧
    ∀ ls dst f, o.use ≠ .atom i.pack ls dst f) :=
  ⟨iss, ⟨2,1⟩, 0, (fit (.fence iss ⟨2,1⟩ 0) sB), blk0, pack0, it5, by unfold issues; decide +kernel, by decide +kernel,
    by decide +kernel, by decide +kernel, by decide +kernel, coreSoundWhen (by decide +kernel), by decide +kernel,
    by intro h; exact absurd h (by decide)⟩

theorem test_hypotheses_IntegerInstructionsComputeTheirResults_0 : ∃ c : Instr, ∃ i : Issue, ∃ b : AluBody, ∃ o : AluOp,
    ∃ f : Bool → Bool → Word → Word → Option Word, (intWords c = some (i, b, o, f)) ∧ ∃ s : State, ∃ k : KBlock, ∃ x : Pack,
    ∃ it : Item, (issues s c i k x it) ∧ (aluOk o k.tregs i b = true) ∧ (b.fmt ≠ 0x0F) :=
  ⟨(.intAdd iss (ab 6 0 1 0xC1 1 0)), iss, (ab 6 0 1 0xC1 1 0), _, _, rfl, (fit ((.intAdd iss (ab 6 0 1 0xC1 1 0))) sB),
    blk0, pack0, it5, by unfold issues; decide +kernel, by decide +kernel, by decide +kernel⟩

theorem test_hypotheses_IntegerInstructionsComputeTheirResults_1 : ∃ c : Instr, ∃ i : Issue, ∃ b : AluBody, ∃ o : AluOp,
    ∃ f : Bool → Dword → Dword → Option Dword, (intPairs c = some (i, b, o, f)) ∧ ∃ s : State, ∃ k : KBlock, ∃ x : Pack,
    ∃ it : Item, (issues s c i k x it) ∧ (aluOk o k.tregs i b = true) ∧ (b.fmt = 0x0F) :=
  ⟨(.intAdd issI (ab 4 192 4 0xC1 15 0)), issI, (ab 4 192 4 0xC1 15 0), _, _, (rfl),
    (fit ((.intAdd issI (ab 4 192 4 0xC1 15 0))) sB), blk0, pack0, it5, by unfold issues; decide +kernel, by decide +kernel,
    by decide +kernel⟩

theorem test_hypotheses_FencesWriteBackAndInvalidate_0 : ∃ i : Issue, ∃ b : SyncBody, ∃ w : Nat, ∃ s : State, ∃ k : KBlock, ∃ x : Pack,
    ∃ it : Item, (issues s (.fence i b w) i k x it) ∧ (b.kind ≠ 3) ∧ (i.imm = none) ∧ (i.guard = none) ∧ (b.scope.toNat ≤ 1) :=
  ⟨iss, ⟨1, 2⟩, 5, (fit (.fence iss ⟨1, 2⟩ 5) sC), blk0, pack0, it5, by unfold issues; decide +kernel, by decide +kernel,
    by decide +kernel, by decide +kernel, by decide +kernel⟩

theorem test_hypotheses_GrantsStayWithinTheBudget_ : ∃ s : State, ∃ demands drawn : List (Nat × Nat), (s.plat.pow.stage = .ready) :=
  ⟨
    (withDev sBx fun d => { d with eng := { d.eng with slices := d.eng.slices ++ [(3, { slice0 with dies := [4, 5, 7] })] } }),
    ([(0, 200000), (1, 250000), (4, 100500), (5, 99999), (7, 7)]), ([(0,1)]), by decide +kernel⟩

theorem test_hypotheses_DoorbellsMoveTheRingIndices_0 : ∃ s : State, ∃ c : Nat, ∃ v : Word,
      let g := s.dev.ring c
      (bellsOpen s.plat s.dev c = true) ∧ (v.toNat < g.sqSize) ∧
      ((g.sqTail + g.sqSize - g.sqHead) % g.sqSize ≤ (v.toNat + g.sqSize - g.sqHead) % g.sqSize) :=
  ⟨(bell sT0), 1, 1, by decide +kernel, by decide +kernel, by decide +kernel⟩

theorem test_hypotheses_DoorbellsMoveTheRingIndices_1 : ∃ s : State, ∃ c : Nat, ∃ v : Word,
      let g := s.dev.ring c
      (bellsOpen s.plat s.dev c = true) ∧ (v.toNat < g.cqSize) ∧
      ((v.toNat + g.cqSize - g.cqHead) % g.cqSize ≤ (g.cqTail + g.cqSize - g.cqHead) % g.cqSize) ∧ (v.toNat < 65536) :=
  ⟨(withDev sT0 fun d => d.updRing 1 fun g => {g with cqTail := 5, cqHead := 1}), 1, 1, by decide +kernel, by decide +kernel,
    by decide +kernel, by decide +kernel⟩

theorem test_hypotheses_DoorbellsMoveTheRingIndices_2 : ∃ s : State, ∃ c : Nat, ∃ v : Word,
    ∃ x : Instr, ((bellsOpen s.plat s.dev c = false ∧
    (x = .sqTailWrite c v [] ∨ x = .cqHeadWrite c v)) ∨ (x = .sqTailWrite c v [] ∧
    (s.dev.ring c).sqSize ≤ v.toNat) ∨ (∃ off n, x = .doorbellPageOtherWrite c off n ∧ ¬(n = 4 ∧ (off = 0 ∨ off = 8)))) :=
  ⟨sT0, 1, 0x200, (.sqTailWrite 1 0x200 []), Or.inr (Or.inl ⟨rfl, by decide +kernel⟩)⟩

theorem test_hypotheses_FloatInstructionsComputeWords : ∃ c : Instr, ∃ i : Issue, ∃ b : AluBody, ∃ o : AluOp,
    ∃ f : Nat → Nat → Word → Word → Word → Word, (fpWords c = some (i, b, o, f)) ∧ ∃ s : State, ∃ k : KBlock, ∃ x : Pack,
    ∃ it : Item, (issues s c i k x it) ∧ (aluOk o k.tregs i b = true) :=
  ⟨(.fpAdd iss (ab 6 2 3 0xC1 0 0)), iss, (ab 6 2 3 0xC1 0 0), _, _, rfl, (fit ((.fpAdd iss (ab 6 2 3 0xC1 0 0))) sB), blk0,
    pack0, it5, by unfold issues; decide +kernel, by decide +kernel⟩

theorem test_hypotheses_ComparesAndPredicateLogicSetPredicates_1_1 : ∃ c : Instr, ∃ i : Issue, ∃ b : PlogBody,
    ∃ f : Bool → Bool → Bool, (plogRows c = some (i, b, f)) ∧ ∃ s : State, ∃ k : KBlock, ∃ x : Pack,
    ∃ it : Item, (issues s c i k x it) ∧ (i.imm = none) :=
  ⟨(.pand iss ⟨3,1,2⟩), iss, ⟨3,1,2⟩, _, rfl, (fit ((.pand iss ⟨3,1,2⟩)) sB), blk0, pack0, it5,
    by unfold issues; decide +kernel, by decide +kernel⟩

theorem test_hypotheses_StoresToBlockMemory : ∃ i : Issue, ∃ b : MemBody, ∃ ev : List Nat, ∃ s : State, ∃ k : KBlock, ∃ x : Pack,
    ∃ it : Item, (issues s (.memSt i b ev) i k x it) ∧ (memOk false k.tregs i b = true) ∧ (b.space = 1) ∧
    (∀ l ∈ x.lanes (memFields false i b) i.guard, innerOk i b x k.memLen l) :=
  ⟨iss, (mb 2 4 2 1 0), ([]), (fit (.memSt iss (mb 2 4 2 1 0) ([])) sB), blk0, pack0, it5, by unfold issues; decide +kernel,
    by decide +kernel, by decide +kernel, by unfold innerOk; decide +kernel⟩

theorem test_hypotheses_BranchRowsOfTheMaskStack_0 : ∃ i : Issue, ∃ b : BraBody, ∃ s : State, ∃ k : KBlock, ∃ x : Pack,
    ∃ it : Item, (issues s (.bra i b) i k x it) ∧ (i.imm = none) ∧ (
      let tk := x.passing i.guard
      let fall := x.mask &&& ~~~tk
      let top := (x.stack.head?.map Frame.recon) == some b.recon.toNat
      ∃ y : Pack, ((tk = 0 ∧ y = { x with pc := x.pc + 1 }) ∨ (tk ≠ 0 ∧ fall = 0 ∧
      y = { x with pc := b.target.toNat }) ∨ (tk ≠ 0 ∧ fall ≠ 0 ∧ top = true ∧ b.target.toNat = b.recon.toNat ∧
      y = { x with mask := fall, pc := x.pc + 1 }) ∨ (tk ≠ 0 ∧ fall ≠ 0 ∧ top = true ∧ b.target.toNat ≠ b.recon.toNat ∧
      x.pc + 1 = b.recon.toNat ∧ y = { x with mask := tk, pc := b.target.toNat }) ∨ (tk ≠ 0 ∧ fall ≠ 0 ∧ ¬(top = true ∧
      (b.target.toNat = b.recon.toNat ∨ x.pc + 1 = b.recon.toNat)) ∧ x.stack.length < 32 ∧
      y = { x with stack := ⟨b.recon.toNat, x.mask, b.target.toNat, tk⟩ :: x.stack, mask := fall, pc := x.pc + 1 }))) :=
  ⟨issG, ⟨40,50⟩, (fit (.bra issG ⟨40,50⟩) sB), blk0, pack0, it5, by unfold issues; decide +kernel, by decide +kernel,
    ({ pack0 with stack := ⟨50, 0xFFFFFFFF, 40, 0xFFFF⟩ :: pack0.stack, mask := 0xFFFF0000, pc := 11 }),
    by refine Or.inr (Or.inr (Or.inr (Or.inr ?_))); decide +kernel⟩

theorem test_hypotheses_BranchRowsOfTheMaskStack_1 : ∃ i : Issue, ∃ b : BraBody, ∃ s : State, ∃ k : KBlock, ∃ x : Pack,
    ∃ it : Item, (issues s (.bra i b) i k x it) ∧ (i.imm = none) ∧ (
      let tk := x.passing i.guard
      let fall := x.mask &&& ~~~tk
      let top := (x.stack.head?.map Frame.recon) == some b.recon.toNat
      (tk ≠ 0) ∧ (fall ≠ 0) ∧ (¬(top = true ∧ (b.target.toNat = b.recon.toNat ∨ x.pc + 1 = b.recon.toNat))) ∧
      (32 ≤ x.stack.length) ∧ ((s.dev.ctx k.ctx).st = .opened)) :=
  ⟨issG, ⟨40,50⟩, (fit (.bra issG ⟨40,50⟩) (withPack fun x => { x with stack := List.replicate 32 ⟨60, 0xFFFFFFFF, 7, 1⟩ })),
    blk0, ({ pack0 with stack := List.replicate 32 ⟨60, 0xFFFFFFFF, 7, 1⟩ }), it5, by unfold issues; decide +kernel,
    by decide +kernel, by decide +kernel, by decide +kernel, by decide +kernel, by decide +kernel, by decide +kernel⟩

theorem test_hypotheses_ThreadsExitAndMeetAtBarriers_0_1 : ∃ i : Issue, ∃ s : State, ∃ k : KBlock, ∃ x : Pack,
    ∃ it : Item, (s.dev.issuer s.plat i = some (k, x, it)) ∧ (i.imm = none) ∧ (
      let ls := x.passing i.guard
      ∃ id : BitVec 4, (ls = 0) ∧ (s.dev.atCode (.bar i id) = true)) :=
  ⟨⟨0, some ⟨false, 5⟩, none, 0⟩, (fit (.bar ⟨0, some ⟨false, 5⟩, none, 0⟩ 3) sB), blk0, pack0, it5, by decide +kernel,
    by decide +kernel, 3, by decide +kernel, by decide +kernel⟩

theorem test_hypotheses_ThreadsExitAndMeetAtBarriers_0_2 : ∃ i : Issue, ∃ s : State, ∃ k : KBlock, ∃ x : Pack,
    ∃ it : Item, (s.dev.issuer s.plat i = some (k, x, it)) ∧ (i.imm = none) ∧ (
      let ls := x.passing i.guard
      ∃ id : BitVec 4, (ls ≠ 0) ∧ (s.dev.atCode (.bar i id) = true)) :=
  ⟨issG, (fit (.bar issG 3) sB), blk0, pack0, it5, by decide +kernel, by decide +kernel, 3, by decide +kernel,
    by decide +kernel⟩

theorem test_hypotheses_ThreadsExitAndMeetAtBarriers_1_1 : ∃ s : State, ∃ b id : Nat, ∃ k : KBlock, ∃ x : Barrier,
    ∃ i l : Nat, (s.dev.block b = some k) ∧ (k.bars.find? (fun x => x.id == id) = some x) ∧ (2 ^ 22 ≤ x.cycles) ∧
    (s.dev.missing b id k = some (i, l)) ∧ ((s.dev.ctx k.ctx).st = .opened) :=
  ⟨(withBlock fun k => { k with bars := [⟨3, 2 ^ 22⟩] }), 0, 3, ({ blk0 with bars := [⟨3, 2 ^ 22⟩] }), ⟨3, 2 ^ 22⟩, 0, 0,
    by decide +kernel, by decide +kernel, by decide +kernel, by decide +kernel, by decide +kernel⟩

theorem test_hypotheses_WarmResetsBeginAndAreHeld_0_3 : ∃ s : State, (s.plat.pow.stage = .ready) ∧ (s.plat.pow.alwaysOn = true) ∧
    ∃ i : TapInstr, (i = .extest ∨ i = .clamp ∨ i = .highz) :=
  ⟨sB, by decide +kernel, by decide +kernel, .clamp, by decide +kernel⟩

theorem test_hypotheses_SleepGatingAndWake_4 : ∃ s : State, ∃ die i : Nat, (FMap.get 3 s.plat.pow.dieLevel die = 2) ∧
    (s.dev.sliceOf die = some i) ∧ (∃ y ∈ s.dev.hub.items, y.slice = i ∧ (y.phase = .dispatched ∨ y.phase = .running)) :=
  ⟨(withPow sB fun p => { p with dieLevel := [(0, 0), (1, 2)] }), 1, 0, by decide +kernel, by decide +kernel,
    (⟨itemOf 5 3 .running [], by decide +kernel, by decide +kernel, Or.inr (by decide +kernel)⟩)⟩

theorem test_hypotheses_TheManagementPortAnswers_4 : ∃ s : State, ∃ key : Nat, (s.plat.pow.mastiffUp = true) ∧
    (s.plat.fuses.deviceKey = some key) :=
  ⟨(withFuses sBx fun f => { f with deviceKey := some 5 }), 5, by decide +kernel, by decide +kernel⟩

theorem test_hypotheses_TheManagementPortAnswers_12_0 : ∃ s : State, ∃ sid code : Nat, (s.plat.pow.mastiffUp = true) ∧
    (listedCode code = true) ∧ (
      let room := if s.plat.mas.running.isSome then 8 else 9
      (s.plat.mas.queue.length < room)) :=
  ⟨(withMas sBx fun m => { m with queue := List.replicate 8 (1, 5) }), 1, 0x41, by decide +kernel, by decide +kernel,
    by decide +kernel⟩

theorem test_hypotheses_TheManagementPortAnswers_12_1 : ∃ s : State, ∃ sid code : Nat, (s.plat.pow.mastiffUp = true) ∧
    (listedCode code = true) ∧ (
      let room := if s.plat.mas.running.isSome then 8 else 9
      (room ≤ s.plat.mas.queue.length)) :=
  ⟨(withMas sBx fun m => { m with queue := List.replicate 9 (1, 5) }), 1, 0x41, by decide +kernel, by decide +kernel,
    by decide +kernel⟩

theorem test_hypotheses_EnablesMoveBlocksOrAreRejected_0_7 : ∃ s : State, ∃ who : Requester, ∃ p : Nat, (p < 6) ∧
    ((s.dev.port p).blk.st = .off) ∧ (s.plat.fuses.life ≠ .decommissioned) :=
  ⟨sR, .mastiff, 5, by decide +kernel, by decide +kernel, by decide +kernel⟩

theorem test_hypotheses_EnablesMoveBlocksOrAreRejected_1_3 : ∃ s : State, ∃ who : Requester, ∃ b : Block, (blockExists b = true) ∧
    ∃ c : Nat, (b = .ring c) ∧ ((s.dev.ring c).blk.st ≠ .stopping) ∧ ((s.dev.ctx c).st ≠ .frozen) ∧
    ((s.dev.ctx c).st ≠ .opened) :=
  ⟨sR, .mastiff, (.ring 9), by decide +kernel, 9, by decide +kernel, by decide +kernel, by decide +kernel, by decide +kernel⟩

theorem test_hypotheses_RegisterWritesCombineThroughAliases_4 : ∃ s : State, ∃ who : Requester, ∃ off : Nat, ∃ v : Word, ∃ n : Nat,
    ∃ hi : Word, (0x10030 ≤ off) ∧ (off ≤ 0x10080) ∧ (n ≠ 4) ∧ (¬(n = 8 ∧ off % 8 = 0)) :=
  ⟨sB, .mastiff, 0x10080, 7, 2, 0, by decide +kernel, by decide +kernel, by decide +kernel, by decide +kernel⟩

theorem test_hypotheses_RegisterWritesCombineThroughAliases_6 : ∃ s : State, ∃ who : Requester, ∃ off : Nat, ∃ v hi : Word, (off % 8 = 0) :=
  ⟨sB, .mastiff, 0x30, 7, 9, by decide +kernel⟩

theorem test_hypotheses_DescriptorsAreFetchedAndChecked_1_0 : ∃ s : State, ∃ c : Nat,
      let g := s.dev.ring c
      let desc := (List.range 64).map fun i => s.dev.mem.hostByte (g.sqBase + 64 * g.sqHead + i)
      let it := newItem c g.nextSeq ((s.dev.ctx c).sliceFor (field desc 1 1 % 4)) desc (g.bellOf g.nextSeq s.plat.pow.time)
      (s.dev.fetchNext = some c) ∧ ((g.sqHead + 1) % g.sqSize = g.sqTail) ∧ ∃ ns : Nat, (s.dev.entryFault c desc = none) ∧
      (bitOf (field desc 1 1) 2 = false) ∧ (field desc 0 1 ≠ 4) ∧ (field desc 0 1 ≠ 8) ∧ (g.deferFails = []) :=
  ⟨(bell (host sT0 4194304 (leBytes 1 0 ++ dsc 0 0 [] 5 []))), 1, by decide +kernel, by decide +kernel, 2000,
    by decide +kernel, by decide +kernel, by decide +kernel, by decide +kernel, by decide +kernel⟩

theorem test_hypotheses_DescriptorsAreFetchedAndChecked_1_1 : ∃ s : State, ∃ c : Nat,
      let g := s.dev.ring c
      let desc := (List.range 64).map fun i => s.dev.mem.hostByte (g.sqBase + 64 * g.sqHead + i)
      let it := newItem c g.nextSeq ((s.dev.ctx c).sliceFor (field desc 1 1 % 4)) desc (g.bellOf g.nextSeq s.plat.pow.time)
      (s.dev.fetchNext = some c) ∧ ((g.sqHead + 1) % g.sqSize = g.sqTail) ∧ ∃ ns : Nat,
      ∃ f : FaultCode, (s.dev.entryFault c desc = some f) :=
  ⟨(bell (host sT0 4194304 (leBytes 1 9 ++ dsc 0 0 [] 5 []))), 1, by decide +kernel, by decide +kernel, 2000, _, rfl⟩

theorem test_hypotheses_CompletionsAreWrittenAndInterruptsSent_1_1 : ∃ s : State, ∃ v : Nat, ∃ (x : Word), ∃ r : Nat, (v < 4096) ∧ (r < 4) :=
  ⟨sB, 4095, 0, 3, by decide +kernel, by decide +kernel⟩

theorem test_hypotheses_FillsDeliverLinesAndTheHostTakesThemBack_0_2 : ∃ s : State, ∃ die line : Nat, ∃ x : Miss,
    ∃ lo hi : Ecc, (line < 16106127360) ∧ (s.dev.mem.misses = [x]) ∧ (x.die = die) ∧ (x.line = line) ∧ (x.pref = true) ∧
    (x.waiters = []) ∧ (x.discard = false) ∧ (x.unit < 16 ∨ (s.dev.die die).l1En = false) ∧ ((s.dev.die die).dcEn = true) ∧
    (lo ≠ .uncorrectable) ∧ (hi ≠ .uncorrectable) ∧ (∀ y ∈ s.dev.mem.lines, y.host = false → y.line ≠ line) ∧
    (FMap.get false s.dev.mem.bad (2 * line) = false) ∧ (FMap.get false s.dev.mem.bad (2 * line + 1) = false) :=
  ⟨(sFl true []), 0, L0, (ms 0 L0 [] true), .clean, .clean, by decide +kernel, by decide +kernel, by decide +kernel,
    by decide +kernel, by decide +kernel, by decide +kernel, by decide +kernel, by decide +kernel, by decide +kernel,
    by decide +kernel, by decide +kernel, by decide +kernel, by decide +kernel, by decide +kernel⟩

theorem test_hypotheses_FillsDeliverLinesAndTheHostTakesThemBack_0_4 : ∃ s : State, ∃ die line : Nat,
    ∃ lo hi e : Ecc, (16106127360 ≤ line) :=
  ⟨sM, 0, (2 ^ 45), .clean, .clean, .clean, by decide +kernel⟩

theorem test_hypotheses_FillsDeliverLinesAndTheHostTakesThemBack_0_4_0 : ∃ s : State, ∃ die line : Nat,
    ∃ lo hi e : Ecc, (16106127360 ≤ line) ∧ (line < 2 ^ 45) :=
  ⟨sM, 0, 16106127360, .clean, .clean, .clean, by decide +kernel, by decide +kernel⟩

theorem test_hypotheses_WorkIsStarted_0_0 : ∃ s : State, ∃ c q : Nat, ∃ it : Item, ∃ x : Xlat, (s.dev.item c q = some it) ∧ (it.typ = 3) ∧
    (it.isWork = false) ∧ (it.phase = .dispatched) ∧ (s.dev.deferWait it = false) ∧ (s.dev.xlatOf it = some x) ∧
    ∃ bs : List Byte, (s.dev.everFits it x = true) ∧ (sound s) ∧ (wholeLines s.dev.mem) ∧
    (s.dev.readBytes ⟨c, q, none, none⟩ 128 (field it.desc 0x18 8) = .ok bs) :=
  ⟨(sX (kx .dispatched 5 1) xl0), 1, 5, (kx .dispatched 5 1), xl0, by decide +kernel, by decide +kernel, by decide +kernel,
    by decide +kernel, by decide +kernel, by decide +kernel,
    (okOf ((sX (kx .dispatched 5 1) xl0).dev.readBytes ⟨1, 5, none, none⟩ 128 (field (kx .dispatched 5 1).desc 0x18 8))),
    by decide +kernel, soundWhen (by decide +kernel), by unfold wholeLines; decide +kernel, (okOfWhen (by decide +kernel))⟩

theorem test_hypotheses_WorkIsStarted_1_2 : ∃ s : State, ∃ c q : Nat, ∃ it : Item, ∃ h : List Byte, (s.dev.item c q = some it) ∧
    (it.typ = 3) ∧ (it.phase = .fetched) ∧ (it.waitAt.isSome = true) ∧ (sound s) ∧ (wholeLines s.dev.mem) ∧
    (s.dev.readBytes ⟨c, q, none, none⟩ 64 it.addr0 = .ok h) ∧ ∃ img : List Byte, ∃ pc : Nat, ((s.dev.ctx c).st = .opened) ∧
    (imgHeaderOk h = true) ∧ (s.dev.readBytes ⟨c, q, none, none⟩ (imgBytes h) it.addr0 = .ok img) ∧ (imgFault img = some pc) :=
  ⟨(sImg [wf (kx .fetched 5 1) 100, kx .running 9 1, wf (kx .fetched 6 1) 400] (img1.set 65 9)), 1, 5,
    (wf (kx .fetched 5 1) 100), ((img1.set 65 9).take 64), by decide +kernel, by decide +kernel, by decide +kernel,
    by decide +kernel, soundWhen (by decide +kernel), by unfold wholeLines; decide +kernel, by decide +kernel,
    (img1.set 65 9), ((imgFault (img1.set 65 9)).getD 0), by decide +kernel, by decide +kernel, by decide +kernel,
    by decide +kernel⟩

theorem test_hypotheses_ReelInstancesRun_0 : ∃ s : State, ∃ c q : Nat, ∃ it : Item, ∃ op n : Nat, ∃ bs : List Byte,
    ∃ x : Instr, (startable s c q 8 it) ∧ (field it.desc 0x10 1 = op) ∧ ((x = Instr.reelBarrier c q ∧ op = 0 ∧
    n = 0) ∨ (x = .reelBroadcast c q ∧ op = 1 ∧
    n = if field it.desc 0x14 2 = it.shard then field it.desc 0x16 2 else 0) ∨ (x = .reelReduce c q ∧ op = 2 ∧
    n = 4 * field it.desc 0x16 2)) ∧ (sound s) ∧ (wholeLines s.dev.mem) ∧
    (s.dev.readBytes ⟨c, q, none, none⟩ n (field it.desc 0x18 8) = .ok bs) :=
  ⟨(sRl [rb0] (gp 3 2 2)), 1, 5, rb0, 0, 0, ([]), (.reelBarrier 1 5),
    by unfold startable; unfold numbersApart; decide +kernel, by decide +kernel, by decide +kernel,
    by intro h; exact (by decide : (0:Nat) ≠ 2), by unfold wholeLines; decide +kernel, by decide +kernel⟩

theorem test_hypotheses_ReelInstancesRun_1_0 : ∃ s : State, ∃ c q : Nat, ∃ it : Item, ∃ g sh : Nat, (reelOn s) ∧
    (s.dev.item c q = some it) ∧ (it.group = some (g, sh)) ∧ (s.dev.mayArrive it = true) ∧ (
      let x := s.dev.group g
      let a : Arrival := ⟨sh, c, q, it.reelParams, s.dev.reelValues it,
        if it.typ = 8 ∧ field it.desc 0x10 1 = 1 then it.oprec else []⟩
      let y := { x with arrived := x.arrived ++ [a] }
      (∃ i, i < x.count.toNat ∧ shardOf y (x.base.toNat + i) = none)) :=
  ⟨(sNr (gp 3 2 2)), 1, 5, (nI .running), 3, 2, by unfold reelOn; decide +kernel, by decide +kernel, by decide +kernel,
    by decide +kernel, by decide +kernel⟩

theorem test_hypotheses_ReelInstancesRun_1_1 : ∃ s : State, ∃ c q : Nat, ∃ it : Item, ∃ g sh : Nat, (reelOn s) ∧
    (s.dev.item c q = some it) ∧ (it.group = some (g, sh)) ∧ (s.dev.mayArrive it = true) ∧ (
      let x := s.dev.group g
      let a : Arrival := ⟨sh, c, q, it.reelParams, s.dev.reelValues it,
        if it.typ = 8 ∧ field it.desc 0x10 1 = 1 then it.oprec else []⟩
      let y := { x with arrived := x.arrived ++ [a] }
      ∃ (z : Nat → Arrival), (x.childPorts = []) ∧ (x.parent = 0xF) ∧ (x.total.toNat = x.count.toNat) ∧ (0 < x.count.toNat) ∧
      (x.down = none) ∧ (x.sentUp = false) ∧ (∀ i, i < x.count.toNat → shardOf y (x.base.toNat + i) = some (z i))) :=
  ⟨s2c1, 1, 5, ra1, 3, 2, by unfold reelOn; decide +kernel, by decide +kernel, by decide +kernel, by decide +kernel,
    (zA s2c1 (aOf s2c1 ra1) 2), by decide +kernel, by decide +kernel, by decide +kernel, by decide +kernel, by decide +kernel,
    by decide +kernel, by decide +kernel⟩

theorem test_hypotheses_ReelInstancesRun_2 : ∃ s : State, ∃ g : Nat, ∃ dn : Down, ∃ key : Nat, ∃ (o : Outs), ∃ (pa : Arrival → Nat),
    ∃ (its : Arrival → Item), (reelOn s) ∧ (sound s) ∧ (coherent s.dev.mem) ∧ (
      let x := s.dev.group g
      (x.en = true) ∧ (x.down = some dn) ∧ (dn.bad = none) ∧ (0 < x.count.toNat) ∧
      (x.shards.Pairwise (fun a b => ¬(a.ctx = b.ctx ∧ a.seq = b.seq))) ∧
      (∀ a ∈ x.shards, s.dev.item a.ctx a.seq = some (its a) ∧ (its a).typ = 8 ∧ a.ctx = x.owner.toNat) ∧
      (o = x.shards.map (fun a => (field (its a).desc 0x20 8, pa a, if a.params.op = 2 then dn.values.flatMap fun w => leBytes 4 w.toNat else if a.params.op = 1 then dn.bytes else []))) ∧
      (outsAt s x.owner.toNat key o)) :=
  ⟨sDn1, 3, dn1, 1, (outF sDn1 3 dn1), (paF sDn1), (itsF sDn1), by unfold reelOn; decide +kernel,
    by intro h; exact (by decide : (0:Nat) ≠ 2), by unfold coherent; decide +kernel, by decide +kernel, by decide +kernel,
    by decide +kernel, by decide +kernel, by decide +kernel, by decide +kernel, by decide +kernel,
    by unfold outsAt; unfold spanAt; decide +kernel⟩

theorem test_hypotheses_ReelInstancesRun_3 : ∃ s : State, ∃ g : Nat, ∃ dn : Down, ∃ b : Nat, ∃ a : Arrival, ∃ it : Item, (reelOn s) ∧
    (numbersApart s.dev) ∧ (s.dev.ups.runs = []) ∧ (
      let x := s.dev.group g
      (x.down = some dn) ∧ (dn.bad = some b) ∧ (x.shards = [a]) ∧ (0 < x.count.toNat) ∧ (s.dev.item a.ctx a.seq = some it) ∧
      (it.err = none) ∧ (it.isWork = false)) :=
  ⟨sDn4, 3, dnB, 7, (av 2 5 2 0 2 0 [1, 2]), (ra2 2), by unfold reelOn; decide +kernel,
    by unfold numbersApart; decide +kernel, by decide +kernel, by decide +kernel, by decide +kernel, by decide +kernel,
    by decide +kernel, by decide +kernel, by decide +kernel, by decide +kernel⟩

theorem test_hypotheses_ReelInstancesRun_4 : ∃ s : State, ∃ g : Nat, ∃ dn : Down, ∃ a : Arrival, ∃ it : Item, ∃ r : Update, (reelOn s) ∧ (
      let x := s.dev.group g
      (x.down = some dn) ∧ (dn.bad = none) ∧ (x.shards = [a]) ∧ (0 < x.count.toNat) ∧ (s.dev.item a.ctx a.seq = some it) ∧
      (it.typ = 4) ∧ (s.dev.runOf a.ctx a.seq = some r)) :=
  ⟨(sDn5 0x3E800000 true), 3, ⟨[0x3E800000], [], none⟩, (av 2 5 2 0 1 0 [1]), (nI .running), ({ nRun with skip := true }),
    by unfold reelOn; decide +kernel, by decide +kernel, by decide +kernel, by decide +kernel, by decide +kernel,
    by decide +kernel, by decide +kernel, by decide +kernel⟩

theorem test_hypotheses_ReelAbortsAndMessages_0 : ∃ s : State, ∃ g sh i : Nat, ∃ ps : ReelParams, (reelOn s) ∧ (numbersApart s.dev) ∧
    (s.dev.ups.runs = []) ∧ (
      let x := s.dev.group g
      (x.en = true) ∧ (x.gst ≠ .down) ∧ (x.skipped.contains i = false) ∧ (x.inst ≤ i) ∧
      (x.aborting.find? (fun a => a.2.1 == sh && decide (x.inst ≤ a.1) && !x.skipped.contains a.1) = some (i, sh, ps))) :=
  ⟨(sAb 4), 3, 2, 4, ⟨2, 0, 2, 0⟩, by unfold reelOn; decide +kernel, by unfold numbersApart; decide +kernel,
    by decide +kernel, by decide +kernel, by decide +kernel, by decide +kernel, by decide +kernel, by decide +kernel⟩

theorem test_hypotheses_ReelAbortsAndMessages_1 : ∃ s : State, ∃ p : Nat, ∃ m : ReelMsg, (s.dev.reel.blk.st ≠ .on) ∧
    (s.dev.carries p = true) :=
  ⟨(withDev (sAb 4) fun d => { d with reel := { d.reel with blk := ⟨.starting, true, false⟩ } }), 2, .freeze,
    by decide +kernel, by decide +kernel⟩

theorem test_hypotheses_ReelAbortsAndMessages_2 : ∃ s : State, ∃ p : Nat, ∃ m : ReelMsg, (reelOn s ∨ s.dev.reel.blk.st ≠ .on) ∧
    (s.dev.carries p = false) :=
  ⟨(sAb 4), 4, .freeze, by unfold reelOn; decide +kernel, by decide +kernel⟩

theorem test_hypotheses_ReelAbortsAndMessages_3_0 : ∃ s : State, ∃ p : Nat, (reelOn s) ∧ (s.dev.carries p = true) ∧ ∃ g i : Nat,
    ∃ ps : ReelParams, ∃ vs : List Word, ∃ n low : Nat, ∃ bytes : Option (List Byte), ∃ bad : Option Nat,
      let x := s.dev.group g
      (x.en = true) ∧ (x.gst ≠ .down) ∧ (p ∈ x.childPorts) ∧ (x.inst ≤ i) ∧ (x.skipped.contains i = false) ∧
      ((x.kids.any fun k => k.port == p && k.inst == i) = false) :=
  ⟨(sAb 9), 2, by unfold reelOn; decide +kernel, by decide +kernel, 3, 4, ⟨2, 0, 2, 0⟩, ([1, 2]), 2, 4, none, none,
    by decide +kernel, by decide +kernel, by decide +kernel, by decide +kernel, by decide +kernel, by decide +kernel⟩

theorem test_hypotheses_ReelAbortsAndMessages_3_1 : ∃ s : State, ∃ p : Nat, (reelOn s) ∧ (s.dev.carries p = true) ∧ ∃ g i : Nat,
    ∃ m : ReelMsg, ∃ dn : Down,
      let x := s.dev.group g
      (x.en = true) ∧ (x.gst ≠ .down) ∧ (x.parent.toNat = p) ∧ (x.inst = i) ∧ (x.sentUp = true) ∧
      ((∃ ps vs bs, m = ReelMsg.resultDown g i ps vs bs ∧ dn = (⟨vs, bs, none⟩ : Down)) ∨ (∃ ps b, m = .failDown g i ps b ∧
      dn = ⟨[], [], some b⟩)) :=
  ⟨sUpd, 1, by unfold reelOn; decide +kernel, by decide +kernel, 3, 4, (.failDown 3 4 ⟨2,0,2,0⟩ 6), ⟨[],[],some 6⟩,
    by decide +kernel, by decide +kernel, by decide +kernel, by decide +kernel, by decide +kernel, (Or.inr ⟨_, _, rfl, rfl⟩)⟩

theorem test_hypotheses_ReelAbortsAndMessages_3_2 : ∃ s : State, ∃ p : Nat, (reelOn s) ∧ (s.dev.carries p = true) :=
  ⟨sUpd, 1, by unfold reelOn; decide +kernel, by decide +kernel⟩

theorem test_hypotheses_ReelAbortsAndMessages_3_3 : ∃ s : State, ∃ p : Nat, (reelOn s) ∧ (s.dev.carries p = true) ∧ ∃ g i : Nat,
    ∃ ps : ReelParams, ∃ sh : Nat, (numbersApart s.dev) ∧ (s.dev.ups.runs = []) ∧ (
      let x := s.dev.group g
      (x.en = true) ∧ (x.gst ≠ .down) ∧ (p ∈ x.ports) ∧ (x.inst ≤ i) ∧ (x.skipped.contains i = false)) :=
  ⟨sUpd, 2, by unfold reelOn; decide +kernel, by decide +kernel, 3, 4, ⟨2,0,2,0⟩, 5, by unfold numbersApart; decide +kernel,
    by decide +kernel, by decide +kernel, by decide +kernel, by decide +kernel, by decide +kernel, by decide +kernel⟩

theorem test_hypotheses_ReelAbortsAndMessages_3_4 : ∃ s : State, ∃ p : Nat, (reelOn s) ∧ (s.dev.carries p = true) ∧
    (s.dev.reel.parentPort = p) ∧ (s.dev.reel.snapRoot = false) :=
  ⟨(sCf 0x401), 1, by unfold reelOn; decide +kernel, by decide +kernel, by decide +kernel, by decide +kernel⟩

theorem test_hypotheses_ReelAbortsAndMessages_3_5 : ∃ s : State, ∃ p : Nat, (reelOn s) ∧ (s.dev.carries p = true) ∧
    (p ∈ s.dev.reel.childPorts) ∧ (p ∉ s.dev.reel.reports) :=
  ⟨(sCf 0x401), 2, by unfold reelOn; decide +kernel, by decide +kernel, by decide +kernel, by decide +kernel⟩

theorem test_hypotheses_ReelAbortsAndMessages_3_6 : ∃ s : State, ∃ p : Nat, (reelOn s) ∧ (s.dev.carries p = true) ∧
    (s.dev.reel.parentPort = p) :=
  ⟨(sCf 0x401), 1, by unfold reelOn; decide +kernel, by decide +kernel, by decide +kernel⟩

theorem test_hypotheses_ReelAbortsAndMessages_3_7 : ∃ s : State, ∃ p : Nat, (reelOn s) ∧ (s.dev.carries p = true) ∧
    (s.dev.reel.parentPort = p) ∧ (s.plat.pow.stage = .ready) :=
  ⟨(sCf 0x401), 1, by unfold reelOn; decide +kernel, by decide +kernel, by decide +kernel, by decide +kernel⟩

theorem test_hypotheses_LinksAreTrainedAndFall_0_0 : ∃ s : State, ∃ p : Nat, ∃ lanes : BitVec 16,
      let x := s.dev.port p
      let hello := Output.handshake p s.dev.ports.node.toNat s.dev.ports.topo Config.portVersion
      (x.blk.st = .starting ∨ x.blk.st = .on) ∧ (x.link = .training ∨ x.link = .handshake ∧ x.hsFault = true) ∧
      (lanes = 0xFFFF#16) :=
  ⟨(sPn 2 pTr), 2, 0xFFFF#16, by decide +kernel, by decide +kernel, by decide +kernel⟩

theorem test_hypotheses_LinksAreTrainedAndFall_0_1 : ∃ s : State, ∃ p : Nat, ∃ lanes : BitVec 16,
      let x := s.dev.port p
      let hello := Output.handshake p s.dev.ports.node.toNat s.dev.ports.topo Config.portVersion
      (x.blk.st = .starting ∨ x.blk.st = .on) ∧ (x.link = .training ∨ x.link = .handshake ∧ x.hsFault = true) ∧
      (lanes ≠ 0xFFFF#16) ∧ (lanes.extractLsb' 0 8 = 0xFF#8 ∨ lanes.extractLsb' 8 8 = 0xFF#8) ∧ (x.allowNarrow = true) :=
  ⟨(sPn 2 pTr), 2, 0xFF0F#16, by decide +kernel, by decide +kernel, by decide +kernel, by decide +kernel, by decide +kernel⟩

theorem test_hypotheses_LinksAreTrainedAndFall_0_2 : ∃ s : State, ∃ p : Nat, ∃ lanes : BitVec 16,
      let x := s.dev.port p
      let hello := Output.handshake p s.dev.ports.node.toNat s.dev.ports.topo Config.portVersion
      (x.blk.st = .starting ∨ x.blk.st = .on) ∧ (x.link = .training ∨ x.link = .handshake ∧ x.hsFault = true) ∧
      (lanes ≠ 0xFFFF#16) ∧ (x.allowNarrow = false ∨ (lanes.extractLsb' 0 8 ≠ 0xFF#8 ∧ lanes.extractLsb' 8 8 ≠ 0xFF#8)) :=
  ⟨(sPn 2 pTr), 2, 0x12F0#16, by decide +kernel, by decide +kernel, by decide +kernel, by decide +kernel⟩

theorem test_hypotheses_LinksAreTrainedAndFall_1 : ∃ s : State, ∃ p : Nat, ∃ lanes : BitVec 16,
    ∃ m : Partner, ((s.dev.port p).blk.st ≠ .starting) ∧ ((s.dev.port p).blk.st ≠ .on) :=
  ⟨sM, 3, 0xFFFF#16, ⟨4, 2, 0, 0⟩, by decide +kernel, by decide +kernel⟩

theorem test_hypotheses_LinksAreTrainedAndFall_2 : ∃ s : State, ∃ p : Nat,
      let x := s.dev.port p
      (x.link = .training) :=
  ⟨(sPn 2 pTr), 2, by decide +kernel⟩

theorem test_hypotheses_LinksAreTrainedAndFall_3_0 : ∃ s : State, ∃ p : Nat, ∃ m : Partner,
      let x := s.dev.port p
      (x.link = .handshake) ∧ (x.hsFault = false) ∧ (x.blk.st = .starting ∨ x.blk.st = .on) ∧ (s.dev.handshakeBad p m = true) :=
  ⟨(sPn 2 pHs), 2, ⟨0, 3, 0, 1⟩, by decide +kernel, by decide +kernel, by decide +kernel, by decide +kernel⟩

theorem test_hypotheses_LinksAreTrainedAndFall_3_1 : ∃ s : State, ∃ p : Nat, ∃ m : Partner,
      let x := s.dev.port p
      (x.link = .handshake) ∧ (x.hsFault = false) ∧ (x.blk.st = .starting ∨ x.blk.st = .on) ∧
      (s.dev.handshakeBad p m = false) ∧ (m.node < 4096) ∧ (m.port < 8) :=
  ⟨(sPn 2 pHs), 2, ⟨4, 3, 0, 1⟩, by decide +kernel, by decide +kernel, by decide +kernel, by decide +kernel,
    by decide +kernel, by decide +kernel⟩

theorem test_hypotheses_LinksAreTrainedAndFall_4 : ∃ s : State, ∃ p : Nat, ∃ (f : Flit),
      let x := s.dev.port p
      (x.link = .up) :=
  ⟨(sPn 2 pFl), 2, ⟨5, true, 0, 0, [], 0⟩, by decide +kernel⟩

theorem test_hypotheses_LinksAreTrainedAndFall_5 : ∃ s : State, ∃ p n : Nat,
      let x := s.dev.port p
      (x.link = .up) :=
  ⟨(sPn 2 pFl), 2, 7, by decide +kernel⟩

theorem test_hypotheses_LinksAreTrainedAndFall_6_0 : ∃ s : State, ∃ p : Nat, ∃ c : Instr,
      let x := s.dev.port p
      (x.replay = []) :=
  ⟨(sPn 2 { pFl2 with replay := [] }), 2, (.ackTimeout 2), by decide +kernel⟩

theorem test_hypotheses_LinksAreTrainedAndFall_6_1 : ∃ s : State, ∃ p : Nat, ∃ c : Instr,
      let x := s.dev.port p
      (x.link = .up) ∧ (c = Instr.ackTimeout p ∧ x.replay ≠ [] ∨ c = .blockLockLoss p) :=
  ⟨(sPn 2 pFl2), 2, (.ackTimeout 2), by decide +kernel, by decide +kernel⟩

theorem test_hypotheses_LinksAreTrainedAndFall_7 : ∃ s : State, ∃ p : Nat,
      let x := s.dev.port p
      (x.link = .down) ∧ (x.downDue = true) ∧ (numbersApart s.dev) ∧ (s.dev.ups.runs = []) :=
  ⟨sLd, 2, by decide +kernel, by decide +kernel, by unfold numbersApart; decide +kernel, by decide +kernel⟩

theorem test_hypotheses_PeersAreServedAndAnswered_0 : ∃ s : State, ∃ p : Nat, ∃ (r : PeerReq), ∃ (f : ZcFrame), (s.dev.carries p = false) :=
  ⟨(withPort (sPe allG) 2 pTr), 2, (rq (.read 8) 16), (zf [] [] 0), by decide +kernel⟩

theorem test_hypotheses_PeersAreServedAndAnswered_1_0 : ∃ s : State, ∃ p : Nat, ∃ (r : PeerReq), (r.dst = s.dev.ports.node.toNat) ∧
    (s.dev.carries p = true) ∧ (
      let q := (s.dev.route r.srcNode).getD p
      let ans := fun (t : State) (y : PeerAns) => handed s t q (.peerAns q r.tag y r.srcNode s.dev.ports.node.toNat)
      ∃ n : Nat, ∃ bs : List Byte, (r.op = .read n) ∧ (hasGrant s r.ctx r.srcNode r.srcCtx .read) ∧
      (s.dev.hereFor r.ctx r.va n .read = true) ∧ (sound s) ∧ (wholeLines s.dev.mem) ∧
      (s.dev.readBytes ⟨r.ctx, 0, none, none⟩ n r.va = .ok bs)) :=
  ⟨(sPe allG), 2, (rq (.read 8) 16), by decide +kernel, by decide +kernel, 8, (rdB (sPe allG) 16 8), by decide +kernel,
    by unfold hasGrant; decide +kernel, by decide +kernel, by intro h; exact (by decide : (0:Nat) ≠ 2),
    by unfold wholeLines; decide +kernel, by decide +kernel⟩

theorem test_hypotheses_PeersAreServedAndAnswered_1_1 : ∃ s : State, ∃ p : Nat, ∃ (r : PeerReq), (r.dst = s.dev.ports.node.toNat) ∧
    (s.dev.carries p = true) ∧ (
      let q := (s.dev.route r.srcNode).getD p
      let ans := fun (t : State) (y : PeerAns) => handed s t q (.peerAns q r.tag y r.srcNode s.dev.ports.node.toNat)
      ∃ bs : List Byte, ∃ key a : Nat, (r.op = .write bs) ∧ (hasGrant s r.ctx r.srcNode r.srcCtx .write) ∧ (sound s) ∧
      (coherent s.dev.mem) ∧ (spanAt s r.ctx r.va bs.length key a)) :=
  ⟨(sPe allG), 2, (rq (.write []) 126), by decide +kernel, by decide +kernel, ([]), 1, (2097152 + 126), by decide +kernel,
    by unfold hasGrant; decide +kernel, by intro h; exact (by decide : (0:Nat) ≠ 2), by unfold coherent; decide +kernel,
    by unfold spanAt; decide +kernel⟩

theorem test_hypotheses_PeersAreServedAndAnswered_1_2 : ∃ s : State, ∃ p : Nat, ∃ (r : PeerReq), (r.dst = s.dev.ports.node.toNat) ∧
    (s.dev.carries p = true) ∧ (
      let q := (s.dev.route r.srcNode).getD p
      let ans := fun (t : State) (y : PeerAns) => handed s t q (.peerAns q r.tag y r.srcNode s.dev.ports.node.toNat)
      ∃ op : AtomOp, ∃ ty : AtomTy, ∃ os cs : List Dword, ∃ key a : Nat, (r.op = .atomic op ty os cs) ∧
      (hasGrant s r.ctx r.srcNode r.srcCtx .atomic) ∧ (sound s) ∧ (wholeLines s.dev.mem) ∧ (atomLegal op ty = true) ∧
      (s.dev.hereFor r.ctx r.va (atomBytes ty) .atomic = true) ∧ (r.va % atomBytes ty = 0) ∧ (a % atomBytes ty = 0) ∧
      (translate s.dev r.ctx r.va .atomic = .ok (.dev a, key)) ∧ (FMap.get false s.dev.mem.bad (a / 64) = false)) :=
  ⟨(sPe allG), 2, (rq (.atomic .add .u32 [5] []) 64), by decide +kernel, by decide +kernel, .add, .u32, ([5]), ([]), 1,
    (2097152 + 64), by decide +kernel, by unfold hasGrant; decide +kernel, by intro h; exact (by decide : (0:Nat) ≠ 2),
    by unfold wholeLines; decide +kernel, by decide +kernel, by decide +kernel, by decide +kernel, by decide +kernel,
    by decide +kernel, by decide +kernel⟩

theorem test_hypotheses_PeersAreServedAndAnswered_1_3 : ∃ s : State, ∃ p : Nat, ∃ (r : PeerReq), (r.dst = s.dev.ports.node.toNat) ∧
    (s.dev.carries p = true) ∧ (
      let q := (s.dev.route r.srcNode).getD p
      let ans := fun (t : State) (y : PeerAns) => handed s t q (.peerAns q r.tag y r.srcNode s.dev.ports.node.toNat)
      (¬hasGrant s r.ctx r.srcNode r.srcCtx (peerAcc r) ∨ s.dev.hereFor r.ctx r.va (peerSize r) (peerAcc r) = false ∨ (∃ op ty os cs, r.op = .atomic op ty os cs ∧
      r.va % atomBytes ty ≠ 0))) :=
  ⟨(sPe allG), 2, (rq (.read 4) 0x400000), by decide +kernel, by decide +kernel,
    (by dsimp only; exact Or.inr (Or.inl (by decide +kernel)))⟩

theorem test_hypotheses_PeersAreServedAndAnswered_2 : ∃ s : State, ∃ p : Nat, ∃ (f : ZcFrame), ∃ key : Nat,
    ∃ (at_ : Nat → Nat), (f.dst = s.dev.ports.node.toNat) ∧ (s.dev.carries p = true) ∧ (
      let q := (s.dev.route f.srcNode).getD p
      (hasGrant s f.ctx f.srcNode f.srcCtx .write) ∧ (sound s) ∧ (coherent s.dev.mem) ∧ (
      let o : Outs := (f.masks ++ f.vals ++ [(f.rowVa, leBytes 8 f.row.toNat)]).map fun e => (e.1, at_ e.1, e.2)
      (outsAt s f.ctx key o))) :=
  ⟨(sPe allG), 2, (zf [(0x10, [1,2])] [(0x80, [3,4,5])] 0x100), 1, (fun va => 2097152 + va), by decide +kernel,
    by decide +kernel, by unfold hasGrant; decide +kernel, by intro h; exact (by decide : (0:Nat) ≠ 2),
    by unfold coherent; decide +kernel, by unfold outsAt; unfold spanAt; decide +kernel⟩

theorem test_hypotheses_PeersAreServedAndAnswered_3_0 : ∃ s : State, ∃ p : Nat, ∃ q : Nat, ∃ (r : PeerReq), ∃ (f : ZcFrame),
    ∃ (x : AnsPath), ∃ tag : Nat, ∃ ans : PeerAns, ((s.dev.port q).link = .up) ∧ (r.dst ≠ s.dev.ports.node.toNat) ∧
    (s.dev.carries p = true) ∧ (s.dev.route r.dst = some q) :=
  ⟨(sPe allG), 1, 2, (rq (.read 8) 16 4), (zf [] [] 0 4), ⟨4, 9⟩, 5, (.data [1]), by decide +kernel, by decide +kernel,
    by decide +kernel, by decide +kernel⟩

theorem test_hypotheses_PeersAreServedAndAnswered_3_1 : ∃ s : State, ∃ p : Nat, ∃ q : Nat, ∃ (r : PeerReq), ∃ (f : ZcFrame),
    ∃ (x : AnsPath), ∃ tag : Nat, ∃ ans : PeerAns, ((s.dev.port q).link = .up) ∧ (f.dst ≠ s.dev.ports.node.toNat) ∧
    (s.dev.carries p = true) ∧ (s.dev.route f.dst = some q) :=
  ⟨(sPe allG), 1, 2, (rq (.read 8) 16 4), (zf [] [] 0 4), ⟨4, 9⟩, 5, (.data [1]), by decide +kernel, by decide +kernel,
    by decide +kernel, by decide +kernel⟩

theorem test_hypotheses_PeersAreServedAndAnswered_3_2 : ∃ s : State, ∃ p : Nat, ∃ q : Nat, ∃ (r : PeerReq), ∃ (f : ZcFrame),
    ∃ (x : AnsPath), ∃ tag : Nat, ∃ ans : PeerAns, ((s.dev.port q).link = .up) ∧ (x.dst ≠ s.dev.ports.node.toNat) ∧
    (s.dev.route x.dst = some q) :=
  ⟨(sPe allG), 1, 2, (rq (.read 8) 16 4), (zf [] [] 0 4), ⟨4, 9⟩, 5, (.data [1]), by decide +kernel, by decide +kernel,
    by decide +kernel⟩

theorem test_hypotheses_PeersAreServedAndAnswered_4_0 : ∃ s : State, ∃ p : Nat, ∃ (r : PeerReq),
    ∃ (f : ZcFrame), (s.dev.carries p = true) ∧ (r.dst ≠ s.dev.ports.node.toNat) ∧
    (∀ q, s.dev.route r.dst = some q → (s.dev.port q).link ≠ .up) :=
  ⟨(sPe allG), 2, (rq (.read 8) 16 99), (zf [] [] 0 98), by decide +kernel, by decide +kernel, by decide +kernel⟩

theorem test_hypotheses_PeersAreServedAndAnswered_4_1 : ∃ s : State, ∃ p : Nat, ∃ (r : PeerReq),
    ∃ (f : ZcFrame), (s.dev.carries p = true) ∧ (f.dst ≠ s.dev.ports.node.toNat) ∧
    (∀ q, s.dev.route f.dst = some q → (s.dev.port q).link ≠ .up) :=
  ⟨(sPe allG), 2, (rq (.read 8) 16 99), (zf [] [] 0 98), by decide +kernel, by decide +kernel, by decide +kernel⟩

theorem test_hypotheses_PeersAreServedAndAnswered_5 : ∃ s : State, ∃ (node : AnsPath), ∃ tag : Nat,
    ∃ ans : PeerAns, (node.dst = s.dev.ports.node.toNat) ∧ (∀ o ∈ s.dev.ports.out, o.tag ≠ tag) :=
  ⟨(sPe allG), ⟨3, 4⟩, 5, (.data [1]), by decide +kernel, by decide +kernel⟩

theorem test_hypotheses_PeersAreServedAndAnswered_6_0 : ∃ s : State, ∃ (node : AnsPath), ∃ tag : Nat,
    ∃ o : PeerOut, (node.dst = s.dev.ports.node.toNat) ∧ (s.dev.ports.out.find? (fun y => y.tag == tag) = some o) ∧ (
      let gone := fun (t : State) => ∀ y ∈ t.dev.ports.out, y ∈ s.dev.ports.out ∧ y.tag ≠ tag
      let ring := (s.dev.item o.ctx o.seq).any Item.isWork = false
      ∃ bs : List Byte, ∃ pk l key rctx rva : Nat, ∃ keep : Bool, (o.use = .line pk l key rctx rva keep)) :=
  ⟨sAnL, ⟨3, 4⟩, 5, pLine, by decide +kernel, by decide +kernel, (List.replicate 128 6), 0, 0, 1, 2, 0x70000, true,
    by decide +kernel⟩

theorem test_hypotheses_PeersAreServedAndAnswered_6_1 : ∃ s : State, ∃ (node : AnsPath), ∃ tag : Nat,
    ∃ o : PeerOut, (node.dst = s.dev.ports.node.toNat) ∧ (s.dev.ports.out.find? (fun y => y.tag == tag) = some o) ∧ (
      let gone := fun (t : State) => ∀ y ∈ t.dev.ports.out, y ∈ s.dev.ports.out ∧ y.tag ≠ tag
      let ring := (s.dev.item o.ctx o.seq).any Item.isWork = false
      ∃ vs : List Dword, ∃ pk : Nat, ∃ lanes : List Nat, ∃ dst : BitVec 8,
      ∃ fmt : BitVec 6, (o.use = .atom pk lanes dst fmt) ∧ (lanes.Nodup) ∧ (∀ l ∈ lanes, l < 32) ∧ (dst.toNat < 127) ∧ (ring)) :=
  ⟨(sAn [pAt]), ⟨3, 4⟩, 5, pAt, by decide +kernel, by decide +kernel, ([0x1122334455667788, 7, 8]), 0, ([2, 0, 5]), 20, 0x0F,
    by decide +kernel, by decide +kernel, by decide +kernel, by decide +kernel, by decide +kernel⟩

theorem test_hypotheses_PeersAreServedAndAnswered_6_2 : ∃ s : State, ∃ (node : AnsPath), ∃ tag : Nat,
    ∃ o : PeerOut, (node.dst = s.dev.ports.node.toNat) ∧ (s.dev.ports.out.find? (fun y => y.tag == tag) = some o) ∧ (
      let gone := fun (t : State) => ∀ y ∈ t.dev.ports.out, y ∈ s.dev.ports.out ∧ y.tag ≠ tag
      let ring := (s.dev.item o.ctx o.seq).any Item.isWork = false
      ∃ bs : List Byte, ∃ rctx rva : Nat, (o.use = .fill rctx rva) ∧ (ring) ∧ (s.dev.waitsBy o.ctx o.seq false = false)) :=
  ⟨(sAn [pFi]), ⟨3, 4⟩, 5, pFi, by decide +kernel, by decide +kernel, ([1,2,3]), 2, 0x70000, by decide +kernel,
    by decide +kernel, by decide +kernel⟩

theorem test_hypotheses_PeersAreServedAndAnswered_6_4 : ∃ s : State, ∃ (node : AnsPath), ∃ tag : Nat,
    ∃ o : PeerOut, (node.dst = s.dev.ports.node.toNat) ∧ (s.dev.ports.out.find? (fun y => y.tag == tag) = some o) ∧ (
      let gone := fun (t : State) => ∀ y ∈ t.dev.ports.out, y ∈ s.dev.ports.out ∧ y.tag ≠ tag
      let ring := (s.dev.item o.ctx o.seq).any Item.isWork = false
      ∃ it : Item, ∃ ans : PeerAns, ∃ e : Status × Nat, (s.dev.item o.ctx o.seq = some it) ∧ (it.isWork = false) ∧
      (it.err = none) ∧ (numbersApart s.dev) ∧ (s.dev.ups.runs = []) ∧ ((ans = PeerAns.eccError ∧
      e = (Status.eccUncorrectable, detailHalf o.va)) ∨ (ans = .lost ∧ e = (.linkLost, o.port)))) :=
  ⟨(sAn [pFi]), ⟨3, 4⟩, 5, pFi, by decide +kernel, by decide +kernel, it5, .lost, (Status.linkLost, 2), by decide +kernel,
    by decide +kernel, by decide +kernel, by unfold numbersApart; decide +kernel, by decide +kernel, by decide +kernel⟩

theorem test_hypotheses_PeersAreServedAndAnswered_6_5 : ∃ s : State, ∃ (node : AnsPath), ∃ tag : Nat,
    ∃ o : PeerOut, (node.dst = s.dev.ports.node.toNat) ∧ (s.dev.ports.out.find? (fun y => y.tag == tag) = some o) ∧ (
      let gone := fun (t : State) => ∀ y ∈ t.dev.ports.out, y ∈ s.dev.ports.out ∧ y.tag ≠ tag
      let ring := (s.dev.item o.ctx o.seq).any Item.isWork = false
      ((s.dev.ctx o.ctx).st = .opened)) :=
  ⟨(sAn [pFi]), ⟨3, 4⟩, 5, pFi, by decide +kernel, by decide +kernel, by decide +kernel⟩

theorem test_hypotheses_AStepRunsTheFrontCommand_0 : ∃ (s : State), ∃ (c : Instr), ∃ (rest : List Instr), (s.pending = c :: rest) :=
  ⟨({ sB with pending := [.inputLoss, .sramWipeDone] }), .inputLoss, ([.sramWipeDone]), rfl⟩

theorem test_hypotheses_AStepRunsTheFrontCommand_1 : ∃ s : State, (s.pending = []) :=
  ⟨sB, rfl⟩

theorem test_hypotheses_DeviceAddressesMapToStacks_2 : ∃ D x : Nat, (D % 256 = 0) ∧ (x < 256) :=
  ⟨(2 ^ 20), 255, by decide +kernel, by decide +kernel⟩

theorem test_hypotheses_DeviceAddressesMapToStacks_3 : ∃ P : Nat, (P % 65536 = 0) :=
  ⟨65536, by decide +kernel⟩

theorem test_hypotheses_DeviceAddressesMapToStacks_4 : ∃ P n : Nat, (P % 2 ^ 21 = 0) ∧ (n < 20) :=
  ⟨(2 ^ 21), 19, by decide +kernel, by decide +kernel⟩

theorem test_hypotheses_ComparesAndPredicateLogicSetPredicates_0 : ∃ c : Instr, ∃ i : Issue, ∃ b : PredBody,
    ∃ f : Nat → Dword → Dword → Bool, (predRows c = some (i, b, f)) ∧ ∃ s : State, ∃ k : KBlock, ∃ x : Pack,
    ∃ it : Item, (issues s c i k x it) ∧ (predOk false k.tregs i b = true) ∧ (b.fmt ≠ 0) :=
  ⟨(.predEq iss (pb 3 0 1 1 1 0)), iss, (pb 3 0 1 1 1 0), _, rfl, (fit ((.predEq iss (pb 3 0 1 1 1 0))) sB), blk0, pack0,
    it5, by unfold issues; decide +kernel, by decide +kernel, by decide +kernel⟩

theorem test_hypotheses_ComparesAndPredicateLogicSetPredicates_1_0 : ∃ c : Instr, ∃ i : Issue, ∃ b : PredBody, ∃ cls : Bool,
    ∃ f : Machine.Num → Machine.Num → Bool, (predFloatRows c = some (i, b, cls, f)) ∧ ∃ s : State, ∃ k : KBlock, ∃ x : Pack,
    ∃ it : Item, (issues s c i k x it) ∧ (predOk cls k.tregs i b = true) ∧ (b.fmt = 0) :=
  ⟨(.predEq iss (pb 3 2 3 0 1 0)), iss, (pb 3 2 3 0 1 0), false, _, rfl, (fit ((.predEq iss (pb 3 2 3 0 1 0))) sB), blk0,
    pack0, it5, by unfold issues; decide +kernel, by decide +kernel, by decide +kernel⟩

theorem test_hypotheses_LoadsAndAtomicsOnBlockMemory_0 : ∃ i : Issue, ∃ b : MemBody, ∃ ev : List Nat, ∃ s : State, ∃ k : KBlock,
    ∃ x : Pack, ∃ it : Item, (issues s (.memLd i b ev) i k x it) ∧ (memOk true k.tregs i b = true) ∧
    (b.space = 1 ∨ b.space = 2) ∧ (k.tregs ≤ 128) ∧
    (∀ l ∈ x.lanes (memFields true i b) i.guard, innerOk i b x (if b.space = 1 then k.memLen else k.consts.length) l) :=
  ⟨iss, (mb 6 4 2 1 0), ([]), (fit (.memLd iss (mb 6 4 2 1 0) ([])) sB), blk0, pack0, it5, by unfold issues; decide +kernel,
    by decide +kernel, by decide +kernel, by decide +kernel, by unfold innerOk; decide +kernel⟩

theorem test_hypotheses_LoadsAndAtomicsOnBlockMemory_1 : ∃ c : Instr, ∃ i : Issue, ∃ b : AtomBody,
    ∃ op : AtomOp, (atomRows c = some (i, b, op)) ∧ ∃ s : State, ∃ k : KBlock, ∃ x : Pack, ∃ it : Item, ∃ ty : AtomTy,
    ∃ a : Nat, (issues s c i k x it) ∧ (atomOk op k.tregs i b = true) ∧ (atomTyOf op b.fmt.toNat = some ty) ∧ (b.space = 1) ∧
    (
      let ls := x.lanes (atomFields op b) i.guard
      let n := if atomBytes ty = 8 then 2 else 1
      let ps := ls.map fun l => (x.read i.imm l b.opnd n, x.read i.imm l b.cmp n)
      let old : Dword := BitVec.ofNat 64 (leNat ((List.range (atomBytes ty)).map fun j => FMap.get 0 k.mem (a + j)))
      (ls ≠ []) ∧ (∀ l ∈ ls, (opnd x i.imm l b.addr).toNat = a) ∧ (a % atomBytes ty = 0) ∧ (a + atomBytes ty ≤ k.memLen)) :=
  ⟨(.atomCas iss (atb 6 0x84 1 0 2 1 1)), iss, (atb 6 0x84 1 0 2 1 1), .cas, by decide +kernel,
    (fit ((.atomCas iss (atb 6 0x84 1 0 2 1 1))) sB), blk0, pack0, it5, .b32, 64, by unfold issues; decide +kernel,
    by decide +kernel, by decide +kernel, by decide +kernel, by decide +kernel, by decide +kernel, by decide +kernel,
    by decide +kernel⟩

theorem test_hypotheses_ThreadsExitAndMeetAtBarriers_0_0 : ∃ i : Issue, ∃ s : State, ∃ k : KBlock, ∃ x : Pack,
    ∃ it : Item, (s.dev.issuer s.plat i = some (k, x, it)) ∧ (i.imm = none) ∧ (
      let ls := x.passing i.guard
      (s.dev.atCode (.flowNop i) = true)) :=
  ⟨iss, (fit (.flowNop iss) sB), blk0, pack0, it5, by decide +kernel, by decide +kernel, by decide +kernel⟩

theorem test_hypotheses_ThreadsExitAndMeetAtBarriers_0_3 : ∃ i : Issue, ∃ s : State, ∃ k : KBlock, ∃ x : Pack,
    ∃ it : Item, (s.dev.issuer s.plat i = some (k, x, it)) ∧ (i.imm = none) ∧ (
      let ls := x.passing i.guard
      (s.dev.atCode (.exitThreads i) = true) ∧ (x.live &&& ~~~ls ≠ 0)) :=
  ⟨issG, (fit (.exitThreads issG) (sF [f1])), blk0, (xF [f1]), it5, by decide +kernel, by decide +kernel, by decide +kernel,
    by decide +kernel⟩

theorem test_hypotheses_ThreadsExitAndMeetAtBarriers_0_4 : ∃ i : Issue, ∃ s : State, ∃ k : KBlock, ∃ x : Pack,
    ∃ it : Item, (s.dev.issuer s.plat i = some (k, x, it)) ∧ (i.imm = none) ∧ (
      let ls := x.passing i.guard
      (s.dev.atCode (.exitThreads i) = true) ∧ (x.live &&& ~~~ls = 0) ∧ (∃ j, j < k.packs ∧ j ≠ i.pack % 16 ∧
      (s.dev.pack (16 * (i.pack / 16) + j)).live ≠ 0)) :=
  ⟨iss, (fit (.exitThreads iss) sB), blk0, pack0, it5, by decide +kernel, by decide +kernel, by decide +kernel,
    by decide +kernel, by decide +kernel⟩

theorem test_hypotheses_ThreadsExitAndMeetAtBarriers_0_5 : ∃ i : Issue, ∃ s : State, ∃ k : KBlock, ∃ x : Pack,
    ∃ it : Item, (s.dev.issuer s.plat i = some (k, x, it)) ∧ (i.imm = none) ∧ (
      let ls := x.passing i.guard
      (s.dev.atCode (.exitThreads i) = true) ∧ (x.live &&& ~~~ls = 0) ∧
      (∀ j, j < k.packs → j ≠ i.pack % 16 → (s.dev.pack (16 * (i.pack / 16) + j)).live = 0)) :=
  ⟨iss, (fit (.exitThreads iss) (withDev sB fun d => d.updPack 1 fun _ => Pack.none)), blk0, pack0, it5, by decide +kernel,
    by decide +kernel, by decide +kernel, by decide +kernel, by decide +kernel⟩

theorem test_hypotheses_ThreadsExitAndMeetAtBarriers_1_0 : ∃ s : State, ∃ b id : Nat, ∃ k : KBlock, (s.dev.block b = some k) ∧
    ((k.bars.any fun x => x.id == id) = true) ∧ (id < 16) ∧ (k.packs ≤ 16) ∧
    (∀ j, j < k.packs → ∀ l, l < 32 → (s.dev.pack (16 * b + j)).live.getLsbD l = true → ∃ pc, (l, id, pc) ∈ (s.dev.pack (16 * b + j)).parked) :=
  ⟨
    (withDev (withBlock fun k => { k with bars := [⟨3, 7⟩] }) fun d => (d.updPack 0 fun p => { p with mask := 0, live := 1, parked := [(0, 3, 3)] }).updPack 1 fun p => { p with mask := 0, live := 0 }),
    0, 3, ({ blk0 with bars := [⟨3, 7⟩] }), by decide +kernel, by decide +kernel, by decide +kernel, by decide +kernel,
    (by intro j hj l hl h; apply parkedWhen; revert h; revert hl; revert l; revert hj; revert j; decide +kernel)⟩

theorem test_hypotheses_PacksChangePathMoveAndArePlaced_0_0 : ∃ s : State, ∃ p : Nat, ∃ f : Frame, ∃ fs : List Frame,
    ∃ x : Pack, ((s.dev.block (p / 16)).isSome = true) ∧ (s.dev.pack p = x) ∧ (x.live ≠ 0) ∧ (x.stack = f :: fs) ∧
    (x.pc = f.recon) ∧ (f.pend &&& x.live ≠ 0) :=
  ⟨(withPack fun p => { p with stack := [f1], pc := 50 }), 0, f1, ([]), ({ pack0 with stack := [f1], pc := 50 }),
    by decide +kernel, by decide +kernel, by decide +kernel, by decide +kernel, by decide +kernel, by decide +kernel⟩

theorem test_hypotheses_PacksChangePathMoveAndArePlaced_0_1 : ∃ s : State, ∃ p : Nat, ∃ f : Frame, ∃ fs : List Frame,
    ∃ x : Pack, ((s.dev.block (p / 16)).isSome = true) ∧ (s.dev.pack p = x) ∧ (x.live ≠ 0) ∧ (x.stack = f :: fs) ∧
    (x.pc = f.recon) ∧ (f.pend &&& x.live = 0) ∧ (x.parked = []) :=
  ⟨(withPack fun p => { p with stack := [{f1 with pend := 0}], pc := 50 }), 0, ({f1 with pend := 0}), ([]),
    ({ pack0 with stack := [{f1 with pend := 0}], pc := 50 }), by decide +kernel, by decide +kernel, by decide +kernel,
    by decide +kernel, by decide +kernel, by decide +kernel, by decide +kernel⟩

theorem test_hypotheses_PacksChangePathMoveAndArePlaced_1 : ∃ s : State, ∃ die core e p : Nat,
    ∃ k : KBlock, (s.dev.freeSlot die core = some e) ∧ (s.dev.readyPack die core = some p) ∧ (s.dev.block (p / 16) = some k) :=
  ⟨(withDev sB fun d => d.updPack 1 fun p => {p with slot := none}), 0, 0, 1, 1, blk0, by decide +kernel, by decide +kernel,
    by decide +kernel⟩

theorem test_hypotheses_PacksChangePathMoveAndArePlaced_2 : ∃ s : State, ∃ c q : Nat, ∃ it : Item, ∃ y : Xlat,
    ∃ die core : Nat, (s.dev.item c q = some it) ∧ (it.typ = 3) ∧ (it.phase = .running) ∧ (it.blocks < field it.desc 0x20 4) ∧
    (s.dev.xlatOf it = some y) ∧ (s.dev.pickCore it y = some (die, core)) ∧
    (∀ e ∈ s.dev.collie.blocks, e.1 < s.dev.collie.nextBlk) ∧ (y.packs ≤ 16) :=
  ⟨sK, 1, 6, itK, xl, 0, 1, by decide +kernel, by decide +kernel, by decide +kernel, by decide +kernel, by decide +kernel,
    by decide +kernel, by decide +kernel, by decide +kernel⟩

theorem test_hypotheses_EngineOwnershipAndTokens_0_0 : ∃ i : Issue, ∃ b : EngBody, ∃ s : State, ∃ k : KBlock, ∃ x : Pack,
    ∃ it : Item, (s.dev.issuer s.plat i = some (k, x, it)) ∧ (engOwnOk i b = true) ∧ (s.dev.atCode (.vacq i b) = true) ∧
    (b.k.toNat < 8) ∧ (k.held.contains b.k.toNat = false) ∧ (s.dev.vacqFree k b.k.toNat = true) :=
  ⟨iss, (eb 0xC1 0xC1 0 2), (fit (.vacq iss (eb 0xC1 0xC1 0 2)) sB), blk0, pack0, it5, by decide +kernel, by decide +kernel,
    by decide +kernel, by decide +kernel, by decide +kernel, by decide +kernel⟩

theorem test_hypotheses_EngineOwnershipAndTokens_0_1 : ∃ i : Issue, ∃ b : EngBody, ∃ s : State, ∃ k : KBlock, ∃ x : Pack,
    ∃ it : Item, (s.dev.issuer s.plat i = some (k, x, it)) ∧ (engOwnOk i b = true) ∧ (s.dev.atCode (.vrel i b) = true) ∧
    (b.k.toNat < 8) ∧ (k.held.contains b.k.toNat = true) :=
  ⟨iss, (eb 0xC1 0xC1 0 2), (fit (.vrel iss (eb 0xC1 0xC1 0 2)) sV2), blkV, pack0, it5, by decide +kernel, by decide +kernel,
    by decide +kernel, by decide +kernel, by decide +kernel⟩

theorem test_hypotheses_EngineOwnershipAndTokens_0_2 : ∃ i : Issue, ∃ b : EngBody, ∃ s : State, ∃ k : KBlock, ∃ x : Pack,
    ∃ it : Item, (s.dev.issuer s.plat i = some (k, x, it)) ∧ (engOwnOk i b = true) ∧ (s.dev.atCode (.vrel i b) = true) ∧
    (b.k.toNat < 8) ∧ (k.held.contains b.k.toNat = false) :=
  ⟨iss, (eb 0xC1 0xC1 0 2), (fit (.vrel iss (eb 0xC1 0xC1 0 2)) sB), blk0, pack0, it5, by decide +kernel, by decide +kernel,
    by decide +kernel, by decide +kernel, by decide +kernel⟩

theorem test_hypotheses_EngineOwnershipAndTokens_0_3_0 : ∃ i : Issue, ∃ b : EngBody, ∃ s : State, ∃ k : KBlock, ∃ x : Pack,
    ∃ it : Item, (s.dev.issuer s.plat i = some (k, x, it)) ∧ (engOwnOk i b = true) ∧ (s.dev.atCode (.vsync i b) = true) ∧
    (b.k.toNat < 8) ∧ (
      let v := s.dev.vecEng k.die b.k.toNat
      let idle := ¬(v.holder = some (i.pack / 16) ∧ v.stream = true) ∧
        ∀ o ∈ s.dev.ports.out, o.ctx = k.ctx → o.seq = k.seq → o.write = true → o.use ≠ .store
      (idle)) :=
  ⟨iss, (eb 0xC1 0xC1 0 2), (fit (.vsync iss (eb 0xC1 0xC1 0 2)) sB), blk0, pack0, it5, by decide +kernel, by decide +kernel,
    by decide +kernel, by decide +kernel, by decide +kernel⟩

theorem test_hypotheses_EngineOwnershipAndTokens_0_3_1 : ∃ i : Issue, ∃ b : EngBody, ∃ s : State, ∃ k : KBlock, ∃ x : Pack,
    ∃ it : Item, (s.dev.issuer s.plat i = some (k, x, it)) ∧ (engOwnOk i b = true) ∧ (s.dev.atCode (.vsync i b) = true) ∧
    (b.k.toNat < 8) ∧ (
      let v := s.dev.vecEng k.die b.k.toNat
      let idle := ¬(v.holder = some (i.pack / 16) ∧ v.stream = true) ∧
        ∀ o ∈ s.dev.ports.out, o.ctx = k.ctx → o.seq = k.seq → o.write = true → o.use ≠ .store
      (¬idle)) :=
  ⟨iss, (eb 0xC1 0xC1 0 2),
    (fit (.vsync iss (eb 0xC1 0xC1 0 2)) (withDev (withBlock fun _ => blkV) fun d => d.updVe 0 2 fun v => { v with holder := some 0, stream := true })),
    blkV, pack0, it5, by decide +kernel, by decide +kernel, by decide +kernel, by decide +kernel,
    fun h => h.1 (by decide +kernel)⟩

theorem test_hypotheses_EngineOwnershipAndTokens_1 : ∃ i : Issue, ∃ b : EngBody, ∃ s : State, ∃ k : KBlock, ∃ x : Pack, ∃ it : Item,
    ∃ y : Token, ∃ st : Status, (issues s (.engWait i b) i k x it) ∧ (engWaitOk i b = true) ∧
    (k.tokens.find? (fun y => y.tok == (opnd x none 0 b.src).toNat) = some y) ∧ (y.status = some st) ∧
    (coreSound s.dev k.die k.core) :=
  ⟨iss, (eb 0x86 0x82 0 0), (fit (.engWait iss (eb 0x86 0x82 0 0)) sT), blkT, pack0, it5, ⟨9, 2^32, some .ok⟩, .ok,
    by unfold issues; decide +kernel, by decide +kernel, by decide +kernel, by decide +kernel,
    coreSoundWhen (by decide +kernel)⟩

theorem test_hypotheses_EngineOwnershipAndTokens_2 : ∃ i : Issue, ∃ b : SpecBody, ∃ s : State, ∃ k : KBlock, ∃ x : Pack,
    ∃ it : Item, (issues s (.movsr i b) i k x it) ∧ (b.sr.toNat ≤ 0x0D) ∧ ((specFields b).ok k.tregs i = true) :=
  ⟨iss, ⟨6, 3, 0⟩, (fit (.movsr iss ⟨6, 3, 0⟩) sB), blk0, pack0, it5, by unfold issues; decide +kernel, by decide +kernel,
    by decide +kernel⟩

theorem test_hypotheses_InputPowerStartsAndStopsThePart_0 : ∃ s : State, ∃ mv : Nat, ∃ o : Bool, (s.plat.pow.alwaysOn = false) ∧
    (40000 ≤ mv) :=
  ⟨sOff2, 48000, true, by decide +kernel, by decide +kernel⟩

theorem test_hypotheses_InputPowerStartsAndStopsThePart_1 : ∃ s : State, ∃ mv : Nat, ∃ j b : Bool, ∃ a : BitVec 3,
    ∃ x : Bool, (s.plat.pow.stage = .waitGood) ∧ (57000 ≤ mv) ∧ (mv ≤ 72000) :=
  ⟨(atStage sBx .waitGood), 57000, true, true, 3, true, by decide +kernel, by decide +kernel, by decide +kernel⟩

theorem test_hypotheses_InputPowerStartsAndStopsThePart_2 : ∃ s : State, (s.plat.pow.alwaysOn = true) :=
  ⟨(withMas sBx fun m => { m with lifePending := some .service }), by decide +kernel⟩

theorem test_hypotheses_InputPowerStartsAndStopsThePart_3 : ∃ s : State, ∃ c : Instr, ∃ mv : Nat, (s.plat.pow.good = true) ∧
    (c = .inputUndervoltageFault mv ∧ 40000 ≤ mv ∧ mv < 55000 ∨ c = .inputOvervoltageFault mv ∧ 72000 < mv) :=
  ⟨sBx, (.inputOvervoltageFault 72001), 72001, by decide +kernel, by decide +kernel⟩

theorem test_hypotheses_BringUpPassesItsStages_0 : ∃ s : State, ∃ img : ImageCheck, (s.plat.pow.stage = .boot) ∧
    (s.plat.pow.romWait = false) :=
  ⟨(atStage sBx .boot), imgOk, by decide +kernel, by decide +kernel⟩

theorem test_hypotheses_BringUpPassesItsStages_2 : ∃ s : State, (s.plat.pow.stage = .firmware) :=
  ⟨(atStage (withMas sBx fun m => { m with node := 5, topo := 77, sysCfg := 3 }) .firmware), by decide +kernel⟩

theorem test_hypotheses_BringUpPassesItsStages_3 : ∃ s : State, (s.plat.pow.stage = .stackInit) :=
  ⟨(atStage sBx .stackInit), by decide +kernel⟩

theorem test_hypotheses_BringUpPassesItsStages_4 : ∃ s : State, ∃ bad : List (Nat × BitVec 16), (s.plat.pow.stage = .wipe) ∧
    (s.plat.pow.testing = true) :=
  ⟨(withPow (atStage sBx .wipe) fun p => { p with testing := true }), ([(9, 0xFFF), (300, 3)]), by decide +kernel,
    by decide +kernel⟩

theorem test_hypotheses_BringUpPassesItsStages_5 : ∃ s : State, (s.plat.pow.dramWiping = true) ∧ (s.plat.pow.refHold = false) :=
  ⟨(withPow (atStage sBx .wipe) fun p => { p with dramWiping := true, dieLevel := [] }), by decide +kernel, by decide +kernel⟩

theorem test_hypotheses_BringUpPassesItsStages_6 : ∃ s : State, (s.plat.pow.sramWiping = true) ∧ (s.plat.pow.refHold = false) :=
  ⟨(withPow (atStage sBx .wipe) fun p => { p with sramWiping := true }), by decide +kernel, by decide +kernel⟩

theorem test_hypotheses_BringUpPassesItsStages_7 : ∃ s : State, (s.plat.pow.stage = .link) ∧ (s.plat.pow.perst = false) ∧
    (s.plat.pow.refHold = false) ∧ (tapHolds s.plat.pow.tap = false) ∧ (s.plat.fuses.life ≠ .decommissioned) :=
  ⟨(atStage sBx .link), by decide +kernel, by decide +kernel, by decide +kernel, by decide +kernel, by decide +kernel⟩

theorem test_hypotheses_WarmResetsBeginAndAreHeld_0 : ∃ s : State, (s.plat.pow.stage = .ready) :=
  ⟨sBx, by decide +kernel⟩

theorem test_hypotheses_WarmResetsBeginAndAreHeld_0_2 : ∃ s : State, (s.plat.pow.stage = .ready) ∧ (s.plat.pow.alwaysOn = true) :=
  ⟨sBx, by decide +kernel, by decide +kernel⟩

theorem test_hypotheses_WarmResetsBeginAndAreHeld_1 : ∃ s : State, ∃ i : TapInstr, (s.plat.pow.alwaysOn = true) ∧ (tapHolds i = false) :=
  ⟨sBx, .debug, by decide +kernel, by decide +kernel⟩

theorem test_hypotheses_SealWindowAndThermalEvents_0_0 : ∃ s : State, (s.plat.pow.alwaysOn = true) ∧ (s.plat.fuses.sealBroken = false) ∧
    (s.plat.pow.stage = .ready) :=
  ⟨sBx, by decide +kernel, by decide +kernel, by decide +kernel⟩

theorem test_hypotheses_SealWindowAndThermalEvents_0_1 : ∃ s : State, (s.plat.pow.alwaysOn = true) ∧ (s.plat.mas.button = false) ∧
    (¬(s.plat.pow.stage = .boot ∧ s.plat.pow.romWait = true)) :=
  ⟨sBx, by decide +kernel, by decide +kernel, by decide +kernel⟩

theorem test_hypotheses_SealWindowAndThermalEvents_0_2 : ∃ s : State, (s.plat.pow.alwaysOn = true) ∧ (s.plat.pow.stage = .boot) ∧
    (s.plat.pow.romWait = true) :=
  ⟨(withPow (atStage sBx .boot) fun p => { p with romWait := true }), by decide +kernel, by decide +kernel, by decide +kernel⟩

theorem test_hypotheses_SealWindowAndThermalEvents_0_3 : ∃ s : State, (s.plat.mas.button = true) :=
  ⟨(withMas sBx fun m => { m with button := true }), by decide +kernel⟩

theorem test_hypotheses_SealWindowAndThermalEvents_1_0 : ∃ s : State, ∃ temps : List (Nat × Nat),
    ∃ inlet : Option Nat, (s.plat.pow.good = true) ∧ (s.plat.pow.stage ≠ .tripHold) ∧
    (∃ e ∈ (sampled s temps inlet).dieTemp, 105 ≤ e.2) :=
  ⟨sBx, ([(3, 106)]), none, by decide +kernel, by decide +kernel, by decide +kernel⟩

theorem test_hypotheses_SealWindowAndThermalEvents_1_1 : ∃ s : State, ∃ temps : List (Nat × Nat), ∃ inlet : Option Nat,
      let p := sampled s temps inlet
      (s.plat.pow.alwaysOn = true) ∧ (s.plat.pow.stage ≠ .tripHold) ∧ (∀ e ∈ p.dieTemp, e.2 < 105) ∧
      ((∃ e ∈ p.dieTemp, 100 ≤ e.2) ∨ 450 < p.inlet) :=
  ⟨sBx, ([(44, 104)]), (some 300), by decide +kernel, by decide +kernel, by decide +kernel, by decide +kernel⟩

theorem test_hypotheses_SealWindowAndThermalEvents_1_2 : ∃ s : State, ∃ temps : List (Nat × Nat), ∃ inlet : Option Nat,
      let p := sampled s temps inlet
      (s.plat.pow.alwaysOn = true) ∧ (s.plat.pow.stage ≠ .tripHold) ∧ (p.emergency = true) ∧ (∀ e ∈ p.dieTemp, e.2 ≤ 95) ∧
      (p.inlet ≤ 440) ∧ (99 ≤ p.coolMs) :=
  ⟨(withPow sBx fun p => { p with emergency := true, coolMs := 99, inlet := 300 }), ([(3, 95)]), none, by decide +kernel,
    by decide +kernel, by decide +kernel, by decide +kernel, by decide +kernel, by decide +kernel⟩

theorem test_hypotheses_SealWindowAndThermalEvents_1_3 : ∃ s : State, ∃ temps : List (Nat × Nat), ∃ inlet : Option Nat,
      let p := sampled s temps inlet
      (s.plat.pow.alwaysOn = true) ∧ (s.plat.pow.stage = .tripHold) :=
  ⟨(withPow sBx fun p => { p with stage := .tripHold }), ([(3, 95)]), none, by decide +kernel, by decide +kernel⟩

theorem test_hypotheses_SealWindowAndThermalEvents_1_4 : ∃ s : State, (s.plat.pow.stage = .tripHold) ∧ (1000 ≤ s.plat.pow.coolMs) :=
  ⟨(withPow sBx fun p => { p with stage := .tripHold, coolMs := 1000 }), by decide +kernel, by decide +kernel⟩

theorem test_hypotheses_SleepGatingAndWake_0 : ∃ s : State, (sleepReady s = true) :=
  ⟨sSl, by decide +kernel⟩

theorem test_hypotheses_SleepGatingAndWake_1 : ∃ s : State, ∃ u : UnitId, (u.unit < 40) ∧
    ((FMap.get 3 s.plat.pow.dieLevel u.die).toNat < 2) ∧ (s.dev.unitBusy u = false) :=
  ⟨sIdle, ⟨0, 7⟩, by decide +kernel, by decide +kernel, by decide +kernel⟩

theorem test_hypotheses_SleepGatingAndWake_2 : ∃ s : State, ∃ die i : Nat, (s.plat.pow.pllIdle ≠ 0) ∧
    (FMap.get 3 s.plat.pow.dieLevel die = 1) ∧ (∀ v, v < 40 → FMap.get false s.plat.pow.gated (64 * die + v) = true) ∧
    (s.dev.sliceOf die = some i) ∧ ((s.dev.slice i).reserved = false) :=
  ⟨sGated, 1, 0, by decide +kernel, by decide +kernel, by decide +kernel, by decide +kernel, by decide +kernel⟩

theorem test_hypotheses_SleepGatingAndWake_3 : ∃ s : State, ∃ u : UnitId, (u.unit < 40) ∧
    ((FMap.get 3 s.plat.pow.dieLevel u.die).toNat < 2) ∧ (s.dev.unitBusy u = true ∨ (u.unit < 16 ∧
    ∃ i, s.dev.sliceOf u.die = some i ∧ (s.dev.slice i).steal ≠ [])) :=
  ⟨(withDev sB fun d => { d with eng := { d.eng with slices := [(0, { slice0 with steal := [1] })] } }), ⟨0, 15⟩,
    by decide +kernel, by decide +kernel, (Or.inr ⟨by decide, 0, by decide +kernel, by decide +kernel⟩)⟩

theorem test_hypotheses_SleepGatingAndWake_5 : ∃ s : State, ∃ i : Nat, (i < 40) ∧ (s.plat.pow.dieOff i = true) ∧
    ((s.dev.sliceOf i).isSome = true) :=
  ⟨(withPow sBx fun p => { p with dieLevel := [(1,0)] }), 0, by decide +kernel, by decide +kernel, by decide +kernel⟩

theorem test_hypotheses_SleepGatingAndWake_6 : ∃ s : State, ∃ h : Nat, (h ∈ [1, 2, 3]) ∧ (FMap.get false s.plat.pow.hubOff h = true) ∧
    (s.plat.pow.asleep = false) :=
  ⟨(withPow sBx fun p => { p with hubOff := [(1,true)] }), 1, by decide +kernel, by decide +kernel, by decide +kernel⟩

theorem test_hypotheses_ManagementCommandsAreChecked_0 : ∃ c : Instr, ∃ s : State, ∃ sid code : Nat,
    ∃ p : Bool, (mgmtRows s.plat.fuses.life c = some (sid, code, p)) ∧ (¬ heads s sid code) :=
  ⟨(.resume 1), sBx, 1, 67, false, by decide +kernel, by unfold heads; decide +kernel⟩

theorem test_hypotheses_ManagementCommandsAreChecked_1 : ∃ c : Instr, ∃ s : State, ∃ sid code : Nat,
    ∃ p : Bool, (mgmtRows s.plat.fuses.life c = some (sid, code, p)) ∧ (heads s sid code) :=
  ⟨(.topoSet 1 7 9), (q s2c 64), 1, 64, false, by decide +kernel, by unfold heads; decide +kernel⟩

theorem test_hypotheses_ManagementCommandsAreChecked_1_0 : ∃ c : Instr, ∃ s : State, ∃ sid code : Nat,
    ∃ p : Bool, (mgmtRows s.plat.fuses.life c = some (sid, code, p)) ∧ (heads s sid code) ∧ (¬ authentic s sid code) :=
  ⟨(.map 9 1 []), (withMas sBx fun m => { m with queue := [(9, 0x10)] }), 9, 0x10, false, by decide +kernel,
    by unfold heads; decide +kernel, by unfold authentic; decide +kernel⟩

theorem test_hypotheses_ManagementCommandsAreChecked_1_1 : ∃ c : Instr, ∃ s : State, ∃ sid code : Nat,
    ∃ p : Bool, (mgmtRows s.plat.fuses.life c = some (sid, code, p)) ∧ (heads s sid code) ∧ (authentic s sid code) ∧
    (¬ lifeTakes s code) :=
  ⟨(.map 1 1 []), (q (withFuses sBx fun f => { f with life := .provisioned }) 0x10), 1, 0x10, false, by decide +kernel,
    by unfold heads; decide +kernel, by unfold authentic; decide +kernel, by unfold lifeTakes; decide +kernel⟩

theorem test_hypotheses_ManagementCommandsAreChecked_1_2 : ∃ c : Instr, ∃ s : State, ∃ sid code : Nat,
    ∃ p : Bool, (mgmtRows s.plat.fuses.life c = some (sid, code, p)) ∧ (heads s sid code) ∧ (p = true) ∧
    (s.plat.mas.window = false) :=
  ⟨(.debugUnlock 1), (q sBx 0x71), 1, 0x71, true, by decide +kernel, by unfold heads; decide +kernel, by decide +kernel,
    by decide +kernel⟩

theorem test_hypotheses_ContextsAreCreatedOpenedAndKilled_0 : ∃ s : State, ∃ sid c h : Nat, ∃ resv : Option Nat,
    ∃ seed : Option Dword, (granted s sid 0x01 false) ∧ (c < 4096) ∧ ((s.dev.ctx c).st = .free) ∧
    (s.dev.sliceIs false h = true) ∧ (∀ i, resv = some i → s.dev.sliceIs true i = true) ∧ (∃ u, s.dev.poolFree u = true) :=
  ⟨(withDev (q sSeg 1) fun d => d.setCtx 1 Ctx.free), 1, 1, 0, none, none,
    by unfold granted; unfold heads; unfold lifeTakes; unfold authentic; first | decide +kernel | ((repeat' apply And.intro) <;> first | decide +kernel | rfl | exact ⟨_, rfl⟩ | decide +kernel),
    by first | decide +kernel | ((repeat' apply And.intro) <;> first | decide +kernel | rfl | exact ⟨_, rfl⟩ | decide +kernel),
    by first | decide +kernel | ((repeat' apply And.intro) <;> first | decide +kernel | rfl | exact ⟨_, rfl⟩ | decide +kernel),
    by first | decide +kernel | ((repeat' apply And.intro) <;> first | decide +kernel | rfl | exact ⟨_, rfl⟩ | decide +kernel),
    (by intro i h; cases h), (⟨3, by decide +kernel⟩)⟩

theorem test_hypotheses_ContextsAreCreatedOpenedAndKilled_1 : ∃ s : State, ∃ sid c : Nat, (granted s sid 0x02 false) ∧
    ((s.dev.ctx c).st = .frozen) :=
  ⟨(q (sFr .frozen) 2), 1, 1,
    by unfold granted; try unfold authentic; try unfold heads; try unfold lifeTakes; decide +kernel, by decide +kernel⟩

theorem test_hypotheses_ContextsAreCreatedOpenedAndKilled_2 : ∃ s : State, ∃ sid c : Nat, (granted s sid 0x03 false) ∧
    ((s.dev.ctx c).st = .opened) :=
  ⟨(q (sFr .opened) 3), 1, 1,
    by unfold granted; try unfold authentic; try unfold lifeTakes; try unfold heads; decide +kernel, by decide +kernel⟩

theorem test_hypotheses_ContextsAreCreatedOpenedAndKilled_3 : ∃ s : State, ∃ sid c : Nat, (granted s sid 0x04 false) ∧
    ((s.dev.ctx c).st = .opened ∨ (s.dev.ctx c).st = .frozen) :=
  ⟨(q (sFr .opened) 4), 1, 1,
    by unfold granted; try unfold authentic; try unfold lifeTakes; try unfold heads; decide +kernel, by decide +kernel⟩

theorem test_hypotheses_ContextsAreCreatedOpenedAndKilled_4 : ∃ s : State, ∃ sid c : Nat, (granted s sid 0x05 false) ∧
    (s.dev.sharesOut c (fun _ => true) = false) ∧
    ((s.dev.ctx c).st = .opened ∨ (s.dev.ctx c).st = .frozen ∨ (s.dev.ctx c).st = .killed) :=
  ⟨(q (sFr .opened) 5), 1, 1,
    by unfold granted; try unfold authentic; try unfold lifeTakes; try unfold heads; decide +kernel, by decide +kernel,
    by decide +kernel⟩

theorem test_hypotheses_ContextsAreCreatedOpenedAndKilled_5 : ∃ s : State, ∃ sid c : Nat, ∃ f : CtxField, (granted s sid 0x06 false) ∧
    (fieldOpen s.dev c f = true) ∧ (fieldOk s.dev f = true) :=
  ⟨(withDev (q (sFr .frozen) 6) fun d => { d with hub := { d.hub with items := [] } }), 1, 1, (.seed 5),
    by unfold granted; try unfold authentic; try unfold lifeTakes; try unfold heads; decide +kernel, by decide +kernel,
    by decide +kernel⟩

theorem test_hypotheses_TeardownReleasesAndWipesAContext_0 : ∃ s : State, ∃ c : Nat, ((s.dev.ctx c).st = .teardown) ∧
    ((s.dev.ctx c).step = 1) ∧ (s.dev.window c = 0) :=
  ⟨
    (withDev (withDev sSeg fun d => { d with hub := { d.hub with items := [], windows := [(3, some (1, 0)), (4, some (2, 0))] } }) fun d => (d.setGroup 5 { d.group 5 with en := true, owner := 1 }).updCtx 1 fun c => { c with st := .teardown, step := 1 }),
    1, by decide +kernel, by decide +kernel, by decide +kernel⟩

theorem test_hypotheses_TeardownReleasesAndWipesAContext_1 : ∃ s : State, ∃ c : Nat, ((s.dev.ctx c).st = .teardown) ∧
    ((s.dev.ctx c).step = 2) :=
  ⟨(withDev sSeg fun d => d.updCtx 1 fun c => { c with st := .teardown, step := 2 }), 1, by decide +kernel, by decide +kernel⟩

theorem test_hypotheses_MappingFollowsThePageTables_0 : ∃ s : State, ∃ sid c : Nat, ∃ p : MapPage, (granted s sid 0x10 false) ∧
    (c < 4096) ∧ ((s.dev.ctx c).live = true) ∧ (pageOk p = true) ∧ ((s.dev.ctx c).vacant p = true) ∧
    (pteLeaf (pte (s.dev.ctx c) 0 39 p.va) = false) ∧ (pteLeaf (pte (s.dev.ctx c) 1 30 p.va) = false) ∧
    (p.kind = .localMem → ∀ u ∈ pageUnits p, s.dev.poolFree u = true) ∧ (tableRoom s (pageUnits p)) :=
  ⟨(q sSeg 0x10), 1, 1, pgA, by unfold granted; unfold heads; unfold authentic; unfold lifeTakes; decide +kernel,
    by decide +kernel, by decide +kernel, by decide +kernel, by decide +kernel, by decide +kernel, by decide +kernel,
    by decide +kernel, (⟨[3, 4, 5], by decide +kernel, by decide +kernel, by decide +kernel⟩)⟩

theorem test_hypotheses_MappingFollowsThePageTables_1 : ∃ s : State, ∃ sid c va e sh : Nat, (granted s sid 0x11 false) ∧
    ((s.dev.ctx c).live = true) ∧ (walk (s.dev.ctx c) va = some (e, sh)) ∧ (leafOf e c = true) ∧
    (s.dev.sharesOut c (fun p => (leafUnits e sh).contains p) = false) :=
  ⟨(q sSeg 0x11), 1, 1, 0, ((leaf 0 32 1).toNat), 21,
    by unfold granted; try unfold authentic; try unfold heads; try unfold lifeTakes; decide +kernel, by decide +kernel,
    by decide +kernel, by decide +kernel, by decide +kernel⟩

theorem test_hypotheses_MappingFollowsThePageTables_2 : ∃ s : State, ∃ sid c va e sh : Nat, (granted s sid 0x11 false) ∧
    ((s.dev.ctx c).live = true) ∧ (walk (s.dev.ctx c) va = some (e, sh)) ∧ (pteKind e ≠ 0) :=
  ⟨(q sSeg 0x11), 1, 1, 2097152, ((leaf 1 64 1).toNat), 21,
    by unfold granted; try unfold authentic; try unfold heads; try unfold lifeTakes; decide +kernel, by decide +kernel,
    by decide +kernel, by decide +kernel⟩

theorem test_hypotheses_MappingFollowsThePageTables_3 : ∃ s : State, ∃ sid owner va c toVa : Nat, ∃ r w : Bool,
    ∃ e sh : Nat, (granted s sid 0x12 false) ∧ (owner < 4096) ∧ (owner ≠ c) ∧ ((s.dev.ctx owner).live = true) ∧
    ((s.dev.ctx c).live = true) ∧ (walk (s.dev.ctx owner) va = some (e, sh)) ∧ (leafOf e owner = true) ∧
    (r = true → leafGrants e .read = true) ∧ (w = true → leafGrants e .write = true) ∧ (
      let p : MapPage := ⟨toVa, sh == 21, .localMem, r, w, bitsOf e 51 16, 0, 0, 0⟩
      (pageOk p = true) ∧ ((s.dev.ctx c).vacant p = true) ∧ (pteLeaf (pte (s.dev.ctx c) 0 39 toVa) = false) ∧
      (pteLeaf (pte (s.dev.ctx c) 1 30 toVa) = false) ∧ (tableRoom s [])) :=
  ⟨(q s2c 0x12), 1, 1, 0x10, 2, 0x600000, true, false, ((leaf 0 32 1).toNat), 21,
    by unfold granted; unfold heads; unfold authentic; unfold lifeTakes; decide +kernel, by decide +kernel, by decide +kernel,
    by decide +kernel, by decide +kernel, by decide +kernel, by decide +kernel, by decide +kernel, by decide +kernel,
    by decide +kernel, by decide +kernel, by decide +kernel, by decide +kernel,
    (⟨[3, 4, 5], by decide +kernel, by decide +kernel, by decide +kernel⟩)⟩

theorem test_hypotheses_MappingFollowsThePageTables_4 : ∃ s : State, ∃ sid c va e sh : Nat, (granted s sid 0x13 false) ∧
    ((s.dev.ctx c).live = true) ∧ (walk (s.dev.ctx c) va = some (e, sh)) ∧ (pteKind e = 0) ∧ (leafOf e c = false) :=
  ⟨(withDev (q s2c 0x13) fun d => d.updCtx 2 fun c => { c with pt := ctx1.pt }), 1, 2, 0, ((leaf 0 32 1).toNat), 21,
    by unfold granted; try unfold authentic; try unfold lifeTakes; try unfold heads; decide +kernel, by decide +kernel,
    by decide +kernel, by decide +kernel, by decide +kernel⟩

theorem test_hypotheses_BindingsGrantsAndPowerSettings_0 : ∃ s : State, ∃ sid w : Nat, ∃ c : Option Nat,
    ∃ base : Nat, (granted s sid 0x14 false) ∧ (w < 64) ∧ (base < 2 ^ 52) ∧ (∀ k, c = some k → (s.dev.ctx k).live = true) :=
  ⟨(q sSeg 0x14), 1, 63, none, 0,
    by unfold granted; try unfold authentic; try unfold lifeTakes; try unfold heads; decide +kernel, by decide +kernel,
    by decide +kernel, by decide +kernel⟩

theorem test_hypotheses_BindingsGrantsAndPowerSettings_1 : ∃ s : State, ∃ sid c : Nat, ∃ g : PeerGrant,
    ∃ rev : Bool, (granted s sid 0x15 false) ∧ ((s.dev.ctx c).st ≠ .free) ∧ (g.node < 4096) ∧ (g.ctx < 4096) ∧ (
      let others := (s.dev.ctx c).grants.filter fun y => !(y.node == g.node && y.ctx == g.ctx)
      (rev = true → others ≠ (s.dev.ctx c).grants) ∧ (rev = false → others.length < 64)) :=
  ⟨(q sSeg 0x15), 1, 1, ⟨3, 4, true, false, true⟩, false,
    by unfold granted; try unfold authentic; try unfold lifeTakes; try unfold heads; decide +kernel, by decide +kernel,
    by decide +kernel, by decide +kernel, by decide +kernel, by decide +kernel⟩

theorem test_hypotheses_BindingsGrantsAndPowerSettings_2 : ∃ s : State, ∃ sid : Nat, ∃ cap : Option Nat,
    ∃ caps floors : List (Nat × Nat), (granted s sid 0x30 false) ∧ (
      let p := s.plat.pow
      let put := fun (t : FMap Nat) (xs : List (Nat × Nat)) => xs.foldl (fun t e => FMap.set 0 t e.1 e.2) t
      (∀ e ∈ caps ++ floors, e.1 < 16) ∧
      (powerOk (cap.getD p.moduleCap) (put p.sliceCap caps) (put p.sliceFloor floors) = true)) :=
  ⟨(q sSeg 0x30), 1, none, ([(0, 300), (3, 0)]), ([]),
    by unfold granted; try unfold authentic; try unfold lifeTakes; try unfold heads; decide +kernel, by decide +kernel,
    by decide +kernel⟩

theorem test_hypotheses_BindingsGrantsAndPowerSettings_3 : ∃ s : State, ∃ sid node : Nat, ∃ topo : Word, (granted s sid 0x40 false) ∧
    (∀ p, p < 6 → (s.dev.port p).blk.st = .off) ∧ (node < 4096) :=
  ⟨(q sSeg 0x40), 1, 4095, 0xFFFFFFFF,
    by unfold granted; try unfold authentic; try unfold lifeTakes; try unfold heads; decide +kernel, by decide +kernel,
    by decide +kernel⟩

theorem test_hypotheses_BindingsGrantsAndPowerSettings_4 : ∃ s : State, ∃ sid : Nat, ∃ cfg : Word, (granted s sid 0x41 false) :=
  ⟨(q sSeg 0x41), 1, 6, by unfold granted; try unfold authentic; try unfold lifeTakes; try unfold heads; decide +kernel⟩

theorem test_hypotheses_BindingsGrantsAndPowerSettings_5 : ∃ s : State, ∃ sid : Nat, ∃ b : Bool, (granted s sid 0x50 false) :=
  ⟨(q sSeg 0x50), 1, true, by unfold granted; try unfold authentic; try unfold lifeTakes; try unfold heads; decide +kernel⟩

theorem test_hypotheses_SlicesAreCreatedChangedAndDestroyed_0 : ∃ s : State, ∃ sid i : Nat,
    ∃ p : SliceParams, (granted s sid 0x20 false) ∧ ((s.dev.slice i).exists? = false) ∧ (s.dev.dieTaken i p = false) ∧
    (sliceFits s i p = true) :=
  ⟨(withPow (q sSeg 0x20) fun p => { p with asleep := true }), 1, 3, (slPar [5, 6]),
    by unfold granted; try unfold authentic; try unfold lifeTakes; try unfold heads; decide +kernel, by decide +kernel,
    by decide +kernel, by decide +kernel⟩

theorem test_hypotheses_SlicesAreCreatedChangedAndDestroyed_1 : ∃ s : State, ∃ sid i : Nat,
    ∃ p : SliceParams, (granted s sid 0x21 false) ∧ ((s.dev.slice i).exists? = true) ∧ (s.dev.named i = false) ∧
    (s.dev.dieTaken i p = false) ∧ (sliceFits s i p = true) ∧ (∃ d ∈ (s.dev.slice i).dies, d ∉ p.dies) :=
  ⟨(withDev (q sSeg 0x21) fun d => d.setCtx 1 Ctx.free), 1, 0, (slPar [0, 6]),
    by unfold granted; try unfold authentic; try unfold heads; try unfold lifeTakes; decide +kernel, by decide +kernel,
    by decide +kernel, by decide +kernel, by decide +kernel, by decide +kernel⟩

theorem test_hypotheses_SlicesAreCreatedChangedAndDestroyed_2 : ∃ s : State, ∃ sid i : Nat, (granted s sid 0x22 false) ∧
    ((s.dev.slice i).exists? = true) ∧ (s.dev.named i = false) :=
  ⟨(withDev (q sSeg 0x22) fun d => d.setCtx 1 Ctx.free), 1, 0,
    by unfold granted; try unfold authentic; try unfold heads; try unfold lifeTakes; decide +kernel, by decide +kernel,
    by decide +kernel⟩

theorem test_hypotheses_SlicesAreCreatedChangedAndDestroyed_3 : ∃ s : State, ∃ die i : Nat, (s.dev.sliceOf die = some i) ∧
    ((s.dev.slice i).blk.st = .stopping) ∧ ((s.dev.slice i).leaving.contains die = true) :=
  ⟨
    (withDev sSeg fun d => (d.updSlice 0 fun x => { x with blk := { x.blk with st := .stopping }, dies := [1], next := none }).mapMem fun m => { m with lines := [{ (default : DLine) with die := 1, line := 77, st := .modified, host := false, data := List.replicate 128 5 }] }),
    1, 0, by decide +kernel, by decide +kernel, by decide +kernel⟩

theorem test_hypotheses_SnapshotsFreezeAndResume_0 : ∃ s : State, ∃ sid : Nat, (granted s sid 0x42 false) ∧ (s.dev.reel.snap = 0) ∧
    (s.dev.reel.sysCfg.toNat % 16 = 15) ∧ (FMap.wf Ctx.free s.dev.hub.ctxs) :=
  ⟨(withDev (q s2c 0x42) fun d => { d with reel := { d.reel with sysCfg := 15 } }), 1,
    by unfold granted; try unfold authentic; try unfold lifeTakes; try unfold heads; decide +kernel, by decide +kernel,
    by decide +kernel, by decide +kernel⟩

theorem test_hypotheses_SnapshotsFreezeAndResume_1 : ∃ s : State, (s.dev.reel.snapRoot = true) ∧ (s.dev.reel.snap = 1) ∧
    (s.dev.snapDrained = true) :=
  ⟨
    (withMas (withDev s2c fun d => { d with reel := { d.reel with snap := 1, snapRoot := true }, hub := { d.hub with items := [] } }) fun m => { m with lastLong := some (0x42, true, none) }),
    by decide +kernel, by decide +kernel, by decide +kernel⟩

theorem test_hypotheses_SnapshotsFreezeAndResume_2 : ∃ s : State, ∃ sid : Nat, (granted s sid 0x43 false) ∧ (s.dev.reel.snapRoot = true) ∧
    (s.dev.reel.snap = 2) :=
  ⟨
    (withDev (q (sFr .frozen) 0x43) fun d => { d with reel := { d.reel with snap := 2, snapRoot := true }, hub := { d.hub with snapFrozen := [1, 7] } }),
    1, by unfold granted; try unfold authentic; try unfold lifeTakes; try unfold heads; decide +kernel, by decide +kernel,
    by decide +kernel⟩

theorem test_hypotheses_SnapshotsFreezeAndResume_3 : ∃ s : State, ∃ sid : Nat, (granted s sid 0x44 false) ∧ (s.plat.pow.stage = .ready) :=
  ⟨(q sSeg 0x44), 1, by unfold granted; try unfold authentic; try unfold lifeTakes; try unfold heads; decide +kernel,
    by decide +kernel⟩

theorem test_hypotheses_SnapshotsFreezeAndResume_4 : ∃ s : State, ∃ sid : Nat, (granted s sid 0x74 false) ∧ (s.plat.pow.stage = .ready) :=
  ⟨(q sSeg 0x74), 1, by unfold granted; try unfold authentic; try unfold lifeTakes; try unfold heads; decide +kernel,
    by decide +kernel⟩

theorem test_hypotheses_LifeCycleDebugAndOwnerKey_0 : ∃ s : State, ∃ sid : Nat, ∃ dest : Life, ∃ key : Nat,
      let f := s.plat.fuses
      (granted s sid 0x70 (f.life != .blank)) ∧ (s.dev.allFree = true) ∧ (s.plat.mas.lifePending = none) ∧ (f.life = .blank ∧
      dest = .provisioned ∨ f.life = .provisioned ∧ dest = .owned ∧ f.ownerUsed < 8 ∨ f.life = .owned ∧ dest = .service ∧
      f.serviceUsed < 16 ∨ f.life = .service ∧ dest = .owned ∧
      (∀ n, s.plat.mas.keyOf sid ≠ .service n) ∨ (f.life = .service ∨ f.life = .owned) ∧
      dest = .provisioned ∨ (f.life = .provisioned ∨ f.life = .owned ∨ f.life = .service) ∧ dest = .decommissioned) :=
  ⟨
    (withMas (withFuses (withDev (qw sSeg 0x70) fun d => d.setCtx 1 Ctx.free) fun f => { f with life := .owned, serviceUsed := 15 }) fun m => { m with button := true }),
    1, .service, 3, by unfold granted; unfold authentic; unfold lifeTakes; unfold heads; decide +kernel, by decide +kernel,
    by decide +kernel, (Or.inr (Or.inr (Or.inl (by decide +kernel))))⟩

theorem test_hypotheses_LifeCycleDebugAndOwnerKey_1 : ∃ s : State, ∃ sid : Nat, (granted s sid 0x71 true) ∧
    (s.plat.fuses.life = .owned ∨ s.plat.fuses.life = .service) ∧ (s.plat.fuses.debugLocked = false) ∧
    (s.dev.allFree = true) ∧ (s.plat.pow.stage = .ready) :=
  ⟨(withDev (qw sSeg 0x71) fun d => d.setCtx 1 Ctx.free), 1,
    by unfold granted; try unfold authentic; try unfold lifeTakes; try unfold heads; decide +kernel, by decide +kernel,
    by decide +kernel, by decide +kernel, by decide +kernel⟩

theorem test_hypotheses_LifeCycleDebugAndOwnerKey_2 : ∃ s : State, ∃ sid key : Nat, (granted s sid 0x72 true) ∧
    (s.plat.fuses.life = .owned) :=
  ⟨(withMas (qw sSeg 0x72) fun m => { m with button := true }), 1, 9,
    by unfold granted; unfold authentic; unfold lifeTakes; unfold heads; decide +kernel, by decide +kernel⟩

theorem test_hypotheses_LifeCycleDebugAndOwnerKey_3 : ∃ s : State, ∃ sid : Nat, (granted s sid 0x73 false) :=
  ⟨(withMas (qw sSeg 0x73) fun m => { m with jumper := true }), 1,
    by unfold granted; try unfold authentic; try unfold lifeTakes; try unfold heads; decide +kernel⟩

theorem test_hypotheses_LifeCycleDebugAndOwnerKey_4 : ∃ s : State, ∃ sid : Nat, (granted s sid 0x60 false) :=
  ⟨(q sSeg 0x60), 1, by unfold granted; try unfold authentic; try unfold heads; try unfold lifeTakes; decide +kernel⟩

theorem test_hypotheses_LifeCycleDebugAndOwnerKey_5 : ∃ s : State, ∃ sid : Nat, (granted s sid 0x62 false) :=
  ⟨(q sSeg 0x62), 1, by unfold granted; try unfold authentic; try unfold heads; try unfold lifeTakes; decide +kernel⟩

theorem test_hypotheses_TheManagementPortAnswers_0 : ∃ s : State, ∃ typ sid : Nat, (s.plat.pow.portUp = true) :=
  ⟨sSeg, 0, 1, by decide +kernel⟩

theorem test_hypotheses_TheManagementPortAnswers_1 : ∃ s : State, ∃ a : BitVec 7, (s.plat.pow.alwaysOn = true) :=
  ⟨sSeg, 33, by decide +kernel⟩

theorem test_hypotheses_TheManagementPortAnswers_2 : ∃ s : State, ∃ e : Byte, (s.plat.pow.portUp = true) :=
  ⟨sSeg, 33, by decide +kernel⟩

theorem test_hypotheses_TheManagementPortAnswers_3 : ∃ s : State, ∃ sid : Nat, ∃ k : ReqKey, (s.plat.pow.mastiffUp = true) :=
  ⟨sSeg, 1, .other, by decide +kernel⟩

theorem test_hypotheses_TheManagementPortAnswers_5 : ∃ s : State, ∃ w : Sensor, ∃ v : Nat, (s.plat.pow.mastiffUp = true) ∧
    (w ≠ .lifeCycle) ∧ (s.plat.mas.sensors.find? (fun e => e.1 == w) = some (w, v)) :=
  ⟨(withMas sSeg fun m => { m with sensors := [(.inlet, 5)] }), .inlet, 5, by decide +kernel, by decide +kernel,
    by decide +kernel⟩

theorem test_hypotheses_TheManagementPortAnswers_6 : ∃ s : State, ∃ w : Sensor, ∃ v : Nat, (s.plat.pow.alwaysOn = true) :=
  ⟨sSeg, .power, 99, by decide +kernel⟩

theorem test_hypotheses_TheManagementPortAnswers_7 : ∃ s : State, ∃ sid : Nat, (s.plat.pow.mastiffUp = true) ∧
    ((s.plat.mas.session sid).isSome = true) ∧ (s.plat.pow.linkUp = true) ∧ (s.plat.fuses.life ≠ .decommissioned) :=
  ⟨sSeg, 1, by decide +kernel, by decide +kernel, by decide +kernel, by decide +kernel⟩

theorem test_hypotheses_TheManagementPortAnswers_8 : ∃ s : State, ∃ sid : Nat, ∃ img : ImageCheck, (s.plat.pow.mastiffUp = true) ∧
    (ownerSession s sid = true) ∧ (s.plat.mas.flashBusy = none) :=
  ⟨sSeg, 1, imgOk, by decide +kernel, by decide +kernel, by decide +kernel⟩

theorem test_hypotheses_TheManagementPortAnswers_9 : ∃ s : State, ∃ v : ImageCheck, (s.plat.mas.flashBusy = some v) :=
  ⟨(withMas sBx fun m => { m with flashBusy := some imgOk }), imgOk, by decide +kernel⟩

theorem test_hypotheses_TheManagementPortAnswers_10 : ∃ s : State, ∃ img : ImageCheck, (s.plat.pow.stage = .recovery) ∧
    (s.plat.mas.window = true) ∧ (imageOk s.plat.fuses img = true) :=
  ⟨(atStage (withMas sSeg fun m => { m with button := true }) .recovery), imgOk, by decide +kernel, by decide +kernel,
    by decide +kernel⟩

theorem test_hypotheses_TheManagementPortAnswers_11 : ∃ s : State, ∃ sid code : Nat, (s.plat.pow.mastiffUp = true) ∧
    (listedCode code = false) ∧ (s.plat.fuses.life = .blank → code ≠ 0x70) :=
  ⟨sBx, 1, 0x77, by decide +kernel, by decide +kernel, by decide +kernel⟩

theorem test_hypotheses_EnablesMoveBlocksOrAreRejected_0_0 : ∃ s : State, ∃ who : Requester, ∃ b : Block, (blockExists b = true) ∧
    (plainBlock b = true) ∧ (enableReason s b true = none) :=
  ⟨(setBlk sR (.ups) ⟨.on, true, false⟩), .host, .ups, by decide +kernel, by decide +kernel, by decide +kernel⟩

theorem test_hypotheses_EnablesMoveBlocksOrAreRejected_0_1 : ∃ s : State, ∃ who : Requester, ∃ b : Block, (blockExists b = true) ∧
    (plainBlock b = true) ∧ (enableReason s b false = none) :=
  ⟨(setBlk sR (.ups) ⟨.on, true, false⟩), .mastiff, .ups, by decide +kernel, by decide +kernel, by decide +kernel⟩

theorem test_hypotheses_EnablesMoveBlocksOrAreRejected_0_2 : ∃ s : State, ∃ b : Block, (blockExists b = true) ∧
    ((s.dev.blk b).st = .starting) ∧ (startReady s b = true) ∧ (b = .reel → s.dev.reel.held = []) :=
  ⟨(setBlk sR (.ups) ⟨.starting, true, false⟩), .ups, by decide +kernel, by decide +kernel, by decide +kernel,
    by decide +kernel⟩

theorem test_hypotheses_EnablesMoveBlocksOrAreRejected_0_3 : ∃ s : State, (s.dev.reel.blk.st = .starting) ∧ (s.dev.reel.blk.en = true) ∧
    (startReady s .reel = true) ∧ (s.plat.mas.running = none) :=
  ⟨(setBlk sR .reel ⟨.starting, true, false⟩), by decide +kernel, by decide +kernel, by decide +kernel, by decide +kernel⟩

theorem test_hypotheses_EnablesMoveBlocksOrAreRejected_0_4 : ∃ s : State, ∃ b : Block, (blockExists b = true) ∧
    ((s.dev.blk b).st = .stopping) ∧ (s.dev.drainedBlk b = true) :=
  ⟨(setBlk sR .ups ⟨.stopping, false, false⟩), .ups, by decide +kernel, by decide +kernel, by decide +kernel⟩

theorem test_hypotheses_EnablesMoveBlocksOrAreRejected_0_5 : ∃ s : State, ∃ who : Requester, ∃ c : Nat, (c < 4096) ∧
    ((s.dev.ctx c).st = .frozen ∨ (s.dev.ctx c).st = .opened) ∧ ((s.dev.ring c).blk.st = .off) :=
  ⟨(withDev sR fun d => d.updRing 1 fun g => { g with blk := ⟨.off, false, false⟩ }), .mastiff, 1, by decide +kernel,
    by decide +kernel, by decide +kernel⟩

theorem test_hypotheses_EnablesMoveBlocksOrAreRejected_0_6 : ∃ s : State, ∃ who : Requester, ∃ c : Nat, (c < 4096) ∧
    ((s.dev.ring c).blk.st = .on) :=
  ⟨sR, .mastiff, 1, by decide +kernel, by decide +kernel⟩

theorem test_hypotheses_EnablesMoveBlocksOrAreRejected_1_0 : ∃ s : State, ∃ who : Requester, ∃ b : Block, (blockExists b = true) ∧
    (plainBlock b = true ∧ (∀ i k, b = .re i k → presented (s.dev.re i k).bad ≠ 0) ∨ (∃ p, b = .pport p) ∨ ∃ c, b = .ring c) ∧
    ((s.dev.blk b).st = .stopping) :=
  ⟨(setBlk sR (.pport 3) ⟨.stopping, false, false⟩), .mastiff, (.pport 3), by decide +kernel, Or.inr (Or.inl ⟨3, rfl⟩),
    by decide +kernel⟩

theorem test_hypotheses_EnablesMoveBlocksOrAreRejected_1_1 : ∃ s : State, ∃ who : Requester, ∃ b : Block, (blockExists b = true) ∧
    (∃ i k, b = .re i k ∧ presented (s.dev.re i k).bad = 0) :=
  ⟨(withDev sR fun d => d.updRe 1 7 fun r => { r with bad := 0xFFFF }), .mastiff, (.re 1 7), by decide +kernel,
    ⟨1, 7, rfl, by decide +kernel⟩⟩

theorem test_hypotheses_EnablesMoveBlocksOrAreRejected_1_2 : ∃ s : State, ∃ who : Requester, ∃ b : Block, (blockExists b = true) ∧
    ((∃ i, b = .txb i ∧ ∃ j, j < 8 ∧ (s.dev.re i j).blk.st ≠ .off) ∨ (∃ i, b = .mem i ∧ ∃ j, j < 16 ∧
    (s.dev.slice j).exists? = true) ∨ (∃ i, b = .collie i ∧ ∃ x ∈ s.dev.collie.blocks, x.2.die = i) ∨ (∃ i, b = .dcache i ∧
    (s.dev.sliceOf i).isSome = true) ∨ (b = .reel ∧ ∃ g ∈ s.dev.reel.groups, g.2.gst = .active) ∨ (b = .ups ∧
    ∃ r ∈ s.dev.ups.runs, r.phase = .layers ∨ r.phase = .undoing)) :=
  ⟨sR, .mastiff, (.txb 0), by decide +kernel, Or.inl ⟨0, rfl, 0, by decide, by decide +kernel⟩⟩

theorem test_hypotheses_RegisterWritesCombineThroughAliases_0 : ∃ s : State, ∃ i : Nat, ∃ ws : List RegWrite, (i < 20) ∧ (ws ≠ []) ∧
    (∀ x ∈ ws, x.size = 4 ∧ x.offset / 16 * 16 = 0x80040 + 0x1000 * i ∧ x.offset % 4 = 0) :=
  ⟨sR, 0, ([⟨.host, 0x80044, 0x100, 4, 0⟩, ⟨.host, 0x80048, 0xF0, 4, 0⟩]), by decide +kernel, by decide +kernel,
    by decide +kernel⟩

theorem test_hypotheses_RegisterWritesCombineThroughAliases_1 : ∃ s : State, ∃ i : Nat, ∃ who : Requester, ∃ v : Word, (i < 20) ∧
    ((s.dev.memBlk i).blk.st = .off) :=
  ⟨sR, 1, .host, 0x0000003F, by decide +kernel, by decide +kernel⟩

theorem test_hypotheses_RegisterWritesCombineThroughAliases_2 : ∃ s : State, ∃ i : Nat, ∃ who : Requester, ∃ v : Word, (i < 20) ∧
    ((s.dev.memBlk i).blk.st ≠ .off) :=
  ⟨sR, 0, .host, 0x0000003F, by decide +kernel, by decide +kernel⟩

theorem test_hypotheses_RegisterWritesCombineThroughAliases_3 : ∃ s : State, ∃ off : Nat, ∃ v : Word, (0x10030 ≤ off) ∧ (off ≤ 0x10080) ∧
    (off % 16 = 0) :=
  ⟨sR, 0x10030, 7, by decide +kernel, by decide +kernel, by decide +kernel⟩

theorem test_hypotheses_RegisterWritesCombineThroughAliases_5 : ∃ s : State, ∃ ws : List RegWrite, (∀ x ∈ ws, 0x66000 ≤ x.offset ∧
    x.offset < 0x70000) :=
  ⟨sR, ([⟨.host, 0x66000, 1, 4, 0⟩, ⟨.host, 0x6FFFF, 1, 1, 0⟩]), by decide +kernel⟩

theorem test_hypotheses_DebugHaltsAndTheCounterWindow_0 : ∃ s : State, ∃ die k : Nat, ∃ h : Bool, (k < 8) :=
  ⟨(withDev (sR) fun d => d.updRe 0 0 fun r => {r with halted := true}), 0, 0, true, by decide +kernel⟩

theorem test_hypotheses_DebugHaltsAndTheCounterWindow_1 : ∃ s : State, ∃ die k : Nat, (k < 8) ∧ (s.plat.mas.debugMode = true) ∧
    ((s.dev.re die k).dbgHalt = true) ∧ ((s.dev.re die k).blk.st = .on ∨ (s.dev.re die k).blk.st = .stopping) :=
  ⟨(withDev (withMas sR fun m => {m with debugMode := true}) fun d => d.updRe 0 0 fun r => {r with dbgHalt := true}), 0, 0,
    by decide +kernel, by decide +kernel, by decide +kernel, by decide +kernel⟩

theorem test_hypotheses_DebugHaltsAndTheCounterWindow_1_0 : ∃ s : State, ∃ die k : Nat, (k < 8) ∧ (s.plat.mas.debugMode = true) ∧
    ((s.dev.re die k).dbgHalt = true) ∧ ((s.dev.re die k).blk.st = .on ∨ (s.dev.re die k).blk.st = .stopping) ∧
    ((s.dev.re die k).bank0.st = .free) ∧ ((s.dev.re die k).bank1.st = .free) :=
  ⟨(withDev (withMas sR fun m => {m with debugMode := true}) fun d => d.updRe 0 0 fun r => {r with dbgHalt := true}), 0, 0,
    by decide +kernel, by decide +kernel, by decide +kernel, by decide +kernel, by decide +kernel, by decide +kernel⟩

theorem test_hypotheses_DebugHaltsAndTheCounterWindow_2 : ∃ s : State, ∃ die c : Nat, ∃ h : Bool, (c < 16) :=
  ⟨(withDev (sR) fun d => d.updCore 0 0 fun r => {r with halted := true}), 0, 0, true, by decide +kernel⟩

theorem test_hypotheses_DebugHaltsAndTheCounterWindow_3 : ∃ s : State, ∃ die c : Nat, (c < 16) ∧ (s.plat.mas.debugMode = true) ∧
    ((s.dev.core die c).haltReq = true) :=
  ⟨(withDev (withMas sR fun m => {m with debugMode := true}) fun d => d.updCore 0 3 fun r => {r with haltReq := true}), 0, 3,
    by decide +kernel, by decide +kernel, by decide +kernel⟩

theorem test_hypotheses_DescriptorsAreFetchedAndChecked_0 : ∃ s : State, ∃ c : Nat,
      let g := s.dev.ring c
      let desc := (List.range 64).map fun i => s.dev.mem.hostByte (g.sqBase + 64 * g.sqHead + i)
      let it := newItem c g.nextSeq ((s.dev.ctx c).sliceFor (field desc 1 1 % 4)) desc (g.bellOf g.nextSeq s.plat.pow.time)
      ((s.dev.ctx c).st ≠ .opened ∨ g.blk.st ≠ .on ∨ g.sqHead = g.sqTail ∨ s.dev.reel.snap ≠ 0 ∨ 1024 ≤ s.dev.window c ∨ (16384 ≤ s.dev.windowAll ∧
      64 * (s.dev.slice (s.dev.nextSlice c)).ringShare ≤ (s.dev.hub.items.filter fun x => x.slice == s.dev.nextSlice c && !x.isWork).length) ∨ s.dev.fetchNext ≠ some c) :=
  ⟨sB, 1, Or.inr (Or.inr (Or.inl (by decide +kernel)))⟩

theorem test_hypotheses_DescriptorsAreFetchedAndChecked_1 : ∃ s : State, ∃ c : Nat,
      let g := s.dev.ring c
      let desc := (List.range 64).map fun i => s.dev.mem.hostByte (g.sqBase + 64 * g.sqHead + i)
      let it := newItem c g.nextSeq ((s.dev.ctx c).sliceFor (field desc 1 1 % 4)) desc (g.bellOf g.nextSeq s.plat.pow.time)
      (s.dev.fetchNext = some c) ∧ ((g.sqHead + 1) % g.sqSize = g.sqTail) :=
  ⟨(bell (host sT0 4194304 (leBytes 1 0 ++ dsc 0 0 [1] 5 ([])))), 1, by decide +kernel, by decide +kernel⟩

theorem test_hypotheses_ItemsAreDispatchedAndEnd_0 : ∃ s : State, ∃ c q : Nat, ∃ it : Item, (s.dev.item c q = some it) ∧
    (it.phase = .fetched) ∧ (it.isWork = false) ∧ (s.dev.depLost it = none) ∧ (s.dev.ready it = true) ∧
    (s.dev.outranked it = false) ∧ (it.deferBit = false) ∧ (it.typ = 0 ∨ it.typ = 5 ∨ it.typ = 6 ∨ it.typ = 7) :=
  ⟨(withIt sT0 (itd 5 0 .fetched 0 0 [] ([]))), 1, 5, (itd 5 0 .fetched 0 0 [] ([])), by decide +kernel, by decide +kernel,
    by decide +kernel, by decide +kernel, by decide +kernel, by decide +kernel, by decide +kernel, by decide +kernel⟩

theorem test_hypotheses_ItemsAreDispatchedAndEnd_1 : ∃ s : State, ∃ c q : Nat, ∃ it : Item, ∃ x : Nat, (s.dev.item c q = some it) ∧
    (it.phase = .fetched) ∧ (it.isWork = false) ∧ (s.dev.depLost it = some x) :=
  ⟨
    (withDev (withIt sT0 (itd 5 1 .fetched 2 0 [2, 1] [])) fun d => d.updRing 1 fun g => {g with outcomes := [(3, some (.ok, 5, false)), (4, some (.indexRange, 6, true))]}),
    1, 5, (itd 5 1 .fetched 2 0 [2, 1] []),
    ((withDev (withIt sT0 (itd 5 1 .fetched 2 0 [2, 1] [])) fun d => d.updRing 1 fun g => {g with outcomes := [(3, some (.ok, 5, false)), (4, some (.indexRange, 6, true))]}).dev.depLost (itd 5 1 .fetched 2 0 [2, 1] []) |>.getD 0),
    by decide +kernel, by decide +kernel, by decide +kernel, by decide +kernel⟩

theorem test_hypotheses_ItemsAreDispatchedAndEnd_2 : ∃ s : State, ∃ c q : Nat, ∃ it : Item, (s.dev.item c q = some it) ∧
    (s.dev.itemOver it = true) ∧ (it.typ = 3 → (s.dev.releaseSlice c q it.slice).2 = []) :=
  ⟨(withIt sT0 ({ itd 5 0 .done 8 0 [] [] with result := 77 })), 1, 5, ({ itd 5 0 .done 8 0 [] [] with result := 77 }),
    by decide +kernel, by decide +kernel, by decide +kernel⟩

theorem test_hypotheses_ContextFaultsKillAndAreRecorded_0 : ∃ s : State, ∃ c : Nat, ∃ f : FaultInfo,
    ∃ fs : List FaultInfo, ((s.dev.ctx c).st = .opened ∨ (s.dev.ctx c).st = .frozen) :=
  ⟨(withDev sT0 fun d => (d.updCtx 1 fun c => {c with st := .opened})), 1,
    ⟨.translation, 2, 3, 4, 33, 6, 0x900000, 3, 10, 11⟩, ([]), by decide +kernel⟩

theorem test_hypotheses_ContextFaultsKillAndAreRecorded_1 : ∃ s : State, ∃ c : Nat, ∃ fs : List FaultInfo, (fs ≠ []) ∧
    ((s.dev.ctx c).st = .killed ∨ (s.dev.ctx c).st = .teardown) :=
  ⟨(withDev sT0 fun d => (d.updCtx 1 fun c => {c with st := .killed, fault := {c.fault with extra := 0xFFFE}})), 1,
    ([⟨.translation, 2, 3, 4, 33, 6, 0x900000, 3, 10, 11⟩, ⟨.misaligned, 3, 1, 9, 5, 6, 7, 8, 9, 10⟩]), by decide +kernel,
    by decide +kernel⟩

theorem test_hypotheses_CompletionsAreWrittenAndInterruptsSent_0_0 : ∃ s : State, ∃ c : Nat, ∃ r : Record,
    ∃ rs : List Record, ((s.dev.ring c).waiting = r :: rs) ∧ (
      let g := s.dev.ring c
      let a := g.cqBase + 32 * g.cqTail
      ((g.cqTail + 1) % 2 ^ g.cqLog = g.cqHead) ∧ (s.dev.reel.snap ≠ 1)) :=
  ⟨
    (withDev sT0 fun d => d.updRing 1 fun g => {g with waiting := [⟨.ok, true, 9, 8, 7, 6, 5, true, 0⟩, ⟨.ok, true, 9, 8, 7, 6, 5, true, 0⟩], cqTail := 3, cqHead := 4}),
    1, ⟨.ok, true, 9, 8, 7, 6, 5, true, 0⟩, ([⟨.ok, true, 9, 8, 7, 6, 5, true, 0⟩]), by decide +kernel, by decide +kernel,
    by decide +kernel⟩

theorem test_hypotheses_CompletionsAreWrittenAndInterruptsSent_0_1 : ∃ s : State, ∃ c : Nat, ∃ r : Record,
    ∃ rs : List Record, ((s.dev.ring c).waiting = r :: rs) ∧ (
      let g := s.dev.ring c
      let a := g.cqBase + 32 * g.cqTail
      ((g.cqTail + 1) % 2 ^ g.cqLog ≠ g.cqHead) ∧ (s.dev.invalOut = false) ∧ (g.cqBase % 32 = 0)) :=
  ⟨
    (withDev (host sT0 (4194304+4096) [1,2,3]) fun d => d.updRing 1 fun g => {g with waiting := [⟨.ok, true, 9, 8, 7, 6, 5, true, 0⟩], cqTail := 63, cqHead := 5}),
    1, ⟨.ok, true, 9, 8, 7, 6, 5, true, 0⟩, ([]), by decide +kernel, by decide +kernel, by decide +kernel, by decide +kernel⟩

theorem test_hypotheses_CompletionsAreWrittenAndInterruptsSent_1_0 : ∃ s : State, ∃ v : Nat,
      let m := FMap.get Msix.reset s.dev.hub.msix v
      ((s.dev.ring v).msixDue = true) ∧ (∀ u, m.last = some u → u.toNat + 1000 ≤ s.plat.pow.time.toNat) :=
  ⟨
    (withDev sT0 fun d => (d.updRing 1 fun g => { g with msixDue := true }).mapHub fun h => { h with msix := [(1, ⟨5, 6, true, true, none⟩)] }),
    1, by decide +kernel,
    (by intro u h; have h2 : (FMap.get Msix.reset [(1, (⟨5, 6, true, true, none⟩ : Msix))] 1).last = none := (by decide); cases (h.symm.trans h2))⟩

theorem test_hypotheses_RingEngineItemsRun_0 : ∃ s : State, ∃ c q : Nat, ∃ it : Item, (startable s c q 0 it) :=
  ⟨(withIt sT0 (itd 5 0 .dispatched 0 0 [] ([]))), 1, 5, (itd 5 0 .dispatched 0 0 [] ([])),
    by unfold startable; try unfold numbersApart; decide +kernel⟩

theorem test_hypotheses_RingEngineItemsRun_1 : ∃ s : State, ∃ c q : Nat, ∃ it : Item, ∃ a key : Nat, (startable s c q 6 it) ∧
    (it.evLoc % 8 = 0) ∧ (a % 8 = 0) ∧ (wholeLines s.dev.mem) ∧ (translate s.dev c it.evLoc .atomic = .ok (.dev a, key)) ∧
    (FMap.get false s.dev.mem.bad (a / 64) = false) ∧ (sound s) ∧ (it.evOp = 0) :=
  ⟨(evS (itd 5 6 .dispatched 0 0 [] (evb 0 0 9))), 1, 5, (itd 5 6 .dispatched 0 0 [] (evb 0 0 9)), 2097152, 1,
    by unfold startable; unfold numbersApart; decide +kernel, by decide +kernel, by decide +kernel,
    by unfold wholeLines; decide +kernel, by decide +kernel, by decide +kernel, by intro h; exact (by decide : (0:Nat) ≠ 2),
    by decide +kernel⟩

theorem test_hypotheses_RingEngineItemsRun_2 : ∃ s : State, ∃ c q : Nat, ∃ it : Item, ∃ a key : Nat, (startable s c q 6 it) ∧
    (it.evLoc % 8 = 0) ∧ (a % 8 = 0) ∧ (wholeLines s.dev.mem) ∧ (translate s.dev c it.evLoc .write = .ok (.dev a, key)) ∧
    (FMap.get false s.dev.mem.bad (a / 64) = false) ∧ (sound s) ∧ (it.evOp = 1) :=
  ⟨(evS (itd 5 6 .dispatched 0 0 [] (evb 1 0 4660))), 1, 5, (itd 5 6 .dispatched 0 0 [] (evb 1 0 4660)), 2097152, 1,
    by unfold startable; unfold numbersApart; decide +kernel, by decide +kernel, by decide +kernel,
    by unfold wholeLines; decide +kernel, by decide +kernel, by decide +kernel, by intro h; exact (by decide : (0:Nat) ≠ 2),
    by decide +kernel⟩

theorem test_hypotheses_RingEngineItemsRun_3 : ∃ s : State, ∃ c q : Nat, ∃ it : Item, ∃ v : Nat, (startable s c q 6 it) ∧ (it.evOp = 2) ∧
    (sound s) ∧ (s.dev.readNat ⟨c, q, none, none⟩ 8 it.evLoc = .ok v) :=
  ⟨(evS (itd 5 6 .dispatched 0 0 [] (evb 2 0 0))), 1, 5, (itd 5 6 .dispatched 0 0 [] (evb 2 0 0)),
    (match (evS (itd 5 6 .dispatched 0 0 [] (evb 2 0 0))).dev.readNat ⟨1, 5, none, none⟩ 8 0 with | .ok v => v | _ => 0),
    by unfold startable; unfold numbersApart; decide +kernel, by decide +kernel, by intro h; exact (by decide : (0:Nat) ≠ 2),
    by decide +kernel⟩

theorem test_hypotheses_RingEngineItemsRun_4 : ∃ s : State, ∃ c q : Nat, ∃ it : Item, ∃ v : Nat, ∃ x : Instr,
    ∃ mon : Bool, (s.dev.item c q = some it) ∧ (s.dev.hub.monitors.contains (c, q, mon) = true) ∧
    (x = .eventMonitorReread c q [] ∧ mon = true ∨ x = .eventPoll c q [] ∧ mon = false) ∧ (sound s) ∧
    (s.dev.readNat ⟨c, q, none, none⟩ 8 it.evLoc = .ok v) :=
  ⟨
    (withDev (evS (itd 5 6 .running 0 0 [] (evb 2 0 0))) fun d => d.mapHub fun h => {h with monitors := [(1,5,false),(1,6,true)]}),
    1, 5, (itd 5 6 .running 0 0 [] (evb 2 0 0)),
    (match (withDev (evS (itd 5 6 .running 0 0 [] (evb 2 0 0))) fun d => d.mapHub fun h => {h with monitors := [(1,5,false),(1,6,true)]}).dev.readNat ⟨1, 5, none, none⟩ 8 0 with | .ok v => v | _ => 0),
    (.eventPoll 1 5 []), false, by decide +kernel, by decide +kernel, by decide +kernel,
    by intro h; exact (by decide : (0:Nat) ≠ 2), by decide +kernel⟩

theorem test_hypotheses_RingEngineItemsRun_5 : ∃ s : State, ∃ c q : Nat, ∃ it : Item, (startable s c q 7 it) :=
  ⟨
    (withIts sT0 [itd 5 0 .fetched 0 0 [] [], itd 6 6 .running 0 0 [] (evb 2 0 5), itd 7 0 .done 0 0 [] [], { itd 9 7 .dispatched 0 0 [] (leBytes 4 0 ++ leBytes 4 0 ++ leBytes 1 0) with seq := 9 }, itd 12 0 .fetched 0 0 [] []]),
    1, 9, ({ itd 9 7 .dispatched 0 0 [] (leBytes 4 0 ++ leBytes 4 0 ++ leBytes 1 0) with seq := 9 }),
    by unfold startable; try unfold numbersApart; decide +kernel⟩

theorem test_hypotheses_CacheControlAndHostAccess_0_0 : ∃ s : State, ∃ c q : Nat, ∃ it : Item, (startable s c q 5 it) ∧
    (field it.desc 0x10 1 = 0) ∧ ((s.dev.slice it.slice).scan = none) ∧ (s.dev.pinNext it.slice = some (c, q)) ∧ (
      let tc := field it.desc 0x11 1
      let w := field it.desc 0x12 1
      let x := s.dev.slice it.slice
      ((s.dev.ctx c).pinRight = false ∨ 12 < x.otherPins tc + w)) :=
  ⟨
    (withDev (withLines (withIt sT0 (itd 5 5 .dispatched 0 0 [] (leBytes 1 0 ++ leBytes 1 2 ++ leBytes 1 12))) [dl 0 L0 .modified 128 1 3, dl 0 (L0+1) .modified 128 4 3, dl 0 (L0+2) .modified 128 5 2, dl 0 (L0+3) .shared 128 6 3]) fun d => d.updSlice 0 fun x => {x with pins := [[], [7], [], [], [], [], [], []]}),
    1, 5, (itd 5 5 .dispatched 0 0 [] (leBytes 1 0 ++ leBytes 1 2 ++ leBytes 1 12)),
    by unfold startable; try unfold numbersApart; decide +kernel, by decide +kernel, by decide +kernel, by decide +kernel,
    by decide +kernel⟩

theorem test_hypotheses_CacheControlAndHostAccess_0_1 : ∃ s : State, ∃ c q : Nat, ∃ it : Item, (startable s c q 5 it) ∧
    (field it.desc 0x10 1 = 0) ∧ ((s.dev.slice it.slice).scan = none) ∧ (s.dev.pinNext it.slice = some (c, q)) ∧ (
      let tc := field it.desc 0x11 1
      let w := field it.desc 0x12 1
      let x := s.dev.slice it.slice
      ((s.dev.ctx c).pinRight = true) ∧ (x.otherPins tc + w ≤ 12) ∧ (w ≤ (x.pins.getD tc []).length)) :=
  ⟨
    (withDev (withLines (withIt sT0 (itd 5 5 .dispatched 0 0 [] (leBytes 1 0 ++ leBytes 1 2 ++ leBytes 1 0))) [dl 0 L0 .modified 128 1 3, dl 0 (L0+1) .modified 128 4 3, dl 0 (L0+2) .modified 128 5 2, dl 0 (L0+3) .shared 128 6 3]) fun d => d.updSlice 0 fun x => {x with pins := [[], [7], [], [], [], [], [], []]}),
    1, 5, (itd 5 5 .dispatched 0 0 [] (leBytes 1 0 ++ leBytes 1 2 ++ leBytes 1 0)),
    by unfold startable; try unfold numbersApart; decide +kernel, by decide +kernel, by decide +kernel, by decide +kernel,
    by decide +kernel, by decide +kernel, by decide +kernel⟩

theorem test_hypotheses_CacheControlAndHostAccess_0_2 : ∃ s : State, ∃ c q : Nat, ∃ it : Item, (startable s c q 5 it) ∧
    (field it.desc 0x10 1 = 0) ∧ ((s.dev.slice it.slice).scan = none) ∧ (s.dev.pinNext it.slice = some (c, q)) ∧ (
      let tc := field it.desc 0x11 1
      let w := field it.desc 0x12 1
      let x := s.dev.slice it.slice
      ((s.dev.ctx c).pinRight = true) ∧ (x.otherPins tc + w ≤ 12) ∧ ((x.pins.getD tc []).length < w)) :=
  ⟨
    (withDev (withLines (withIt sT0 (itd 5 5 .dispatched 0 0 [] (leBytes 1 0 ++ leBytes 1 2 ++ leBytes 1 3))) [dl 0 L0 .modified 128 1 3, dl 0 (L0+1) .modified 128 4 3, dl 0 (L0+2) .modified 128 5 2, dl 0 (L0+3) .shared 128 6 3]) fun d => d.updSlice 0 fun x => {x with pins := [[], [7], [], [], [], [], [], []]}),
    1, 5, (itd 5 5 .dispatched 0 0 [] (leBytes 1 0 ++ leBytes 1 2 ++ leBytes 1 3)),
    by unfold startable; try unfold numbersApart; decide +kernel, by decide +kernel, by decide +kernel, by decide +kernel,
    by decide +kernel, by decide +kernel, by decide +kernel⟩

theorem test_hypotheses_CacheControlAndHostAccess_1 : ∃ s : State, ∃ i c q : Nat, ∃ it : Item, ((s.dev.slice i).scan = some (c, q)) ∧
    (s.dev.item c q = some it) :=
  ⟨
    (withDev (withDev (withLines (withIt sT0 (itd 5 5 .running 0 0 [] (leBytes 1 0 ++ leBytes 1 2 ++ leBytes 1 0))) [dl 0 L0 .modified 128 1 3, dl 0 (L0+1) .modified 128 4 3, dl 0 (L0+2) .modified 128 5 2, dl 0 (L0+3) .shared 128 6 3]) fun d => d.updSlice 0 fun x => {x with pins := [[], [7], [], [], [], [], [], []]}) fun d => d.updSlice 0 fun x => {x with scan := some (1,5)}),
    0, 1, 5, (itd 5 5 .running 0 0 [] (leBytes 1 0 ++ leBytes 1 2 ++ leBytes 1 0)), by decide +kernel, by decide +kernel⟩

theorem test_hypotheses_CacheControlAndHostAccess_2 : ∃ s : State, ∃ c q : Nat, ∃ it : Item, ∃ key : Nat, (startable s c q 5 it) ∧
    (field it.desc 0x10 1 = 1) ∧
    ∃ l : Nat, (∀ j, j < field it.desc 0x20 8 / 128 → translate s.dev c (field it.desc 0x18 8 + 128 * j) .write = .ok (.dev (128 * (l + j)), key)) ∧
    (∀ m ∈ s.dev.mem.misses, m.line < l ∨ l + field it.desc 0x20 8 / 128 ≤ m.line) :=
  ⟨(evS (itd 5 5 .dispatched 0 0 [] (leBytes 1 1 ++ List.replicate 7 0 ++ leBytes 8 128 ++ leBytes 8 0))), 1, 5,
    (itd 5 5 .dispatched 0 0 [] (leBytes 1 1 ++ List.replicate 7 0 ++ leBytes 8 128 ++ leBytes 8 0)), 1,
    by unfold startable; try unfold numbersApart; decide +kernel, by decide +kernel, (L0 + 1), by decide +kernel,
    by decide +kernel⟩

theorem test_hypotheses_CacheControlAndHostAccess_3 : ∃ s : State, ∃ w off n : Nat, (¬(32 ≤ w ∧ s.plat.pow.twoByEight = true ∧
    s.plat.pow.linkBUp = false)) :=
  ⟨(withDev (devm sT0 (2097152+64) [1,2,3,4,5,6,7,8,9] 1) fun d => d.mapHub fun h => {h with windows := [(3, some (1, 0))]}),
    3, 0, 4, by decide +kernel⟩

theorem test_hypotheses_CacheControlAndHostAccess_3_0 : ∃ s : State, ∃ w off n : Nat, (¬(32 ≤ w ∧ s.plat.pow.twoByEight = true ∧
    s.plat.pow.linkBUp = false)) ∧ (FMap.get none s.dev.hub.windows w = none ∨ s.plat.ideShut = true) :=
  ⟨(withDev (devm sT0 (2097152+64) [1,2,3,4,5,6,7,8,9] 1) fun d => d.mapHub fun h => {h with windows := [(3, some (1, 0))]}),
    5, 0, 4, by decide +kernel, by decide +kernel⟩

theorem test_hypotheses_GlobalStoresAndDiscards_0 : ∃ i : Issue, ∃ b : MemBody, ∃ s : State, ∃ k : KBlock, ∃ x : Pack, ∃ it : Item,
    ∃ (pl : Nat → Place), ∃ (key : Nat → Nat), (issues s (.memSt i b []) i k x it) ∧ (memOk false k.tregs i b = true) ∧
    (b.space = 0) ∧ (k.core < 16) ∧ (
      let n := memBytes b.fmt.toNat
      let ls := x.lanes (memFields false i b) i.guard
      (∀ l ∈ ls, laneAt s k (memAddr i b x l) n .write (pl l) (key l) ∧ nearLine s.dev k (pl l) (key l))) :=
  ⟨iss, (mb 2 0x84 2 0 0), (fit (.memSt iss (mb 2 0x84 2 0 0) []) sMC), blk0, pack0, it5, (fun _ => .dev (2097152 + 64)),
    oneK, by unfold issues; decide +kernel, by decide +kernel, by decide +kernel, by decide +kernel,
    (by dsimp only; intro l hl; refine ⟨⟨?_, fun _ _ _ h => nomatch h⟩, ⟨cl0, ?_⟩⟩; (apply okWhen; revert hl; revert l; decide +kernel); revert hl; revert l; decide +kernel)⟩

theorem test_hypotheses_GlobalStoresAndDiscards_1 : ∃ i : Issue, ∃ b : MemBody, ∃ s : State, ∃ k : KBlock, ∃ x : Pack, ∃ it : Item,
    ∃ (a : Nat → Nat), ∃ (key : Nat → Nat), (issues s (.memDiscard i b) i k x it) ∧ (discardOk k.tregs i b = true) ∧
    (k.core < 16) ∧ (
      let ls := x.lanes (discardFields i b) i.guard
      (∀ l ∈ ls, laneAt s k (memAddr i b x l) 128 .write (.dev (a l)) (key l) ∧ ∀ m ∈ s.dev.mem.misses, m.line ≠ a l / 128)) :=
  ⟨iss, (mb 0xC1 0x84 2 0 64), (fit (.memDiscard iss (mb 0xC1 0x84 2 0 64)) sM), blk0, pack0, it5, (fun _ => 2097152 + 128),
    oneK, by unfold issues; decide +kernel, by decide +kernel, by decide +kernel,
    (by dsimp only; intro l hl; refine ⟨⟨?_, fun _ _ _ h => nomatch h⟩, ?_⟩; (apply okWhen; revert hl; revert l; decide +kernel); revert hl; revert l; decide +kernel)⟩

theorem test_hypotheses_AtomicsOnGlobalMemory_0 : ∃ c : Instr, ∃ i : Issue, ∃ b : AtomBody, ∃ op : AtomOp, ∃ s : State, ∃ k : KBlock,
    ∃ x : Pack, ∃ it : Item, ∃ ty : AtomTy, ∃ a va key : Nat, (atomRows c = some (i, b, op)) ∧ (issues s c i k x it) ∧
    (atomOk op k.tregs i b = true) ∧ (atomTyOf op b.fmt.toNat = some ty) ∧ (b.space = 0) ∧ (
      let ls := x.lanes (atomFields op b) i.guard
      let n := if atomBytes ty = 8 then 2 else 1
      let ps := ls.map fun l => (x.read i.imm l b.opnd n, x.read i.imm l b.cmp n)
      let old := devWord s.dev.mem key a (atomBytes ty)
      (ls ≠ []) ∧ (∀ l ∈ ls, (opnd64 x i.imm l b.addr).toNat = va) ∧ (laneAt s k va (atomBytes ty) .atomic (.dev a) key) ∧
      ((s.dev.core k.die k.core).line (.dev a) key = none) ∧ (FMap.get false s.dev.mem.bad (a / 64) = false) ∧
      (wholeLines s.dev.mem) ∧ (FMap.get 0 s.dev.mem.weak (a / 64) ≠ 2) ∧ (
      let near := s.dev.touchDie k i.pack [(.dev a, key, va)]
      (b.scope.toNat ≤ 1 → near.2.2 = none))) :=
  ⟨(.atomAdd iss (atb 6 0x84 0 0xC1 2 2 0)), iss, (atb 6 0x84 0 0xC1 2 2 0), _,
    (fit ((.atomAdd iss (atb 6 0x84 0 0xC1 2 2 0))) sM), blk0, pack0, it5, .u32, (2097152 + 64), 64, 1, (rfl),
    by unfold issues; decide +kernel, by decide +kernel, by decide +kernel, by decide +kernel, by decide +kernel,
    by decide +kernel, (⟨by decide +kernel, by intros; nofun⟩), by decide +kernel, by decide +kernel,
    by unfold wholeLines; decide +kernel, by decide +kernel, by decide +kernel⟩

theorem test_hypotheses_AtomicsOnGlobalMemory_1 : ∃ s : State, ∃ c q : Nat, ∃ r : AtomReq, ∃ a key : Nat, (atomLegal r.op r.ty = true) ∧
    (r.addr % atomBytes r.ty = 0) ∧ (a % atomBytes r.ty = 0) ∧ (wholeLines s.dev.mem) ∧
    (translate s.dev c r.addr .atomic = .ok (.dev a, key)) ∧ (FMap.get false s.dev.mem.bad (a / 64) = false) ∧
    (FMap.get 0 s.dev.mem.weak (a / 64) ≠ 2) :=
  ⟨sM, 1, 5, ⟨.or, .b32, 64, [5, 0xFFFFFFFF, 7], [0, 5, 9]⟩, (2097152 + 64), 1, by decide +kernel, by decide +kernel,
    by decide +kernel, by unfold wholeLines; decide +kernel, by decide +kernel, by decide +kernel, by decide +kernel⟩

theorem test_hypotheses_AtomicsOnGlobalMemory_2 : ∃ s : State, ∃ c q : Nat, ∃ r : AtomReq, ∃ a key : Nat, (atomLegal r.op r.ty = true) ∧
    (r.addr % atomBytes r.ty = 0) ∧ (a % atomBytes r.ty = 0) ∧ (wholeLines s.dev.mem) ∧
    (translate s.dev c r.addr .atomic = .ok (.host a, key)) ∧ (FMap.get 0 s.dev.mem.weak (2 ^ 46 + a / 64) ≠ 2) :=
  ⟨(host (sM) (64*65536+64) [5,0,0,0,1]), 1, 5, ⟨.or, .b32, 2097152+64, [5, 0xFFFFFFFF, 7], [0, 5, 9]⟩, 64*65536+64, 1,
    by decide +kernel, by decide +kernel, by decide +kernel, by unfold wholeLines; decide +kernel, by decide +kernel,
    by decide +kernel⟩

theorem test_hypotheses_EngIssueGivesATokenAndQueuesTheWork : ∃ i : Issue, ∃ b : EngBody, ∃ s : State, ∃ k : KBlock, ∃ x : Pack,
    ∃ kit : Item, ∃ rec : List Byte, ∃ tok : Nat, (issues s (.engIssue i b) i k x kit) ∧ (engIssueOk i b = true) ∧
    (b.kind = 1) ∧ (b.k.toNat < 8 ∨ b.k = 15) ∧ (
      let a := (opnd x none 0 b.src).toNat
      let r := (List.range 64).map fun j => FMap.get 0 k.mem (a + j)
      let q := 2 ^ 32 + s.dev.hub.workSeq
      (a + 64 ≤ k.memLen) ∧ (workRecordOk 1 r = true) ∧ (field r 0x18 1 = 1) ∧ (field r 0x10 8 % 64 = 0) ∧
      (coreSound s.dev k.die k.core) ∧ (k.freeToken = some tok) ∧
      (((s.dev.cleanCore k.die k.core).1.h0Bytes ⟨k.ctx, k.seq, none, none⟩ 128 (field r 0x10 8)).readBytes ⟨k.ctx, k.seq, none, none⟩ 128 (field r 0x10 8) = .ok rec) ∧
      (saveOk rec = true) ∧ (saves? rec = false) ∧ (claimWords rec = []) ∧
      (∀ y ∈ s.dev.hub.items, y.ctx = k.ctx → y.seq ≠ q) ∧ ((s.dev.die k.die).ve.st = .on) ∧
      (∀ e, e < 8 → (s.dev.vecEng k.die e).queue.length < 64)) :=
  ⟨iss, (eb 0x86 0x84 1 2), (fit (.engIssue iss (eb 0x86 0x84 1 2)) (devm sW 2097152 [] 1)), kW, pack0, it5,
    (5 :: List.replicate 127 0), 0, by unfold issues; decide +kernel, by decide +kernel, by decide +kernel, by decide +kernel,
    by decide +kernel, by decide +kernel, by decide +kernel, by decide +kernel, coreSoundWhen (by decide +kernel),
    by decide +kernel, (okWhen (by decide +kernel)), by decide +kernel, by decide +kernel, by decide +kernel,
    by decide +kernel, by decide +kernel, by decide +kernel⟩

theorem test_hypotheses_FillsDeliverLinesAndTheHostTakesThemBack_0_0 : ∃ s : State, ∃ die line : Nat, ∃ lo hi : Ecc, (40 ≤ die) ∧
    (line < 16106127360 ∨ 2 ^ 45 ≤ line) :=
  ⟨sM, 40, (2 ^ 45), .clean, .clean, by decide +kernel, by decide +kernel⟩

theorem test_hypotheses_FillsDeliverLinesAndTheHostTakesThemBack_0_1_0 : ∃ s : State, ∃ die line : Nat, ∃ x : Miss, (die < 40) ∧
    (line < 16106127360) ∧ (s.dev.mem.misses = [x]) ∧ (x.die = die) ∧ (x.line = line) ∧ (x.pref = false) ∧
    (x.discard = false) ∧ (x.waiters ≠ []) ∧ ((s.dev.die die).dcache.st = .on) ∧
    (∀ w ∈ x.waiters, ∀ y, s.dev.item w.ctx w.seq = some y → y.isWork = false) ∧
    (∀ e ∈ s.dev.collie.cores, ∀ y ∈ e.2.lines, y.at_ = .dev (128 * line) → y.by_ = []) ∧
    (∀ y ∈ s.dev.mem.lines, y.host = false → y.line ≠ line) ∧
    ∃ lo hi : Ecc, (FMap.get false s.dev.mem.bad (2 * line) = false) ∧ (FMap.get false s.dev.mem.bad (2 * line + 1) = false) ∧
    (lo ≠ .uncorrectable) ∧ (hi ≠ .uncorrectable) :=
  ⟨(sFl false [⟨1, 5, 0, none⟩]), 0, L0, (ms 0 L0 [⟨1, 5, 0, none⟩] false), by decide +kernel, by decide +kernel,
    by decide +kernel, by decide +kernel, by decide +kernel, by decide +kernel, by decide +kernel, by decide +kernel,
    by decide +kernel,
    (by intro w hw y hy; obtain rfl := List.mem_singleton.mp hw; have h := hy.symm.trans (by decide +kernel : (sFl false [⟨1, 5, 0, none⟩]).dev.item 1 5 = some it5); rw [Option.some.inj h]; decide +kernel),
    by decide +kernel, by decide +kernel, .clean, .corrected, by decide +kernel, by decide +kernel, by decide +kernel,
    by decide +kernel⟩

theorem test_hypotheses_FillsDeliverLinesAndTheHostTakesThemBack_0_3 : ∃ s : State, ∃ half : Nat, ∃ e : Ecc, (half < 32212254720) ∧ (
      let i := 64 * half / 4096 % 20
      ((s.dev.memBlk i).scrub ≠ 0) ∧ ((s.dev.memBlk i).blk.st = .on) ∧ (FMap.get false s.dev.mem.bad half = false)) :=
  ⟨(withDev sM fun d => { d with mem := { d.mem with blks := [(1, { MemBlk.reset with blk := on, scrub := 3 })] } }), 64,
    .corrected, by decide +kernel, by decide +kernel, by decide +kernel, by decide +kernel⟩

theorem test_hypotheses_FillsDeliverLinesAndTheHostTakesThemBack_0_1_1 : ∃ s : State, ∃ die line : Nat, ∃ x : Miss, (die < 40) ∧
    (line < 16106127360) ∧ (s.dev.mem.misses = [x]) ∧ (x.die = die) ∧ (x.line = line) ∧ (x.pref = false) ∧
    (x.discard = false) ∧ (x.waiters ≠ []) ∧ ((s.dev.die die).dcache.st = .on) ∧
    (∀ w ∈ x.waiters, ∀ y, s.dev.item w.ctx w.seq = some y → y.isWork = false) ∧
    (∀ e ∈ s.dev.collie.cores, ∀ y ∈ e.2.lines, y.at_ = .dev (128 * line) → y.by_ = []) ∧
    (∀ y ∈ s.dev.mem.lines, y.host = false → y.line ≠ line) ∧
    ∃ lo hi : Ecc, (FMap.get false s.dev.mem.bad (2 * line) = false) ∧ (FMap.get false s.dev.mem.bad (2 * line + 1) = false) ∧
    (lo = .uncorrectable) ∧ (numbersApart s.dev) :=
  ⟨(sFl false [⟨1, 5, 0, none⟩]), 0, L0, (ms 0 L0 [⟨1, 5, 0, none⟩] false), by decide +kernel, by decide +kernel,
    by decide +kernel, by decide +kernel, by decide +kernel, by decide +kernel, by decide +kernel, by decide +kernel,
    by decide +kernel,
    (by intro w hw y hy; obtain rfl := List.mem_singleton.mp hw; have h := hy.symm.trans (by decide +kernel : (sFl false [⟨1, 5, 0, none⟩]).dev.item 1 5 = some it5); rw [Option.some.inj h]; decide +kernel),
    by decide +kernel, by decide +kernel, .uncorrectable, .corrected, by decide +kernel, by decide +kernel, by decide +kernel,
    (by unfold numbersApart; decide +kernel)⟩

theorem test_hypotheses_FillsDeliverLinesAndTheHostTakesThemBack_1_0 : ∃ s : State, ∃ l : Nat, ∃ takes : Bool,
    ∃ x : DLine, (s.dev.mem.cached true l = some x) :=
  ⟨(withLines sM [hl 0 9 .modified 128]), 9, true,
    (((withLines sM [hl 0 9 .modified 128]).dev.mem.cached true 9).getD (hl 0 0 .shared 0)), by decide +kernel⟩

theorem test_hypotheses_FillsDeliverLinesAndTheHostTakesThemBack_1_1 : ∃ s : State, ∃ l : Nat, (l < 16106127360) :=
  ⟨(withLines sM [hl 0 9 .modified 128]), 9, by decide +kernel⟩

theorem test_hypotheses_VectorMasksReductionsAndScans_4 : ∃ s : State, ∃ die : Nat, ∃ r : DrawReq, ∃ it : Item,
    ∃ n : Nat, ((s.dev.die die).rng.st = .on) ∧ (s.dev.drawer die r.unit = some it) ∧ (it.cls = r.cls) ∧ (r.unit < 16) ∧
    (8 ≤ r.unit → ∃ b, s.dev.vecDraw die (r.unit - 8) = some (it, b) ∧ n = if b % 4 = 0 then 32 else 33) ∧
    (r.unit < 8 → n = r.blocks ∧ 0 < n ∧ n ≤ 33) :=
  ⟨sDraw, 0, ⟨9, 0, 33, 0⟩, itL, 33, by decide +kernel, by decide +kernel, by decide +kernel, by decide +kernel,
    (fun _ => ⟨17179869187, by decide +kernel⟩), (fun h => absurd h (by decide))⟩

theorem test_hypotheses_StreamOperationsWriteTheirArrays_1 : ∃ c q : Nat, ∃ rep : Report, ∃ s : State, ∃ it : Item,
    ∃ die k : Nat, (streamHere s (.zcCompress (.item c q rep)) (.item c q rep) 0x60 it die k) ∧ (it.err = none) ∧
    (numbersApart s.dev) ∧ (s.dev.ups.runs = []) ∧ (field it.desc 0x28 8 < it.sRows * zcRowBytes it.sCols it.sFmt) :=
  ⟨1, 5, rp0, s109, i109, 0, 1,
    by (repeat' apply And.intro) <;> first | decide +kernel | (intro h; exact (by decide : (0:Nat) ≠ 2)) | rfl,
    by decide +kernel, by unfold numbersApart; decide +kernel, by decide +kernel, by decide +kernel⟩

theorem test_hypotheses_WorkIsStarted_0_1 : ∃ s : State, ∃ c q : Nat, ∃ it : Item, ∃ x : Xlat, (s.dev.item c q = some it) ∧ (it.typ = 3) ∧
    (it.isWork = false) ∧ (it.phase = .dispatched) ∧ (s.dev.deferWait it = false) ∧ (s.dev.xlatOf it = some x) ∧
    (s.dev.everFits it x = false) ∧ ((s.dev.ctx c).st = .opened) :=
  ⟨(sX (kx .dispatched 5 0) { xl0 with tregs := 128, packs := 40 }), 1, 5, (kx .dispatched 5 0),
    ({ xl0 with tregs := 128, packs := 40 }), by decide +kernel, by decide +kernel, by decide +kernel, by decide +kernel,
    by decide +kernel, by decide +kernel, by decide +kernel, by decide +kernel⟩

theorem test_hypotheses_WorkIsStarted_1_0 : ∃ s : State, ∃ c q : Nat, ∃ it : Item, ∃ h : List Byte, (s.dev.item c q = some it) ∧
    (it.typ = 3) ∧ (it.phase = .fetched) ∧ (it.waitAt.isSome = true) ∧ (sound s) ∧ (wholeLines s.dev.mem) ∧
    (s.dev.readBytes ⟨c, q, none, none⟩ 64 it.addr0 = .ok h) ∧ ∃ img : List Byte, (imgHeaderOk h = true) ∧
    (s.dev.readBytes ⟨c, q, none, none⟩ (imgBytes h) it.addr0 = .ok img) ∧ (imgFault img = none) ∧
    (s.dev.hub.xlats.length < 65536) ∧ ((s.dev.ctx c).st = .opened) ∧ (s.dev.reel.snap = 0) :=
  ⟨(sImg [wf (kx .fetched 5 1) 100, kx .running 9 1, wf (kx .fetched 6 1) 400] img1), 1, 5, (wf (kx .fetched 5 1) 100),
    (img1.take 64), by decide +kernel, by decide +kernel, by decide +kernel, by decide +kernel, soundWhen (by decide +kernel),
    by unfold wholeLines; decide +kernel, by decide +kernel, img1, by decide +kernel, by decide +kernel, by decide +kernel,
    by decide +kernel, by decide +kernel, by decide +kernel⟩

theorem test_hypotheses_WorkIsStarted_2 : ∃ s : State, ∃ c q : Nat, ∃ it : Item, ∃ die k : Nat, (s.dev.item c q = some it) ∧
    (it.phase = .dispatched) ∧ (it.isList = true) ∧ (it.claims = []) ∧ (s.dev.deferWait it = false) ∧ (k < 8) ∧
    (s.dev.veOf it = some (die, k)) ∧ (s.dev.veReady s.plat it die k = true) :=
  ⟨(sLs [lIt 5 3 1 .dispatched] (fun v => { vE with queue := [(1,5),(1,6)] }) 1 2), 1, 5, (lIt 5 3 1 .dispatched), 1, 2,
    by decide +kernel, by decide +kernel, by decide +kernel, by decide +kernel, by decide +kernel, by decide +kernel,
    by decide +kernel, by decide +kernel⟩

theorem test_hypotheses_WorkIsStarted_1_1 : ∃ s : State, ∃ c q : Nat, ∃ it : Item, ∃ h : List Byte, (s.dev.item c q = some it) ∧
    (it.typ = 3) ∧ (it.phase = .fetched) ∧ (it.waitAt.isSome = true) ∧ (sound s) ∧ (wholeLines s.dev.mem) ∧
    (s.dev.readBytes ⟨c, q, none, none⟩ 64 it.addr0 = .ok h) ∧ ((s.dev.ctx c).st = .opened) ∧ (imgHeaderOk h = false) :=
  ⟨(sImg [wf (kx .fetched 5 0) 100, kx .running 9 1] (img1.set 4 9)), 1, 5, (wf (kx .fetched 5 0) 100),
    ((img1.set 4 9).take 64), by decide +kernel, by decide +kernel, by decide +kernel, by decide +kernel,
    by intro h; exact (by decide : (0:Nat) ≠ 2), by unfold wholeLines; decide +kernel, by decide +kernel, by decide +kernel,
    by decide +kernel⟩

theorem test_hypotheses_WorkIsStarted_3 : ∃ s : State, ∃ v : VecArgs, ∃ x : VecIn, ∃ d : Device, ∃ die k : Nat, ∃ u : List Word,
    ∃ rep : Report, (v.src = .list die k u rep) ∧ (v.body.fmt = 0) ∧ (listHolds s (.vecFpAdd v) v x d) ∧ (x.die = die) ∧
    (x.k = k) ∧ (x.u = u) ∧ (x.body = v.body) ∧ (x.held = none) ∧ (x.eng = s.dev.vecEng die k) ∧ (k < 8) ∧ (x.n ≤ 4096) ∧
    ((s.dev.die die).ve.st = .on ∨ (s.dev.die die).ve.st = .stopping) ∧ (s.plat.pow.unitRuns die (8 + k) = true) ∧
    (x.eng.running = some (x.it.ctx, x.it.seq)) ∧ (s.dev.item x.it.ctx x.it.seq = some x.it) ∧ (x.it.isList = true) ∧
    (x.it.isWork = false) ∧ (field x.it.desc 0x38 4 ≤ x.eng.listPos + 1) :=
  ⟨(fit (.vecFpAdd vEe) sEe), vEe, xEe, _, 0, 1, (u14 [130]), rp0, by decide +kernel, by decide +kernel,
    (by unfold listHolds; exact ⟨(BitVec.ofNat 64 (8 * 2 ^ 60 + opOf (.vecFpAdd vEe) vEe * 2 ^ 52 + vEe.body.bits.toNat) : Dword), .vecFpAdd, getsWhen (by decide +kernel), by decide +kernel, by decide +kernel, (congrArg jkfVec (by decide +kernel : _ = 0)).trans rfl, rfl⟩),
    by decide +kernel, by decide +kernel, by decide +kernel, by decide +kernel, by decide +kernel, by decide +kernel,
    by decide +kernel, by decide +kernel, by decide +kernel, by decide +kernel, by decide +kernel, by decide +kernel,
    by decide +kernel, by decide +kernel, by decide +kernel⟩

theorem test_hypotheses_WorkIsStarted_4_0 : ∃ s : State, ∃ c q : Nat, ∃ it : Item, (s.dev.item c q = some it) ∧ (it.typ = 1) ∧
    (it.phase = .dispatched) ∧ (
      let pr := s.dev.prod it
      (prodLegal it pr = true) ∧ (prodAligned it pr = true) ∧ (it.claims = []) ∧ (s.dev.deferWait it = false)) :=
  ⟨(sP { prA with phase := .dispatched } id), 1, 5, ({ prA with phase := .dispatched }), by decide +kernel,
    by decide +kernel, by decide +kernel, by decide +kernel, by decide +kernel, by decide +kernel, by decide +kernel⟩

theorem test_hypotheses_WorkIsStarted_4_1 : ∃ s : State, ∃ c q : Nat, ∃ it : Item, (s.dev.item c q = some it) ∧ (it.typ = 1) ∧
    (it.phase = .dispatched) ∧ (
      let pr := s.dev.prod it
      ((s.dev.ctx c).st = .opened) ∧ (prodLegal it pr = false)) :=
  ⟨(sP (prI 0 3 7 0 0 1 5 3 40 .dispatched fs1) id), 1, 5, (prI 0 3 7 0 0 1 5 3 40 .dispatched fs1), by decide +kernel,
    by decide +kernel, by decide +kernel, by decide +kernel, by decide +kernel⟩

theorem test_hypotheses_WorkIsStarted_4_2 : ∃ s : State, ∃ c q : Nat, ∃ it : Item, (s.dev.item c q = some it) ∧ (it.typ = 1) ∧
    (it.phase = .dispatched) ∧ (
      let pr := s.dev.prod it
      ((s.dev.ctx c).st = .opened) ∧ (prodLegal it pr = true) ∧ (prodAligned it pr = false)) :=
  ⟨(sP (prI 2 5 6 3 0 1 3 2 130 .dispatched (fs1 ++ [(8,8,2050),(0x10,8,4096)])) id), 1, 5,
    (prI 2 5 6 3 0 1 3 2 130 .dispatched (fs1 ++ [(8,8,2050),(0x10,8,4096)])), by decide +kernel, by decide +kernel,
    by decide +kernel, by decide +kernel, by decide +kernel, by decide +kernel⟩

theorem test_hypotheses_WorkIsStarted_5 : ∃ s : State, ∃ c q : Nat, ∃ it : Item, ∃ e : Nat × Nat, (s.dev.item c q = some it) ∧
    (it.dealing = true) ∧ (it.isWork = false) ∧ (it.rank = 4 → s.dev.olderFiller it = false) ∧ (
      let pr := s.dev.prod it
      let es := (s.dev.sliceEngines it.slice).filter fun e => s.dev.dealable it it.deal.width e.1 e.2
      (∃ xs ys, es = xs ++ e :: ys ∧ (∀ f ∈ xs, (s.dev.re e.1 e.2).queue.length < (s.dev.re f.1 f.2).queue.length) ∧
      ∀ f ∈ ys, (s.dev.re e.1 e.2).queue.length ≤ (s.dev.re f.1 f.2).queue.length)) :=
  ⟨(sDl itDf), 1, 5, itDf, ((1,3)), by decide +kernel, by decide +kernel, by decide +kernel, by decide +kernel,
    (⟨[], [], by decide +kernel, by decide, by decide⟩)⟩

theorem test_hypotheses_WorkIsStarted_6 : ∃ s : State, ∃ c q : Nat, ∃ it : Item, (s.dev.item c q = some it) ∧ (it.dealing = true) ∧
    (it.isWork = true) ∧ (it.rank = 4 → s.dev.olderFiller it = false) ∧ (
      let die := it.blocks / 8
      let k := it.blocks % 8
      let len := (s.dev.re die k).queue.length
      let ts := if s.dev.dealsFirst it die k = true then [] else ((workTiles it (s.dev.prod it)).drop it.deal.group).take (64 - len)
      (s.dev.fitsTile it (s.dev.prod it).n die k = true) ∧ (len < 64)) :=
  ⟨(sDl (wkD 2 200 7)), 1, 2^32+3, (wkD 2 200 7), by decide +kernel, by decide +kernel, by decide +kernel, by decide +kernel,
    by decide +kernel, by decide +kernel⟩

theorem test_hypotheses_TilesAreReducedAndMoved_2 : ∃ s : State, ∃ die k sl : Nat, ∃ it : Item, (s.dev.sliceOf die = some sl) ∧
    (s.dev.idleEngine die k = true) ∧ (k < 8) ∧ (s.dev.fromPool sl die k = some it) :=
  ⟨(sPool [(1,2^32+3,0)] [wk 0 200 512]), 0, 0, 0, (wk 0 200 512), by decide +kernel, by decide +kernel, by decide +kernel,
    by decide +kernel⟩

theorem test_hypotheses_TilesAreReducedAndMoved_3 : ∃ s : State, ∃ die k sl : Nat, (s.dev.sliceOf die = some sl) ∧
    (s.dev.idleEngine die k = true) ∧ (k < 8) ∧ (s.dev.fromPool sl die k = none) ∧ (die ∈ (s.dev.slice sl).dieList) ∧
    ((s.dev.re die k).stealIn = true) ∧ (∃ j, j < 8 ∧ j ≠ k ∧ s.dev.stealFrom (die, j) die k ≠ []) :=
  ⟨(vict id fun r => { r with queue := tq }), 0, 0, 0, by decide +kernel, by decide +kernel, by decide +kernel,
    by decide +kernel, by decide +kernel, by decide +kernel, by decide +kernel⟩

theorem test_hypotheses_TilesAreReducedAndMoved_6 : ∃ s : State, ∃ die k : Nat, ∃ isB : Bool, ∃ row col : Nat, ∃ tl : Tile, ∃ it : Item,
      let r := s.dev.re die k
      ((s.dev.die die).txb.st = .on ∨ (s.dev.die die).txb.st = .stopping) ∧ (s.plat.pow.unitRuns die (32 + k) = true) ∧
      (k < 8) ∧ (s.dev.turning die k (isB, row, col) = some (tl, it)) ∧
      (isB = true → (s.dev.prod it).b24 = true → s.dev.turnChecks ⟨it.ctx, it.seq, some die, none⟩ (s.dev.prod it).s24 (row / 4) (min (row / 4 + 32) (((s.dev.prod it).n + 3) / 4)) (col / 4) (min (col / 4 + 32) (((s.dev.prod it).k + 3) / 4)) = .ok []) :=
  ⟨y98, 0, 0, true, 0, 0, y100.1, y100.2, by decide +kernel, by decide +kernel, by decide +kernel, by decide +kernel,
    by decide +kernel⟩

theorem test_hypotheses_UpdatesRunTheirPhases_2_0 : ∃ s : State, ∃ c q n : Nat, ∃ held : List (Nat × Nat × Nat), ∃ it : Item,
    ∃ r : Update, ∃ w : WSet, ∃ l : WLayer, (s.dev.item c q = some it) ∧ (s.dev.runOf c q = some r) ∧ (r.phase = .layers) ∧
    (r.writing = false) ∧ (s.dev.runLayer r = some (w, l)) ∧ (s.dev.slotHeld w.recAt r.layer (!l.slot) = true) :=
  ⟨(sU (itU .running) e0 e1 (step0 3 fOne) [run0 1 false] [(2097152+0x200,1,0)]), 1, 5, 33, ([(0,3,5)]), (itU .running),
    (run0 1 false), w0, ⟨5, true, 0x5000, 0x5400, [32], [32]⟩, by decide +kernel, by decide +kernel, by decide +kernel,
    by decide +kernel, by decide +kernel, by decide +kernel⟩

/-! ### Vector instructions -/

/-- A vector instruction of a pack, with word `u` of its arguments, as the engine finds it. -/
def vArgs (fmt mx : Nat) : VecArgs := ⟨.pack 0 rp0, vbd 2 3 1 2 3 1 mx 0 fmt, false⟩
def vState (c : Instr) (ws : List Nat) : State := fit c (sVp ws)
def vIn (fmt mx n : Nat) (c : Instr) (ws : List Nat) : VecIn := xV ws n (vbd 2 3 1 2 3 1 mx 0 fmt) (vState c ws)
/-- What `vecAt` asks of a pack's instruction, each by evaluation. -/
theorem vecAtPack {c : Instr} {fmt mx words n : Nat} {fmts : List Nat} {draws : Bool} {ws : List Nat}
    (hw : words = n) (h0 : 0 < (vIn fmt mx n c ws).n) (h1 : (vIn fmt mx n c ws).n ≤ 4096)
    (he : vEn = (vState c ws).dev.vecEng 0 2) (hf : (vArgs fmt mx).body.fmt.toNat ∈ fmts)
    (hr : (vState c ws).plat.pow.unitRuns 0 10 = true) (hg : ((vState c ws).dev.die 0).rng.st = .on)
    (hi : issues (vState c ws) c ⟨0, none, none, 0⟩ kV (pV ws) it5)
    (ho : ((vState c ws).dev.die 0).ve.st = .on) (hu : 0 + n ≤ 64)
    (hx : (vIn fmt mx n c ws).u = (List.range n).map fun j => ureg (pV ws) (0 + j)) :
    vecAt (vState c ws) c (vArgs fmt mx) words fmts draws (vIn fmt mx n c ws) (vState c ws).dev := by
  subst hw
  exact ⟨rfl, h0, h1, (by decide : 2 < 8), he, rfl, rfl, hf, hr, fun _ => hg, kV, pV ws, hi, rfl, rfl, ho, rfl, rfl, List.mem_singleton.mpr rfl, hu, hx⟩
/-- The bytes of an element are there to read. -/
theorem byteWhen {x : VecIn} {s : State} {b j : Nat}
    (h : (match x.byte s.dev (b + j) with | .ok _ => true | .error _ => false) = true) :
    x.byte s.dev (b + j) = .ok (byF x s b j) := by
  unfold byF
  revert h
  cases x.byte s.dev (b + j) with
  | ok _ => intro; rfl
  | error _ => intro h; cases h
/-- A fetch that has come, with the device it leaves. -/
theorem gotWhen {f : Fetch Unit} {d : Device} (h : (match f with | .got _ _ => true | _ => false) = true) :
    f = .got (gotD f d) () := by
  cases f with
  | got d x => rfl
  | stall _ => cases h
  | err _ => cases h
/-- `vState` with 256 bytes of the context's memory written, and their lines in the die's cache. -/
def vMem (c : Instr) (ws : List Nat) : State := dirtyL (fit c (devm (sVp ws) 2097152 (List.replicate 256 7) 1))
def vInM (fmt n : Nat) (c : Instr) (ws : List Nat) : VecIn := { xV ws n (vbd 2 3 1 2 3 1 2 0 fmt) (vMem c ws) with eng := vEn }
def wLd : List Nat := [2, 0, 64, 0, 0, 0, 0, 0, 0, 0]
def cLd : Instr := .vecLd (vArgs 0 2)
def wGa : List Nat := [2, 0, 64, 0]
def cGa : Instr := .vecGather (vArgs 0 2)
def cSc : Instr := .vecScatter (vArgs 0 2)

theorem test_hypotheses_VectorElementsAreComputed_0 : ∃ c : Instr, ∃ v : VecArgs, ∃ fmts : List Nat, ∃ f : Nat → Word → Word → Word → Option Word, ∃ s : State, ∃ x : VecIn, ∃ d : Device, vecRows c = some (v, fmts, f) ∧ vecAt s c v 1 fmts false x d :=
  ⟨.vecFpAdd (vArgs 0 2), vArgs 0 2, _, _, vState (.vecFpAdd (vArgs 0 2)) [5], vIn 0 2 1 (.vecFpAdd (vArgs 0 2)) [5], _, rfl,
    vecAtPack rfl (by decide +kernel) (by decide +kernel) (by decide +kernel) (by decide +kernel) (by decide +kernel) (by decide +kernel) (by unfold issues; decide +kernel) (by decide +kernel) (by decide +kernel) rfl⟩

theorem test_hypotheses_VectorElementsAreComputed_1 : ∃ c : Instr, ∃ v : VecArgs, ∃ s : State, ∃ x : VecIn, ∃ d : Device, ((c = .vecFpSel v ∧ vecAt s c v 1 [0] false x d) ∨ (c = .vecIntSel v ∧ vecAt s c v 1 [1, 2] false x d)) :=
  ⟨.vecIntSel (vArgs 2 2), vArgs 2 2, vState (.vecIntSel (vArgs 2 2)) [5], vIn 2 2 1 (.vecIntSel (vArgs 2 2)) [5], _, Or.inr ⟨rfl,
    vecAtPack rfl (by decide +kernel) (by decide +kernel) (by decide +kernel) (by decide +kernel) (by decide +kernel) (by decide +kernel) (by unfold issues; decide +kernel) (by decide +kernel) (by decide +kernel) rfl⟩⟩

theorem test_hypotheses_VectorElementsAreComputed_2 : ∃ v : VecArgs, ∃ s : State, ∃ x : VecIn, ∃ d : Device, vecAt s (.vecCvt v) v 2 [0, 1, 2] false x d ∧ (x.arg 1).toNat ≤ 2 :=
  ⟨vArgs 0 2, vState (.vecCvt (vArgs 0 2)) [5, 2], vIn 0 2 2 (.vecCvt (vArgs 0 2)) [5, 2], _,
    vecAtPack rfl (by decide +kernel) (by decide +kernel) (by decide +kernel) (by decide +kernel) (by decide +kernel) (by decide +kernel) (by unfold issues; decide +kernel) (by decide +kernel) (by decide +kernel) rfl, by decide +kernel⟩

theorem test_hypotheses_VectorElementsAreComputed_3 : ∃ c : Instr, ∃ v : VecArgs, ∃ drop : Bool, ∃ fmts : List Nat, ∃ f : VecIn → Word → Word → Word, ∃ s : State, ∃ x : VecIn, ∃ d : Device, vecRandRows c = some (v, drop, fmts, f) ∧ vecAt s c v 8 fmts true x d :=
  ⟨.randU32 (vArgs 2 2), vArgs 2 2, _, _, _, vState (.randU32 (vArgs 2 2)) [5, 1, 2, 3, 4, 5, 6, 7],
    vIn 2 2 8 (.randU32 (vArgs 2 2)) [5, 1, 2, 3, 4, 5, 6, 7], _, rfl,
    vecAtPack rfl (by decide +kernel) (by decide +kernel) (by decide +kernel) (by decide +kernel) (by decide +kernel) (by decide +kernel) (by unfold issues; decide +kernel) (by decide +kernel) (by decide +kernel) rfl⟩

theorem test_hypotheses_VectorMasksReductionsAndScans_0 : ∃ c : Instr, ∃ v : VecArgs, ∃ f : Nat → Word → Word → Bool, ∃ s : State, ∃ x : VecIn, ∃ d : Device, vecTestRows c = some (v, f) ∧ vecAt s c v 1 [0, 1, 2] false x d :=
  ⟨.vecCmpLt (vArgs 1 2), vArgs 1 2, _, vState (.vecCmpLt (vArgs 1 2)) [5], vIn 1 2 1 (.vecCmpLt (vArgs 1 2)) [5], _, rfl,
    vecAtPack rfl (by decide +kernel) (by decide +kernel) (by decide +kernel) (by decide +kernel) (by decide +kernel) (by decide +kernel) (by unfold issues; decide +kernel) (by decide +kernel) (by decide +kernel) rfl⟩

theorem test_hypotheses_VectorMasksReductionsAndScans_1_0 : ∃ v : VecArgs, ∃ s : State, ∃ x : VecIn, ∃ d : Device, vecAt s (.randBern v) v 8 (List.range 16) true x d ∧ x.body.vmx ≠ 0 :=
  ⟨vArgs 0 2, vState (.randBern (vArgs 0 2)) [5, 1, 2, 3, 4, 5, 6, 7], vIn 0 2 8 (.randBern (vArgs 0 2)) [5, 1, 2, 3, 4, 5, 6, 7], _,
    vecAtPack rfl (by decide +kernel) (by decide +kernel) (by decide +kernel) (by decide +kernel) (by decide +kernel) (by decide +kernel) (by unfold issues; decide +kernel) (by decide +kernel) (by decide +kernel) rfl, by decide⟩

theorem test_hypotheses_VectorMasksReductionsAndScans_2 : ∃ c : Instr, ∃ v : VecArgs, ∃ f : Nat → Word → Word → Word, ∃ s : State, ∃ x : VecIn, ∃ d : Device, vecRedRows c = some (v, f) ∧ vecAt s c v 1 [0, 1, 2] false x d :=
  ⟨.vecRedMax (vArgs 1 2), vArgs 1 2, _, vState (.vecRedMax (vArgs 1 2)) [5], vIn 1 2 1 (.vecRedMax (vArgs 1 2)) [5], _, rfl,
    vecAtPack rfl (by decide +kernel) (by decide +kernel) (by decide +kernel) (by decide +kernel) (by decide +kernel) (by decide +kernel) (by unfold issues; decide +kernel) (by decide +kernel) (by decide +kernel) rfl⟩

theorem test_hypotheses_VectorMasksReductionsAndScans_3 : ∃ c : Instr, ∃ v : VecArgs, ∃ excl : Bool, ∃ f : Nat → Word → Word → Word, ∃ s : State, ∃ x : VecIn, ∃ d : Device, vecScanRows c = some (v, excl, f) ∧ vecAt s c v 2 [0, 1, 2] false x d :=
  ⟨.vecScanAddExcl (vArgs 2 2), vArgs 2 2, _, _, vState (.vecScanAddExcl (vArgs 2 2)) [5, 9], vIn 2 2 2 (.vecScanAddExcl (vArgs 2 2)) [5, 9], _, rfl,
    vecAtPack rfl (by decide +kernel) (by decide +kernel) (by decide +kernel) (by decide +kernel) (by decide +kernel) (by decide +kernel) (by unfold issues; decide +kernel) (by decide +kernel) (by decide +kernel) rfl⟩

theorem test_hypotheses_VectorMasksReductionsAndScans_1_1 : ∃ v : VecArgs, ∃ s : State, ∃ x : VecIn, ∃ d : Device, vecAt s (.randBern v) v 8 (List.range 16) true x d ∧ x.body.vmx = 0 ∧ x.it.isWork = false ∧ (s.dev.ctx x.it.ctx).st = .opened :=
  ⟨vArgs 0 0, vState (.randBern (vArgs 0 0)) [5, 1, 2, 3, 4, 5, 6, 7], vIn 0 0 8 (.randBern (vArgs 0 0)) [5, 1, 2, 3, 4, 5, 6, 7], _,
    vecAtPack rfl (by decide +kernel) (by decide +kernel) (by decide +kernel) (by decide +kernel) (by decide +kernel) (by decide +kernel) (by unfold issues; decide +kernel) (by decide +kernel) (by decide +kernel) rfl, by decide, by decide +kernel, by decide +kernel⟩

theorem vl_at : vecAt (vMem cLd wLd) cLd (vArgs 0 2) 10 (List.range 15) false (vInM 0 10 cLd wLd) (vMem cLd wLd).dev :=
  ⟨rfl, by decide +kernel, by decide +kernel, (by decide : 2 < 8), by decide +kernel, rfl, by decide +kernel, by decide +kernel,
    by decide +kernel, fun h => (nomatch h), kV, pV wLd, by unfold issues; decide +kernel, rfl, rfl, by decide +kernel, rfl, rfl,
    List.mem_singleton.mpr rfl, by decide +kernel, rfl⟩
theorem vl_bytes : ∀ i < 2, (vInM 0 10 cLd wLd).eng.mbit 1 i = true → ∀ j < 8,
    (match (vInM 0 10 cLd wLd).byte (vMem cLd wLd).dev (64 + j) with | .ok _ => true | .error _ => false) = true := by
  decide +kernel
theorem vl_bound : ∀ i < 2, (i * 1 * fmtBits (vInM 0 10 cLd wLd).fmt + fmtBits (vInM 0 10 cLd wLd).fmt - 1) / 8 < 8 := by
  decide +kernel
theorem test_hypotheses_VectorLoadsAndStores_0 : ∃ c : Instr, ∃ v : VecArgs, ∃ words : Nat, ∃ st : VecIn → Nat, ∃ s : State,
    ∃ x : VecIn, ∃ d : Device, ∃ d0 : Device, ∃ m sc : Nat → Byte, vecMemRows c = some (v, true, words, st) ∧
    (⟨words, List.range 15, fun _ => false, fun x => x.load (st x)⟩ : VecOp).reads x d = .got d0 () ∧
    vecAt s c v words (List.range 15) false x d ∧ vecBaseOk x ∧
    (∀ i, vecActive x i → ∀ j, i * st x * fmtBits x.fmt / 8 ≤ j →
      j ≤ (i * st x * fmtBits x.fmt + fmtBits x.fmt - 1) / 8 → x.byte s.dev (x.arg64 2 + j) = .ok (m j)) ∧
    (isMx x.fmt = true → ∀ i, vecActive x i → x.byte s.dev (x.arg64 4 + i / 32) = .ok (sc (i / 32))) := by
  refine ⟨cLd, vArgs 0 2, 10, fun _ => 1, vMem cLd wLd, vInM 0 10 cLd wLd, (vMem cLd wLd).dev, _,
    byF (vInM 0 10 cLd wLd) (vMem cLd wLd) 64, fun _ => 0, rfl,
    gotWhen (d := (vMem cLd wLd).dev) (by decide +kernel), vl_at,
    by unfold vecBaseOk; decide +kernel, fun i hi j _ hj => ?_, fun h => absurd h (by decide +kernel)⟩
  exact byteWhen (vl_bytes i hi.1 hi.2 j (Nat.lt_of_le_of_lt hj (vl_bound i hi.1)))
theorem vg_at : vecAt (vMem cGa wGa) cGa (vArgs 0 2) 4 [0, 1, 2] false (vInM 0 4 cGa wGa) (vMem cGa wGa).dev :=
  ⟨rfl, by decide +kernel, by decide +kernel, (by decide : 2 < 8), by decide +kernel, rfl, by decide +kernel, by decide +kernel,
    by decide +kernel, fun h => (nomatch h), kV, pV wGa, by unfold issues; decide +kernel, rfl, rfl, by decide +kernel, rfl, rfl,
    List.mem_singleton.mpr rfl, by decide +kernel, rfl⟩
theorem vg_bytes : ∀ i < 2, (vInM 0 4 cGa wGa).eng.mbit 1 i = true → ∀ j < 4,
    (match (vInM 0 4 cGa wGa).byte (vMem cGa wGa).dev
      (64 + 4 * ((vInM 0 4 cGa wGa).eng.elem 2 i).toNat + j) with | .ok _ => true | .error _ => false) = true := by
  decide +kernel
theorem test_hypotheses_VectorLoadsAndStores_2 : ∃ v : VecArgs, ∃ s : State, ∃ x : VecIn, ∃ d d0 : Device, ∃ m : Nat → Nat → Byte,
    vecGather.reads x d = .got d0 () ∧ vecAt s (.vecGather v) v 4 [0, 1, 2] false x d ∧ x.arg64 2 % 4 = 0 ∧
    ∀ i, vecActive x i → ∀ j, j < 4 → x.byte s.dev (x.arg64 2 + 4 * (x.eng.elem x.body.vb i).toNat + j) = .ok (m i j) := by
  refine ⟨vArgs 0 2, vMem cGa wGa, vInM 0 4 cGa wGa, (vMem cGa wGa).dev, _,
    fun i j => byF (vInM 0 4 cGa wGa) (vMem cGa wGa) (64 + 4 * ((vInM 0 4 cGa wGa).eng.elem 2 i).toNat) j,
    gotWhen (d := (vMem cGa wGa).dev) (by decide +kernel), vg_at, by decide +kernel, fun i hi j hj => byteWhen (vg_bytes i hi.1 hi.2 j hj)⟩

theorem vs_at : vecAt (vMem cSc wGa) cSc (vArgs 0 2) 4 [0, 1, 2] false (vInM 0 4 cSc wGa) (vMem cSc wGa).dev :=
  ⟨rfl, by decide +kernel, by decide +kernel, (by decide : 2 < 8), by decide +kernel, rfl, by decide +kernel, by decide +kernel,
    by decide +kernel, fun h => (nomatch h), kV, pV wGa, by unfold issues; decide +kernel, rfl, rfl, by decide +kernel, rfl, rfl,
    List.mem_singleton.mpr rfl, by decide +kernel, rfl⟩
theorem vs_span : ∀ j < 160, answers (translate (vMem cSc wGa).dev (vInM 0 4 cSc wGa).it.ctx ((vInM 0 4 cSc wGa).arg64 2 + j) .read) (.dev (2097152 + 64 + j), 1) = true ∧
    answers (translate (vMem cSc wGa).dev (vInM 0 4 cSc wGa).it.ctx ((vInM 0 4 cSc wGa).arg64 2 + j) .write) (.dev (2097152 + 64 + j), 1) = true ∧
    FMap.get false (vMem cSc wGa).dev.mem.bad ((2097152 + 64 + j) / 64) = false := by decide +kernel
theorem vs_index : ∀ i < 2, 4 * ((vInM 0 4 cSc wGa).eng.elem 2 i).toNat + 4 ≤ 160 := by decide +kernel
theorem test_hypotheses_VectorLoadsAndStores_3 : ∃ v : VecArgs, ∃ s : State, ∃ x : VecIn, ∃ d d0 : Device, ∃ len key a : Nat,
    vecScatter.reads x d = .got d0 () ∧ vecAt s (.vecScatter v) v 4 [0, 1, 2] false x d ∧ x.arg64 2 % 4 = 0 ∧
    coherent s.dev.mem ∧ x.it.save = none ∧ sound s ∧ spanAt s x.it.ctx (x.arg64 2) len key a ∧
    ∀ i, vecActive x i → 4 * (x.eng.elem x.body.vb i).toNat + 4 ≤ len :=
  ⟨vArgs 0 2, vMem cSc wGa, vInM 0 4 cSc wGa, (vMem cSc wGa).dev, _, 160, 1, 2097152 + 64,
    gotWhen (d := (vMem cSc wGa).dev) (by decide +kernel), vs_at, by decide +kernel, by unfold coherent; decide +kernel, rfl,
    soundWhen (by decide +kernel),
    fun j hj => ⟨answersWhen (vs_span j hj).1, answersWhen (vs_span j hj).2.1, (vs_span j hj).2.2⟩, fun i hi => vs_index i hi.1⟩

def wSt : List Nat := [2, 0, 64, 0, 0, 0, 0, 0, 0, 0]
def cSt : Instr := .vecSt (vArgs 0 2)
theorem vt_at (b : Bool) : vecAt (vMem cSt wSt) cSt (vArgs 0 2) 10 (List.range 15) b (vInM 0 10 cSt wSt) (vMem cSt wSt).dev :=
  ⟨rfl, by decide +kernel, by decide +kernel, (by decide : 2 < 8), by decide +kernel, rfl, by decide +kernel, by decide +kernel,
    by decide +kernel, fun _ => by decide +kernel, kV, pV wSt, by unfold issues; decide +kernel, rfl, rfl, by decide +kernel,
    rfl, rfl, List.mem_singleton.mpr rfl, by decide +kernel, rfl⟩
theorem vt_bound : ∀ i < 2, (i * 1 + 1) * fmtBits (vInM 0 10 cSt wSt).fmt ≤ 8 * 8 := by decide +kernel
theorem test_hypotheses_VectorLoadsAndStores_1 : ∃ c : Instr, ∃ v : VecArgs, ∃ words : Nat, ∃ st : VecIn → Nat, ∃ s : State, ∃ x : VecIn,
    ∃ d d0 : Device, ∃ len key a sa sk : Nat, vecMemRows c = some (v, false, words, st) ∧
    (⟨words, List.range 15, VecIn.draws, fun x => x.save (st x)⟩ : VecOp).reads x d = .got d0 () ∧
    vecAt s c v words (List.range 15) (stochastic ((x.arg 1).toNat % 256) && decide (2 < x.fmt) && x.fmt != 8) x d ∧
    vecBaseOk x ∧ coherent s.dev.mem ∧ x.it.claims = [] ∧ x.it.save = none ∧ sound s ∧
    spanAt s x.it.ctx (x.arg64 2) len key a ∧ (∀ i, vecActive x i → (i * st x + 1) * fmtBits x.fmt ≤ 8 * len) ∧
    (isMx x.fmt = true → spanAt s x.it.ctx (x.arg64 4) ((x.n + 31) / 32) sk sa ∧
      (sa + (x.n + 31) / 32 ≤ a ∨ a + len ≤ sa) ∧ sk = key) :=
  ⟨cSt, vArgs 0 2, 10, fun _ => 1, vMem cSt wSt, vInM 0 10 cSt wSt, (vMem cSt wSt).dev, _, 8, 1, 2097152 + 64, 0, 1, rfl,
    gotWhen (d := (vMem cSt wSt).dev) (by decide +kernel), vt_at _, by unfold vecBaseOk; decide +kernel,
    by unfold coherent; decide +kernel, rfl, rfl, soundWhen (by decide +kernel), spanWhen (by decide +kernel),
    fun i hi => vt_bound i hi.1, fun h => absurd h (by decide +kernel)⟩

def sGL : State := fit (.memLd iss (mb 8 0x84 2 0 0) []) (one sMC)
theorem gl_place : ∀ l ∈ x1.lanes (memFields true iss (mb 8 0x84 2 0 0)) iss.guard, laneAt sGL blk0 (memAddr iss (mb 8 0x84 2 0 0) x1 l) (memBytes (mb 8 0x84 2 0 0).fmt.toNat) .read (.dev (2097152 + 64)) (oneK l) := by
  intro l hl; refine ⟨?_, fun _ _ _ h => nomatch h⟩; apply okWhen; revert hl; revert l; decide +kernel
theorem gl_bits : ∀ l ∈ x1.lanes (memFields true iss (mb 8 0x84 2 0 0)) iss.guard, 
    (match sGL.dev.coreBytes blk0.die blk0.core ⟨blk0.ctx, blk0.seq, some blk0.die, none⟩ (memBytes (mb 8 0x84 2 0 0).fmt.toNat) (memAddr iss (mb 8 0x84 2 0 0) x1 l).toNat with
      | .ok b => decide (b = [5, 5, 5, 5]) | .error _ => false) = true := by decide +kernel
theorem gl_bytes : ∀ l ∈ x1.lanes (memFields true iss (mb 8 0x84 2 0 0)) iss.guard, 
    sGL.dev.coreBytes blk0.die blk0.core ⟨blk0.ctx, blk0.seq, some blk0.die, none⟩ (memBytes (mb 8 0x84 2 0 0).fmt.toNat) (memAddr iss (mb 8 0x84 2 0 0) x1 l).toNat = .ok [5, 5, 5, 5] := by
  intro l hl
  have h := gl_bits l hl
  revert h
  generalize sGL.dev.coreBytes blk0.die blk0.core ⟨blk0.ctx, blk0.seq, some blk0.die, none⟩ (memBytes (mb 8 0x84 2 0 0).fmt.toNat) (memAddr iss (mb 8 0x84 2 0 0) x1 l).toNat = e
  intro h
  cases e with
  | ok b => exact congrArg _ (of_decide_eq_true h)
  | error _ => cases h
theorem test_hypotheses_GlobalLoadsReadCoherentBytes : ∃ i : Issue, ∃ b : MemBody, ∃ s : State, ∃ k : KBlock, ∃ x : Pack, ∃ it : Item, ∃ (pl : Nat → Place), ∃ (key : Nat → Nat), ∃ (bs : Nat → List Byte), (issues s (.memLd i b []) i k x it) ∧ (memOk true k.tregs i b = true) ∧ (b.space = 0) ∧ (
      let n := memBytes b.fmt.toNat
      
      let ls := x.lanes (memFields true i b) i.guard
      (∀ l ∈ ls, laneAt s k (memAddr i b x l) n .read (pl l) (key l) ∧ s.dev.coreBytes k.die k.core ⟨k.ctx, k.seq, some k.die, none⟩ n (memAddr i b x l).toNat = .ok (bs l)) ∧ (((s.dev.evictCore k.die k.core []).1.touchLines k i.pack true (ls.map fun l => (pl l, key l, (memAddr i b x l).toNat))).2.2 = none) ∧ (k.tregs ≤ 128) ∧ (coreSound s.dev k.die k.core)) :=
  ⟨iss, mb 8 0x84 2 0 0, sGL, blk0, x1, it5, fun _ => .dev (2097152 + 64), oneK, fun _ => [5, 5, 5, 5],
    by unfold issues; decide +kernel, by decide +kernel, rfl, fun l hl => ⟨gl_place l hl, gl_bytes l hl⟩,
    by decide +kernel, by decide +kernel, coreSoundWhen (by decide +kernel)⟩

/-- The destination of a tile that drains. -/
theorem td_dest : plainDest z7 prAo z5 64 1 (2097152 + 8192) :=
  ⟨by unfold coherent; decide +kernel, rfl, by decide +kernel, by decide +kernel, by decide +kernel, by decide +kernel,
    by decide +kernel, by decide +kernel, by decide +kernel, spanWhen (by decide +kernel)⟩
theorem td_ready : drainReady z7 0 0 rp0 true z5 prAo := by
  refine ⟨by decide +kernel, soundWhen (by decide +kernel), fun d hd => ?_⟩
  rw [if_neg (by decide +kernel)] at hd
  cases hd
  exact ⟨_, getsWhen (by decide +kernel)⟩
theorem test_hypotheses_TilesAreDrainedAndCombined_1 : ∃ s : State, ∃ die k : Nat, ∃ rep : Report, ∃ which : Bool, ∃ b : Bank, ∃ tl : Tile,
    ∃ it : Item, ∃ len key a : Nat, ∃ X : Nat → Nat → Word, (s.dev.re die k).drainBank = some (which, b) ∧ b.tile = some tl ∧
    s.dev.item tl.ctx tl.seq = some it ∧ k < 8 ∧ s.dev.engineRuns s.plat die k = true ∧
    (b.st = .filling → (s.dev.re die k).dbgHalt = false) ∧ drainsTo s die k which tl it X ∧
    (b.comb = true ∨ (s.dev.prod it).split ≤ 1) ∧ (stochastic (s.dev.prod it).conv = true → (s.dev.die die).rng.st = .on) ∧
    plainDest s it tl len key a ∧ drainReady s die k rep which tl it :=
  ⟨z7, 0, 0, rp0, true, z6, z5, prAo, 64, 1, 2097152 + 8192, fun i j => ((z7.dev.re 0 0).bank true).get i j,
    by decide +kernel, by decide +kernel, by decide +kernel, by decide, by decide +kernel, by decide +kernel,
    Or.inl ⟨by decide +kernel, fun _ _ _ _ => rfl⟩, by decide +kernel, by decide +kernel, td_dest, td_ready⟩
theorem test_hypotheses_TilesAreDrainedAndCombined_0 : ∃ s : State, ∃ die k : Nat, ∃ which : Bool, ∃ b : Bank, ∃ tl : Tile, ∃ it : Item,
    ∃ d1 d2 : Device, (s.dev.re die k).drainBank = some (which, b) ∧ b.tile = some tl ∧
    s.dev.item tl.ctx tl.seq = some it ∧ k < 8 ∧ s.dev.engineRuns s.plat die k = true ∧ b.st = .draining ∧ b.comb = false ∧
    ((s.dev.prod it).split ≤ 1 → stochastic (s.dev.prod it).conv = true → (s.dev.die die).rng.st = .on) ∧
    (s.dev.charge tl.ctx die k rp0).fetch ⟨it.ctx, it.seq, some die, none⟩ die k ((s.dev.prod it).drainClass it)
      (fun a => ((s.dev.charge tl.ctx die k rp0).drainWrites it (s.dev.prod it) a b tl).map fun _ => ()) = .got d1 () ∧
    (if (s.dev.prod it).split ≤ 1 then d1.drainTile it (s.dev.prod it) ⟨it.ctx, it.seq, some die, none⟩ tl (b.rows tl)
      else d1.drainPartial it (s.dev.prod it) ⟨it.ctx, it.seq, some die, none⟩ tl (b.rows tl)) = .ok d2 :=
  ⟨z7, 0, 0, true, z6, z5, prAo, _, _, by decide +kernel, by decide +kernel, by decide +kernel, by decide, by decide +kernel,
    by decide +kernel, by decide +kernel, by decide +kernel, getsWhen (by decide +kernel), okDevWhen (by decide +kernel)⟩
theorem test_hypotheses_TilesAreDrainedAndCombined_2 : ∃ s : State, ∃ die k : Nat, ∃ rep : Report, ∃ which : Bool, ∃ b : Bank, ∃ tl : Tile,
    ∃ it : Item, ∃ key a : Nat, ∃ X : Nat → Nat → Word, (s.dev.re die k).drainBank = some (which, b) ∧ b.tile = some tl ∧
    s.dev.item tl.ctx tl.seq = some it ∧ k < 8 ∧ s.dev.engineRuns s.plat die k = true ∧
    (b.st = .filling → (s.dev.re die k).dbgHalt = false) ∧ drainsTo s die k which tl it X ∧ b.comb = false ∧
    1 < (s.dev.prod it).split ∧ tl.col + tl.w ≤ (s.dev.prod it).n ∧ tl.row + tl.m ≤ (s.dev.prod it).m ∧
    tl.split < (s.dev.prod it).split ∧ coherent s.dev.mem ∧ drainReady s die k rep which tl it ∧
    spanAt s it.ctx (it.opAddr 0x48) (4 * (s.dev.prod it).split * (s.dev.prod it).m * (s.dev.prod it).n) key a := by
  refine ⟨z19, 0, 0, rp0, false, z18, z17, prBo, 1, 2097152 + 16384, fun i j => ((z19.dev.re 0 0).bank false).get i j,
    by decide +kernel, by decide +kernel, by decide +kernel, by decide, by decide +kernel, by decide +kernel,
    Or.inl ⟨by decide +kernel, fun _ _ _ _ => rfl⟩, by decide +kernel, by decide +kernel, by decide +kernel, by decide +kernel,
    by decide +kernel, by unfold coherent; decide +kernel,
    ⟨by decide +kernel, soundWhen (by decide +kernel), fun d hd => ?_⟩, spanWhen (by decide +kernel)⟩
  rw [if_neg (by decide +kernel)] at hd
  cases hd
  exact ⟨_, getsWhen (by decide +kernel)⟩

def partAt (s : State) (it : Item) (tl : Tile) (i j u : Nat) : Nat :=
  okNat (s.dev.readNat ⟨it.ctx, it.seq, some 0, none⟩ 4
    (it.opAddr 0x48 + 4 * ((u * (s.dev.prod it).m + tl.row + i) * (s.dev.prod it).n + tl.col + j)))
theorem te_parts : ∀ i < 1, ∀ j < z60.w, ∀ u < (z61.dev.prod prFo).split,
    isOk (z61.dev.readNat ⟨prFo.ctx, prFo.seq, some 0, none⟩ 4
      (prFo.opAddr 0x48 + 4 * ((u * (z61.dev.prod prFo).m + z60.row + i) * (z61.dev.prod prFo).n + z60.col + j))) = true := by decide +kernel
theorem test_hypotheses_TilesAreDrainedAndCombined_3_0 : ∃ s : State, ∃ die k : Nat, ∃ tl : Tile, ∃ xs ys : List Tile, ∃ it : Item, ∃ n : Nat,
    ∃ parts : Nat → Nat → Nat → Nat, (s.dev.re die k).combines = xs ++ tl :: ys ∧ (∀ x ∈ xs, tl.rank < x.rank) ∧
    (∀ x ∈ ys, tl.rank ≤ x.rank) ∧ tl ∉ xs ∧ s.dev.item tl.ctx tl.seq = some it ∧ k < 8 ∧ mayIssue s die k ∧
    (((s.dev.re die k).bank (s.dev.re die k).turn).st = .free ∨ ((s.dev.re die k).bank (s.dev.re die k).turn).st = .loading) ∧
    ((s.dev.re die k).bank !(s.dev.re die k).turn).st ≠ .filling ∧ (∀ x ∈ (s.dev.re die k).queue, tl.rank ≤ x.rank) ∧
    ((s.dev.re die k).parked.isSome = true → tl.rank = 1) ∧ tl.w ≤ 512 ∧ n ≤ tl.m ∧
    (∃ d x, s.dev.fetch ⟨it.ctx, it.seq, some die, none⟩ die k (fun _ => 0)
      (fun a => (s.dev.prod it).partials s.dev it a tl 0 n) = .got d x) ∧
    (∀ i j u, i < n → j < tl.w → u < (s.dev.prod it).split → s.dev.readNat ⟨it.ctx, it.seq, some die, none⟩ 4
      (it.opAddr 0x48 + 4 * ((u * (s.dev.prod it).m + tl.row + i) * (s.dev.prod it).n + tl.col + j)) = .ok (parts i j u)) ∧
    n < tl.m :=
  ⟨z61, 0, 0, z60, [], [], prFo, 1, partAt z61 prFo z60, by decide +kernel, nofun, nofun, nofun, by decide +kernel, by decide,
    by unfold mayIssue; decide +kernel, by decide +kernel, by decide +kernel, by decide +kernel, by decide +kernel,
    by decide +kernel, by decide +kernel, comesWhen (by decide +kernel),
    fun i j u hi hj hu => okNatWhen (te_parts i hi j hj u hu), by decide +kernel⟩

/-- Rows of a bank that a combine works at. -/
def combAt (s : State) (it : Item) (tl : Tile) (b : Bank) (n : Nat) (i j : Nat) : Word :=
  if b.pos ≤ i ∧ i < n then partSum (s.dev.prod it).int ((List.range (s.dev.prod it).split).map fun u =>
    BitVec.ofNat 32 (partAt s it tl i j u)) else b.get i j
theorem tf_parts : ∀ i < 2, ∀ j < z66.w, ∀ u < (z68.dev.prod prBo).split,
    isOk (z68.dev.readNat ⟨prBo.ctx, prBo.seq, some 0, none⟩ 4
      (prBo.opAddr 0x48 + 4 * ((u * (z68.dev.prod prBo).m + z66.row + i) * (z68.dev.prod prBo).n + z66.col + j))) = true := by
  decide +kernel
theorem tf_comes (n : Nat) (hn : n ≤ 2)
    (hf : comes (z68.dev.fetch ⟨prBo.ctx, prBo.seq, some 0, none⟩ 0 0 (fun _ => 0)
      (fun a => (z68.dev.prod prBo).partials z68.dev prBo a z66 ((z68.dev.re 0 0).bank false).pos n)) = true) (hp : ((z68.dev.re 0 0).bank false).pos ≤ n) :
    comesTo z68 0 0 false z66 prBo n (combAt z68 prBo z66 ((z68.dev.re 0 0).bank false) n) :=
  ⟨by decide +kernel, by decide +kernel, by decide +kernel, hp, by decide +kernel, by
    rw [if_pos (by decide +kernel)]
    exact ⟨hn, comesWhen hf, partAt z68 prBo z66,
      fun i j u _ hi hj hu => okNatWhen (tf_parts i (Nat.lt_of_lt_of_le hi hn) j hj u hu), fun _ _ _ _ => rfl⟩⟩
theorem test_hypotheses_TilesAreDrainedAndCombined_4_0 : ∃ s : State, ∃ die k : Nat, ∃ tl : Tile, ∃ it : Item, ∃ n : Nat,
    ∃ X : Nat → Nat → Word, mayIssue s die k ∧ k < 8 ∧ ((s.dev.re die k).bank !(s.dev.re die k).turn).comb = true ∧
    comesTo s die k (!(s.dev.re die k).turn) tl it n X ∧ n < tl.m :=
  ⟨z68, 0, 0, z66, prBo, 1, _, by unfold mayIssue; decide +kernel, by decide, by decide +kernel,
    tf_comes 1 (by decide) (by decide +kernel) (by decide +kernel), by decide +kernel⟩

theorem tf_dest : plainDest z68 prBo z66 50 1 (2097152 + 8192) :=
  ⟨by unfold coherent; decide +kernel, rfl, by decide +kernel, by decide +kernel, by decide +kernel, by decide +kernel,
    by decide +kernel, by decide +kernel, by decide +kernel, spanWhen (by decide +kernel)⟩
theorem tf_ready : drainReady z68 0 0 rp0 false z66 prBo := by
  refine ⟨by decide +kernel, soundWhen (by decide +kernel), fun d hd => ?_⟩
  rw [if_pos (by decide +kernel)] at hd
  obtain rfl := Except.ok.inj (hd.symm.trans (okDevWhen (by decide +kernel)))
  exact ⟨_, getsWhen (by decide +kernel)⟩
theorem test_hypotheses_TilesAreDrainedAndCombined_4_1 : ∃ s : State, ∃ die k : Nat, ∃ rep : Report, ∃ tl : Tile, ∃ it : Item, ∃ n : Nat,
    ∃ len key a : Nat, ∃ X : Nat → Nat → Word, mayIssue s die k ∧ k < 8 ∧
    ((s.dev.re die k).bank !(s.dev.re die k).turn).comb = true ∧ comesTo s die k (!(s.dev.re die k).turn) tl it n X ∧
    n = tl.m ∧ (stochastic (s.dev.prod it).conv = true → (s.dev.die die).rng.st = .on) ∧ plainDest s it tl len key a ∧
    drainReady s die k rep (!(s.dev.re die k).turn) tl it :=
  ⟨z68, 0, 0, rp0, z66, prBo, 2, 50, 1, 2097152 + 8192, _, by unfold mayIssue; decide +kernel, by decide, by decide +kernel,
    tf_comes 2 (by decide) (by decide +kernel) (by decide +kernel), by decide +kernel, by decide +kernel, tf_dest, tf_ready⟩
theorem tg_parts : ∀ i < 2, ∀ j < z60.w, ∀ u < (z61.dev.prod prFo).split,
    isOk (z61.dev.readNat ⟨prFo.ctx, prFo.seq, some 0, none⟩ 4
      (prFo.opAddr 0x48 + 4 * ((u * (z61.dev.prod prFo).m + z60.row + i) * (z61.dev.prod prFo).n + z60.col + j))) = true := by
  decide +kernel
theorem tg_lines : ∀ d1 d2, z61.dev.startCombine z61.plat 0 0 z60 = .ok d1 →
    d1.advance z61.plat 0 0 (z61.dev.re 0 0).turn 2 = .ok d2 →
    drainLines (d2.charge z60.ctx 0 0 rp0) 0 0 (z61.dev.re 0 0).turn z60 prFo := by
  intro d1 d2 h1 h2
  obtain rfl := Except.ok.inj (h1.symm.trans (okDevWhen (by decide +kernel)))
  obtain rfl := Except.ok.inj (h2.symm.trans (okDevWhen (by decide +kernel)))
  exact ⟨_, getsWhen (by decide +kernel)⟩
theorem test_hypotheses_TilesAreDrainedAndCombined_3_1 : ∃ s : State, ∃ die k : Nat, ∃ rep : Report, ∃ tl : Tile, ∃ xs ys : List Tile,
    ∃ it : Item, ∃ n : Nat, ∃ parts : Nat → Nat → Nat → Nat, ∃ len key a : Nat,
    (s.dev.re die k).combines = xs ++ tl :: ys ∧ (∀ x ∈ xs, tl.rank < x.rank) ∧
    (∀ x ∈ ys, tl.rank ≤ x.rank) ∧ tl ∉ xs ∧ s.dev.item tl.ctx tl.seq = some it ∧ k < 8 ∧ mayIssue s die k ∧
    (((s.dev.re die k).bank (s.dev.re die k).turn).st = .free ∨ ((s.dev.re die k).bank (s.dev.re die k).turn).st = .loading) ∧
    ((s.dev.re die k).bank !(s.dev.re die k).turn).st ≠ .filling ∧ (∀ x ∈ (s.dev.re die k).queue, tl.rank ≤ x.rank) ∧
    ((s.dev.re die k).parked.isSome = true → tl.rank = 1) ∧ tl.w ≤ 512 ∧ n ≤ tl.m ∧
    (∃ d x, s.dev.fetch ⟨it.ctx, it.seq, some die, none⟩ die k (fun _ => 0)
      (fun a => (s.dev.prod it).partials s.dev it a tl 0 n) = .got d x) ∧
    (∀ i j u, i < n → j < tl.w → u < (s.dev.prod it).split → s.dev.readNat ⟨it.ctx, it.seq, some die, none⟩ 4
      (it.opAddr 0x48 + 4 * ((u * (s.dev.prod it).m + tl.row + i) * (s.dev.prod it).n + tl.col + j)) = .ok (parts i j u)) ∧
    n = tl.m ∧ (stochastic (s.dev.prod it).conv = true → (s.dev.die die).rng.st = .on) ∧ plainDest s it tl len key a ∧
    (it.isWork = true → it.outcome.1.success = true) ∧ sound s ∧
    (∀ d1 d2, s.dev.startCombine s.plat die k tl = .ok d1 → d1.advance s.plat die k (s.dev.re die k).turn n = .ok d2 →
      drainLines (d2.charge tl.ctx die k rep) die k (s.dev.re die k).turn tl it) :=
  ⟨z61, 0, 0, rp0, z60, [], [], prFo, 2, partAt z61 prFo z60, 64, 1, 2097152 + 8192, by decide +kernel, nofun, nofun, nofun,
    by decide +kernel, by decide, by unfold mayIssue; decide +kernel, by decide +kernel, by decide +kernel, by decide +kernel,
    by decide +kernel, by decide +kernel, by decide +kernel, comesWhen (by decide +kernel),
    fun i j u hi hj hu => okNatWhen (tg_parts i hi j hj u hu), by decide +kernel, by decide +kernel,
    ⟨by unfold coherent; decide +kernel, rfl, by decide +kernel, by decide +kernel, by decide +kernel, by decide +kernel,
      by decide +kernel, by decide +kernel, by decide +kernel, spanWhen (by decide +kernel)⟩,
    by decide +kernel, soundWhen (by decide +kernel), tg_lines⟩

/-- Products of work that ends where it stands. -/
def macAt (s : State) (it : Item) (tl : Tile) (b : Bank) (i j : Nat) : Word :=
  let pr := s.dev.prod it
  placeAcc pr (tl.split * pr.units / pr.split + b.pos) (tl.split * pr.units / pr.split + b.pos) (b.get i j) [] []
theorem macComes {s : State} {die k : Nat} {which : Bool} {tl : Tile} {it : Item}
    (hs : ((s.dev.re die k).bank which).st = .filling) (ht : ((s.dev.re die k).bank which).tile = some tl)
    (hi : s.dev.item tl.ctx tl.seq = some it) (hw : tl.w ≤ 512) (hc : ((s.dev.re die k).bank which).comb = false)
    (hn : ((s.dev.re die k).bank which).pos ≤ (tl.split + 1) * (s.dev.prod it).units / (s.dev.prod it).split -
      tl.split * (s.dev.prod it).units / (s.dev.prod it).split) :
    comesTo s die k which tl it ((s.dev.re die k).bank which).pos (macAt s it tl ((s.dev.re die k).bank which)) :=
  ⟨hs, ht, hi, Nat.le_refl _, hw, by
    rw [if_neg (by rw [hc]; decide)]
    exact ⟨hn, fun _ => [], fun _ => [], fun h => absurd h (Nat.lt_irrefl _), fun _ _ _ _ => rfl⟩⟩
theorem test_hypotheses_TilesAreReducedAndMoved_1 : ∃ s : State, ∃ die k : Nat, ∃ which : Bool, ∃ tl : Tile, ∃ it : Item, ∃ n : Nat,
    ∃ X : Nat → Nat → Word, comesTo s die k which tl it n X ∧ n ≤ workEnd s.dev ((s.dev.re die k).bank which) tl it ∧
    (((s.dev.re die k).bank !which).st = .free ∨
      ((s.dev.re die k).bank !which).st = .loading ∧ ((s.dev.re die k).bank !which).loaded = true) ∧
    (s.dev.re die k).dbgHalt = true ∧ (s.dev.re die k).halted = false ∧
    ((s.dev.re die k).blk.st = .on ∨ (s.dev.re die k).blk.st = .stopping) ∧ k < 8 :=
  ⟨y47, 0, 0, true, y46, prB, ((y47.dev.re 0 0).bank true).pos, _,
    macComes (by decide +kernel) (by decide +kernel) (by decide +kernel) (by decide +kernel) (by decide +kernel)
      (by decide +kernel), by decide +kernel, by decide +kernel, by decide +kernel, by decide +kernel, by decide +kernel, by decide⟩
/-- `y47` with a tile of class 0 in front of the queue and no debug halt. -/
def yPark : State := withDev y47 fun d => d.updRe 0 0 fun r => { r with
  dbgHalt := false, queue := [⟨1, 6, 0, 0, 1, 1, 0, 1⟩], bank1 := bkT { y46 with rank := 2 } acc24 .filling false 0 }
theorem test_hypotheses_TilesAreReducedAndMoved_4 : ∃ s : State, ∃ die k : Nat, ∃ which : Bool, ∃ it : Item, ∃ n : Nat, ∃ tl x : Tile,
    ∃ rest : List Tile, ∃ X : Nat → Nat → Word, (s.dev.re die k).queue = tl :: rest ∧ tl.rank = 1 ∧ 1 < x.rank ∧
    (s.dev.re die k).parked = none ∧ mayIssue s die k ∧ k < 8 ∧ comesTo s die k which x it n X ∧
    n < workEnd s.dev ((s.dev.re die k).bank which) x it ∧ ((s.dev.re die k).bank !which).st = .free :=
  ⟨yPark, 0, 0, true, prB, ((yPark.dev.re 0 0).bank true).pos, ⟨1, 6, 0, 0, 1, 1, 0, 1⟩, { y46 with rank := 2 }, [], _,
    by decide +kernel, rfl, by decide, by decide +kernel, by unfold mayIssue; decide +kernel, by decide,
    macComes (by decide +kernel) (by decide +kernel) (by decide +kernel) (by decide +kernel) (by decide +kernel)
      (by decide +kernel), by decide +kernel, by decide +kernel⟩
theorem test_hypotheses_TilesAreReducedAndMoved_5 : ∃ s : State, ∃ die k : Nat, ∃ b : Bank, ∃ x : Tile, ∃ X : Nat → Nat → Word,
    (s.dev.re die k).parked = some b ∧ b.tile = some x ∧ x.w ≤ 512 ∧ (∀ y ∈ (s.dev.re die k).queue, y.rank ≠ 1) ∧
    (((s.dev.re die k).bank (s.dev.re die k).turn).st = .free ∨ ((s.dev.re die k).bank (s.dev.re die k).turn).st = .loading) ∧
    otherEnds s die k X ∧ mayIssue s die k ∧ k < 8 :=
  ⟨y88, 0, 0, y87, y86, fun _ _ => 0, by decide +kernel, by decide +kernel, by decide +kernel, by decide +kernel,
    by decide +kernel, fun h => absurd h (by decide +kernel), by unfold mayIssue; decide +kernel, by decide⟩
theorem ti_init : ∀ i < y1.m, ∀ j < y1.w, isOk ((y2.dev.prod prA).initial y2.dev ⟨prA.ctx, prA.seq, some 0, none⟩ y1.split
    (y1.row + i) (y1.col + j)) = true := by decide +kernel
theorem test_hypotheses_TilesAreReducedAndMoved_0 : ∃ s : State, ∃ die k : Nat, ∃ tl : Tile, ∃ rest : List Tile, ∃ it : Item, ∃ d0 : Device,
    ∃ ini : List (List Word), ∃ init X : Nat → Nat → Word, mayStart s die k tl rest ∧ k < 8 ∧
    s.dev.item tl.ctx tl.seq = some it ∧ otherEnds s die k X ∧ tl.w ≤ 512 ∧ (it.isWork = false ∨ it.claims = []) ∧
    (if ((s.dev.re die k).bank (s.dev.re die k).turn).loaded = true ∧
        ((s.dev.re die k).bank (s.dev.re die k).turn).tile = some tl
      then ∀ i j, i < tl.m → j < tl.w → init i j = ((s.dev.re die k).bank (s.dev.re die k).turn).get i j
      else (((s.dev.re die k).bank !(s.dev.re die k).turn).st ≠ .filling ∧
          s.dev.fetch ⟨it.ctx, it.seq, some die, none⟩ die k (fun _ => it.operandClass 2)
            (fun a => (s.dev.prod it).initials s.dev a tl) = .got d0 ini ∨ (s.dev.prod it).load = false ∨ tl.split ≠ 0) ∧
        ∀ i j, i < tl.m → j < tl.w → (s.dev.prod it).initial s.dev ⟨it.ctx, it.seq, some die, none⟩ tl.split (tl.row + i)
          (tl.col + j) = .ok (init i j)) := by
  refine ⟨y2, 0, 0, y1, [{ y1 with row := 64 }], prA, Device.reset, [], fun i j => okElse 0 ((y2.dev.prod prA).initial y2.dev
    ⟨prA.ctx, prA.seq, some 0, none⟩ y1.split (y1.row + i) (y1.col + j)), fun _ _ => 0,
    by unfold mayStart mayIssue; decide +kernel, by decide, by decide +kernel, fun h => absurd h (by decide +kernel),
    by decide +kernel, by decide +kernel, ?_⟩
  rw [if_neg (by decide +kernel)]
  exact ⟨Or.inr (by decide +kernel), fun i j hi hj => okElseWhen (ti_init i hi j hj)⟩

/-! ### Updates, stream operations, partners -/

/-- One layer of a weight set: Step Record at 0x100, Coefficient Table at 0x800. -/
def wOne : WSet := ⟨2097152 + 0x200, 0x200, 1, [32], 6, [⟨6, false, 0x1000, 0x1400, [32], [32]⟩]⟩
def sUm (it : Item) (st : List Byte) (runs : List Update) (hl : List (Nat × Nat × Nat)) : State :=
  withDev (withIts s0 [it, { itemOf 6 1 .running [] with holds := hl }]) fun d => { d with
    mem := { d.mem with
      dram := cells (2097152 + 0x100) st ++ cells (2097152 + 0x800) e0
      lineKey := (List.range 200).map fun i => (L0 + i, 1) }
    ups := { d.ups with blk := on, dir := [wOne], runs := runs } }
def uDis : State := sUm (itU .dispatched) (step0 3 fOne) [u7] []
def uBad : State := sUm (itU .dispatched) (step0 8 fOne) [u7] []
def uSum : State := sUm (itU .dispatched) (step0 3 fOne) [u7, un] []
def uLay : State := sUm (itU .running) (step0 3 fOne) [run0 0 false] [(2097152 + 0x200, 0, 0)]
def uHeld : State := withIts (sUm (itU .running) (step0 3 fOne) [run0 0 false] [])
  [{ itU .running with holds := [(2097152 + 0x200, 0, 1)] }]
def uWr : State := sUm (itU .running) (step0 3 fOne) [run0 0 true, u7] []
def act5 : Actor := ⟨1, 5, none, none⟩
theorem tu_q : ∀ i < wOne.layers.length, isOk (uDis.dev.layerQ act5 (itU .dispatched) i) = true := by decide +kernel
theorem test_hypotheses_UpdatesRunTheirPhases_0_0 : ∃ s : State, ∃ c q : Nat, ∃ it : Item, ∃ w : WSet, ∃ r : List Byte, ∃ Q : Nat → Word,
    s.dev.item c q = some it ∧ it.typ = 4 ∧ it.phase = .dispatched ∧ s.dev.deferWait it = false ∧ s.dev.setOf it = some w ∧
    sound s ∧ wholeLines s.dev.mem ∧ s.dev.readBytes ⟨c, q, none, none⟩ 64 it.addr0 = .ok r ∧ stepOk r = true ∧
    (∀ i, i < w.layers.length → s.dev.layerQ ⟨c, q, none, none⟩ it i = .ok (Q i)) ∧ s.dev.runOf c q = none :=
  ⟨uDis, 1, 5, itU .dispatched, wOne, step0 3 fOne, fun i => okElse 0 (uDis.dev.layerQ act5 (itU .dispatched) i),
    by decide +kernel, by decide +kernel, by decide +kernel, by decide +kernel, by decide +kernel, soundWhen (by decide +kernel),
    by unfold wholeLines; decide +kernel, answersWhen (by decide +kernel), by decide +kernel, fun i hi => okElseWhen (tu_q i hi),
    by decide +kernel⟩
theorem test_hypotheses_UpdatesRunTheirPhases_0_1 : ∃ s : State, ∃ c q : Nat, ∃ it : Item, ∃ w : WSet, ∃ r : List Byte,
    s.dev.item c q = some it ∧ it.typ = 4 ∧ it.phase = .dispatched ∧ s.dev.deferWait it = false ∧ s.dev.setOf it = some w ∧
    sound s ∧ wholeLines s.dev.mem ∧ s.dev.readBytes ⟨c, q, none, none⟩ 64 it.addr0 = .ok r ∧ (s.dev.ctx c).st = .opened ∧
    s.dev.runOf c q = none ∧ stepOk r = false :=
  ⟨uBad, 1, 5, itU .dispatched, wOne, step0 8 fOne,
    by decide +kernel, by decide +kernel, by decide +kernel, by decide +kernel, by decide +kernel, soundWhen (by decide +kernel),
    by unfold wholeLines; decide +kernel, answersWhen (by decide +kernel), by decide +kernel, by decide +kernel,
    by decide +kernel⟩
theorem tu_q2 : ∀ i < wOne.layers.length, isOk (uSum.dev.layerQ act5 (itU .dispatched) i) = true := by decide +kernel
theorem test_hypotheses_UpdatesRunTheirPhases_1 : ∃ s : State, ∃ c q : Nat, ∃ it : Item, ∃ w : WSet, ∃ u : Update, ∃ Q : Nat → Word,
    s.dev.item c q = some it ∧ it.typ = 4 ∧ it.phase = .dispatched ∧ s.dev.deferWait it = false ∧ s.dev.setOf it = some w ∧
    s.dev.runOf c q = some u ∧ sound s ∧ wholeLines s.dev.mem ∧
    ∀ i, i < w.layers.length → s.dev.layerQ ⟨c, q, none, none⟩ it i = .ok (Q i) :=
  ⟨uSum, 1, 5, itU .dispatched, wOne, un, fun i => okElse 0 (uSum.dev.layerQ act5 (itU .dispatched) i),
    by decide +kernel, by decide +kernel, by decide +kernel, by decide +kernel, by decide +kernel, by decide +kernel,
    soundWhen (by decide +kernel), by unfold wholeLines; decide +kernel, fun i hi => okElseWhen (tu_q2 i hi)⟩
theorem test_hypotheses_AStepRunsTheFrontCommand_2 : ∃ s : State, ∃ it : Item, s.pending = [] ∧ s.plat.pow.alwaysOn = true ∧
    s.plat.pow.refAbsent = false ∧ s.dev.hub.items = [it] ∧ it.typ = 4 ∧ it.isWork = false ∧ it.phase = .running ∧
    s.dev.pinWaits it = true :=
  ⟨uHeld, { itU .running with holds := [(2097152 + 0x200, 0, 1)] }, by decide +kernel, by decide +kernel, by decide +kernel,
    by decide +kernel, by decide +kernel, by decide +kernel, by decide +kernel, by decide +kernel⟩

def lay6 : WLayer := ⟨6, false, 0x1000, 0x1400, [32], [32]⟩
theorem tv_spans : ∀ x ∈ layerRanges e0 true, ∀ j < x.2,
    answers (translate uLay.dev 1 (x.1 + j) .read) (.dev (2097152 + x.1 + j), 1) = true ∧
    answers (translate uLay.dev 1 (x.1 + j) .write) (.dev (2097152 + x.1 + j), 1) = true ∧
    FMap.get false uLay.dev.mem.bad ((2097152 + x.1 + j) / 64) = false := by decide +kernel
theorem test_hypotheses_UpdatesRunTheirPhases_2_1 : ∃ s : State, ∃ c q : Nat, ∃ it : Item, ∃ r : Update, ∃ w : WSet, ∃ l : WLayer,
    ∃ e : List Byte, ∃ key : Nat, ∃ pa : Nat → Nat, s.dev.item c q = some it ∧ s.dev.runOf c q = some r ∧ r.phase = .layers ∧
    r.writing = false ∧ s.dev.runLayer r = some (w, l) ∧ s.dev.slotHeld w.recAt r.layer (!l.slot) = false ∧
    s.dev.coefEntry ⟨c, q, none, none⟩ it r.layer = .ok e ∧ sound s ∧ coherent s.dev.mem ∧
    ∀ x ∈ layerRanges e (!l.slot), spanAt s c x.1 x.2 key (pa x.1) :=
  ⟨uLay, 1, 5, itU .running, run0 0 false, wOne, lay6, e0, 1, fun v => 2097152 + v, by decide +kernel, by decide +kernel,
    by decide +kernel, by decide +kernel, by decide +kernel, by decide +kernel, answersWhen (by decide +kernel),
    soundWhen (by decide +kernel), by unfold coherent; decide +kernel, fun x hx => spanWhen (tv_spans x hx)⟩
/-- What `uWr` writes for its layer. -/
def xWr : LayerIn := okElse ⟨[], [], [], []⟩ (uWr.dev.readArrays act5 e0 false)
def fzWr : List Nat := okElse [] (uWr.dev.frozen act5 e0)
def oldWr (i : Nat) : Nat := okElse 0 (uWr.dev.srcElem act5 (.va (slotAddrs e0 false).1) (coefFmt e0) i)
def outWr : Outs :=
  let y := newLayer e0 (run0 0 true).scale (run0 0 true).eta xWr
  let dst := slotAddrs e0 true
  let n := coefElems e0
  [(dst.1, 2097152 + dst.1, newWeights e0 (uWr.dev.ctx 1).seed (run0 0 true).step fzWr oldWr y.1),
    (dst.2.1, 2097152 + dst.2.1, newMoments fzWr xWr.m1 y.2.1 n)] ++
  (if coefM2 e0 then [(dst.2.2, 2097152 + dst.2.2, newMoments fzWr xWr.m2 y.2.2 n)] else []) ++
  [(wOne.recVa + 0x40 + 16 * 0, 2097152 + (wOne.recVa + 0x40), leBytes 8 (wOne.published + 1).toNat ++ leBytes 8 1)] ++
  (if decide (wOne.layers.length ≤ 1) then [(wOne.recVa, 2097152 + wOne.recVa, leBytes 8 (wOne.published + 1).toNat)] else [])
theorem tv_old : ∀ i ∈ fzWr, isOk (uWr.dev.srcElem act5 (.va (slotAddrs e0 false).1) (coefFmt e0) i) = true := by decide +kernel
theorem tv_outs : ∀ x ∈ outWr, ∀ j < x.2.2.length,
    answers (translate uWr.dev 1 (x.1 + j) .read) (.dev (x.2.1 + j), 1) = true ∧
    answers (translate uWr.dev 1 (x.1 + j) .write) (.dev (x.2.1 + j), 1) = true ∧
    FMap.get false uWr.dev.mem.bad ((x.2.1 + j) / 64) = false := by decide +kernel
theorem test_hypotheses_UpdatesRunTheirPhases_3 : ∃ s : State, ∃ c q : Nat, ∃ it : Item, ∃ r : Update, ∃ w : WSet, ∃ l : WLayer,
    ∃ e : List Byte, ∃ x : LayerIn, ∃ fz : List Nat, ∃ old : Nat → Nat, ∃ key pw p1 p2 pr pv : Nat, ∃ o : Outs,
    s.dev.item c q = some it ∧ s.dev.runOf c q = some r ∧ r.phase = .layers ∧ r.writing = true ∧
    s.dev.runLayer r = some (w, l) ∧ sound s ∧ coherent s.dev.mem ∧ s.dev.coefEntry ⟨c, q, none, none⟩ it r.layer = .ok e ∧
    s.dev.readArrays ⟨c, q, none, none⟩ e l.slot = .ok x ∧ s.dev.frozen ⟨c, q, none, none⟩ e = .ok fz ∧
    (∀ i ∈ fz, s.dev.srcElem ⟨c, q, none, none⟩ (.va (slotAddrs e l.slot).1) (coefFmt e) i = .ok (old i)) ∧
    (let y := newLayer e r.scale r.eta x
      let dst := slotAddrs e (!l.slot)
      let n := coefElems e
      let v := w.published + 1
      o = [(dst.1, pw, newWeights e (s.dev.ctx c).seed r.step fz old y.1), (dst.2.1, p1, newMoments fz x.m1 y.2.1 n)] ++
        (if coefM2 e then [(dst.2.2, p2, newMoments fz x.m2 y.2.2 n)] else []) ++
        [(w.recVa + 0x40 + 16 * r.layer, pr, leBytes 8 v.toNat ++ leBytes 8 (if l.slot then 0 else 1))] ++
        (if decide (w.layers.length ≤ r.layer + 1) then [(w.recVa, pv, leBytes 8 v.toNat)] else [])) ∧ outsAt s c key o :=
  ⟨uWr, 1, 5, itU .running, run0 0 true, wOne, lay6, e0, xWr, fzWr, oldWr, 1, 2097152 + (slotAddrs e0 true).1,
    2097152 + (slotAddrs e0 true).2.1, 2097152 + (slotAddrs e0 true).2.2, 2097152 + (wOne.recVa + 0x40), 2097152 + wOne.recVa,
    outWr, by decide +kernel, by decide +kernel, by decide +kernel, by decide +kernel, by decide +kernel,
    soundWhen (by decide +kernel), by unfold coherent; decide +kernel, answersWhen (by decide +kernel),
    okElseWhen (by decide +kernel), okElseWhen (by decide +kernel), fun i hi => okElseWhen (tv_old i hi), rfl,
    fun x hx => spanWhen (tv_outs x hx), by decide +kernel⟩

/-- Memory with bytes at the source of a stream operation, and its item first on vector engine 1. -/
def sStm (it : Item) (src : List Byte) : State := withDev (withIt s0 it) fun d =>
  ({ d with mem := { d.mem with
      dram := cells (2097152 + 1024) src, lineKey := (List.range 200).map fun i => (L0 + i, 1) } } : Device).updVe 0 1
    fun v => { v with queue := [(1, 5)] }
def srcItem : StreamSrc := .item 1 5 rp0
theorem hereWhen {s : State} {c : Instr} {code : Nat} {it : Item} (hw : s.dev.mem.weak = [])
    (h1 : it.claims = [] ∧ it.save = none ∧ streamLegal it = true ∧ streamAligned it = true ∧ field it.desc 0x19 1 = code ∧
      it.ctx = 1 ∧ it.seq = 5 ∧ it.isStream = true ∧ it.isWork = false ∧ it.phase = .dispatched)
    (h2 : s.dev.item 1 5 = some it) (h3 : s.dev.deferWait it = false) (h4 : s.dev.veOf it = some (0, 1))
    (h5 : s.dev.veReady s.plat it 0 1 = true) : streamSet s c srcItem code it 0 1 := by
  obtain ⟨a1, a2, a3, a4, a5, a6, a7, a8, a9, a10⟩ := h1
  exact ⟨soundWhen hw, a1, a2, a3, a4, a5, by decide, by rw [a6, a7]; exact h2, h2, a8, a9, h3, Or.inl ⟨a10, h4, h5⟩⟩
def iZc : Item := stIt 0x60 3 0 2 4 65536 [(0, 8, 1024), (0x60, 4, 0), (0x30, 8, 8192), (0x38, 8, 12288), (0x58, 8, 16384)]
def sZc : State := sStm iZc [5, 0, 0, 6, 0, 0, 7, 0]
def actI (it : Item) : Actor := it.actor (some 0)
def rowsZc (r : Nat) : List Nat := okElse [] (sZc.dev.rowBits (actI iZc) (iZc.sTen true) r)
def outZc : Outs :=
  let rows := (List.range iZc.sRows).map fun r => zcRowOf iZc.sFmt (rowsZc r)
  [(iZc.opAddr 0x38, 2097152 + 12288, rows.flatMap Prod.fst), (iZc.opAddr 0x30, 2097152 + 8192, rows.flatMap Prod.snd),
    (iZc.opAddr 0x58, 2097152 + 16384, rowTable 0 (rows.map Prod.snd))]
def spansOk (s : State) (o : Outs) : Bool := o.all fun x => (List.range x.2.2.length).all fun j =>
  answers (translate s.dev 1 (x.1 + j) .read) (.dev (x.2.1 + j), 1) &&
  answers (translate s.dev 1 (x.1 + j) .write) (.dev (x.2.1 + j), 1) && !FMap.get false s.dev.mem.bad ((x.2.1 + j) / 64)
theorem spansWhen {s : State} {o : Outs} (h : spansOk s o = true)
    (hp : o.Pairwise fun x y => x.2.1 + x.2.2.length ≤ y.2.1 ∨ y.2.1 + y.2.2.length ≤ x.2.1) : outsAt s 1 1 o := by
  refine ⟨fun x hx => spanWhen fun j hj => ?_, hp⟩
  have h := List.all_eq_true.mp (List.all_eq_true.mp h x hx) j (List.mem_range.mpr hj)
  simp only [Bool.and_eq_true, Bool.not_eq_true'] at h
  exact ⟨h.1.1, h.1.2, h.2⟩
theorem ts_rows : ∀ r < iZc.sRows, isOk (sZc.dev.rowBits (actI iZc) (iZc.sTen true) r) = true := by decide +kernel
theorem test_hypotheses_StreamOperationsWriteTheirArrays_0 : ∃ src : StreamSrc, ∃ s : State, ∃ it : Item, ∃ die k : Nat,
    ∃ xs : Nat → List Nat, ∃ key : Nat, ∃ o : Outs, ∃ a b c : Nat, streamHere s (.zcCompress src) src 0x60 it die k ∧
    streamFed s src zcCompress it die k ∧ coherent s.dev.mem ∧
    (∀ r, r < it.sRows → s.dev.rowBits (it.actor (some die)) (it.sTen true) r = .ok (xs r)) ∧ 0 < it.sCols ∧
    it.sRows * zcRowBytes it.sCols it.sFmt ≤ field it.desc 0x28 8 ∧
    (let rows := (List.range it.sRows).map fun r => zcRowOf it.sFmt (xs r);
      o = [(it.opAddr 0x38, a, rows.flatMap Prod.fst), (it.opAddr 0x30, b, rows.flatMap Prod.snd),
        (it.opAddr 0x58, c, rowTable 0 (rows.map Prod.snd))] ∧ it.opAddr 0x38 ≠ 0 ∧ it.opAddr 0x30 ≠ 0 ∧ it.opAddr 0x58 ≠ 0 ∧
      outsAt s it.ctx key o ∧ (rows.flatMap Prod.snd).length < 2 ^ 37) :=
  ⟨srcItem, sZc, iZc, 0, 1, rowsZc, 1, outZc, 2097152 + 12288, 2097152 + 8192, 2097152 + 16384,
    ⟨hereWhen (by decide +kernel) (by decide +kernel) (by decide +kernel) (by decide +kernel) (by decide +kernel)
      (by decide +kernel),
      (by decide +kernel : iZc.streamParts ≤ streamPos sZc iZc 0 1 + 1)⟩, ⟨_, getsWhen (by decide +kernel)⟩, by unfold coherent; decide +kernel,
    fun r hr => okElseWhen (ts_rows r hr), by decide +kernel, by decide +kernel, rfl, by decide +kernel, by decide +kernel,
    by decide +kernel, spansWhen (by decide +kernel) (by decide +kernel), by decide +kernel⟩

def iS24 : Item := stIt 0x61 3 0 4 2 0 [(0, 8, 1024), (0x60, 4, 0), (0x30, 8, 8192), (0x38, 8, 12288), (0x68, 4, 0), (0x18, 8, 0)]
def sS24 : State := sStm iS24 [5, 0, 0, 6, 7, 0, 0, 0]
def grS (c g : Nat) : Group24 := okElse ⟨(0, 0), (0, 0), false⟩ (sS24.dev.group24 iS24 (actI iS24) c g)
theorem tt_groups : ∀ c < iS24.sCols, ∀ g < (iS24.sRows + 3) / 4, isOk (sS24.dev.group24 iS24 (actI iS24) c g) = true ∧
    (grS c g).bad = false := by decide +kernel
theorem tt_span (va n a : Nat) (h : spansOk sS24 [(va, a, List.replicate n 0)] = true) : spanAt sS24 1 va n 1 a := by
  have := (spansWhen h (List.pairwise_singleton _ _)).1 _ (List.mem_singleton.mpr rfl)
  simpa using this
theorem test_hypotheses_StreamOperationsWriteTheirArrays_2 : ∃ src : StreamSrc, ∃ s : State, ∃ it : Item, ∃ die k : Nat,
    ∃ gr : Nat → Nat → Group24, ∃ key a b len : Nat, streamHere s (.s24Compress src) src 0x61 it die k ∧
    streamFed s src s24Compress it die k ∧ coherent s.dev.mem ∧ s.dev.badPatterns it (it.actor (some die)) = .ok [] ∧
    (∀ c g, c < it.sCols → g < (it.sRows + 3) / 4 → s.dev.group24 it (it.actor (some die)) c g = .ok (gr c g)) ∧
    (it.sFlag 0 = true ∨ ∀ c g, c < it.sCols → g < (it.sRows + 3) / 4 → (gr c g).bad = false) ∧
    (let ms := (List.range it.sCols).flatMap fun c => metaBytes ((List.range ((it.sRows + 3) / 4)).map (gr c));
      let stride := if field it.oprec 0x68 4 = 0 then it.sCols else field it.oprec 0x68 4
      0 < it.sCols ∧ it.sCols ≤ stride ∧ it.opAddr 0x30 ≠ 0 ∧ it.opAddr 0x38 ≠ 0 ∧
      2 * ((it.sRows + 3) / 4) * stride * fmtBits it.sFmt ≤ 8 * len ∧ spanAt s it.ctx (it.opAddr 0x30) len key a ∧
      spanAt s it.ctx (it.opAddr 0x38) ms.length key b ∧ (a + len ≤ b ∨ b + ms.length ≤ a)) :=
  ⟨srcItem, sS24, iS24, 0, 1, grS, 1, 2097152 + 8192, 2097152 + 12288, 16,
    ⟨hereWhen (by decide +kernel) (by decide +kernel) (by decide +kernel) (by decide +kernel) (by decide +kernel)
      (by decide +kernel),
      (by decide +kernel : iS24.streamParts ≤ streamPos sS24 iS24 0 1 + 1)⟩, ⟨_, getsWhen (by decide +kernel)⟩, by unfold coherent; decide +kernel,
    answersWhen (by decide +kernel), fun c g hc hg => okElseWhen (tt_groups c hc g hg).1,
    Or.inr fun c g hc hg => (tt_groups c hc g hg).2, by decide +kernel, by decide +kernel, by decide +kernel, by decide +kernel,
    by decide +kernel, spanWhen (by decide +kernel), spanWhen (by decide +kernel), by decide +kernel⟩
def iPr : Item := stIt 0x62 3 0 4 4 0 [(0, 8, 1024), (0x60, 4, 0), (0x30, 8, 0), (0x38, 8, 12288), (0x68, 4, 0)]
def sPr : State := sStm iPr [5, 0, 0, 6, 7, 0, 0, 0, 1, 2, 3, 4, 9, 8, 0, 1]
theorem tt_blocks : ∀ x < iPr.sRows / 4, ∀ y < iPr.sCols / 4, isOk (sPr.dev.block44 iPr (actI iPr) x y) = true := by
  decide +kernel
theorem test_hypotheses_StreamOperationsWriteTheirArrays_3 : ∃ src : StreamSrc, ∃ s : State, ∃ it : Item, ∃ die k : Nat,
    ∃ es : Nat → Nat → List (List (Nat × Machine.Num)), ∃ key a b len : Nat, streamHere s (.prune24t src) src 0x62 it die k ∧
    streamFed s src prune24t it die k ∧ coherent s.dev.mem ∧ it.sRows % 4 = 0 ∧ it.sCols % 4 = 0 ∧ 0 < it.sCols ∧
    (∀ x y, x < it.sRows / 4 → y < it.sCols / 4 → s.dev.block44 it (it.actor (some die)) x y = .ok (es x y)) ∧
    (let stride := if field it.oprec 0x68 4 = 0 then it.sCols else field it.oprec 0x68 4
      let np := it.sRows / 4 * (it.sCols / 4);
      it.sCols ≤ stride ∧ it.opAddr 0x38 ≠ 0 ∧ spanAt s it.ctx (it.opAddr 0x38) np key b ∧
      (it.sFlag 2 = true → it.opAddr 0x30 ≠ 0 ∧ it.sRows * stride * fmtBits it.sFmt ≤ 8 * len ∧
        spanAt s it.ctx (it.opAddr 0x30) len key a ∧ (a + len ≤ b ∨ b + np ≤ a)) ∧ (it.sFlag 2 = false → len = 0)) :=
  ⟨srcItem, sPr, iPr, 0, 1, fun x y => okElse [] (sPr.dev.block44 iPr (actI iPr) x y), 1, 0, 2097152 + 12288, 0,
    ⟨hereWhen (by decide +kernel) (by decide +kernel) (by decide +kernel) (by decide +kernel) (by decide +kernel)
      (by decide +kernel),
      (by decide +kernel : iPr.streamParts ≤ streamPos sPr iPr 0 1 + 1)⟩, ⟨_, getsWhen (by decide +kernel)⟩, by unfold coherent; decide +kernel,
    by decide +kernel, by decide +kernel, by decide +kernel, fun x y hx hy => okElseWhen (tt_blocks x hx y hy),
    by decide +kernel, by decide +kernel, spanWhen (by decide +kernel), fun h => absurd h (by decide +kernel), fun _ => rfl⟩
def iNz : Item := stIt 0x63 3 0 2 4 0 [(0, 8, 1024), (0x30, 8, 8192), (0x38, 8, 12288), (0x58, 8, 16384)]
def sNz : State := sStm iNz [5, 0, 0, 6, 0, 0, 7, 0]
def posNz (r : Nat) : List Nat := okElse [] (sNz.dev.nnzRow iNz (actI iNz) r)
theorem tt_nnz : ∀ r < iNz.sRows, isOk (sNz.dev.nnzRow iNz (actI iNz) r) = true ∧ ∀ p ∈ posNz r, p < iNz.sCols := by
  decide +kernel
def outNz : Outs :=
  let n := if iNz.sFlag 4 then 64 else 32
  let beats := (List.range iNz.sRows).map fun r => beatsOf n iNz.sCols (posNz r)
  [(iNz.opAddr 0x30, 2097152 + 8192, u32Bytes beats),
    (iNz.opAddr 0x38, 2097152 + 12288, u32Bytes ((List.range iNz.sRows).map fun r => (posNz r).length)),
    (iNz.opAddr 0x58, 2097152 + 16384, u32Bytes ((List.range 256).map fun j => (beats.filter fun x => min x 255 == j).length))]
theorem test_hypotheses_StreamOperationsWriteTheirArrays_4 : ∃ src : StreamSrc, ∃ s : State, ∃ it : Item, ∃ die k : Nat,
    ∃ ps : Nat → List Nat, ∃ key : Nat, ∃ o : Outs, ∃ a b c : Nat, streamHere s (.nnzHist src) src 0x63 it die k ∧
    streamFed s src nnzHist it die k ∧ coherent s.dev.mem ∧
    (∀ r, r < it.sRows → s.dev.nnzRow it (it.actor (some die)) r = .ok (ps r) ∧ ∀ p ∈ ps r, p < it.sCols) ∧
    (let n := if it.sFlag 4 then 64 else 32
      let beats := (List.range it.sRows).map fun r => beatsOf n it.sCols (ps r);
      o = [(it.opAddr 0x30, a, u32Bytes beats), (it.opAddr 0x38, b, u32Bytes ((List.range it.sRows).map fun r => (ps r).length)),
        (it.opAddr 0x58, c, u32Bytes ((List.range 256).map fun j => (beats.filter fun x => min x 255 == j).length))] ∧
      it.opAddr 0x30 ≠ 0 ∧ it.opAddr 0x38 ≠ 0 ∧ it.opAddr 0x58 ≠ 0 ∧ outsAt s it.ctx key o) :=
  ⟨srcItem, sNz, iNz, 0, 1, posNz, 1, outNz, 2097152 + 8192, 2097152 + 12288, 2097152 + 16384,
    ⟨hereWhen (by decide +kernel) (by decide +kernel) (by decide +kernel) (by decide +kernel) (by decide +kernel)
      (by decide +kernel),
      (by decide +kernel : iNz.streamParts ≤ streamPos sNz iNz 0 1 + 1)⟩, ⟨_, getsWhen (by decide +kernel)⟩, by unfold coherent; decide +kernel,
    fun r hr => ⟨okElseWhen (tt_nnz r hr).1, (tt_nnz r hr).2⟩, rfl, by decide +kernel, by decide +kernel, by decide +kernel,
    spansWhen (by decide +kernel) (by decide +kernel)⟩
def iLong : Item := { stIt 0x63 3 0 3 4096 0 [(0, 8, 1024), (0x30, 8, 8192), (0x38, 8, 12288), (0x58, 8, 16384)] with
  phase := .running }
def sLong : State := withDev (sStm iLong []) fun d => d.updVe 0 1 fun v => { v with
  queue := [], running := some (1, 5), stream := true, listPos := 1 }
theorem test_hypotheses_StreamOperationsWriteTheirArrays_5 : ∃ i : Instr, ∃ c q : Nat, ∃ rep : Report, ∃ code : Nat, ∃ op : StreamOp,
    ∃ s : State, ∃ it : Item, ∃ die k : Nat, streamRows i = some (.item c q rep, code, op) ∧
    streamSet s i (.item c q rep) code it die k ∧
    (streamPos s it die k = 0 → streamFed s (.item c q rep) op it die k) ∧ coherent s.dev.mem ∧
    streamPos s it die k + 1 < it.streamParts :=
  ⟨.nnzHist srcItem, 1, 5, rp0, 0x63, nnzHist, sLong, iLong, 0, 1, rfl,
    ⟨soundWhen (by decide +kernel), by decide +kernel, by decide +kernel, by decide +kernel, by decide +kernel, by decide +kernel,
      by decide, by decide +kernel, by decide +kernel, by decide +kernel, by decide +kernel, by decide +kernel,
      Or.inr (by decide +kernel)⟩, fun h => absurd h (by decide +kernel), by unfold coherent; decide +kernel, by decide +kernel⟩

theorem test_hypotheses_PeersAreServedAndAnswered_6 : ∃ s : State, ∃ node : AnsPath, ∃ tag : Nat, ∃ o : PeerOut, ∃ pk l key rctx rva : Nat,
    ∃ keep : Bool, ∃ bs : List Byte, ∃ kb : KBlock, node.dst = s.dev.ports.node.toNat ∧
    s.dev.ports.out.find? (fun y => y.tag == tag) = some o ∧ o.use = .line pk l key rctx rva keep ∧
    (s.dev.item o.ctx o.seq).any Item.isWork = false ∧ s.dev.block (pk / 16) = some kb ∧ keep = true ∧ bs.length = 128 ∧
    ((s.dev.core kb.die kb.core).line (.peer o.node rctx rva) key).isNone = true ∧
    (s.dev.core kb.die kb.core).lines.length < coreLines ∧ (s.dev.pack pk).wait = some .memory ∧
    ∀ y ∈ s.dev.ports.out, y.use.lines pk = true → y.tag = tag :=
  ⟨sAnL, ⟨3, 4⟩, 5, pLine, 0, 0, 1, 2, 0x70000, true, List.replicate 128 6, blk0, by decide +kernel, by decide +kernel,
    by decide +kernel, by decide +kernel, by decide +kernel, rfl, by decide +kernel, by decide +kernel, by decide +kernel,
    by decide +kernel, by decide +kernel⟩
theorem test_hypotheses_PeersAreServedAndAnswered_6_atomic : ∃ s : State, ∃ node : AnsPath, ∃ tag : Nat, ∃ o : PeerOut, ∃ pk : Nat,
    ∃ lanes : List Nat, ∃ dst : BitVec 8, ∃ fmt : Nat, node.dst = s.dev.ports.node.toNat ∧
    s.dev.ports.out.find? (fun y => y.tag == tag) = some o ∧ o.use = .atom pk lanes dst fmt ∧ lanes.Nodup ∧
    (∀ l ∈ lanes, l < 32) ∧ dst.toNat < 127 ∧ (s.dev.item o.ctx o.seq).any Item.isWork = false :=
  ⟨sAn [pAt], ⟨3, 4⟩, 5, pAt, 0, [2, 0, 5], 20, 0x0F, by decide +kernel, by decide +kernel, by decide +kernel, by decide,
    by decide, by decide, by decide +kernel⟩
theorem test_hypotheses_PeersAreServedAndAnswered_6_fill : ∃ s : State, ∃ node : AnsPath, ∃ tag : Nat, ∃ o : PeerOut, ∃ rctx rva : Nat,
    node.dst = s.dev.ports.node.toNat ∧ s.dev.ports.out.find? (fun y => y.tag == tag) = some o ∧ o.use = .fill rctx rva ∧
    (s.dev.item o.ctx o.seq).any Item.isWork = false ∧ s.dev.waitsBy o.ctx o.seq false = false ∧
    (s.dev.ctx o.ctx).st = .opened :=
  ⟨sAn [pFi], ⟨3, 4⟩, 5, pFi, 2, 0x70000, by decide +kernel, by decide +kernel, by decide +kernel, by decide +kernel,
    by decide +kernel, by decide +kernel⟩
theorem test_hypotheses_PeersAreServedAndAnswered_6_lost : ∃ s : State, ∃ node : AnsPath, ∃ tag : Nat, ∃ o : PeerOut, ∃ it : Item,
    node.dst = s.dev.ports.node.toNat ∧ s.dev.ports.out.find? (fun y => y.tag == tag) = some o ∧
    s.dev.item o.ctx o.seq = some it ∧ it.isWork = false ∧ it.err = none ∧ numbersApart s.dev ∧ s.dev.ups.runs = [] :=
  ⟨sAn [pFi], ⟨3, 4⟩, 5, pFi, it5, by decide +kernel, by decide +kernel, by decide +kernel, by decide +kernel, by decide +kernel,
    by unfold numbersApart; decide +kernel, by decide +kernel⟩

end Sys2Proof.Tests
end

section
/-! O46 fails in its frame. R241 counts a prefetched line as useful once for all its copies on a die, so the first demand for it
takes the prefetch mark off the copies in the data caches of the die's Collie cores too (`Device.prefUsed`). Where a row engine's
LOAD is that demand, TILE_START changes the cores, and `otherEngines` says that they stay. -/

namespace Sys2Proof.Proofs.PrefetchedLoad

open Sys2Proof.Machine Sys2Proof.Spec

/-! ### A part in which a LOAD is the first use of a prefetched line -/

/-- An open context whose first 2 MiB page, readable and writable, lies at device address 0. -/
def owner : Ctx :=
  { Ctx.free with
    st := .opened, key := some 1, pt := [(ptKey 0 0, 1), (ptKey 1 0, 1), (ptKey 2 0, BitVec.ofNat 64 (2 ^ 52 + 15))] }

/-- A product of 1 x 32 and 32 x 1 BF16 elements that loads its initial sum. -/
def productDesc : List Byte :=
  1 :: List.replicate 23 0 ++ leBytes 4 1 ++ leBytes 4 1 ++ leBytes 8 32 ++ [4, 3, 3, 0, 0, 1]

/-- Its operand record: A and B at 0, the initial sum at 64, C at 128. -/
def productOperands : List Byte := List.replicate 0x30 0 ++ leBytes 8 128 ++ leBytes 8 0 ++ leBytes 8 64

/-- The running item of the product. -/
def product : Item := { newItem 1 5 0 productDesc 0 with phase := .running, oprec := productOperands, out := 1 }

/-- Its only tile. -/
def tile : Tile := ⟨1, 5, 0, 0, 1, 1, 0, product.rank⟩

/-- The Retriever's request for line 0, in which all of these lie, for core 0 of die 0: a prefetch that no demand has joined. -/
def request : Miss := ⟨0, 16, 0, 5, [], true, 1, 5, 1, false⟩

/-- The tile heads the queue of row engine 0 of die 0, and the prefetched line is on its way. -/
def asked : State :=
  { pending := []
    plat := ⟨Fuses.reset, { Power.reset with stage := .ready, dieLevel := [(0, 0)] }, Mastiff.reset⟩
    dev := { Device.reset with
      hub := { Hub.reset with ctxs := [(1, owner)], items := [product] }
      eng := { Device.reset.eng with res := [(0, { RowEng.reset with blk := ⟨.on, true, false⟩, queue := [tile] })] }
      collie := { Device.reset.collie with cores := [(0, CoreSt.reset)] }
      mem := { Mem.reset with lineKey := [(0, 1)], misses := [request] } } }

/-- PREFETCH_FILL has put the line into the die cache and the core's data cache (R239), and nothing has used it yet. -/
def start : State := { asked with dev := prefetchFill 0 0 .clean .clean asked.dev }

theorem exec_prefetchFill_asked : exec (.prefetchFill 0 0 .clean .clean) asked = .next start := rfl

/-! ### The first part of the statement applies to it -/

/-- What the reads of a unit came to. -/
def fetched {α : Type} : Fetch α → Option α
  | .got _ x => some x
  | _ => none

theorem got_of_fetched {α : Type} {f : Fetch α} {x : α} (h : fetched f = some x) : ∃ d, f = .got d x := by
  cases f with
  | got d y => exact ⟨d, congrArg _ (Option.some.inj h)⟩
  | stall d => cases h
  | err e => cases h

theorem start_mayStart : mayStart start 0 0 tile [] := by
  unfold mayStart mayIssue
  decide +kernel

theorem start_otherEnds (X : Nat → Nat → Word) : otherEnds start 0 0 X := fun h => absurd h (by decide +kernel)

/-- The line of the initial sum is in the die cache, so the LOAD does not wait. -/
theorem start_initials_come : ∃ d0, start.dev.fetch ⟨product.ctx, product.seq, some 0, none⟩ 0 0
    (fun _ => product.operandClass 2) (fun a => (start.dev.prod product).initials start.dev a tile) = .got d0 [[0]] :=
  got_of_fetched (by decide +kernel)

theorem start_initial_zero : ∀ i < tile.m, ∀ j < tile.w, (start.dev.prod product).initial start.dev
    ⟨product.ctx, product.seq, some 0, none⟩ tile.split (tile.row + i) (tile.col + j) = .ok 0 := by decide +kernel

/-! ### The cores do not stay -/

/-- The prefetch marks of the lines in the data cache of core 0 of die 0. -/
def coreMarks (d : Device) : List (Option Nat) := (d.core 0 0).lines.map CLine.pref

/-- The core's copy is marked as one of context 1 that has not been used. -/
theorem start_coreMarks : coreMarks start.dev = [some 1] := by decide +kernel

/-- The LOAD uses the prefetched line, and the mark of the core's copy goes (R241). -/
theorem tileStart_coreMarks : coreMarks (tileStart 0 0 Report.zero start.plat start.dev) = [none] := by decide +kernel

theorem coreMarks_congr {d e : Device} (h : d.collie = e.collie) : coreMarks d = coreMarks e := by
  unfold coreMarks Device.core
  rw [h]

/-- Refutes O46: a TILE_START whose LOAD is the first use of a prefetched line takes the prefetch mark off a Collie core's copy of
that line (R241), so the cores are not as before. -/
theorem not_tilesAreReducedAndMoved : ¬ Obligations.TilesAreReducedAndMoved := by
  intro h
  obtain ⟨hstart, -⟩ := h
  obtain ⟨d0, hgot⟩ := start_initials_come
  obtain ⟨t, hexec, ⟨-, -, hcollie, -⟩, -⟩ := hstart start 0 0 Report.zero tile [] product d0 [[0]] (fun _ _ => 0) (fun _ _ => 0)
    start_mayStart (by decide) (by decide +kernel) (start_otherEnds _) (by decide) (.inl rfl) (by
      rw [if_neg (by decide +kernel)]
      exact ⟨.inl ⟨by decide +kernel, hgot⟩, fun i j hi hj => start_initial_zero i hi j hj⟩)
  obtain rfl : { start with dev := tileStart 0 0 Report.zero start.plat start.dev } = t := Host.Outcome.next.inj hexec
  have hmarks := coreMarks_congr hcollie
  rw [tileStart_coreMarks, start_coreMarks] at hmarks
  exact absurd hmarks (by decide)

end Sys2Proof.Proofs.PrefetchedLoad
end

section
/-! O47 fails in its frame as O46 does. The partials of a split may lie in a line that the Retriever put into the data cache of a
Collie core of the die (R239); where a combine is the first demand for it, R241 takes the prefetch mark off the core's copy
(`Device.prefUsed`), and `otherEngines` says of SPLIT_COMBINE that the cores stay. -/

namespace Sys2Proof.Proofs.PrefetchedCombine

open Sys2Proof.Machine Sys2Proof.Spec
open Sys2Proof.Proofs.PrefetchedLoad (coreMarks coreMarks_congr got_of_fetched)

/-! ### A part in which a combine is the first use of a prefetched line -/

/-- A product of 2 x 64 and 64 x 1 BF16 elements in two splits. -/
def productDesc : List Byte :=
  1 :: List.replicate 23 0 ++ leBytes 4 2 ++ leBytes 4 1 ++ leBytes 8 64 ++ [0, 3, 3, 0, 0, 2]

/-- Its operand record: A at 256, B at 512, C at 128, the scratch area at 64. -/
def productOperands : List Byte := leBytes 8 256 ++ List.replicate 16 0 ++ leBytes 8 512 ++ List.replicate 16 0 ++ leBytes 8 128 ++
  List.replicate 16 0 ++ leBytes 8 64

/-- The running item of the product, whose combine is out. -/
def product : Item := { newItem 1 5 0 productDesc 0 with phase := .running, oprec := productOperands, out := 1 }

/-- Its only place, of two rows, as the last split's tile drained it. -/
def place : Tile := ⟨1, 5, 0, 0, 2, 1, 1, product.rank⟩

/-- Row engine 0 of die 0 has the combine of the place to perform, and line 0, in which the scratch area lies, is on its way for
core 0 of the die. -/
def asked : State :=
  { PrefetchedLoad.asked with dev := { PrefetchedLoad.asked.dev with
      hub := { PrefetchedLoad.asked.dev.hub with items := [product] }
      eng := { PrefetchedLoad.asked.dev.eng with
        res := [(0, { RowEng.reset with blk := ⟨.on, true, false⟩, combines := [place] })] } } }

/-- PREFETCH_FILL has put the line into the die cache and the core's data cache (R239), and nothing has used it yet. -/
def start : State := { asked with dev := prefetchFill 0 0 .clean .clean asked.dev }

theorem exec_prefetchFill_asked : exec (.prefetchFill 0 0 .clean .clean) asked = .next start := rfl

/-! ### The statement's part on a combine short of its last row applies to it -/

theorem start_mayIssue : mayIssue start 0 0 := by
  unfold mayIssue
  decide +kernel

/-- The line of the partials is in the die cache, so the combine of row 0 does not wait. -/
theorem start_partials_come : ∃ d x, start.dev.fetch ⟨product.ctx, product.seq, some 0, none⟩ 0 0 (fun _ => 0)
    (fun a => (start.dev.prod product).partials start.dev product a place 0 1) = .got d x :=
  have ⟨d, hd⟩ := got_of_fetched (x := [[[0, 0]]]) (by decide +kernel)
  ⟨d, _, hd⟩

theorem start_partials_zero : ∀ i < 1, ∀ j < place.w, ∀ u < (start.dev.prod product).split,
    start.dev.readNat ⟨product.ctx, product.seq, some 0, none⟩ 4 (product.opAddr 0x48 +
      4 * ((u * (start.dev.prod product).m + place.row + i) * (start.dev.prod product).n + place.col + j)) = .ok 0 := by
  decide +kernel

/-! ### The cores do not stay -/

/-- The core's copy is marked as one of context 1 that has not been used. -/
theorem start_coreMarks : coreMarks start.dev = [some 1] := by decide +kernel

/-- The combine uses the prefetched line, and the mark of the core's copy goes (R241). -/
theorem splitCombine_coreMarks : coreMarks (splitCombine 0 0 1 Report.zero start.plat start.dev) = [none] := by decide +kernel

/-- Refutes O47: a SPLIT_COMBINE that comes to row 1 of a place, its read of the partials being the first use of a prefetched line,
takes the prefetch mark off a Collie core's copy of that line (R241), so the cores are not as before. -/
theorem not_tilesAreDrainedAndCombined : ¬ Obligations.TilesAreDrainedAndCombined := by
  intro h
  obtain ⟨-, -, -, hcombine, -⟩ := h
  obtain ⟨hrow, -⟩ := hcombine start 0 0 Report.zero place [] [] product 1 (fun _ _ _ => 0) (by decide +kernel) nofun nofun nofun
    (by decide +kernel) (by decide) start_mayIssue (by decide +kernel) (by decide +kernel) (by decide +kernel)
    (by decide +kernel) (by decide) (by decide) start_partials_come
    fun i j u hi hj hu => start_partials_zero i hi j hj u hu
  obtain ⟨t, hexec, ⟨-, -, hcollie, -⟩, -⟩ := hrow (by decide)
  obtain rfl : { start with dev := splitCombine 0 0 1 Report.zero start.plat start.dev } = t := Host.Outcome.next.inj hexec
  have hmarks := coreMarks_congr hcollie
  rw [splitCombine_coreMarks, start_coreMarks] at hmarks
  exact absurd hmarks (by decide)

end Sys2Proof.Proofs.PrefetchedCombine
end

section
/-! Reads of row engines, cores and counters by their numbers, after an update at other numbers within what the part has (R2, R423);
and of a table that takes the values of a function. -/

namespace Sys2Proof

theorem FMap.get_foldl_set {α : Type} [DecidableEq α] (d : α) (f : Nat → α) (m : FMap α) (n b : Nat) :
    FMap.get d ((List.range n).foldl (fun m i => FMap.set d m i (f i)) m) b = if b < n then f b else FMap.get d m b := by
  induction n with
  | zero => rfl
  | succ n ih =>
    rw [List.range_succ, List.foldl_append, List.foldl_cons, List.foldl_nil, FMap.get_set, ih]
    by_cases hb : b = n
    · simp [hb]
    · simp only [if_neg hb, show b < n + 1 ↔ b < n by omega]

namespace Machine

theorem Device.re_updRe_of_lt (d : Device) {i j die k : Nat} (f : RowEng → RowEng) (hj : j < 8) (hk : k < 8) :
    (d.updRe die k f).re i j = if i = die ∧ j = k then f (d.re i j) else d.re i j := by
  have hkey : 8 * i + j = 8 * die + k ↔ i = die ∧ j = k := by omega
  rw [Device.re_updRe, if_congr hkey rfl rfl]
  split
  case isTrue he => rw [he.1, he.2]
  case isFalse => rfl

theorem Device.core_updCore_of_lt (d : Device) {i j die c : Nat} (f : CoreSt → CoreSt) (hj : j < 16) (hc : c < 16) :
    (d.updCore die c f).core i j = if i = die ∧ j = c then f (d.core i j) else d.core i j := by
  have hkey : 16 * i + j = 16 * die + c ↔ i = die ∧ j = c := by omega
  rw [Device.core_updCore, if_congr hkey rfl rfl]
  split
  case isTrue he => rw [he.1, he.2]
  case isFalse => rfl

theorem Device.counter_setCounter_of_lt (d : Device) {c n k m : Nat} (v : Dword) (hn : n < 256) (hm : m < 256) :
    (d.setCounter c n v).counter k m = if k = c ∧ m = n then v else d.counter k m := by
  have hkey : 256 * k + m = 256 * c + n ↔ k = c ∧ m = n := by omega
  rw [Device.counter_setCounter, if_congr hkey rfl rfl]

end Machine
end Sys2Proof
end

section
/-! O28: debug halts of row engines and cores (R57, R429), and the counter window (R425, R426). -/

namespace Sys2Proof.Proofs.DebugWindow

open Sys2Proof.Machine

theorem onDev_eq {f : Platform → Device → Device} {s : State} {d : Device} (h : f s.plat s.dev = d) :
    onDev f s = .next { s with dev := d } := by
  rw [onDev, h]

/-! ### Halt requests (R57, R429) -/

theorem re_updRe_when (d : Device) (c : Bool) {i j die k : Nat} (f : RowEng → RowEng) (hj : j < 8) (hk : k < 8) :
    (if c then d.updRe die k f else d).re i j = if c = true ∧ i = die ∧ j = k then f (d.re i j) else d.re i j := by
  cases c <;> simp [Device.re_updRe_of_lt d f hj hk]

theorem core_updCore_when (d : Device) (c : Bool) {i j die k : Nat} (f : CoreSt → CoreSt) (hj : j < 16) (hk : k < 16) :
    (if c then d.updCore die k f else d).core i j = if c = true ∧ i = die ∧ j = k then f (d.core i j) else d.core i j := by
  cases c <;> simp [Device.core_updCore_of_lt d f hj hk]

theorem exec_coreDebugHalt_of_request {s : State} {die c : Nat} (hmode : s.plat.mas.debugMode = true)
    (hreq : (s.dev.core die c).haltReq = true) : exec (.coreDebugHalt die c) s =
      .next { s with dev := s.dev.updCore die c fun x => { x with halted := true } } := by
  change execCoreDebugHalt die c s = _
  refine onDev_eq ?_
  exact if_pos (by simp [hmode, hreq])

/-! ### ENGINE_DEBUG_HALT (R57) -/

/-- The engine stops issuing. -/
def stopped (die k : Nat) (d : Device) : Device := d.updRe die k fun r => { r with halted := true }

theorem engineDebugHalt_of_halted {d : Device} {die k : Nat} (p : Platform) (chunk : Nat) (h : (d.re die k).halted = true) :
    engineDebugHalt die k chunk p d = d := by
  unfold engineDebugHalt
  exact if_pos (by simp [h])

theorem endLoad_of_not_loading {d : Device} {die k : Nat} (p : Platform) (h : (d.re die k).nextBank.st ≠ .loading) :
    d.endLoad p die k = .ok d := by
  unfold Device.endLoad
  dsimp only
  split
  · exact if_pos (by simp [h])
  · rfl

theorem nextBank_eq (r : RowEng) : r.nextBank = r.bank0 ∨ r.nextBank = r.bank1 := by
  unfold RowEng.nextBank RowEng.bank
  cases r.turn <;> simp

/-- Both banks are free or filling: no drain and no LOAD is in progress. -/
def settled (r : RowEng) : Prop := ∀ b, b = r.bank0 ∨ b = r.bank1 → b.st = .free ∨ b.st = .filling

theorem nextBank_not_loading {r : RowEng} (h : settled r) : r.nextBank.st ≠ .loading := by
  rcases h _ (nextBank_eq r) with h | h <;> simp [h]

theorem bank_not_draining {r : RowEng} (h : settled r) : r.bank0.st ≠ .draining ∧ r.bank1.st ≠ .draining := by
  constructor
  · rcases h _ (.inl rfl) with h | h <;> simp [h]
  · rcases h _ (.inr rfl) with h | h <;> simp [h]

theorem filling_of_free {r : RowEng} (h0 : r.bank0.st = .free) (h1 : r.bank1.st = .free) : r.filling = none := by
  simp [RowEng.filling, RowEng.drainBank, h0, h1]

section
variable {d : Device} {p : Platform} {die k : Nat} (hreq : (d.re die k).dbgHalt = true) (hgo : (d.re die k).halted = false)
  (hon : (d.re die k).blk.st = .on ∨ (d.re die k).blk.st = .stopping) (hset : settled (d.re die k))
include hreq hgo hon hset

/-- Past its guard, and with no LOAD in progress, the command comes at once to the work that fills a bank. -/
theorem engineDebugHalt_of_settled (chunk : Nat) : engineDebugHalt die k chunk p d = match (d.re die k).filling with
    | none => stopped die k d
    | some which =>
      match d.advance p die k which chunk with
      | .ok d1 => stopped die k d1
      | .error .turn => stopped die k d
      | .error h => d.heldUp p die k h := by
  obtain ⟨h0, h1⟩ := bank_not_draining hset
  have hguard : ¬(!(d.re die k).dbgHalt || (d.re die k).halted || !(d.re die k).blk.isOn && (d.re die k).blk.st != .stopping ||
      (d.re die k).bank0.st == .draining || (d.re die k).bank1.st == .draining) = true := by
    rcases hon with hon | hon <;> simp [hreq, hgo, Blk.isOn, hon, h0, h1]
  unfold engineDebugHalt
  dsimp only
  rw [if_neg hguard, endLoad_of_not_loading p (nextBank_not_loading hset)]
  rfl

theorem engineDebugHalt_of_none (chunk : Nat) (hf : (d.re die k).filling = none) :
    engineDebugHalt die k chunk p d = stopped die k d := by
  rw [engineDebugHalt_of_settled hreq hgo hon hset, hf]

theorem engineDebugHalt_of_some {chunk : Nat} {which : Bool} {d1 : Device} (hf : (d.re die k).filling = some which)
    (hadv : d.advance p die k which chunk = .ok d1) : engineDebugHalt die k chunk p d = stopped die k d1 := by
  rw [engineDebugHalt_of_settled hreq hgo hon hset, hf]
  simp only [hadv]

end

theorem re_stopped (d : Device) {i j die k : Nat} (hj : j < 8) (hk : k < 8) :
    (stopped die k d).re i j = if i = die ∧ j = k then { d.re i j with halted := true } else d.re i j :=
  Device.re_updRe_of_lt d _ hj hk

/-- An engine that is halted already is as it would be halted now. -/
theorem re_eq_of_halted {d : Device} {i j die k : Nat} (h : (d.re die k).halted = true) :
    d.re i j = if i = die ∧ j = k then { d.re i j with halted := true } else d.re i j := by
  split
  case isTrue he =>
    obtain ⟨rfl, rfl⟩ := he
    rw [← h]
  case isFalse => rfl

/-- With both banks free the command halts the engine, and does nothing else. -/
theorem engineDebugHalt_of_free {d : Device} {p : Platform} {die k : Nat} (chunk : Nat) (hk : k < 8)
    (hreq : (d.re die k).dbgHalt = true) (hon : (d.re die k).blk.st = .on ∨ (d.re die k).blk.st = .stopping)
    (h0 : (d.re die k).bank0.st = .free) (h1 : (d.re die k).bank1.st = .free) :
    (engineDebugHalt die k chunk p d).hub = d.hub ∧ ∀ i j, j < 8 → (engineDebugHalt die k chunk p d).re i j =
      if i = die ∧ j = k then { d.re i j with halted := true } else d.re i j := by
  cases hgo : (d.re die k).halted with
  | true =>
    rw [engineDebugHalt_of_halted p chunk hgo]
    exact ⟨rfl, fun i j _ => re_eq_of_halted hgo⟩
  | false =>
    have hset : settled (d.re die k) := by
      rintro b (rfl | rfl)
      · exact .inl h0
      · exact .inl h1
    rw [engineDebugHalt_of_none hreq hgo hon hset chunk (filling_of_free h0 h1)]
    exact ⟨rfl, fun i j hj => re_stopped d hj hk⟩

/-! ### The counter window (R425, R426) -/

theorem cntShown_cntTake (d : Device) {n : Nat} (h : n < 141) : d.cntTake.cntShown n = d.counter d.hub.cntSel.toNat n :=
  (FMap.get_foldl_set 0 _ [] 141 n).trans (if_pos h)

theorem cntUnitsSnap_cntTake {d : Device} (h : d.hub.cntTrace.toNat % 4096 = d.hub.cntSel.toNat) :
    d.cntTake.hub.cntUnitsSnap = d.hub.cntUnits :=
  if_pos (by simp [h])

/-- The first `n` counters of a context as a clear leaves them: STASH_BYTES stays, and STASH_PEAK_BYTES takes `bytes` (R426). -/
def zeroed (c : Nat) (bytes : Dword) (n : Nat) (d : Device) : Device :=
  (List.range n).foldl (fun d i => if i = 66 then d else d.setCounter c i (if i = 67 then bytes else 0)) d

theorem cntZero_eq (d : Device) : d.cntZero = zeroed d.hub.cntSel.toNat (d.counter d.hub.cntSel.toNat 66) 141 d := rfl

theorem zeroed_succ (c : Nat) (bytes : Dword) (n : Nat) (d : Device) : zeroed c bytes (n + 1) d =
    if n = 66 then zeroed c bytes n d else (zeroed c bytes n d).setCounter c n (if n = 67 then bytes else 0) := by
  unfold zeroed
  rw [List.range_succ, List.foldl_append]
  rfl

theorem zeroed_mem (c : Nat) (bytes : Dword) (n : Nat) (d : Device) : (zeroed c bytes n d).mem = d.mem := by
  induction n with
  | zero => rfl
  | succ n ih =>
    rw [zeroed_succ]
    split <;> exact ih

theorem cntZero_mem (d : Device) : d.cntZero.mem = d.mem := by rw [cntZero_eq, zeroed_mem]

theorem counter_zeroed (c : Nat) (bytes : Dword) {n m : Nat} (d : Device) (hn : n ≤ 256) (hm : m < 256) (k : Nat) :
    (zeroed c bytes n d).counter k m =
      if k = c ∧ m < n ∧ m ≠ 66 then (if m = 67 then bytes else 0) else d.counter k m := by
  induction n with
  | zero => simp [zeroed]
  | succ n ih =>
    have ih := ih (by omega)
    rw [zeroed_succ]
    split
    case isTrue h66 =>
      have hiff : m < n + 1 ∧ m ≠ 66 ↔ m < n ∧ m ≠ 66 := by omega
      rw [ih, if_congr (and_congr_right fun _ => hiff) rfl rfl]
    case isFalse h66 =>
      rw [Device.counter_setCounter_of_lt _ _ (by omega) hm, ih]
      by_cases hmn : m = n
      · subst hmn
        simp [h66]
      · have hiff : m < n + 1 ↔ m < n := by omega
        simp only [hmn, and_false, if_false, hiff]

theorem counter_cntZero_self (d : Device) {n : Nat} (h : n < 141) : d.cntZero.counter d.hub.cntSel.toNat n =
    if n = 66 ∨ n = 67 then d.counter d.hub.cntSel.toNat 66 else 0 := by
  rw [cntZero_eq, counter_zeroed _ _ d (by omega) (by omega)]
  by_cases h66 : n = 66
  · simp [h66]
  · simp [h, h66]

theorem counter_cntZero_ne (d : Device) {k n : Nat} (hn : n < 256) (hk : k ≠ d.hub.cntSel.toNat) :
    d.cntZero.counter k n = d.counter k n := by
  rw [cntZero_eq, counter_zeroed _ _ d (by omega) hn, if_neg fun h => hk h.1]

/-- Settles O28: each command is one update of an engine, a core or the hub's counter window, read back by the lemmas above; a halt
at a chunk boundary is the advance of the filling bank with the engine stopped behind it. -/
theorem debugHaltsAndTheCounterWindow : Obligations.DebugHaltsAndTheCounterWindow := by
  refine ⟨fun s die k h hk => ?engineRequest,
    fun s die k hk _ hreq hon => ⟨fun h0 h1 chunk => ?engineFree, fun which chunk d1 hf hgo hset hadv => ?engineFilling⟩,
    fun s die c h hc => ?coreRequest, fun s die c hc hmode hreq => ?coreHalt,
    fun s c => rfl, fun s => ?take, fun s => rfl, fun s => ?clear, fun s v => rfl⟩
  case engineRequest =>
    exact ⟨_, rfl, rfl, by dsimp only; split <;> rfl, fun i j hj => re_updRe_when s.dev s.plat.mas.debugMode _ hj hk⟩
  case engineFree =>
    obtain ⟨hhub, hre⟩ := engineDebugHalt_of_free (p := s.plat) chunk hk hreq hon h0 h1
    exact ⟨_, rfl, rfl, hhub, hre⟩
  case engineFilling =>
    refine ⟨_, onDev_eq (engineDebugHalt_of_some hreq hgo hon hset hf hadv), rfl, ?_, fun i j hj hne => ?_⟩
    · exact congrArg RowEng.halted ((re_stopped d1 hk hk).trans (if_pos ⟨rfl, rfl⟩))
    · exact (re_stopped d1 hj hk).trans (if_neg hne)
  case coreRequest =>
    exact ⟨_, rfl, rfl, by dsimp only; split <;> rfl, fun i j hj => core_updCore_when s.dev s.plat.mas.debugMode _ hj hc⟩
  case coreHalt =>
    exact ⟨_, exec_coreDebugHalt_of_request hmode hreq, rfl, rfl, fun i j hj => Device.core_updCore_of_lt s.dev _ hj hc⟩
  case take =>
    exact ⟨_, rfl, rfl, rfl, rfl, fun n hn => cntShown_cntTake s.dev hn, cntUnitsSnap_cntTake⟩
  case clear =>
    exact ⟨{ s with dev := s.dev.cntZero }, rfl, rfl, cntZero_mem s.dev, fun n hn => counter_cntZero_self s.dev hn,
      fun k n hn hk => counter_cntZero_ne s.dev hn hk⟩

end Sys2Proof.Proofs.DebugWindow
end

section
/-! O48 fails in its premise. An agent without a die cache takes every finding on a codeword but 0 (none) and 1 (corrected) for an
uncorrectable error that its read discovers (`Device.findWeak`, R124, R125), and `sound` leaves out the finding 2 alone. Where a
codeword of the Step Record carries a finding of 3, the premises hold, the one read of R107 makes the half-line bad, and the item
ends with an error instead of running. The commands of the model write findings up to 2 only (`eccWeak`). -/

namespace Sys2Proof.Proofs.UndiscoveredError

open Sys2Proof.Machine Sys2Proof.Spec
open Sys2Proof.Proofs.PrefetchedLoad (owner)

/-! ### A part whose Step Record lies in a codeword with an error that nothing has found -/

/-- A NORM_UPDATE descriptor: the Step Record at 0x100, the weight-set record at 0x200, the coefficient table at 0x800 (R267). -/
def updateDesc : List Byte :=
  [4, 2] ++ List.replicate 14 0 ++ leBytes 8 0x100 ++ leBytes 8 0x200 ++ leBytes 8 0x800 ++ List.replicate 24 0

/-- Its item, dispatched. -/
def update : Item := { newItem 1 5 0 updateDesc 0 with phase := .dispatched }

/-- The weight set it names: one layer, at version 0 in slot 0. -/
def weightSet : WSet := ⟨0x200, 0x200, 1, [0], 0, [⟨0, false, 0, 0, [0], [0]⟩]⟩

/-- The Step Record of step 0 without clipping (R107). -/
def stepRecord : List Byte := 1 :: List.replicate 63 0

/-- The record's format is 1, the layer has one row and one column, and the first half-line of the record carries the finding 3. -/
def start : State :=
  { pending := []
    plat := ⟨Fuses.reset, { Power.reset with stage := .ready }, Mastiff.reset⟩
    dev := { Device.reset with
      hub := { Hub.reset with ctxs := [(1, owner)], items := [update] }
      ups := { Device.reset.ups with dir := [weightSet] }
      mem := { Mem.reset with
        dram := [(0x100, 1), (0x804, 1), (0x808, 1)], lineKey := [(0, 1), (2, 1), (16, 1), (17, 1)], weak := [(4, 3)] } } }

/-! ### The statement's part on a legal Step Record applies to it -/

theorem start_sound : sound start := by
  intro h
  change FMap.get 0 [(4, 3)] h ≠ 2
  rw [FMap.get_cons, FMap.get_nil]
  split <;> decide

theorem start_wholeLines : wholeLines start.dev.mem := nofun

theorem ok_of_toOption {α ε : Type} {e : Except ε α} {x : α} (h : e.toOption = some x) : e = .ok x := by
  cases e with
  | ok y => exact congrArg _ (Option.some.inj h)
  | error e => cases h

/-- As long as nothing has found the error, the record reads. -/
theorem start_record_reads : start.dev.readBytes ⟨1, 5, none, none⟩ 64 update.addr0 = .ok stepRecord :=
  ok_of_toOption (by decide +kernel)

theorem start_layerQ_zero : ∀ i < weightSet.layers.length, start.dev.layerQ ⟨1, 5, none, none⟩ update i = .ok 0 := by
  have hfirst : start.dev.layerQ ⟨1, 5, none, none⟩ update 0 = .ok 0 := ok_of_toOption (by decide +kernel)
  intro i hi
  obtain rfl : i = 0 := Nat.lt_one_iff.mp hi
  exact hfirst

/-! ### The item does not run -/

/-- The read of the record finds the error, and the item's work is over. -/
theorem normUpdate_phase_done :
    ((normUpdate 1 5 start.plat start.dev).item 1 5).map Item.phase = some .done := by decide +kernel

/-- Refutes O48: NORM_UPDATE of a dispatched item whose legal Step Record lies in a codeword with the finding 3 discovers an
uncorrectable error with its read (R124, R125) and ends the item, which `sound` does not rule out. -/
theorem not_updatesRunTheirPhases : ¬ Obligations.UpdatesRunTheirPhases := by
  intro h
  obtain ⟨hnorm, -⟩ := h
  obtain ⟨hlegal, -⟩ := hnorm start 1 5 update weightSet stepRecord (by decide +kernel) (by decide +kernel) rfl
    (by decide +kernel) (by decide +kernel) start_sound start_wholeLines start_record_reads
  obtain ⟨t, hexec, -, -, -, -, hphase, -⟩ := hlegal (fun _ => 0) (by decide +kernel) start_layerQ_zero (by decide +kernel)
  obtain rfl : { start with dev := normUpdate 1 5 start.plat start.dev } = t := Host.Outcome.next.inj hexec
  rw [normUpdate_phase_done] at hphase
  exact absurd hphase (by decide)

end Sys2Proof.Proofs.UndiscoveredError
end

section
/-! O54: a command updates the device alone, or the whole state by a function that leaves the queue, or faults at a line of device
memory that R122 says does not exist. -/

namespace Sys2Proof.Proofs.Completion

open Sys2Proof.Machine Sys2Proof.Spec

theorem onCode_completes (c : Instr) (f : Platform → Device → Device) (s : State) :
    ∃ t, onCode c f s = .next t ∧ t.pending = s.pending := by
  unfold onCode
  split
  · exact ⟨_, rfl, rfl⟩
  · exact ⟨s, rfl, rfl⟩

/-! ### Updates of the whole state leave the queue -/

@[simp] theorem ite_pending (c : Prop) [Decidable c] (a b : State) :
    (if c then a else b).pending = if c then a.pending else b.pending := apply_ite ..

theorem foldl_pending {α : Type} {f : State → α → State} (h : ∀ s a, (f s a).pending = s.pending) (l : List α) (s : State) :
    (l.foldl f s).pending = s.pending := by
  induction l generalizing s with
  | nil => rfl
  | cons a l ih => exact (ih (f s a)).trans (h s a)

section
variable (s : State)

/-! ### Answers and resets (R353, R385 to R389) -/

@[simp] theorem logPerm_pending (event who arg : Nat) : (logPerm s event who arg).pending = s.pending := rfl

@[simp] theorem closeButton_pending : s.closeButton.pending = s.pending := by simp [State.closeButton]

@[simp] theorem mgmtAnswer_pending (sid code : Nat) (res : MgmtCode) (data : MgmtData) :
    (mgmtAnswer s sid code res data).pending = s.pending := by simp [mgmtAnswer]

@[simp] theorem mgmtDone_pending (sid code : Nat) (data : MgmtData) :
    (mgmtDone s sid code data).pending = s.pending := by simp [mgmtDone]

@[simp] theorem answerRunning_pending (res : MgmtCode) : (s.answerRunning res).pending = s.pending := by
  unfold State.answerRunning
  split <;> simp

@[simp] theorem answerSlice_pending : s.answerSlice.pending = s.pending := by simp [State.answerSlice]

@[simp] theorem cutSlice_pending : s.cutSlice.pending = s.pending := by
  unfold State.cutSlice
  split <;> simp

@[simp] theorem warmReset_pending : (warmReset s).pending = s.pending := by
  unfold warmReset
  split <;> simp

@[simp] theorem coldReset_pending : (coldReset s).pending = s.pending := closeButton_pending s

@[simp] theorem shutDies_pending (g : Stage) : (shutDies s g).pending = s.pending := rfl

@[simp] theorem lifeEffect_pending : s.lifeEffect.pending = s.pending := by
  unfold State.lifeEffect
  split <;> rfl

/-! ### Input power and bring-up (R357 to R369, R388) -/

@[simp] theorem powerLost_pending : (powerLost s).pending = s.pending := lifeEffect_pending s

@[simp] theorem sealBreak_pending : (sealBreak s).pending = s.pending := by simp [sealBreak]

@[simp] theorem powerOn_pending (mv : Nat) (sealOpen : Bool) : (powerOn mv sealOpen s).pending = s.pending := by simp [powerOn]

@[simp] theorem powerGood_pending (mv : Nat) (jumper btnLow : Bool) (addr : BitVec 3) (twoByEight : Bool) :
    (powerGood mv jumper btnLow addr twoByEight s).pending = s.pending := by simp [powerGood]

@[simp] theorem powerFault_pending (mv : Nat) : (powerFault mv s).pending = s.pending := rfl

@[simp] theorem raiseSvn_pending (svn : Nat) : (raiseSvn svn s).pending = s.pending := by simp [raiseSvn]

@[simp] theorem enterRecovery_pending : (enterRecovery s).pending = s.pending := rfl

@[simp] theorem startImage_pending (svn : Nat) : (startImage svn s).pending = s.pending := by simp [startImage]

@[simp] theorem longOver_pending (code : Nat) (res : MgmtCode) : (s.longOver code res).pending = s.pending := rfl

@[simp] theorem endLong_pending (code : Nat) : (s.endLong code).pending = s.pending := by
  unfold State.endLong
  split <;> simp

@[simp] theorem endAnyLong_pending : s.endAnyLong.pending = s.pending := by
  unfold State.endAnyLong
  split <;> simp

@[simp] theorem resetComplete_pending : (resetComplete s).pending = s.pending := by
  unfold resetComplete
  dsimp only
  split <;> simp

@[simp] theorem toLink_pending : (toLink s).pending = s.pending := by
  unfold toLink
  dsimp only
  split
  · split <;> simp
  · rfl

@[simp] theorem bootImageCheckDone_pending (img : ImageCheck) : (bootImageCheckDone img s).pending = s.pending := by
  simp [bootImageCheckDone]

@[simp] theorem laneSelfTestDone_pending (bad : List (Nat × BitVec 16)) : (laneSelfTestDone bad s).pending = s.pending := by
  simp [laneSelfTestDone]

@[simp] theorem dramWipeDone_pending : (dramWipeDone s).pending = s.pending := by simp [dramWipeDone]

@[simp] theorem sramWipeDone_pending : (sramWipeDone s).pending = s.pending := by simp [sramWipeDone]

@[simp] theorem hostLinkTrained_pending : (hostLinkTrained s).pending = s.pending := by simp [hostLinkTrained]

@[simp] theorem openButton_pending : (openButton s).pending = s.pending := by simp [openButton]

@[simp] theorem presenceButtonHold_pending : (presenceButtonHold s).pending = s.pending := by simp [presenceButtonHold]

/-! ### Temperature, sensors, sleep and gating (R378 to R384, R416) -/

@[simp] theorem thermalSample_pending (temps : List (Nat × Nat)) (inlet : Option Nat) :
    (thermalSample temps inlet s).pending = s.pending := by
  unfold thermalSample
  dsimp only
  repeat' split
  all_goals simp

@[simp] theorem sensorUpdate_pending (w : Sensor) (value : Nat) : (sensorUpdate w value s).pending = s.pending := by
  unfold sensorUpdate
  dsimp only
  split <;> rfl

@[simp] theorem grantEpoch_pending (demands drawn : List (Nat × Nat)) : (grantEpoch demands drawn s).pending = s.pending :=
  rfl

@[simp] theorem sleepEntry_pending : (sleepEntry s).pending = s.pending := by simp [sleepEntry]

@[simp] theorem unitClockGate_pending (u : UnitId) : (unitClockGate u s).pending = s.pending := by simp [unitClockGate]

@[simp] theorem diePllOff_pending (die : Nat) : (diePllOff die s).pending = s.pending := by simp [diePllOff]

@[simp] theorem unitWakeDone_pending (w : WakeOf) : (unitWakeDone w s).pending = s.pending := by
  cases w <;> simp [unitWakeDone]

@[simp] theorem diePowerUpDone_pending (w : DieId) : (diePowerUpDone w s).pending = s.pending := by
  cases w <;> simp [diePowerUpDone]

@[simp] theorem tapInstructionLoad_pending (i : TapInstr) : (tapInstructionLoad i s).pending = s.pending := by
  simp [tapInstructionLoad]

/-! ### The management port (R349 to R360) -/

@[simp] theorem mctpMessage_pending (typ sid : Nat) : (mctpMessage typ sid s).pending = s.pending := by simp [mctpMessage]

@[simp] theorem spdmKeyExchange_pending (sid : Nat) (key : ReqKey) : (spdmKeyExchange sid key s).pending = s.pending := by
  simp [spdmKeyExchange]

@[simp] theorem getMeasurements_pending : (getMeasurements s).pending = s.pending := by
  unfold getMeasurements
  split <;> simp

@[simp] theorem firmwareUpdateTransfer_pending (sid : Nat) (img : ImageCheck) :
    (firmwareUpdateTransfer sid img s).pending = s.pending := by simp [firmwareUpdateTransfer]

@[simp] theorem flashWriteDone_pending : (flashWriteDone s).pending = s.pending := by
  unfold flashWriteDone
  split <;> rfl

@[simp] theorem recoveryImageLoad_pending (img : ImageCheck) : (recoveryImageLoad img s).pending = s.pending := by
  simp [recoveryImageLoad]

@[simp] theorem mgmtCommandArrival_pending (sid code : Nat) : (mgmtCommandArrival sid code s).pending = s.pending := by
  simp [mgmtCommandArrival]

@[simp] theorem teardownScrubDone_pending (c : Nat) : (teardownScrubDone c s).pending = s.pending := by simp [teardownScrubDone]

/-! ### Registers, Reel and slices -/

@[simp] theorem setWrej_pending (w : Win) : (s.setWrej w).pending = s.pending := by
  unfold State.setWrej
  split <;> rfl

@[simp] theorem reject_pending (w : Win) (who : Requester) (off reason : Nat) :
    (s.reject w who off reason).pending = s.pending := by simp [State.reject]

@[simp] theorem leaveSleep_pending : s.leaveSleep.pending = s.pending := by simp [State.leaveSleep]

@[simp] theorem turnOn_pending (b : Block) : (s.turnOn b).pending = s.pending := by
  unfold State.turnOn
  split <;> simp

@[simp] theorem setEnable_pending (b : Block) (en : Bool) : (s.setEnable b en).pending = s.pending := by
  unfold State.setEnable
  dsimp only
  repeat' split
  all_goals simp

@[simp] theorem enableWrite_pending (who : Requester) (b : Block) (en : Bool) : (enableWrite who b en s).pending = s.pending := by
  unfold enableWrite
  repeat' split
  all_goals simp

@[simp] theorem blockStarted_pending (b : Block) : (blockStarted b s).pending = s.pending := by simp [blockStarted]

@[simp] theorem store_pending (w : Win) (o v : Nat) : (s.store w o v).pending = s.pending := by
  unfold State.store
  dsimp only
  split <;> simp

@[simp] theorem clearBits_pending (w : Win) (o v : Nat) : (s.clearBits w o v).pending = s.pending := by
  unfold State.clearBits
  dsimp only
  split <;> simp

@[simp] theorem rejects_pending {α : Type} (w : Win) (who : α → Requester) (off reason : α → Nat) (l : List α) :
    (l.foldl (fun t e => t.reject w (who e) (off e) (reason e)) s).pending = s.pending :=
  foldl_pending (fun _ _ => reject_pending ..) l s

theorem writeSlot_pending (w : Win) (o : Nat) (ws : List RegWrite) : (writeSlot w o ws s).pending = s.pending := by
  unfold writeSlot
  dsimp only
  split <;> split <;> simp

@[simp] theorem writeCycle_pending (ws : List RegWrite) : (writeCycle ws s).pending = s.pending := by
  refine foldl_pending (fun t n => ?_) _ s
  dsimp only
  split
  · rfl
  · exact writeSlot_pending ..

@[simp] theorem registerWrite_pending (ws : List RegWrite) : (registerWrite ws s).pending = s.pending := by simp [registerWrite]

@[simp] theorem reelMsg_pending (e : Nat × ReelMsg) : (s.reelMsg e).pending = s.pending := by simp [State.reelMsg]

@[simp] theorem reelOpen_pending : s.reelOpen.pending = s.pending := by
  simp [State.reelOpen, foldl_pending reelMsg_pending]

@[simp] theorem takeSlice_pending (i : Nat) (p : SliceParams) : (s.takeSlice i p).pending = s.pending := rfl

@[simp] theorem settleSlice_pending (i : Nat) : (s.settleSlice i).pending = s.pending := by
  unfold State.settleSlice
  dsimp only
  repeat' split
  all_goals simp

@[simp] theorem stopSlice_pending (i : Nat) (next : Option SliceParams) : (s.stopSlice i next).pending = s.pending :=
  settleSlice_pending ..

@[simp] theorem dieCacheFlushDone_pending (die : Nat) : (dieCacheFlushDone die s).pending = s.pending := by
  unfold dieCacheFlushDone
  split <;> simp

/-! ### Management commands (R353, R354) -/

/-- Where the checks of a management command pass, its new state has the queue `q`. -/
def KeepsQueue (q : List Instr) : Except MgmtCode (State × MgmtData) → Prop
  | .ok r => r.1.pending = q
  | .error _ => True

@[simp] theorem keepsQueue_error (q : List Instr) (e : MgmtCode) : KeepsQueue q (.error e) := trivial

@[simp] theorem keepsQueue_ite (q : List Instr) (c : Prop) [Decidable c] (a b : Except MgmtCode (State × MgmtData)) :
    KeepsQueue q (if c then a else b) ↔ if c then KeepsQueue q a else KeepsQueue q b := by split <;> rfl

@[simp] theorem keepsQueue_ok (q : List Instr) (r : State × MgmtData) : KeepsQueue q (.ok r) ↔ r.1.pending = q := .rfl

@[simp] theorem keepsQueue_done (q : List Instr) (s : State) : KeepsQueue q (done s) ↔ s.pending = q := .rfl

/-- The frame of management commands leaves the queue where the command's own part does. -/
theorem mgmt_pending {body : State → Except MgmtCode (State × MgmtData)} (h : ∀ s, KeepsQueue s.pending (body s))
    (code sid : Nat) (presence : Bool) (s : State) : (mgmt code sid presence body s).pending = s.pending := by
  unfold mgmt
  split
  case h_1 => rfl
  case h_2 q rest _ =>
    split
    case isTrue => rfl
    case isFalse =>
      dsimp only
      split
      case h_1 => simp
      case h_2 =>
        have hbody := h (s.mapMas fun m => { m with queue := rest })
        split
        case h_4 heq =>
          rw [heq] at hbody
          simpa using fun _ => hbody
        all_goals simp

@[simp] theorem keepsQueue_ctxCreate (ctx : Nat) (home resv : Option Nat) (seed : Option Dword) :
    KeepsQueue s.pending (ctxCreate ctx home resv seed s) := by
  unfold ctxCreate
  dsimp only
  repeat' split
  all_goals simp

@[simp] theorem keepsQueue_gateMove (ctx : Nat) (a b : CtxState) : KeepsQueue s.pending (gateMove ctx a b s) := by simp [gateMove]

@[simp] theorem killCtx_pending (c : Nat) : (s.killCtx c).pending = s.pending := rfl

@[simp] theorem keepsQueue_ctxKill (ctx : Nat) : KeepsQueue s.pending (ctxKill ctx s) := by simp [ctxKill]

@[simp] theorem keepsQueue_ctxDestroy (ctx : Nat) : KeepsQueue s.pending (ctxDestroy ctx s) := by simp [ctxDestroy]

@[simp] theorem keepsQueue_ctxSet (ctx : Nat) (f : CtxField) : KeepsQueue s.pending (ctxSet ctx f s) := by simp [ctxSet]

@[simp] theorem keepsQueue_mapCmd (ctx : Nat) (pages : List MapPage) : KeepsQueue s.pending (mapCmd ctx pages s) := by
  unfold mapCmd
  repeat' split
  all_goals simp

@[simp] theorem keepsQueue_unmap (ctx va : Nat) : KeepsQueue s.pending (unmap ctx va s) := by
  unfold unmap
  dsimp only
  repeat' split
  all_goals simp

@[simp] theorem keepsQueue_share (owner va ctx toVa : Nat) (r w : Bool) : KeepsQueue s.pending (share owner va ctx toVa r w s) := by
  unfold share
  dsimp only
  repeat' split
  all_goals simp

@[simp] theorem keepsQueue_unshare (ctx va : Nat) : KeepsQueue s.pending (unshare ctx va s) := by
  unfold unshare
  dsimp only
  repeat' split
  all_goals simp

@[simp] theorem keepsQueue_hdmBind (window : Nat) (ctx : Option Nat) (base : Nat) :
    KeepsQueue s.pending (hdmBind window ctx base s) := by
  unfold hdmBind
  repeat' split
  all_goals simp

@[simp] theorem keepsQueue_grantCmd (ctx : Nat) (g : PeerGrant) (revoke : Bool) :
    KeepsQueue s.pending (grantCmd ctx g revoke s) := by simp [grantCmd]

@[simp] theorem keepsQueue_sliceCreate (i : Nat) (p : SliceParams) : KeepsQueue s.pending (sliceCreate i p s) := by
  simp [sliceCreate]

@[simp] theorem keepsQueue_sliceChange (i : Nat) (p : SliceParams) : KeepsQueue s.pending (sliceChange i p s) := by
  simp [sliceChange]

@[simp] theorem keepsQueue_sliceDestroy (i : Nat) : KeepsQueue s.pending (sliceDestroy i s) := by simp [sliceDestroy]

@[simp] theorem keepsQueue_pwrSet (capW : Option Nat) (caps floors : List (Nat × Nat)) :
    KeepsQueue s.pending (pwrSet capW caps floors s) := by simp [pwrSet]

@[simp] theorem keepsQueue_topoSet (node : Nat) (topo : Word) : KeepsQueue s.pending (topoSet node topo s) := by simp [topoSet]

@[simp] theorem keepsQueue_reelSysSet (cfg : Word) : KeepsQueue s.pending (reelSysSet cfg s) := rfl

@[simp] theorem keepsQueue_lcTransition (sid : Nat) (target : Life) (key : Nat) :
    KeepsQueue s.pending (lcTransition sid target key s) := by
  unfold lcTransition
  dsimp only
  repeat' split
  all_goals simp

@[simp] theorem keepsQueue_debugUnlock : KeepsQueue s.pending (debugUnlock s) := by simp [debugUnlock]

@[simp] theorem keepsQueue_ownerKeyRotate (key : Nat) (sigOk : Bool) : KeepsQueue s.pending (ownerKeyRotate key sigOk s) := by
  simp [ownerKeyRotate]

end

/-! ### The commands -/

theorem dramLines_eq : dramLines = 16106127360 := by decide

/-- A command on memory that exists answers a next state with the queue as it was. The groups of the split: reads of device memory,
management commands (`mgmt`), the other updates of the whole state (`onState`), device updates (`onDev`), and instructions
(`onCode`). -/
theorem exec_completes (c : Instr) (s : State) (hmem : namesMemory c = true) :
    ∃ t, exec c s = .next t ∧ t.pending = s.pending := by
  cases c with
  | demandMissFill =>
    have hline := of_decide_eq_true hmem
    exact ⟨_, if_neg (by rw [dramLines_eq, hostLineBase]; omega), rfl⟩
  | prefetchFill | patrolScrubRead | backInvalidationResponse =>
    have hline := of_decide_eq_true hmem
    exact ⟨_, if_neg (by rw [dramLines_eq]; omega), rfl⟩
  | ctxCreate | ctxOpen | ctxFreeze | ctxKill | ctxDestroy | ctxSet | map | unmap | share | unshare | hdmBind | grant |
    sliceCreate | sliceChange | sliceDestroy | pwrSet | topoSet | reelSysSet | snapshot | resume | reelReset | idePolicy |
    lcTransition | debugUnlock | ownerKeyRotate | presenceClose | warmReset =>
    exact ⟨_, rfl, mgmt_pending (by simp) ..⟩
  | logRead => exact ⟨_, rfl, mgmt_pending (fun _ => by rfl) ..⟩
  | cmdStatus => exact ⟨_, rfl, mgmt_pending (fun s => by split <;> rfl) ..⟩
  | powerGood | inputLoss | inputUndervoltageFault | inputOvervoltageFault | bootImageCheckDone | firmwareStartDone |
    stackTrainingDone | laneSelfTestDone | dramWipeDone | sramWipeDone | hostLinkTrained | hostPerstAssert | hostPerstDeassert |
    cxlHotReset | linkBDown | linkBRetrain | refclkLost | refclkStable | configRead | sealCheck | presenceButtonHold |
    presenceWindowExpiry | thermalSample | tripHoldExpiry | sensorUpdate | grantEpoch | sleepEntry | unitClockGate | diePllOff |
    unitWakeDone | diePowerUpDone | tapInstructionLoad | tapTrst | mctpMessage | dynamicAddressAssign | setEndpointId |
    spdmKeyExchange | getMeasurements | pldmSensorRead | ideKm | firmwareUpdateTransfer | flashWriteDone | recoveryImageLoad |
    mgmtCommandArrival | teardownScrubDone | dieCacheFlushDone | snapshotTaken | registerWrite | enableWriteOne | enableWriteZero
    | blockStarted | ringEnable | ringDisable | pportEnable | reelArrival | reelMessageReceive | reelInstanceComplete | reelAbort
    | powerOn | ppBtnNRelease =>
    exact ⟨_, rfl, by simp⟩
  | cb10Grant | teardownRecordsDrained | blockStopped | reHaltRequest | engineDebugHalt | coreHaltRequest | coreDebugHalt |
    cntSelWrite | cntSnapTake | cntSnapRelease | cntClear | cntTraceWrite | sqTailWrite | cqHeadWrite | doorbellPageOtherWrite |
    hostMemAccess | descriptorFetch | itemDispatch | itemComplete | completionRecordWrite | msixMessage | contextFault | itemNop |
    reProduct | vecList | kernel | normUpdate | layerWriteStart | layerSwap | cacheCtlPin | pinScanDone | cacheCtlDiscard |
    eventAdd | eventSet | eventWaitGe | eventMonitorReread | eventPoll | cancel | reelBarrier | reelBroadcast | reelReduce |
    jkfTranslationDone | tileDeal | tileStart | tileDrainDone | splitCombine | stealAttempt | tilePark | parkedTileResume |
    txbTurnDone | combinerAtomic | hostLineAtomic | blockPlace | packMove | pathReconverge | barrierInstanceComplete |
    barrierTimeout | portTrainingDone | portHandshake | noPartnerTimeout | flitReceive | flitNak | ackTimeout | blockLockLoss |
    linkDown | peerRequestReceive | peerResponseReceive | zcFrameReceive | msixTableWrite | cxlCacheSnoop =>
    exact ⟨_, rfl, rfl⟩
  | _ => exact onCode_completes ..

theorem exec_of_not_namesMemory (c : Instr) (s : State) (hmem : namesMemory c = false) :
    exec c s = .fault .noSuchDeviceAddress := by
  cases c with
  | demandMissFill =>
    have hline := of_decide_eq_false hmem
    exact if_pos (by rw [dramLines_eq, hostLineBase]; omega)
  | prefetchFill | patrolScrubRead | backInvalidationResponse =>
    have hline := of_decide_eq_false hmem
    exact if_pos (by rw [dramLines_eq]; omega)
  | _ => cases hmem

/-- Settles O54: whether the command names memory that exists decides which of the two lemmas above applies. -/
theorem everyCommandCompletes : Obligations.EveryCommandCompletes := by
  intro c s
  cases hmem : namesMemory c with
  | true => exact exec_completes c s hmem
  | false => exact exec_of_not_namesMemory c s hmem

end Sys2Proof.Proofs.Completion
end

section
/-! O55: the address map of R122. -/

namespace Sys2Proof.Proofs.AddressMap

open Sys2Proof.Machine Sys2Proof.Spec

/-- A 256 B run of device addresses lies in one 256 B run of its stack. -/
theorem stackOffset_div_add {D x : Nat} (hD : D % 256 = 0) (hx : x < 256) : stackOffset (D + x) / 256 = stackOffset D / 256 := by
  unfold stackOffset
  omega

theorem channelOf_eq (D : Nat) : channelOf D = (stackOffset D / 256 % 32) ^^^ (stackOffset D / 256 / 512 % 32) := by
  rw [Nat.div_div_eq_div_mul]
  rfl

theorem stackOf_add_granules (P i : Nat) : stackOf (P + 4096 * i) = (P / 4096 + i) % 20 := by
  unfold stackOf
  omega

/-- Up to 20 consecutive granules lie on different stacks. -/
theorem nodup_stacks (P : Nat) {n : Nat} (hn : n ≤ 20) : ((List.range n).map fun i => stackOf (P + 4096 * i)).Nodup := by
  refine List.nodup_range.map_on fun i hi j hj h => ?_
  rw [List.mem_range] at hi hj
  simp only [stackOf_add_granules] at h
  omega

/-- The granules on a stack are every 20th. -/
theorem stackOf_add_granules_eq_iff {P n : Nat} (hn : n < 20) (i : Nat) :
    stackOf (P + 4096 * i) = n ↔ i ≡ n + 19 * (P / 4096) [MOD 20] := by
  rw [stackOf_add_granules, Nat.ModEq]
  omega

theorem granules_on_stack {P n : Nat} (hn : n < 20) (m : Nat) :
    ((List.range m).filter fun i => stackOf (P + 4096 * i) == n).length = m.count (· ≡ n + 19 * (P / 4096) [MOD 20]) := by
  rw [Nat.count, List.countP_eq_length_filter]
  exact congrArg _ (List.filter_congr fun i _ => decide_eq_decide.mpr (stackOf_add_granules_eq_iff hn i))

/-- Settles O55: the formulas are the model's, and pages spread because granule i of an address lies on stack (P / 4096 + i) mod 20. -/
theorem deviceAddressesMapToStacks : Obligations.DeviceAddressesMapToStacks := by
  refine ⟨fun D => ⟨rfl, rfl, rfl, rfl⟩, fun D => ?next, fun D x hD hx => ⟨?stack, ?channel⟩, fun P _ => nodup_stacks P (by decide),
    fun P n _ hn => ?page, by decide, by decide, by decide, by decide, by decide⟩
  case next =>
    unfold stackOf
    omega
  case stack =>
    unfold stackOf
    omega
  case channel => rw [channelOf_eq, channelOf_eq, stackOffset_div_add hD hx]
  case page =>
    dsimp only
    rw [granules_on_stack hn, Nat.count_modEq_card _ (by decide)]
    split
    · exact .inr rfl
    · exact .inl rfl

end Sys2Proof.Proofs.AddressMap
end

section
/-! O38 fails in its premise, as O48 does. An agent without a die cache takes every finding on a codeword but 0 (none) and 1
(corrected) for an uncorrectable error that its read discovers (`Device.findWeak`, R124, R125), and the statement leaves out the
finding 2 alone. On a codeword with the finding 3, COMBINER_ATOMIC reads it, makes the half-line bad, and answers no old values. The
commands of the model write findings up to 2 only (`eccWeak`). -/

namespace Sys2Proof.Proofs.UndiscoveredErrorOfAtomic

open Sys2Proof.Machine Sys2Proof.Spec
open Sys2Proof.Proofs.PrefetchedLoad (owner)
open Sys2Proof.Proofs.UndiscoveredError (ok_of_toOption)

/-- Context 1 owns the page at device address 0, whose first codeword carries the finding 3. -/
def start : State :=
  { pending := []
    plat := ⟨Fuses.reset, { Power.reset with stage := .ready }, Mastiff.reset⟩
    dev := { Device.reset with
      hub := { Hub.reset with ctxs := [(1, owner)] }
      mem := { Mem.reset with lineKey := [(0, 1)], weak := [(0, 3)] } } }

/-- One lane adds 1 to the word at 0. -/
def request : AtomReq := ⟨.add, .u32, 0, [1], []⟩

/-! ### The statement's part on combiner atomics applies to them -/

theorem start_wholeLines : wholeLines start.dev.mem := nofun

theorem start_translate : translate start.dev 1 request.addr .atomic = .ok (.dev 0, 1) := ok_of_toOption (by decide +kernel)

/-! ### No old values come back -/

theorem combinerAtomic_sent : (combinerAtomic 1 5 request start.plat start.dev).sent = [] := by decide +kernel

/-- Refutes O38: COMBINER_ATOMIC on a word of a codeword with the finding 3 discovers an uncorrectable error with its read (R124,
R125) and sends no old values back, though the codeword is not bad and its finding is not 2. -/
theorem not_atomicsOnGlobalMemory : ¬ Obligations.AtomicsOnGlobalMemory := by
  intro h
  obtain ⟨-, hcombiner, -⟩ := h
  obtain ⟨t, hexec, -, -, -, hsent, -⟩ := hcombiner start 1 5 request 0 1 (by decide) (by decide) (by decide) start_wholeLines
    start_translate (by decide) (by decide)
  obtain rfl : { start with dev := combinerAtomic 1 5 request start.plat start.dev } = t := Host.Outcome.next.inj hexec
  rw [combinerAtomic_sent] at hsent
  cases hsent

end Sys2Proof.Proofs.UndiscoveredErrorOfAtomic
end

section
/-! O41, O42 and O43 fail in their frame as O46 does. A list's entry comes to its engine through the die's cache (R225, R435), and it
may lie in a line that the Retriever put into the data cache of a Collie core of the die too (R239). Where the engine's fetch is the
first demand for it, R241 takes the prefetch mark off the core's copy (`Device.prefUsed`), and `vecFrame` says of an instruction from
a list that the cores stay. -/

namespace Sys2Proof.Proofs.PrefetchedList

open Sys2Proof.Machine Sys2Proof.Spec
open Sys2Proof.Proofs.PrefetchedLoad (coreMarks coreMarks_congr fetched got_of_fetched)

/-! ### A part in which a list's entry is the first use of a prefetched line -/

/-- A list of two entries at address 0 (R264). -/
def listDesc : List Byte := 2 :: List.replicate 23 0 ++ 1 :: List.replicate 31 0 ++ leBytes 4 2

/-- The running item of the list. -/
def list : Item := { newItem 1 5 0 listDesc 0 with phase := .running }

/-- The 14 words of its first entry: one element, of an array at address 64 where the instruction takes one. -/
def words : List Word := [1, 0, 64] ++ List.replicate 11 0

/-- The body of the entry's instruction: FP32 elements, every register number 0, under vm0. -/
def body : VecBody := ⟨0, 0, 0, 0, 0, 0, 0, 0, 0⟩

/-- The instruction as the list on engine 1 of die 0 holds it. -/
def args : VecArgs := ⟨.list 0 1 words Report.zero, body, false⟩

/-- The instruction word of class VEC and op `code` with that body (R192). -/
def word (code : Nat) : Dword := BitVec.ofNat 64 (2 ^ 63 + 2 ^ 52 * code)

/-- Engine 1 of die 0 runs the list, whose first entry holds op `code`, and line 0, in which the entry lies, is on its way for core 0
of the die. -/
def asked (code : Nat) : State :=
  { PrefetchedLoad.asked with dev := { PrefetchedLoad.asked.dev with
      hub := { PrefetchedLoad.asked.dev.hub with items := [list] }
      eng := { Device.reset.eng with
        dies := [(0, { DieBlocks.reset with ve := ⟨.on, true, false⟩ })]
        ves := [(1, { VecEng.reset with running := some (1, 5) })] }
      mem := { PrefetchedLoad.asked.dev.mem with
        dram := (leBytes 8 (word code).toNat ++ words.flatMap fun w => leBytes 4 w.toNat).zipIdx.map Prod.swap } } }

/-- PREFETCH_FILL has put the line into the die cache and the core's data cache (R239), and nothing has used it yet. -/
def start (code : Nat) : State := { asked code with dev := prefetchFill 0 0 .clean .clean (asked code).dev }

theorem exec_prefetchFill_asked (code : Nat) : exec (.prefetchFill 0 0 .clean .clean) (asked code) = .next (start code) := rfl

/-- What the engine finds there. -/
def found (code : Nat) : VecIn :=
  ⟨0, 1, list, words, body, (start code).dev.vecEng 0 1, ((start code).dev.ctx list.ctx).seed, none⟩

/-- FP.ADD, CMP.EQ and GATHER. -/
def codes : List Nat := [0x00, 0x20, 0x4C]

/-! ### The statements apply to it -/

/-- What reads come to that wait for other reads. -/
def fetchedThen {α β : Type} (f : Fetch α) (g : Device → Fetch β) : Option (α × β) :=
  match f with
  | .got d x => (fetched (g d)).map fun y => (x, y)
  | _ => none

theorem got_of_fetchedThen {α β : Type} {f : Fetch α} {g : Device → Fetch β} {x : α} {y : β}
    (h : fetchedThen f g = some (x, y)) : ∃ d d0, f = .got d x ∧ g d = .got d0 y := by
  cases f with
  | got d z =>
    obtain ⟨y', hy, heq⟩ := Option.map_eq_some_iff.mp h
    obtain ⟨rfl, rfl⟩ := Prod.mk.inj heq
    obtain ⟨d0, hd0⟩ := got_of_fetched hy
    exact ⟨d, d0, rfl, hd0⟩
  | stall d => cases h
  | err e => cases h

/-- The engine's fetch of the list's entry. -/
def entry (code : Nat) : Fetch (Dword × List Word) :=
  (start code).dev.fetch (found code).actor 0 9 (fun _ => 4) fun a => (start code).dev.listEntry list a 0

/-- The entry's line is in the die cache, so the engine does not wait. -/
theorem entry_comes : ∀ code ∈ codes, ∃ d, entry code = .got d (word code, words) :=
  have h : ∀ code ∈ codes, fetched (entry code) = some (word code, words) := by decide +kernel
  fun code hc => got_of_fetched (h code hc)

/-- So is the line of the element that GATHER takes. -/
theorem element_comes : ∃ d d0, entry 0x4C = .got d (word 0x4C, words) ∧ vecGather.reads (found 0x4C) d = .got d0 () :=
  got_of_fetchedThen (by decide +kernel)

theorem word_fields : ∀ code ∈ codes, listWordOk (word code) = true ∧ (word code).extractLsb' 0 46 = body.bits ∧
    ((word code).extractLsb' 52 8).toNat = code := by decide +kernel

theorem start_engine : ∀ code ∈ codes, (start code).plat.pow.unitRuns 0 9 = true ∧ ((start code).dev.die (found code).die).ve.st = .on ∧
    (found code).eng.running = some (list.ctx, list.seq) ∧ (start code).dev.item list.ctx list.seq = some list ∧
    (found code).eng.listPos = 0 := by decide +kernel

theorem start_vecAt {code : Nat} (hcode : code ∈ codes) {mk : VecArgs → Instr} (hmk : jkfVec code = some (mk, false))
    {n : Nat} {fmts : List Nat} (hfmt : 0 ∈ fmts) {d : Device} (hd : entry code = .got d (word code, words)) :
    vecAt (start code) (mk args) args n fmts false (found code) d := by
  obtain ⟨hlegal, hbody, hop⟩ := word_fields code hcode
  obtain ⟨hruns, hon, hrunning, hitem, hpos⟩ := start_engine code hcode
  have hholds : listHolds (start code) (mk args) args (found code) d := by
    refine ⟨word code, mk, ?_, hlegal, hbody, ?_, rfl⟩
    · rw [hpos]
      exact hd
    · rw [hop, hmk]
      dsimp only [args]
  have hnext : (found code).eng.listPos + 1 < field list.desc 0x38 4 := by
    rw [hpos]
    decide
  unfold vecAt
  refine ⟨rfl, Nat.one_pos, (by decide : 1 ≤ 4096), (by decide : 1 < 8), by dsimp only [found], rfl, by dsimp only [found], hfmt,
    hruns, nofun, ?_⟩
  exact ⟨hholds, Or.inl hon, rfl, rfl, rfl, rfl, rfl, hrunning, hitem, (by decide : list.isList = true), hnext⟩

theorem start_element_zero : ∀ j < 4, (found 0x4C).byte (start 0x4C).dev (64 + j) = .ok 0 := by decide +kernel

/-! ### The cores do not stay -/

/-- The core's copy is marked as one of context 1 that has not been used. -/
theorem start_coreMarks : ∀ code ∈ codes, coreMarks (start code).dev = [some 1] := by decide +kernel

theorem marked_of_vecFrame {code : Nat} (hcode : code ∈ codes) {t : State} (h : vecFrame args (found code) (start code) t) :
    coreMarks t.dev = [some 1] := by
  obtain ⟨-, -, -, -, -, -, -, -, -, -, -, hcollie, -⟩ := h
  exact (coreMarks_congr hcollie).trans (start_coreMarks code hcode)

/-- Once an instruction whose result is a state has taken the mark off, the frame does not hold. -/
theorem not_vecFrame {code : Nat} (hcode : code ∈ codes) {c : Instr} {t u : State} (hexec : exec c (start code) = .next t)
    (hu : exec c (start code) = .next u) (hmarks : coreMarks u.dev = [none]) : ¬ vecFrame args (found code) (start code) t := by
  intro h
  obtain rfl : u = t := Host.Outcome.next.inj (hu.symm.trans hexec)
  exact absurd (hmarks.symm.trans (marked_of_vecFrame hcode h)) (by decide)

/-- The state behind the entry's instruction. -/
def behind (code : Nat) (o : VecOp) : State :=
  { start code with dev := vec code o args (start code).plat (start code).dev }

theorem add_coreMarks : coreMarks (behind 0x00 (vf2 Fp.add)).dev = [none] := by decide +kernel

theorem cmpEq_coreMarks : coreMarks (behind 0x20 (vcmp .eq)).dev = [none] := by decide +kernel

theorem gather_coreMarks : coreMarks (behind 0x4C vecGather).dev = [none] := by decide +kernel

/-- Refutes O41: a VEC_FP_ADD whose list entry is the first use of a prefetched line takes the prefetch mark off a Collie core's copy
of that line (R241), so the cores are not as before. -/
theorem not_vectorElementsAreComputed : ¬ Obligations.VectorElementsAreComputed := by
  intro h
  obtain ⟨hrows, -⟩ := h
  obtain ⟨d, hd⟩ := entry_comes 0x00 (by decide)
  obtain ⟨t, hexec, hframe, -⟩ := hrows (.vecFpAdd args) args _ _ _ _ d rfl
    (start_vecAt (by decide) rfl (List.mem_singleton.mpr rfl) hd)
  exact not_vecFrame (by decide) hexec (u := behind 0x00 (vf2 Fp.add)) rfl add_coreMarks hframe

/-- Refutes O42: a VEC_CMP_EQ whose list entry is the first use of a prefetched line changes the cores so too. -/
theorem not_vectorMasksReductionsAndScans : ¬ Obligations.VectorMasksReductionsAndScans := by
  intro h
  obtain ⟨htests, -⟩ := h
  obtain ⟨d, hd⟩ := entry_comes 0x20 (by decide)
  obtain ⟨t, hexec, hframe, -⟩ := htests (.vecCmpEq args) args _ _ _ d rfl (start_vecAt (by decide) rfl (by decide) hd)
  exact not_vecFrame (by decide) hexec (u := behind 0x20 (vcmp .eq)) rfl cmpEq_coreMarks hframe

/-- Refutes O43: a VEC_GATHER of one element whose list entry is the first use of a prefetched line changes the cores so too. -/
theorem not_vectorLoadsAndStores : ¬ Obligations.VectorLoadsAndStores := by
  intro h
  obtain ⟨-, -, hgather, -⟩ := h
  obtain ⟨d, d0, hd, hreads⟩ := element_comes
  obtain ⟨t, hexec, hframe, -⟩ := hgather args (start 0x4C) (found 0x4C) d d0 (fun _ _ => 0) hreads
    (start_vecAt (by decide) rfl (by decide) hd) (by decide) fun i hi j hj => by
      obtain rfl : i = 0 := Nat.lt_one_iff.mp hi.1
      exact start_element_zero j hj
  exact not_vecFrame (by decide) hexec (u := behind 0x4C vecGather) rfl gather_coreMarks hframe

end Sys2Proof.Proofs.PrefetchedList
end

section
/-! What every instruction that a pack issues leaves: only the counters of the hub, the mark of the item's first issue and the
core's round-robin change beside what its own meaning changes (R165, R187, R291). -/

namespace Sys2Proof.Proofs.PackIssue

open Sys2Proof.Machine Sys2Proof.Spec

/-! ### The device once an instruction has been counted -/

/-- The device after an instruction of a pack that leaves `d` has been counted and its item's first issue marked. -/
def counted (d : Device) (time : Dword) (k : KBlock) (slot : Option Nat) : Device :=
  (d.issued k slot).firstIssue time k.ctx k.seq

theorem count_eq_hub (d : Device) (c n j : Nat) : d.count c n j = { d with hub := (d.count c n j).hub } := by
  unfold Device.count
  split <;> rfl

theorem countUnit_eq_hub (d : Device) (c die u j n : Nat) :
    d.countUnit c die u j n = { d with hub := (d.countUnit c die u j n).hub } := by
  unfold Device.countUnit
  split <;> rfl

theorem firstIssue_eq_hub (d : Device) (time : Dword) (c q : Nat) :
    d.firstIssue time c q = { d with hub := (d.firstIssue time c q).hub } := by
  rcases d.firstIssue_cases time c q with h | ⟨d1, rfl, h⟩ | ⟨v, h⟩ <;> rw [h] <;> rfl

theorem issued_eq_parts (d : Device) (k : KBlock) (e : Option Nat) : d.issued k e = { d with
    hub := (d.issued k e).hub, collie := { d.collie with cores := (d.issued k e).collie.cores } } := by
  rw [Device.issued_eq, countUnit_eq_hub, count_eq_hub, count_eq_hub]
  rfl

variable (d : Device) (time : Dword) (k : KBlock) (slot : Option Nat)

theorem counted_eq_parts : counted d time k slot = { d with
    hub := (counted d time k slot).hub
    collie := { d.collie with cores := (counted d time k slot).collie.cores } } := by
  unfold counted
  rw [firstIssue_eq_hub, issued_eq_parts]

@[simp] theorem counted_eng : (counted d time k slot).eng = d.eng := by rw [counted_eq_parts]
@[simp] theorem counted_mem : (counted d time k slot).mem = d.mem := by rw [counted_eq_parts]
@[simp] theorem counted_ups : (counted d time k slot).ups = d.ups := by rw [counted_eq_parts]
@[simp] theorem counted_reel : (counted d time k slot).reel = d.reel := by rw [counted_eq_parts]
@[simp] theorem counted_ports : (counted d time k slot).ports = d.ports := by rw [counted_eq_parts]
@[simp] theorem counted_log : (counted d time k slot).log = d.log := by rw [counted_eq_parts]
@[simp] theorem counted_sent : (counted d time k slot).sent = d.sent := by rw [counted_eq_parts]
@[simp] theorem counted_blocks : (counted d time k slot).collie.blocks = d.collie.blocks := by rw [counted_eq_parts]
@[simp] theorem counted_packs : (counted d time k slot).collie.packs = d.collie.packs := by rw [counted_eq_parts]

@[simp] theorem counted_pack (p : Nat) : (counted d time k slot).pack p = d.pack p := by
  unfold Device.pack
  rw [counted_packs]

@[simp] theorem counted_block (b : Nat) : (counted d time k slot).block b = d.block b := by
  unfold Device.block
  rw [counted_blocks]

@[simp] theorem counted_vecEng (die e : Nat) : (counted d time k slot).vecEng die e = d.vecEng die e := by
  unfold Device.vecEng
  rw [counted_eng]

theorem firstIssue_ctx (c q b : Nat) : (d.firstIssue time c q).ctx b = d.ctx b := by
  rcases d.firstIssue_cases time c q with h | ⟨d1, rfl, h⟩ | ⟨v, h⟩ <;> rw [h] <;> rfl

theorem firstIssue_ring (c q b : Nat) : (d.firstIssue time c q).ring b = d.ring b := by
  rcases d.firstIssue_cases time c q with h | ⟨d1, rfl, h⟩ | ⟨v, h⟩ <;> rw [h] <;> rfl

theorem firstIssue_counter (c q : Nat) {b n : Nat} (hn : n < 256) (h125 : ¬(b = c ∧ n = 125)) :
    (d.firstIssue time c q).counter b n = d.counter b n := by
  rcases d.firstIssue_cases time c q with h | ⟨d1, rfl, h⟩ | ⟨v, h⟩ <;> rw [h]
  · rfl
  · rw [Device.counter_setCounter_of_lt _ _ (by omega) hn, if_neg h125]
    rfl

@[simp] theorem issued_ctx (b : Nat) : (d.issued k slot).ctx b = d.ctx b := by
  rw [Device.issued_eq]
  change (Device.ctx (Device.countUnit _ _ _ _ _ _) b) = _
  simp

@[simp] theorem issued_ring (b : Nat) : (d.issued k slot).ring b = d.ring b := by
  rw [Device.issued_eq]
  change (Device.ring (Device.countUnit _ _ _ _ _ _) b) = _
  simp

@[simp] theorem counted_ctx (b : Nat) : (counted d time k slot).ctx b = d.ctx b := by
  rw [counted, firstIssue_ctx, issued_ctx]

@[simp] theorem counted_ring (b : Nat) : (counted d time k slot).ring b = d.ring b := by
  rw [counted, firstIssue_ring, issued_ring]

theorem issued_counter {b n : Nat} (hn : n < 256) : (d.issued k slot).counter b n =
    if b = k.ctx ∧ (n = 44 ∨ n = 78) then satAdd64 (d.counter b n) 1 else d.counter b n := by
  rw [Device.issued_eq]
  change (Device.countUnit _ _ _ _ _ _).counter b n = _
  rw [Device.countUnit_counter, Device.counter_count, Device.counter_count, Device.counter_count]
  have h44 : 256 * b + n = 256 * k.ctx + 44 ↔ b = k.ctx ∧ n = 44 := by omega
  have h78 : 256 * b + n = 256 * k.ctx + 78 ↔ b = k.ctx ∧ n = 78 := by omega
  simp only [h44, h78]
  by_cases hb : b = k.ctx <;> by_cases h4 : n = 44 <;> by_cases h7 : n = 78 <;> simp_all

/-- What an instruction counts: one of COLLIE_INSTR and one busy cycle of its core (R187, R422). -/
theorem counted_counter {b n : Nat} (hn : n < 256) (h125 : ¬(b = k.ctx ∧ n = 125)) : (counted d time k slot).counter b n =
    if b = k.ctx ∧ (n = 44 ∨ n = 78) then satAdd64 (d.counter b n) 1 else d.counter b n := by
  rw [counted, firstIssue_counter _ _ _ _ hn h125, issued_counter _ _ _ hn]

theorem satAdd64_toNat (a : Dword) (n : Nat) : (satAdd64 a n).toNat = min (a.toNat + n) (2 ^ 64 - 1) := by
  unfold satAdd64
  rw [BitVec.toNat_ofNat, Nat.mod_eq_of_lt (by omega)]

/-- A round-robin that moves on leaves the lines of every core. -/
theorem counted_lines (die core : Nat) : ((counted d time k slot).core die core).lines = (d.core die core).lines := by
  have hcore : (counted d time k slot).core die core = (d.issued k slot).core die core := by
    unfold counted Device.core
    rw [firstIssue_eq_hub]
  rw [hcore, Device.issued_eq, Device.core_updCore]
  have hcount : ∀ die core, (Device.countUnit ((d.count k.ctx 78 1).count k.ctx 44 1) k.ctx k.die (16 + k.core) 12 1).core
      die core = d.core die core := by
    intro die core
    unfold Device.core
    rw [Device.countUnit_collie, Device.count_collie, Device.count_collie]
  simp only [hcount]
  split
  case isTrue he =>
    unfold Device.core
    rw [he]
  case isFalse => rfl

/-! ### The frame of an instruction that changes the cores, the blocks and the packs alone -/

theorem outerFrame_counted {s : State} {e : Device} (he : e = { s.dev with collie := e.collie }) :
    outerFrame k s { s with dev := counted e time k slot } := by
  have hctx : ∀ c, e.ctx c = s.dev.ctx c := by intro c; rw [he]; rfl
  have hring : ∀ c, e.ring c = s.dev.ring c := by intro c; rw [he]; rfl
  have hcounter : ∀ c n, e.counter c n = s.dev.counter c n := by intro c n; rw [he]; rfl
  refine ⟨rfl, rfl, ?_, ?_, ?_, ?_, ?_, ?_, ?_, fun c => ?_, fun c => ?_, ?_, ?_, fun c n hn hother => ?_⟩
  iterate 7 (show _ = _; simp only [counted_eng, counted_mem, counted_ups, counted_reel, counted_ports, counted_log,
    counted_sent]; rw [he])
  · simp [hctx]
  · simp [hring]
  · rw [counted_counter _ _ _ _ (by omega) (by omega), if_pos ⟨rfl, .inr rfl⟩, satAdd64_toNat, hcounter]
  · rw [counted_counter _ _ _ _ (by omega) (by omega), if_pos ⟨rfl, .inl rfl⟩, satAdd64_toNat, hcounter]
  · rw [counted_counter _ _ _ _ hn (by tauto), if_neg (by tauto), hcounter]

theorem coreFrame_counted {s : State} {e : Device} {p : Nat} (he : e = { s.dev with collie := e.collie })
    (hblocks : e.collie.blocks = s.dev.collie.blocks) (hpacks : ∀ q, q ≠ p → e.pack q = s.dev.pack q) :
    coreFrame k p s { s with dev := counted e time k slot } :=
  ⟨outerFrame_counted time k slot he, by simp [hblocks], fun q hq => by simp [hpacks q hq]⟩

/-! ### What the issue of a legal instruction answers -/

section Answers

variable {s : State} {c : Instr} {i : Issue} {k : KBlock} {x : Pack} {it : Item} {f : Platform → Device → Device}
  {legal : KBlock → Bool} {body : KBlock → Pack → Device → Ran} {e : Device}

theorem exec_of_atCode (hexec : exec c s = onCode c f s) (hcode : s.dev.atCode c = true) :
    exec c s = .next { s with dev := f s.plat s.dev } := by
  rw [hexec, onCode, if_pos hcode, onDev]

variable (hissue : issues s c i k x it) (hexec : exec c s = onCode c f s)
  (hf : f s.plat s.dev = s.dev.runJkf i legal body s.plat) (hlegal : legal k = true)
include hissue hexec hf hlegal

/-- An instruction that is done: the pc moves past its words. -/
theorem exec_go (hbody : body k x s.dev = .go e) : exec c s = .next { s with
    dev := counted (e.updPack i.pack fun y => { y with pc := x.pc + wordsOf i }) s.plat.pow.time k x.slot } := by
  obtain ⟨hissuer, hcode⟩ := hissue
  rw [exec_of_atCode hexec hcode, hf, Device.runJkf, hissuer]
  simp only [hlegal, if_true, hbody]
  rfl

/-- An instruction that has written the pc. -/
theorem exec_jump (hbody : body k x s.dev = .jump e) :
    exec c s = .next { s with dev := counted e s.plat.pow.time k x.slot } := by
  obtain ⟨hissuer, hcode⟩ := hissue
  rw [exec_of_atCode hexec hcode, hf, Device.runJkf, hissuer]
  simp only [hlegal, if_true, hbody]
  rfl

/-- An instruction of which a thread's access fails. -/
theorem exec_fail {m : MemErr} {lane more : Nat} (hbody : body k x s.dev = .fail m lane more) :
    exec c s = .next { s with dev := s.dev.coreFail s.plat i.pack k m lane more } := by
  obtain ⟨hissuer, hcode⟩ := hissue
  rw [exec_of_atCode hexec hcode, hf, Device.runJkf, hissuer]
  simp only [hlegal, if_true, hbody]

end Answers

theorem pack_of_issues {s : State} {c : Instr} {i : Issue} {k : KBlock} {x : Pack} {it : Item} (h : issues s c i k x it) :
    s.dev.pack i.pack = x := (Device.issuer_pack h.1).2.1

theorem block_of_issues {s : State} {c : Instr} {i : Issue} {k : KBlock} {x : Pack} {it : Item} (h : issues s c i k x it) :
    s.dev.block (i.pack / 16) = some k := (Device.issuer_pack h.1).1

/-! ### Updates of blocks and packs -/

theorem find?_map_update (bs : List (Nat × KBlock)) (b : Nat) (f : KBlock → KBlock) (a : Nat) :
    ((bs.map fun y => if y.1 == b then (b, f y.2) else y).find? fun y => y.1 == a) =
      (bs.find? fun y => y.1 == a).map fun y => if y.1 == b then (b, f y.2) else y := by
  rw [List.find?_map]
  congr 1
  congr 1
  funext y
  simp only [Function.comp]
  split
  case isTrue h => rw [eq_of_beq h]
  case isFalse => rfl

theorem block_updBlock (b : Nat) (f : KBlock → KBlock) (a : Nat) :
    (d.updBlock b f).block a = if a = b then (d.block a).map f else d.block a := by
  unfold Device.block Device.updBlock
  rw [Device.mapCollie_collie, find?_map_update]
  cases h : d.collie.blocks.find? fun y => y.1 == a with
  | none => simp
  | some y =>
    have hy : y.1 = a := by simpa using List.find?_some h
    by_cases hab : a = b <;> simp [hy, hab]

@[simp] theorem block_updPack (p : Nat) (f : Pack → Pack) (b : Nat) : (d.updPack p f).block b = d.block b := rfl
@[simp] theorem block_setPack (p : Nat) (x : Pack) (b : Nat) : (d.setPack p x).block b = d.block b := rfl
@[simp] theorem pack_updBlock (b : Nat) (f : KBlock → KBlock) (p : Nat) : (d.updBlock b f).pack p = d.pack p := rfl

end Sys2Proof.Proofs.PackIssue
end

section
/-! O4: stores to block memory (R168, R195). -/

namespace Sys2Proof.Proofs.BlockStores

open Sys2Proof.Machine Sys2Proof.Spec Sys2Proof.Proofs.PackIssue

/-! ### An instruction lane by lane -/

/-- A run over lanes in which no lane fails: what each lane gives, and the last state. `P` holds between the lanes. -/
theorem eachLane_ok {α β : Type} {f : β → Nat → Except MemErr (α × β)} (P : β → Prop) (v : Nat → α) (g : β → Nat → β) :
    ∀ (ls : List Nat) (y : β), P y → (∀ l ∈ ls, ∀ y, P y → f y l = .ok (v l, g y l) ∧ P (g y l)) →
      eachLane f ls y = .ok (ls.map fun l => (l, v l), ls.foldl g y)
  | [], _, _, _ => rfl
  | l :: ls, y, hy, hf => by
    obtain ⟨hl, hnext⟩ := hf l (by simp) y hy
    have ih := eachLane_ok P v g ls (g y l) hnext fun j hj => hf j (by simp [hj])
    simp only [eachLane, hl, ih, List.map_cons, List.foldl_cons]

/-- A run over lanes that leaves no state behind. -/
theorem eachLane_map {α : Type} {f : Unit → Nat → Except MemErr (α × Unit)} {ls : List Nat} (v : Nat → α)
    (hf : ∀ l ∈ ls, f () l = .ok (v l, ())) : eachLane f ls () = .ok (ls.map fun l => (l, v l), ()) :=
  eachLane_ok (fun _ => True) v (fun y _ => y) ls () trivial fun l hl _ _ => ⟨hf l hl, trivial⟩

/-! ### Bytes written to block memory -/

@[simp] theorem length_leBytes (n x : Nat) : (leBytes n x).length = n := by
  induction n generalizing x with
  | zero => rfl
  | succ n ih => simp [leBytes, ih]

@[simp] theorem length_storeBytes (i : Issue) (b : MemBody) (x : Pack) (l : Nat) :
    (storeBytes i b x l).length = memBytes b.fmt.toNat := length_leBytes _ _

theorem get_put (k : KBlock) (a : Nat) (bs : List Byte) (m : Nat) :
    FMap.get 0 (k.put a bs).mem m = if a ≤ m ∧ m < a + bs.length then bs.getD (m - a) 0 else FMap.get 0 k.mem m :=
  get_putBytes bs k.mem a 0 m

/-- A block after lanes have put their bytes, one after the other. -/
def putLanes (a : Nat → Nat) (bs : Nat → List Byte) (ls : List Nat) (k : KBlock) : KBlock :=
  ls.foldl (fun y l => y.put (a l) (bs l)) k

theorem putLanes_eq_mem (a : Nat → Nat) (bs : Nat → List Byte) (ls : List Nat) (k : KBlock) :
    putLanes a bs ls k = { k with mem := (putLanes a bs ls k).mem } := by
  unfold putLanes
  induction ls generalizing k with
  | nil => rfl
  | cons l ls ih =>
    rw [List.foldl_cons, ih]
    rfl

/-- Of the lanes that write a byte, ascending, the last one's stands. -/
theorem get_putLanes (a : Nat → Nat) (bs : Nat → List Byte) (ls : List Nat) (k : KBlock) (m : Nat) :
    FMap.get 0 (putLanes a bs ls k).mem m =
      match (ls.filter fun l => decide (a l ≤ m ∧ m < a l + (bs l).length)).getLast? with
      | some l => (bs l).getD (m - a l) 0
      | none => FMap.get 0 k.mem m := by
  unfold putLanes
  induction ls using List.reverseRecOn with
  | nil => rfl
  | append_singleton ls l ih =>
    rw [List.foldl_append, List.foldl_cons, List.foldl_nil, get_put, List.filter_append]
    by_cases h : a l ≤ m ∧ m < a l + (bs l).length
    · simp [h]
    · rw [if_neg h, ih, List.filter_singleton, decide_eq_false h, cond_false, List.append_nil]

/-! ### ST to block memory -/

theorem innerAddr_ok {va : Int} {n len : Nat} (h0 : 0 ≤ va) (hn : va % (n : Nat) = 0) (hlen : va + n ≤ len) :
    innerAddr va n len = .ok va.toNat := by
  have hmod : va.toNat % n = 0 := by
    have hcast : ((va.toNat % n : Nat) : Int) = 0 := by
      rw [Int.natCast_mod, Int.toNat_of_nonneg h0, hn]
    exact_mod_cast hcast
  unfold innerAddr
  rw [if_neg (by omega), if_neg (by simp [hmod]), if_pos (by omega)]

variable {i : Issue} {b : MemBody} {k : KBlock} {x : Pack} {ls : List Nat} {d : Device}

theorem innerStore_go (h : ∀ l ∈ ls, innerOk i b x k.memLen l) : innerStore i b k x ls d =
    .go (d.updBlock (i.pack / 16) fun _ => putLanes (fun l => (memAddr i b x l).toNat) (storeBytes i b x) ls k) := by
  unfold innerStore
  dsimp only
  rw [eachLane_ok (fun _ => True) (fun _ => ()) (fun y l => y.put (memAddr i b x l).toNat (storeBytes i b x l)) ls k trivial]
  · rfl
  intro l hl y _
  obtain ⟨h0, hn, hlen⟩ := h l hl
  rw [innerAddr_ok h0 hn hlen]
  exact ⟨rfl, trivial⟩

/-- The lanes that write a byte of block memory, by their addresses as integers. -/
theorem filter_writes (h : ∀ l ∈ ls, innerOk i b x k.memLen l) (a : Nat) :
    (ls.filter fun l => decide ((memAddr i b x l).toNat ≤ a ∧ a < (memAddr i b x l).toNat + (storeBytes i b x l).length)) =
      ls.filter fun l => decide (memAddr i b x l ≤ (a : Int) ∧ (a : Int) < memAddr i b x l + memBytes b.fmt.toNat) := by
  refine List.filter_congr fun l hl => decide_eq_decide.mpr ?_
  obtain ⟨h0, -, -⟩ := h l hl
  rw [length_storeBytes]
  omega

/-- Settles O4: the lanes' puts follow one another in ascending order, so the highest lane at an address stands. -/
theorem storesToBlockMemory : Obligations.StoresToBlockMemory := by
  intro i b ev s k x it hissue hlegal hspace hlanes
  have hpack := pack_of_issues hissue
  have hblock := block_of_issues hissue
  have hexec := exec_go hissue (f := memStore i b ev) rfl rfl hlegal (by
    dsimp only
    rw [hspace]
    exact innerStore_go hlanes)
  refine ⟨_, putLanes (fun l => (memAddr i b x l).toNat) (storeBytes i b x) (x.lanes (memFields false i b) i.guard) k, hexec,
    outerFrame_counted _ _ _ rfl, ?_, fun q hq => ?_, ?_, fun q hq => ?_, putLanes_eq_mem _ _ _ k, fun a => ?_⟩
  · simp [hpack, movedOn, wordsOf]
  · simp [hq]
  · simp [block_updBlock, hblock]
  · simp [block_updBlock, hq]
  · rw [get_putLanes, filter_writes hlanes] <;> rfl

end Sys2Proof.Proofs.BlockStores
end

section
/-! What the memory system does beside the work: no operation on lines, caches, cores' data caches or ECC findings changes an item,
a context, an engine, a block or a pack (R122 to R130, R168, R225 to R241). -/

namespace Sys2Proof.Proofs.QuietMemory

open Sys2Proof.Machine

/-- `d` has the items, contexts, engines, blocks and packs of `a`. -/
def Quiet (a d : Device) : Prop :=
  d.hub.items = a.hub.items ∧ d.hub.workSeq = a.hub.workSeq ∧ d.hub.ctxs = a.hub.ctxs ∧ d.eng = a.eng ∧
    d.collie.blocks = a.collie.blocks ∧ d.collie.packs = a.collie.packs ∧ d.collie.nextBlk = a.collie.nextBlk

theorem Quiet.refl (d : Device) : Quiet d d := ⟨rfl, rfl, rfl, rfl, rfl, rfl, rfl⟩

variable {a d : Device}

section Reads
variable (h : Quiet a d)
include h

theorem Quiet.item (c q : Nat) : d.item c q = a.item c q := by
  obtain ⟨hitems, -⟩ := h
  unfold Device.item
  rw [hitems]

theorem Quiet.ctx (c : Nat) : d.ctx c = a.ctx c := by
  obtain ⟨-, -, hctxs, -⟩ := h
  unfold Device.ctx
  rw [hctxs]

theorem Quiet.pack (p : Nat) : d.pack p = a.pack p := by
  obtain ⟨-, -, -, -, -, hpacks, -⟩ := h
  unfold Device.pack
  rw [hpacks]

theorem Quiet.block (b : Nat) : d.block b = a.block b := by
  obtain ⟨-, -, -, -, hblocks, -, -⟩ := h
  unfold Device.block
  rw [hblocks]

end Reads

theorem Quiet.mapMem (h : Quiet a d) (f : Mem → Mem) : Quiet a (d.mapMem f) := h

theorem Quiet.tick (h : Quiet a d) (n : Nat) : Quiet a { d with lruTick := n } := h

theorem Quiet.foldl {β : Type} {f : Device → β → Device} (hf : ∀ d x, Quiet a d → Quiet a (f d x)) (l : List β)
    (h : Quiet a d) : Quiet a (l.foldl f d) := by
  induction l generalizing d with
  | nil => exact h
  | cons x l ih => exact ih (hf d x h)

theorem Quiet.ite {c : Prop} [Decidable c] {e : Device} (h : Quiet a d) (h1 : Quiet a e) : Quiet a (if c then d else e) := by
  split
  · exact h
  · exact h1

/-! ### Counters and outputs -/

theorem Quiet.setCounter (h : Quiet a d) (c n : Nat) (v : Dword) : Quiet a (d.setCounter c n v) := h

theorem Quiet.count (h : Quiet a d) (c n k : Nat) : Quiet a (d.count c n k) := Quiet.ite h h

theorem Quiet.countUnit (h : Quiet a d) (c die u j k : Nat) : Quiet a (d.countUnit c die u j k) := Quiet.ite h h

theorem Quiet.emit (h : Quiet a d) (o : Output) : Quiet a (d.emit o) := by
  unfold Quiet
  rw [Device.emit_hub, Device.emit_eng, Device.emit_collie]
  exact h

/-! ### The die caches -/

theorem Quiet.prefUsed (h : Quiet a d) (die l c : Nat) : Quiet a (d.prefUsed die l c) :=
  Quiet.count (d := Device.mapCollie _ _) h _ _ _

theorem bad_dramPut {m : Mem} {k l : Nat} {data : List Byte} {n : Nat}
    (h : FMap.get false (m.dramPut k l data).bad n = true) : FMap.get false m.bad n = true := by
  unfold Mem.dramPut at h
  dsimp only at h
  rw [FMap.get_set, FMap.get_set] at h
  split at h
  · cases h
  · split at h
    · cases h
    · exact h

theorem bad_writeBack {m : Mem} {x : DLine} {n : Nat} (h : FMap.get false (m.writeBack x).bad n = true) :
    FMap.get false m.bad n = true := by
  unfold Mem.writeBack at h
  split at h
  · split at h
    · exact h
    · exact bad_dramPut h
  · exact h

/-- A property of devices that counting, an output, the use of a prefetch, and changes of memory that make no half-line uncorrectable
keep. -/
structure Closed (P : Device → Prop) : Prop where
  count : ∀ {d}, P d → ∀ c n k, P (d.count c n k)
  emit : ∀ {d}, P d → ∀ o, P (d.emit o)
  prefUsed : ∀ {d}, P d → ∀ i l c, P (d.prefUsed i l c)
  tick : ∀ {d : Device}, P d → ∀ n, P { d with lruTick := n }
  mem : ∀ {d}, P d → ∀ f : Mem → Mem, (∀ m n, FMap.get false (f m).bad n = true → FMap.get false m.bad n = true) →
    P (d.mapMem f)

theorem closed_quiet (a : Device) : Closed (Quiet a) where
  count h := h.count
  emit h := h.emit
  prefUsed h := h.prefUsed
  tick h := h.tick
  mem h f _ := h.mapMem f

section Caches
variable {P : Device → Prop}

theorem Closed.ite {c : Prop} [Decidable c] {e : Device} (h : P d) (he : P e) : P (if c then d else e) := by
  split
  · exact h
  · exact he

theorem Closed.foldl {β : Type} {f : Device → β → Device} (hf : ∀ d x, P d → P (f d x)) (l : List β) (h : P d) :
    P (l.foldl f d) := by
  induction l generalizing d with
  | nil => exact h
  | cons x l ih => exact ih (hf d x h)

variable (hP : Closed P) (h : P d)
include hP h

theorem Closed.cachePut (die : Nat) (host : Bool) (l tc : Nat) (st : LineSt) (key : Nat) (data : List Byte)
    (pref : Option Nat) : P (d.cachePut die host l tc st key data pref) := by
  unfold Device.cachePut
  dsimp only
  split
  · split
    · exact hP.mem (hP.tick h _) _ (by exact fun _ _ hn => hn)
    · exact hP.prefUsed (hP.mem (hP.tick h _) _ (by exact fun _ _ hn => hn)) _ _ _
  · split
    · exact hP.mem (hP.tick h _) _ (by exact fun _ _ hn => hn)
    · split
      · exact hP.mem (hP.tick h _) _ (by exact fun _ _ hn => bad_writeBack hn)
      · refine Closed.ite ?_ (hP.count ?_ _ _ _)
        · exact hP.mem (hP.tick h _) _ (by exact fun _ _ hn => bad_writeBack hn)
        · exact hP.mem (hP.tick h _) _ (by exact fun _ _ hn => bad_writeBack hn)

theorem Closed.cacheTouch (i : Nat) (host : Bool) (l : Nat) : P (d.cacheTouch i host l) := by
  unfold Device.cacheTouch
  split
  · exact h
  · dsimp only
    split
    · exact hP.mem (hP.tick h _) _ (by exact fun _ _ hn => hn)
    · exact hP.prefUsed (hP.mem (hP.tick h _) _ (by exact fun _ _ hn => hn)) _ _ _

theorem Closed.unusedLines (f : DLine → Bool) : P (d.unusedLines f) := by
  refine Closed.foldl (fun d x h => ?_) _ h
  split
  · exact Closed.ite h (hP.count h _ _ _)
  · exact h

theorem Closed.backInval (l : Nat) : P (d.backInval l) :=
  Closed.ite (hP.emit (hP.mem h _ (by exact fun _ _ hn => hn)) _) h

theorem Closed.storeHostLine (die : Option Nat) (tc l : Nat) (patch : List (Option Byte)) :
    P (d.storeHostLine die tc l patch) := by
  unfold Device.storeHostLine
  dsimp only
  split
  · exact hP.cachePut (hP.mem h _ (by exact fun _ _ hn => hn)) _ _ _ _ _ _ _ _
  · exact hP.mem h _ (by exact fun _ _ hn => hn)

theorem Closed.countBack (die : Nat) (x : CLine) : P (d.countBack die x) := hP.count h _ _ _

theorem Closed.unused (die : Nat) (xs : List CLine) : P (d.unused die xs) := by
  refine Closed.foldl (fun d x h => ?_) _ h
  split
  · exact Closed.ite h (hP.count h _ _ _)
  · exact h

end Caches

theorem Quiet.unusedLines (h : Quiet a d) (f : DLine → Bool) : Quiet a (d.unusedLines f) := (closed_quiet a).unusedLines h f

theorem Quiet.backInval (h : Quiet a d) (l : Nat) : Quiet a (d.backInval l) := (closed_quiet a).backInval h l

/-! ### ECC findings -/

theorem Quiet.eccCe (h : Quiet a d) (half : Nat) : Quiet a (d.eccCe half) := h

theorem Quiet.eccUe (h : Quiet a d) (half : Nat) : Quiet a (d.eccUe half) := h

theorem Quiet.findWeak (h : Quiet a d) (half : Nat) : Quiet a (d.findWeak half) := by
  unfold Device.findWeak
  split
  · exact h
  · exact Quiet.ite h h

/-! ### Stores -/

theorem Quiet.storeLine (h : Quiet a d) {d1 : Device} {die : Option Nat} {tc key l : Nat} {patch : List (Option Byte)}
    (hs : d.storeLine die tc key l patch = some d1) : Quiet a d1 := by
  have hread : Quiet a (if die.isNone then (partialHalves patch).foldl (fun d h => d.findWeak (2 * l + h)) d else d) :=
    Quiet.ite (Quiet.foldl (fun d x h => h.findWeak _) _ h) h
  unfold Device.storeLine at hs
  dsimp only at hs
  generalize (if die.isNone then (partialHalves patch).foldl (fun d h => d.findWeak (2 * l + h)) d else d) = e at hread hs
  split at hs
  · cases hs
  · split at hs
    · obtain rfl := Option.some.inj hs
      exact (closed_quiet a).cachePut (((hread.unusedLines _).backInval _).mapMem _) _ _ _ _ _ _ _ _
    · obtain rfl := Option.some.inj hs
      exact (hread.unusedLines _).backInval _

theorem Quiet.storeHostLine (h : Quiet a d) (die : Option Nat) (tc l : Nat) (patch : List (Option Byte)) :
    Quiet a (d.storeHostLine die tc l patch) := (closed_quiet a).storeHostLine h die tc l patch

/-! ### The data caches of the cores -/

theorem Quiet.updCore (h : Quiet a d) (die core : Nat) (f : CoreSt → CoreSt) : Quiet a (d.updCore die core f) := h

theorem Quiet.unkeep (h : Quiet a d) (die core : Nat) (f : Nat → Nat → Nat → Bool) : Quiet a (d.unkeep die core f) := h

theorem Quiet.countBack (h : Quiet a d) (die : Nat) (x : CLine) : Quiet a (d.countBack die x) := (closed_quiet a).countBack h die x

theorem Quiet.writeBackLine (h : Quiet a d) (die : Nat) (x : CLine) : Quiet a (d.writeBackLine die x).1 := by
  unfold Device.writeBackLine
  split
  · exact h
  · dsimp only
    split
    · split
      · exact (h.countBack die x).storeLine ‹_›
      · exact (h.countBack die x).eccUe _
    · exact (h.countBack die x).storeHostLine _ _ _ _
    · exact h.countBack die x

theorem Quiet.unused (h : Quiet a d) (die : Nat) (xs : List CLine) : Quiet a (d.unused die xs) := (closed_quiet a).unused h die xs

/-- The device part of a fold that collects the writes lost. -/
theorem Quiet.foldl_fst {β γ : Type} {f : Device × γ → β → Device × γ} (hf : ∀ r x, Quiet a r.1 → Quiet a (f r x).1)
    (l : List β) {r : Device × γ} (h : Quiet a r.1) : Quiet a (l.foldl f r).1 := by
  induction l generalizing r with
  | nil => exact h
  | cons x l ih => exact ih (hf r x h)

theorem Quiet.writeBackAll (h : Quiet a d) (die : Nat) (xs : List CLine) : Quiet a (d.writeBackAll die xs).1 := by
  unfold Device.writeBackAll
  refine Quiet.foldl_fst (fun r x (h : Quiet a r.1) => ?_) xs (r := (d, [])) h
  exact h.writeBackLine die x

theorem Quiet.cleanLines (h : Quiet a d) (die core : Nat) (f : CLine → Bool) : Quiet a (d.cleanLines die core f).1 := by
  unfold Device.cleanLines
  exact (h.writeBackAll die _).updCore die core _

theorem Quiet.cleanCore (h : Quiet a d) (die core : Nat) : Quiet a (d.cleanCore die core).1 := h.cleanLines die core _

theorem Quiet.emptyCore (h : Quiet a d) (die core : Nat) : Quiet a (d.emptyCore die core).1 := by
  unfold Device.emptyCore
  dsimp only
  exact (((h.cleanCore die core).unused die _).updCore die core _).unkeep die core _

theorem Quiet.acquireCore (h : Quiet a d) (c die core : Nat) : Quiet a (d.acquireCore c die core).1 :=
  (h.count _ _ _).emptyCore die core

theorem Quiet.installCore (h : Quiet a d) (die core : Nat) (x : CLine) : Quiet a (d.installCore die core x).1 := by
  unfold Device.installCore
  exact ((h.writeBackAll die _).unused die _).updCore die core _

theorem Quiet.releaseSlice (h : Quiet a d) (c q slice : Nat) : Quiet a (d.releaseSlice c q slice).1 := by
  unfold Device.releaseSlice
  refine Quiet.foldl_fst (fun r i h => ?_) _ h
  refine Quiet.foldl_fst (fun r k (h : Quiet a r.1) => ?_) _ h
  exact (h.count _ _ _).cleanLines _ _ _

end Sys2Proof.Proofs.QuietMemory
end

section
/-! What the end of items does not touch: however an item ends, by an error, a fault or a kill, no context changes and no block comes
to a core (R164, R217, R275 to R277, R345). -/

namespace Sys2Proof.Proofs.ItemEnds

open Sys2Proof.Machine Sys2Proof.Proofs.QuietMemory

/-- `d` has the contexts of `a`, and no block that `a` does not have; the next block takes the number it would take in `a`. -/
def Shrinks (a d : Device) : Prop :=
  d.hub.ctxs = a.hub.ctxs ∧ d.collie.nextBlk = a.collie.nextBlk ∧
    ∀ y ∈ d.collie.blocks, y.1 ∈ a.collie.blocks.map Prod.fst

theorem Shrinks.refl (d : Device) : Shrinks d d := ⟨rfl, rfl, fun _ hy => List.mem_map_of_mem hy⟩

variable {a d : Device}

theorem Shrinks.ctx (h : Shrinks a d) (c : Nat) : d.ctx c = a.ctx c := by
  obtain ⟨hctxs, -⟩ := h
  unfold Device.ctx
  rw [hctxs]

/-- What the memory system does leaves contexts and blocks alone. -/
theorem Shrinks.quiet {e : Device} (h : Shrinks a d) (hq : Quiet d e) : Shrinks a e := by
  obtain ⟨hctxs, hnext, hblocks⟩ := h
  obtain ⟨-, -, qctxs, -, qblocks, -, qnext⟩ := hq
  exact ⟨qctxs.trans hctxs, qnext.trans hnext, fun y hy => hblocks y (qblocks ▸ hy)⟩

theorem Shrinks.foldl {β : Type} {f : Device → β → Device} (hf : ∀ d x, Shrinks a d → Shrinks a (f d x)) (l : List β)
    (h : Shrinks a d) : Shrinks a (l.foldl f d) := by
  induction l generalizing d with
  | nil => exact h
  | cons x l ih => exact ih (hf d x h)

theorem Shrinks.ite {c : Prop} [Decidable c] {e : Device} (h : Shrinks a d) (h1 : Shrinks a e) :
    Shrinks a (if c then d else e) := by
  split
  · exact h
  · exact h1

/-! ### Shared updates -/

theorem Shrinks.mapMem (h : Shrinks a d) (f : Mem → Mem) : Shrinks a (d.mapMem f) := h
theorem Shrinks.mapEng (h : Shrinks a d) (f : Engines → Engines) : Shrinks a (d.mapEng f) := h
theorem Shrinks.mapPorts (h : Shrinks a d) (f : Ports → Ports) : Shrinks a (d.mapPorts f) := h
theorem Shrinks.mapReel (h : Shrinks a d) (f : Reel → Reel) : Shrinks a (d.mapReel f) := h
theorem Shrinks.mapHub (h : Shrinks a d) {f : Hub → Hub} (hf : ∀ x, (f x).ctxs = x.ctxs := by exact fun _ => rfl) :
    Shrinks a (d.mapHub f) := by
  obtain ⟨hctxs, hrest⟩ := h
  exact ⟨(hf d.hub).trans hctxs, hrest⟩
theorem Shrinks.setGroup (h : Shrinks a d) (g : Nat) (x : Group) : Shrinks a (d.setGroup g x) := h
theorem Shrinks.updItem (h : Shrinks a d) (c q : Nat) (f : Item → Item) : Shrinks a (d.updItem c q f) := h
theorem Shrinks.updRing (h : Shrinks a d) (c : Nat) (f : Ring → Ring) : Shrinks a (d.updRing c f) := h
theorem Shrinks.setCounter (h : Shrinks a d) (c n : Nat) (v : Dword) : Shrinks a (d.setCounter c n v) := h

theorem Shrinks.count (h : Shrinks a d) (c n k : Nat) : Shrinks a (d.count c n k) := h.quiet ((Quiet.refl d).count c n k)

theorem Shrinks.emit (h : Shrinks a d) (o : Output) : Shrinks a (d.emit o) := h.quiet ((Quiet.refl d).emit o)

theorem Shrinks.updBlock (h : Shrinks a d) (b : Nat) (f : KBlock → KBlock) : Shrinks a (d.updBlock b f) := by
  obtain ⟨hctxs, hnext, hblocks⟩ := h
  refine ⟨hctxs, hnext, fun y hy => ?_⟩
  obtain ⟨z, hz, rfl⟩ := List.mem_map.mp hy
  have hkey : (if z.1 == b then (b, f z.2) else z).1 = z.1 := by
    split
    case isTrue h => exact (eq_of_beq h).symm
    case isFalse => rfl
  rw [hkey]
  exact hblocks z hz

/-! ### Items leave the units that run them -/

theorem Shrinks.updVe (h : Shrinks a d) (die k : Nat) (f : VecEng → VecEng) : Shrinks a (d.updVe die k f) := h

theorem Shrinks.freeBlock (h : Shrinks a d) (b : Nat) : Shrinks a (d.freeBlock b) := by
  obtain ⟨hctxs, hnext, hblocks⟩ := h
  unfold Device.freeBlock
  refine Shrinks.foldl (fun d e h => h.updVe _ _ _) _ ⟨hctxs, hnext, fun y hy => hblocks y ?_⟩
  exact (List.mem_filter.mp hy).1

theorem Shrinks.veResume (h : Shrinks a d) (die k : Nat) : Shrinks a (d.veResume die k) := by
  unfold Device.veResume
  dsimp only
  split
  · exact Shrinks.ite h (h.updVe _ _ _)
  · exact h

theorem Shrinks.unusedNear (h : Shrinks a d) (c q : Nat) : Shrinks a (d.unusedNear c q) := by
  refine Shrinks.foldl (fun d x h => ?_) _ h
  split
  · exact Shrinks.ite h (h.count _ _ _)
  · exact h

theorem Shrinks.purgeOne (h : Shrinks a d) (c q : Nat) (how : Stop) : Shrinks a (d.purgeOne c q how) := by
  unfold Device.purgeOne
  exact Shrinks.foldl (fun d e h => h.veResume _ _) _ (((h.unusedNear c q).mapEng _).mapMem _)

theorem Shrinks.peerSend (h : Shrinks a d) (c seq port node rctx rva bytes va : Nat) (op : PeerOp) (use : PeerUse) :
    Shrinks a (d.peerSend c seq port node rctx rva bytes va op use) := by
  unfold Device.peerSend
  exact ((h.updItem _ _ _).mapPorts _).emit _

theorem Shrinks.countStore (h : Shrinks a d) (x : Actor) (tc : Nat) (host : Bool) (l : Nat) (bs : List Byte) :
    Shrinks a (d.countStore x tc host l bs) := by
  unfold Device.countStore
  split
  · exact h
  · exact Shrinks.ite h (h.count _ _ _)

theorem Shrinks.writePlace (h : Shrinks a d) {d1 : Device} {x : Actor} {tc va key : Nat} {pl : Place} {bs : List Byte}
    (hw : d.writePlace x tc va pl key bs = .ok d1) : Shrinks a d1 := by
  unfold Device.writePlace at hw
  split at hw
  · split at hw
    · cases hw
    · split at hw
      · cases hw
      case h_2 hstore =>
        obtain rfl := Except.ok.inj hw
        exact (h.countStore _ _ _ _ _).quiet ((Quiet.refl _).storeLine hstore)
  · split at hw
    · cases hw
    · obtain rfl := Except.ok.inj hw
      exact (h.countStore _ _ _ _ _).quiet ((Quiet.refl _).storeHostLine _ _ _ _)
  · split at hw
    · cases hw
    · obtain rfl := Except.ok.inj hw
      exact h.peerSend _ _ _ _ _ _ _ _ _ _

theorem Shrinks.writeLoop {x : Actor} {tc : Nat} : ∀ (n : Nat) {d d1 : Device} {va : Nat} {bs : List Byte}, Shrinks a d →
    Device.writeLoop x tc n d va bs = .ok d1 → Shrinks a d1
  | 0, _, _, _, _, h, hw => by
    obtain rfl := Except.ok.inj hw
    exact h
  | n + 1, _, _, _, [], h, hw => by
    obtain rfl := Except.ok.inj hw
    exact h
  | n + 1, _, _, _, _ :: _, h, hw => by
    unfold Device.writeLoop at hw
    dsimp only at hw
    split at hw
    · cases hw
    · split at hw
      · cases hw
      case h_2 hplace => exact Shrinks.writeLoop n (h.writePlace hplace) hw

theorem Shrinks.writeVa (h : Shrinks a d) {d1 : Device} {x : Actor} {tc va : Nat} {bs : List Byte}
    (hw : d.writeVa x tc va bs = .ok d1) : Shrinks a d1 := Shrinks.writeLoop _ h hw

theorem Shrinks.setLayer (h : Shrinks a d) (recAt i : Nat) (version : Dword) (slot : Bool) :
    Shrinks a (setLayer d recAt i version slot) := h

theorem Shrinks.undoSwap (h : Shrinks a d) (w : WSet) (r : Update) (i : Nat) : Shrinks a (undoSwap w r d i) := by
  unfold Machine.undoSwap
  split
  · exact h
  · dsimp only
    split
    · exact h
    case h_2 hw =>
      exact Shrinks.count ((h.writeVa hw).setLayer _ _ _ _) _ _ _

theorem Shrinks.undoRun (h : Shrinks a d) (c q : Nat) : Shrinks a (d.undoRun c q) := by
  unfold Device.undoRun
  refine Shrinks.foldl (d := d) (fun d r h => ?_) _ h
  split
  · split
    · exact h
    · exact Shrinks.foldl (fun d i h => h.undoSwap _ _ _) _ h
  · exact h

theorem Shrinks.leaveUnits (h : Shrinks a d) (c q : Nat) (how : Stop) : Shrinks a (d.leaveUnits c q how) := by
  unfold Device.leaveUnits
  exact (Shrinks.foldl (fun d b h => h.freeBlock b) _ (h.purgeOne c q how)).undoRun c q

/-! ### What a failed item leaves, and what it held -/

theorem Shrinks.mixDest (h : Shrinks a d) (it : Item) : Shrinks a (d.mixDest it) := by
  unfold Device.mixDest
  refine Shrinks.foldl (fun d va h => ?_) _ (show Shrinks a d.fresh.2 from h)
  unfold Device.mixByte
  split
  · split
    case h_1 hw => exact h.writeVa hw
    · exact h
  · exact h

theorem Shrinks.mixOnce (h : Shrinks a d) (it : Item) : Shrinks a (d.mixOnce it) :=
  Shrinks.ite h ((h.mixDest it).updItem _ _ _)

theorem Shrinks.stashCount (h : Shrinks a d) (c : Nat) : Shrinks a (d.stashCount c) := Shrinks.ite h h

theorem Shrinks.poolExtent (h : Shrinks a d) : Shrinks a d.poolExtent := by
  unfold Device.poolExtent
  exact Shrinks.ite h (h.mapMem _)

theorem Shrinks.dropSegs (h : Shrinks a d) (c : Nat) (f : Seg → Bool) : Shrinks a (d.dropSegs c f) :=
  ((h.mapMem _).stashCount c).poolExtent

theorem Shrinks.endClaims (h : Shrinks a d) (it : Item) (ok : Bool) : Shrinks a (d.endClaims it ok) := by
  unfold Device.endClaims
  exact (Shrinks.ite ((h.mapMem _).count _ _ _) (h.mapMem _)).dropSegs _ _

theorem Shrinks.endSave (h : Shrinks a d) (it : Item) (ok : Bool) : Shrinks a (d.endSave it ok) := by
  unfold Device.endSave
  split
  · exact h
  · exact Shrinks.ite ((h.mapMem _).dropSegs _ _) (h.dropSegs _ _)

theorem Shrinks.dropWork (h : Shrinks a d) (c w : Nat) (how : Stop) : Shrinks a (d.dropWork c w how) := by
  unfold Device.dropWork
  dsimp only
  split
  · exact h.leaveUnits c w how
  case h_2 it _ =>
    have hmix := Shrinks.ite (c := (it.issued && !it.mixed) = true) ((h.leaveUnits c w how).mixDest it) (h.leaveUnits c w how)
    exact Shrinks.ite ((h.leaveUnits c w how).updItem _ _ _) ((hmix.endClaims it false).endSave it false)

theorem Shrinks.purge (h : Shrinks a d) (c q : Nat) (how : Stop) : Shrinks a (d.purge c q how) := by
  unfold Device.purge
  exact Shrinks.foldl (fun d w h => h.dropWork c w how) _ (h.leaveUnits c q how)

theorem Shrinks.kernelCheck (h : Shrinks a d) (c q : Nat) : Shrinks a (d.kernelCheck c q) := by
  unfold Device.kernelCheck
  split
  · exact h
  · exact Shrinks.ite (h.updItem _ _ _) h

theorem Shrinks.settleWork (h : Shrinks a d) (c q : Nat) : Shrinks a (d.settleWork c q) := by
  unfold Device.settleWork
  split
  · exact h
  case h_2 it _ =>
    dsimp only
    generalize (it.isWork && it.phase == .done && !(d.writesAway c q || d.readsOut c q || d.issuedTiles c q != 0)) = drained
    have hmix := Shrinks.ite (c := drained = true) (h.mixOnce it) h
    split
    · refine Shrinks.kernelCheck (Shrinks.mapHub (Shrinks.updItem (Shrinks.updBlock ?_ _ _) _ _ _)) c it.layerIx
      exact (hmix.endClaims it it.outcome.1.success).endSave it it.outcome.1.success
    · exact hmix

theorem Shrinks.itemError (h : Shrinks a d) (c q : Nat) (s : Status) (detail : Nat) : Shrinks a (d.itemError c q s detail) := by
  unfold Device.itemError
  exact ((h.leaveUnits c q .now).updItem c q _).settleWork c q

theorem Shrinks.loseWrites {r : Device × Lost} (h : Shrinks a r.1) : Shrinks a (Device.loseWrites r) :=
  Shrinks.foldl (fun _ _ h => h.itemError _ _ _ _) _ h

/-! ### Records and the end of an item -/

theorem Shrinks.leaveReel (h : Shrinks a d) (it : Item) : Shrinks a (d.leaveReel it) := by
  unfold Device.leaveReel
  split
  · exact h
  · exact Shrinks.ite h (h.setGroup _ _)

theorem Shrinks.loadWait (h : Shrinks a d) (time : Dword) (it : Item) : Shrinks a (d.loadWait time it) := by
  unfold Device.loadWait
  split
  · exact Shrinks.ite ((h.count _ _ _).updItem _ _ _) h
  · exact h

theorem Shrinks.tellOthers (h : Shrinks a d) (time : Dword) (fin : Item) (s : Status) (idx : Nat) :
    Shrinks a (d.tellOthers time fin s idx) := by
  unfold Device.tellOthers
  exact Shrinks.foldl (fun _ _ h => h.purge _ _ _) _ ((Shrinks.foldl (fun _ _ h => h.loadWait time _) _ h).mapHub)

theorem Shrinks.countEnd (h : Shrinks a d) (it : Item) : Shrinks a (d.countEnd it) :=
  Shrinks.ite ((h.count _ _ _).count _ _ _) h

theorem Shrinks.promote (h : Shrinks a d) (c : Nat) : Shrinks a (d.promote c) := by
  unfold Device.promote
  exact Shrinks.count (h.mapHub) _ _ _

theorem Shrinks.countStatus (h : Shrinks a d) (c : Nat) (s : Status) : Shrinks a (d.countStatus c s) := by
  have herr := Shrinks.ite (c := s.itemError = true) (h.count c 137 1) h
  unfold Device.countStatus
  dsimp only
  split
  case h_10 => exact herr
  all_goals exact herr.count _ _ _

theorem Shrinks.putRecord (h : Shrinks a d) (c : Nat) (r : Record) : Shrinks a (d.putRecord c r) := by
  unfold Device.putRecord
  exact (((h.quiet ((Quiet.refl d).storeHostLine _ _ _ _)).updRing _ _).countStatus _ _).emit _

theorem Shrinks.writeOldest (h : Shrinks a d) (c : Nat) : Shrinks a (d.writeOldest c) := by
  unfold Device.writeOldest
  split
  · exact h
  · exact Shrinks.ite ((h.updRing _ _).putRecord _ _) h

theorem Shrinks.pushRecord (h : Shrinks a d) (c : Nat) (r : Record) : Shrinks a (d.pushRecord c r) :=
  Shrinks.ite ((h.updRing _ _).writeOldest c) (h.updRing _ _)

theorem Shrinks.drainReport (h : Shrinks a d) : Shrinks a d.drainReport :=
  Shrinks.ite ((h.mapReel _).emit _) h

theorem Shrinks.releaseSlice (h : Shrinks a d) (c q slice : Nat) : Shrinks a (d.releaseSlice c q slice).1 :=
  h.quiet ((Quiet.refl d).releaseSlice c q slice)

theorem Shrinks.setOutcome (h : Shrinks a d) (time : Dword) (c q : Nat) (s : Status) (peer : Bool) :
    Shrinks a (d.setOutcome time c q s peer) := h.updRing _ _

theorem Shrinks.endNow (h : Shrinks a d) (time : Dword) (it : Item) : Shrinks a (Device.endNow time d it) := by
  unfold Device.endNow
  extract_lets r fin o idx ok lost left held told missed failed ended
  have hrelease : Shrinks a r.1 := by
    unfold r
    split
    · exact h.releaseSlice _ _ _
    · exact h
  have hlost : Shrinks a lost := by
    unfold lost
    refine Shrinks.purge (Shrinks.loseWrites ?_) _ _ _
    exact hrelease
  have hleft : Shrinks a left := Shrinks.ite hlost (hlost.leaveReel _)
  have hheld : Shrinks a held := (hleft.endClaims _ _).endSave _ _
  have htold : Shrinks a told := hheld.mapHub.tellOthers _ _ _ _
  have hfailed : Shrinks a failed := Shrinks.ite (htold.updRing _ _) htold
  have hended : Shrinks a ended := ((hfailed.setOutcome _ _ _ _ _).countEnd _).promote _
  exact (hended.pushRecord _ _).drainReport

theorem Shrinks.endItem (h : Shrinks a d) (time : Dword) (it : Item) : Shrinks a (Device.endItem time d it) := by
  unfold Device.endItem
  have hmix := (h.purge it.ctx it.seq .now).mixDest it
  exact Shrinks.ite (h.endNow time it) (Shrinks.ite (hmix.updItem _ _ _) (hmix.endNow time _))

/-! ### Kills (R277, R345) -/

theorem Shrinks.killOne (h : Shrinks a d) (time : Dword) (code : Nat) (it : Item) :
    Shrinks a (Device.killOne time code d it) := by
  unfold Device.killOne
  have hpurged := (h.loadWait time it).purge it.ctx it.seq .now
  exact Shrinks.ite (hpurged.updItem _ _ _) (hpurged.endItem time _)

theorem Shrinks.joinReel (h : Shrinks a d) (it : Item) : Shrinks a (d.joinReel it).1 := by
  unfold Device.joinReel
  split
  · exact h
  · dsimp only
    generalize (if 255 < _ then Group.reset else d.group _) = g
    split
    · exact h
    · exact h.setGroup _ _

theorem Shrinks.killUnfetched (time : Dword) (code c : Nat) : ∀ (n : Nat) {d : Device}, Shrinks a d →
    Shrinks a (Device.killUnfetched time code c n d)
  | 0, _, h => h
  | n + 1, d, h => by
    unfold Device.killUnfetched
    exact Shrinks.ite h (Shrinks.killUnfetched time code c n
      (Shrinks.pushRecord (Shrinks.count (Shrinks.updRing (Shrinks.leaveReel (h.joinReel _) _) _ _) _ _ _) _ _))

theorem Shrinks.lastKilled (h : Shrinks a d) (time : Dword) (c code : Nat) : Shrinks a (d.lastKilled time c code) :=
  Shrinks.ite h ((Shrinks.killUnfetched time code c _ h).dropSegs _ _)

theorem Shrinks.account (h : Shrinks a d) (time : Dword) (c code : Nat) : Shrinks a (d.account time c code) := by
  unfold Device.account
  exact Shrinks.lastKilled (Shrinks.foldl (fun _ it h => h.killOne time code it) _ (h.updRing _ _)) _ _ _

/-- A context fault of an open context kills it and is recorded (R327, R341). -/
theorem takeFaults_killed {d : Device} (p : Platform) {c : Nat} (f : FaultInfo) (fs : List FaultInfo)
    (h : (d.ctx c).st = .opened) : ((d.takeFaults p c (f :: fs)).ctx c) = { d.ctx c with
      st := .killed, fault := FaultRec.ofInfo (firstFault f fs) p.pow.time fs.length } := by
  unfold Device.takeFaults
  simp only [h]
  refine (Shrinks.ctx (Shrinks.account (Shrinks.refl _) _ _ _) c).trans ?_
  exact (Device.ctx_updCtx d c (fun x => { x with
    st := .killed, fault := FaultRec.ofInfo (firstFault f fs) p.pow.time fs.length }) c).trans (if_pos rfl)

end Sys2Proof.Proofs.ItemEnds
end

section
/-! O6: branches (R169, R171, R200). -/

namespace Sys2Proof.Proofs.Branches

open Sys2Proof.Machine Sys2Proof.Spec Sys2Proof.Proofs.PackIssue Sys2Proof.Proofs.ItemEnds

/-- Is the reconvergence pc of a branch the top entry's? -/
def atTop (x : Pack) (b : BraBody) : Bool := (x.stack.head?.map Frame.recon) == some b.recon.toNat

/-- The rows of R169 for a branch: no thread takes it, all do, one side waits at the top entry's reconvergence pc, a push, a full
stack. -/
theorem branch_eq (x : Pack) (next : Nat) (taken : Word) (b : BraBody) : x.branch next taken b =
    if taken = 0 then some { x with pc := next }
    else if x.mask &&& ~~~taken = 0 then some { x with pc := b.target.toNat }
    else if atTop x b && b.target.toNat == b.recon.toNat then some { x with mask := x.mask &&& ~~~taken, pc := next }
    else if atTop x b && next == b.recon.toNat then some { x with mask := taken, pc := b.target.toNat }
    else if x.stack.length < 32 then some { x with
      stack := ⟨b.recon.toNat, x.mask, b.target.toNat, taken⟩ :: x.stack, mask := x.mask &&& ~~~taken, pc := next }
    else none := by
  unfold Pack.branch atTop
  cases x.stack <;> rfl

variable {i : Issue} {b : BraBody} {s : State} {k : KBlock} {x y : Pack} {it : Item}

theorem exec_bra_of_some (hissue : issues s (.bra i b) i k x it) (himm : i.imm = none)
    (h : x.branch (x.pc + 1) (x.passing i.guard) b = some y) :
    ∃ t, exec (.bra i b) s = .next t ∧ coreFrame k i.pack s t ∧ t.dev.pack i.pack = y := by
  have hexec := exec_jump hissue (f := branch i b) (e := s.dev.setPack i.pack y) rfl rfl (by simp [himm]) (by simp only [h])
  refine ⟨_, hexec, coreFrame_counted _ _ _ rfl rfl fun q hq => ?_, ?_⟩
  · simp [hq]
  · simp

/-- A branch that would push on a full stack kills the context (R171, R341). -/
theorem exec_bra_of_none (hissue : issues s (.bra i b) i k x it) (himm : i.imm = none)
    (h : x.branch (x.pc + 1) (x.passing i.guard) b = none) (hopen : (s.dev.ctx k.ctx).st = .opened) :
    ∃ t, exec (.bra i b) s = .next t ∧ (t.dev.ctx k.ctx).st = .killed ∧ (t.dev.ctx k.ctx).fault.code = 0x0406#16 := by
  have hexec := exec_fail hissue (f := branch i b) (m := .fault .divergenceOverflow 0) (lane := 0) (more := 0) rfl rfl
    (by simp [himm]) (by simp only [h])
  refine ⟨_, hexec, ?_⟩
  have hkilled := takeFaults_killed s.plat ⟨.divergenceOverflow, 2, k.die, k.core, 0, k.seq % (s.dev.ring k.ctx).sqSize,
    (s.dev.pack i.pack).pc, i.pack % 16, 0, 0⟩ [] hopen
  constructor
  · exact congrArg Ctx.st hkilled
  · exact congrArg (fun c => c.fault.code) hkilled

/-- Settles O6: each row of the mask-stack table is a case of the branch, and the last one a context fault. -/
theorem branchRowsOfTheMaskStack : Obligations.BranchRowsOfTheMaskStack := by
  intro i b s k x it hissue himm tk fall top
  have hrows := branch_eq x (x.pc + 1) tk b
  refine ⟨fun y hy => exec_bra_of_some hissue himm (hrows.trans ?_), fun htk hfall hpush hfull hopen =>
    exec_bra_of_none hissue himm (hrows.trans ?_) hopen⟩
  · rcases hy with ⟨htk, rfl⟩ | ⟨htk, hfall, rfl⟩ | ⟨htk, hfall, htop, htarget, rfl⟩ |
      ⟨htk, hfall, htop, htarget, hnext, rfl⟩ | ⟨htk, hfall, hpush, hroom, rfl⟩
    · rw [if_pos htk]
    · rw [if_neg htk, if_pos hfall]
    · rw [if_neg htk, if_neg hfall, if_pos (by simp [htarget, show atTop x b = true from htop])]
    · rw [if_neg htk, if_neg hfall, if_neg (by simp [htarget]), if_pos (by simp [hnext, show atTop x b = true from htop])]
    · have hpush : ¬(atTop x b = true ∧ (b.target.toNat = b.recon.toNat ∨ x.pc + 1 = b.recon.toNat)) := hpush
      rw [if_neg htk, if_neg hfall, if_neg (by simp; tauto), if_neg (by simp; tauto), if_pos hroom]
  · have hpush : ¬(atTop x b = true ∧ (b.target.toNat = b.recon.toNat ∨ x.pc + 1 = b.recon.toNat)) := hpush
    rw [if_neg htk, if_neg hfall, if_neg (by simp; tauto), if_neg (by simp; tauto), if_neg (by omega)]

end Sys2Proof.Proofs.Branches
end

section
/-! O7: exits, barriers and their time-outs (R161, R164, R170 to R175, R187, R198, R341). -/

namespace Sys2Proof.Proofs.Barriers

open Sys2Proof.Machine Sys2Proof.Spec Sys2Proof.Proofs.PackIssue Sys2Proof.Proofs.ItemEnds

/-! ### A pack that has nothing to run -/

theorem idlePack_eq_collie (d : Device) (p : Nat) : d.idlePack p = { d with collie := (d.idlePack p).collie } := by
  unfold Device.idlePack
  split <;> rfl

@[simp] theorem idlePack_blocks (d : Device) (p : Nat) : (d.idlePack p).collie.blocks = d.collie.blocks := by
  unfold Device.idlePack
  split <;> rfl

theorem idlePack_pack_ne (d : Device) {p q : Nat} (h : q ≠ p) : (d.idlePack p).pack q = d.pack q := by
  unfold Device.idlePack
  split
  · exact (Device.pack_updPack _ p _ q).trans (if_neg h)
  · rfl

/-- A pack that is stuck leaves the active set; nothing else of it changes. -/
theorem idlePack_pack_self (d : Device) (p : Nat) :
    ∃ sl w st, (d.idlePack p).pack p = { d.pack p with slot := sl, wait := w, stamp := st } := by
  unfold Device.idlePack
  split
  · exact ⟨_, _, _, (Device.pack_updPack _ p _ p).trans (if_pos rfl)⟩
  · exact ⟨_, _, _, rfl⟩

/-! ### Blocks that leave their core (R161, R164, R198) -/

theorem foldl_updVe_eq_eng (f : VecEng → VecEng) (es : List (Nat × Nat)) (d : Device) :
    es.foldl (fun d e => d.updVe e.1 e.2 f) d = { d with eng := (es.foldl (fun d e => d.updVe e.1 e.2 f) d).eng } := by
  induction es generalizing d with
  | nil => rfl
  | cons e es ih =>
    rw [List.foldl_cons, ih]
    rfl

/-- The packs and blocks of a device without a block. -/
def withoutBlock (d : Device) (b : Nat) : Device := d.mapCollie fun c => { c with
  blocks := c.blocks.filter fun x => x.1 != b
  packs := (packsOf b).foldl (fun m p => FMap.set Pack.none m p Pack.none) c.packs }

theorem freeBlock_eq {d : Device} {b : Nat} {k : KBlock} (h : d.block b = some k) : d.freeBlock b =
    (k.held.map fun e => (k.die, e)).foldl (fun d e => d.updVe e.1 e.2 fun v => { v with holder := none }) (withoutBlock d b) := by
  unfold Device.freeBlock
  rw [h]
  rfl

theorem freeBlock_eq_eng {d : Device} {b : Nat} {k : KBlock} (h : d.block b = some k) :
    d.freeBlock b = { withoutBlock d b with eng := (d.freeBlock b).eng } := by
  rw [freeBlock_eq h]
  exact foldl_updVe_eq_eng _ _ _

theorem withoutBlock_block (d : Device) (b a : Nat) : (withoutBlock d b).block a = if a = b then none else d.block a := by
  unfold withoutBlock Device.block
  rw [Device.mapCollie_collie, List.find?_filter]
  split
  case isTrue h =>
    subst h
    simp
  case isFalse h =>
    congr 2
    funext y
    by_cases hy : y.1 = a
    · simp [hy, h]
    · simp [hy]

theorem get_foldl_none (m : FMap Pack) (ps : List Nat) (p : Nat) :
    FMap.get Pack.none (ps.foldl (fun m p => FMap.set Pack.none m p Pack.none) m) p =
      if p ∈ ps then Pack.none else FMap.get Pack.none m p := by
  induction ps generalizing m with
  | nil => rfl
  | cons q ps ih =>
    rw [List.foldl_cons, ih, FMap.get_set]
    by_cases hq : p = q <;> by_cases hp : p ∈ ps <;> simp [hq, hp]

theorem withoutBlock_pack (d : Device) (b p : Nat) :
    (withoutBlock d b).pack p = if p ∈ packsOf b then Pack.none else d.pack p := by
  unfold withoutBlock Device.pack
  rw [Device.mapCollie_collie, get_foldl_none]

/-- An engine that a device holds or that is free already is free once the held ones are. -/
theorem foldl_release_holder (es : List (Nat × Nat)) (d : Device) {die e : Nat}
    (h : (die, e) ∈ es ∨ (d.vecEng die e).holder = none) :
    ((es.foldl (fun d e => d.updVe e.1 e.2 fun v => { v with holder := none }) d).vecEng die e).holder = none := by
  induction es generalizing d with
  | nil => exact h.resolve_left (by simp)
  | cons x es ih =>
    rw [List.foldl_cons]
    refine ih _ ?_
    by_cases hx : 8 * die + e = 8 * x.1 + x.2
    · exact .inr (by rw [Device.vecEng_updVe, if_pos hx])
    · rw [Device.vecEng_updVe, if_neg hx]
      refine h.imp_left fun hmem => (List.mem_cons.mp hmem).resolve_left ?_
      rintro rfl
      exact hx rfl

theorem freeBlock_holder {d : Device} {b : Nat} {k : KBlock} (h : d.block b = some k) {e : Nat} (he : e ∈ k.held) :
    ((d.freeBlock b).vecEng k.die e).holder = none := by
  rw [freeBlock_eq h]
  exact foldl_release_holder _ _ (.inl (List.mem_map_of_mem he))

theorem kernelCheck_eq_hub (d : Device) (c q : Nat) : d.kernelCheck c q = { d with hub := (d.kernelCheck c q).hub } := by
  unfold Device.kernelCheck
  split
  · rfl
  · split <;> rfl

theorem kernelCheck_counter (d : Device) (c q b n : Nat) : (d.kernelCheck c q).counter b n = d.counter b n := by
  unfold Device.kernelCheck
  split
  · rfl
  · split <;> rfl

/-! ### What a retired pack leaves -/

theorem retire_of_live {d : Device} {p : Nat} {k : KBlock} (h : (d.pack p).live ≠ 0) : d.retire p k = d.idlePack p := if_pos h

theorem retire_of_not_last {d : Device} {p : Nat} {k : KBlock} (h : (d.pack p).live = 0)
    (hover : (d.setPack p Pack.none).blockOver (p / 16) k = false) : d.retire p k = d.setPack p Pack.none := by
  unfold Device.retire
  rw [if_neg (by simp [h])]
  simp [hover]

theorem retire_of_last {d : Device} {p : Nat} {k : KBlock} (h : (d.pack p).live = 0)
    (hover : (d.setPack p Pack.none).blockOver (p / 16) k = true) : d.retire p k =
      (((d.setPack p Pack.none).freeBlock (p / 16)).count k.ctx 79 1).kernelCheck k.ctx k.seq := by
  unfold Device.retire
  rw [if_neg (by simp [h])]
  simp [hover]

theorem blockOver_eq_true {d : Device} {b : Nat} {k : KBlock} :
    d.blockOver b k = true ↔ ∀ j, j < k.packs → (d.pack (16 * b + j)).live = 0 := by
  simp [Device.blockOver]

/-! ### NOP, BAR and EXIT (R170, R172, R173, R198) -/

section Flow

variable {s : State} {i : Issue} {k : KBlock} {x : Pack} {it : Item}

theorem exec_flowNop (hissue : issues s (.flowNop i) i k x it) (himm : i.imm = none) :
    ∃ t, exec (.flowNop i) s = .next t ∧ coreFrame k i.pack s t ∧ t.dev.pack i.pack = { x with pc := x.pc + 1 } := by
  have hexec := exec_go hissue (f := Device.runJkf i (fun _ => i.imm.isNone) fun _ _ d => .go d) rfl rfl (by simp [himm]) rfl
  refine ⟨_, hexec, coreFrame_counted _ _ _ rfl rfl fun q hq => ?_, ?_⟩
  · simp [hq]
  · simp [pack_of_issues hissue, wordsOf, himm]

theorem exec_bar_of_none_passes {id : BitVec 4} (hissue : issues s (.bar i id) i k x it) (himm : i.imm = none)
    (hls : x.passing i.guard = 0) : ∃ t, exec (.bar i id) s = .next t ∧ coreFrame k i.pack s t ∧
      t.dev.pack i.pack = { x with pc := x.pc + 1 } := by
  have hexec := exec_go hissue (f := bar i id.toNat) (e := s.dev) rfl rfl (by simp [himm]) (by simp [hls])
  refine ⟨_, hexec, coreFrame_counted _ _ _ rfl rfl fun q hq => ?_, ?_⟩
  · simp [hq]
  · simp [pack_of_issues hissue, wordsOf, himm]

theorem openBar_eq_bars (k : KBlock) (id : Nat) : k.openBar id = { k with bars := (k.openBar id).bars } := by
  unfold KBlock.openBar
  split <;> rfl

theorem openBar_any (k : KBlock) (id : Nat) : ((k.openBar id).bars.any fun b => b.id == id) = true := by
  unfold KBlock.openBar
  split
  · assumption
  · simp

theorem mem_openBar {k : KBlock} {id : Nat} {b : Barrier} (h : b ∈ k.bars) : b ∈ (k.openBar id).bars := by
  unfold KBlock.openBar
  split
  · exact h
  · exact List.mem_append_left _ h

/-- The device once the passing threads of a pack have parked at a barrier. -/
def parkedAt (d : Device) (i : Issue) (id : Nat) (x : Pack) : Device :=
  let ls := x.passing i.guard
  let y := { x with
    mask := x.mask &&& ~~~ls, parked := x.parked ++ (lanesOf ls).map fun l => (l, id, x.pc + 1), pc := x.pc + 1 }
  ((d.setPack i.pack y).updBlock (i.pack / 16) fun k => k.openBar id).idlePack i.pack

theorem exec_bar_of_some_pass {id : BitVec 4} (hissue : issues s (.bar i id) i k x it) (himm : i.imm = none)
    (hls : x.passing i.guard ≠ 0) : exec (.bar i id) s =
      .next { s with dev := counted (parkedAt s.dev i id.toNat x) s.plat.pow.time k x.slot } :=
  exec_jump hissue (f := bar i id.toNat) rfl rfl (by simp [himm]) (by simp only [hls, if_false]; rfl)

theorem parkedAt_eq_collie (d : Device) (i : Issue) (id : Nat) (x : Pack) :
    parkedAt d i id x = { d with collie := (parkedAt d i id x).collie } := idlePack_eq_collie _ _

theorem parkedAt_block {d : Device} (h : d.block (i.pack / 16) = some k) (id : Nat) (x : Pack) :
    (parkedAt d i id x).block (i.pack / 16) = some (k.openBar id) := by
  have hidle : ∀ (d : Device) b, (d.idlePack i.pack).block b = d.block b := by
    intro d b
    unfold Device.block
    rw [idlePack_blocks]
  unfold parkedAt
  rw [hidle, block_updBlock, if_pos rfl, block_setPack, h]
  rfl

theorem parkedAt_pack (d : Device) (i : Issue) (id : Nat) (x : Pack) : ∃ sl w st, (parkedAt d i id x).pack i.pack =
    { x with
      mask := x.mask &&& ~~~x.passing i.guard
      parked := x.parked ++ (lanesOf (x.passing i.guard)).map fun l => (l, id, x.pc + 1), pc := x.pc + 1
      slot := sl, wait := w, stamp := st } := by
  obtain ⟨sl, w, st, h⟩ := idlePack_pack_self ((d.setPack i.pack { x with
      mask := x.mask &&& ~~~x.passing i.guard
      parked := x.parked ++ (lanesOf (x.passing i.guard)).map fun l => (l, id, x.pc + 1), pc := x.pc + 1 }).updBlock
        (i.pack / 16) fun k => k.openBar id) i.pack
  refine ⟨sl, w, st, h.trans ?_⟩
  rw [pack_updBlock, Device.pack_setPack, if_pos rfl]

/-- The device on which an EXIT goes on to retire its pack. -/
def exited (d : Device) (i : Issue) (x : Pack) : Device :=
  d.setPack i.pack { x.exitLanes (x.passing i.guard) with pc := x.pc + 1 }

theorem exec_exitThreads (hissue : issues s (.exitThreads i) i k x it) (himm : i.imm = none) :
    exec (.exitThreads i) s =
      .next { s with dev := counted ((exited s.dev i x).retire i.pack k) s.plat.pow.time k x.slot } :=
  exec_jump hissue (f := exitThreads i) rfl rfl (by simp [himm]) rfl

theorem exited_pack (d : Device) (i : Issue) (x : Pack) :
    (exited d i x).pack i.pack = { x.exitLanes (x.passing i.guard) with pc := x.pc + 1 } := by
  rw [exited, Device.pack_setPack, if_pos rfl]

theorem exit_of_live (hissue : issues s (.exitThreads i) i k x it) (himm : i.imm = none)
    (hlive : x.live &&& ~~~x.passing i.guard ≠ 0) : ∃ t, exec (.exitThreads i) s = .next t ∧ coreFrame k i.pack s t ∧
      ∃ sl w st, t.dev.pack i.pack =
        { x.exitLanes (x.passing i.guard) with pc := x.pc + 1, slot := sl, wait := w, stamp := st } := by
  have hexec := exec_exitThreads hissue himm
  rw [retire_of_live (by rw [exited_pack]; exact hlive)] at hexec
  refine ⟨_, hexec, coreFrame_counted _ _ _ (idlePack_eq_collie _ _) (idlePack_blocks _ _) fun q hq => ?_, ?_⟩
  · rw [idlePack_pack_ne _ hq, exited, Device.pack_setPack, if_neg hq]
  · obtain ⟨sl, w, st, hidle⟩ := idlePack_pack_self (exited s.dev i x) i.pack
    refine ⟨sl, w, st, (counted_pack _ _ _ _ _).trans (hidle.trans ?_)⟩
    rw [exited_pack]

theorem setPack_setPack_pack (d : Device) (p : Nat) (x y : Pack) (q : Nat) :
    ((d.setPack p x).setPack p y).pack q = if q = p then y else d.pack q := by
  rw [Device.pack_setPack, Device.pack_setPack]
  split <;> rfl

theorem exit_of_other_live (hissue : issues s (.exitThreads i) i k x it) (himm : i.imm = none)
    (hlive : x.live &&& ~~~x.passing i.guard = 0)
    (hother : ∃ j, j < k.packs ∧ j ≠ i.pack % 16 ∧ (s.dev.pack (16 * (i.pack / 16) + j)).live ≠ 0) :
    ∃ t, exec (.exitThreads i) s = .next t ∧ coreFrame k i.pack s t ∧ t.dev.pack i.pack = Pack.none := by
  have hover : ((exited s.dev i x).setPack i.pack Pack.none).blockOver (i.pack / 16) k = false := by
    refine Bool.eq_false_iff.mpr fun h => ?_
    obtain ⟨j, hj, hne, hjlive⟩ := hother
    refine hjlive ?_
    have hover := blockOver_eq_true.mp h j hj
    rwa [exited, setPack_setPack_pack, if_neg (by omega)] at hover
  have hexec := exec_exitThreads hissue himm
  rw [retire_of_not_last (by rw [exited_pack]; exact hlive) hover] at hexec
  refine ⟨_, hexec, coreFrame_counted _ _ _ rfl rfl fun q hq => ?_, ?_⟩
  · rw [exited, setPack_setPack_pack, if_neg hq]
  · simp

theorem mem_packsOf {b j : Nat} (hj : j < 16) : 16 * b + j ∈ packsOf b :=
  List.mem_map.mpr ⟨j, List.mem_range.mpr hj, rfl⟩

theorem exit_of_last (hissue : issues s (.exitThreads i) i k x it) (himm : i.imm = none)
    (hlive : x.live &&& ~~~x.passing i.guard = 0)
    (hothers : ∀ j, j < k.packs → j ≠ i.pack % 16 → (s.dev.pack (16 * (i.pack / 16) + j)).live = 0) :
    ∃ t, exec (.exitThreads i) s = .next t ∧ t.plat = s.plat ∧ t.dev.mem = s.dev.mem ∧
      t.dev.block (i.pack / 16) = none ∧ (∀ q, q ≠ i.pack / 16 → t.dev.block q = s.dev.block q) ∧
      (∀ j, j < 16 → t.dev.pack (16 * (i.pack / 16) + j) = Pack.none) ∧
      (∀ e ∈ k.held, (t.dev.vecEng k.die e).holder = none) ∧
      (t.dev.counter k.ctx 79).toNat = min ((s.dev.counter k.ctx 79).toNat + 1) (2 ^ 64 - 1) := by
  have hover : ((exited s.dev i x).setPack i.pack Pack.none).blockOver (i.pack / 16) k = true := by
    refine blockOver_eq_true.mpr fun j hj => ?_
    rw [exited, setPack_setPack_pack]
    split
    · rfl
    · exact hothers j hj fun h => by omega
  have hexec := exec_exitThreads hissue himm
  rw [retire_of_last (by rw [exited_pack]; exact hlive) hover] at hexec
  have hblock : ((exited s.dev i x).setPack i.pack Pack.none).block (i.pack / 16) = some k := block_of_issues hissue
  generalize hd : (exited s.dev i x).setPack i.pack Pack.none = d at hexec hblock
  have hparts : ((d.freeBlock (i.pack / 16)).count k.ctx 79 1).kernelCheck k.ctx k.seq = { withoutBlock d (i.pack / 16) with
      hub := (((d.freeBlock (i.pack / 16)).count k.ctx 79 1).kernelCheck k.ctx k.seq).hub
      eng := (d.freeBlock (i.pack / 16)).eng } := by
    rw [kernelCheck_eq_hub, count_eq_hub, freeBlock_eq_eng hblock]
  have hcounter : ∀ n, (d.freeBlock (i.pack / 16)).counter k.ctx n = s.dev.counter k.ctx n := by
    intro n
    rw [freeBlock_eq_eng hblock, ← hd]
    rfl
  refine ⟨_, hexec, rfl, ?_, ?_, fun q hq => ?_, fun j hj => ?_, fun e he => ?_, ?_⟩
  · rw [counted_mem, hparts, ← hd]
    rfl
  · rw [counted_block, hparts]
    exact (withoutBlock_block d _ _).trans (if_pos rfl)
  · rw [counted_block, hparts]
    refine (withoutBlock_block d _ _).trans ((if_neg hq).trans ?_)
    rw [← hd]
    rfl
  · rw [counted_pack, hparts]
    exact (withoutBlock_pack d _ _).trans (if_pos (mem_packsOf hj))
  · rw [counted_vecEng, hparts]
    exact freeBlock_holder hblock he
  · rw [counted_counter _ _ _ _ (by omega) (by omega), if_neg (by omega), kernelCheck_counter, Device.counter_count,
      if_pos rfl, satAdd64_toNat, hcounter]

end Flow

/-! ### The next path of a pack (R170, R173) -/

/-- What a change of path leaves of a pack. -/
def samePack (x y : Pack) : Prop :=
  y.live = x.live ∧ y.regs = x.regs ∧ y.wait = x.wait ∧ ∀ e ∈ y.parked, e ∈ x.parked

theorem samePack_resume (x : Pack) (es : List (Nat × Nat × Nat)) : samePack x (x.resume es) := by
  unfold Pack.resume
  split
  · exact ⟨rfl, rfl, rfl, fun _ h => h⟩
  · exact ⟨rfl, rfl, rfl, fun _ h => (List.mem_filter.mp h).1⟩

theorem samePack_nextPath {x y : Pack} (h : x.nextPath = some y) : samePack x y := by
  unfold Pack.nextPath at h
  split at h
  · split at h
    · obtain rfl := Option.some.inj h
      exact samePack_resume x _
    · cases h
  · split at h
    · cases h
    · split at h
      · obtain rfl := Option.some.inj h
        exact ⟨rfl, rfl, rfl, fun _ h => h⟩
      · split at h
        · obtain rfl := Option.some.inj h
          exact samePack_resume x _
        · split at h
          · cases h
          · obtain rfl := Option.some.inj h
            exact ⟨rfl, rfl, rfl, fun _ h => h⟩

/-- The lowest of some pcs is one of them. -/
theorem foldl_min_mem (es : List (Nat × Nat × Nat)) (a : Nat) :
    es.foldl (fun a x => min a x.2.2) a = a ∨ ∃ e ∈ es, e.2.2 = es.foldl (fun a x => min a x.2.2) a := by
  induction es generalizing a with
  | nil => exact .inl rfl
  | cons e es ih =>
    rw [List.foldl_cons]
    rcases ih (min a e.2.2) with h | ⟨x, hx, h⟩
    · rw [h]
      rcases min_choice a e.2.2 with h | h
      · exact .inl h
      · exact .inr ⟨e, by simp, h.symm⟩
    · exact .inr ⟨x, by simp [hx], h⟩

/-- Where a released thread lies in a mask, some of them go on. -/
theorem freed_ne_nil {x : Pack} {m : Word} {e : Nat × Nat × Nat} (he : e ∈ x.parked) (hid : e.2.1 = released)
    (hm : m.getLsbD e.1 = true) : x.freed m ≠ [] := by
  have hmem : e ∈ x.parked.filter fun e => e.2.1 == released && m.getLsbD e.1 := by
    simp [he, hid, hm]
  unfold Pack.freed
  dsimp only
  split
  case h_1 hnil =>
    rw [hnil] at hmem
    cases hmem
  case h_2 f fs hcons =>
    rw [hcons]
    rcases foldl_min_mem fs f.2.2 with h | ⟨g, hg, h⟩
    · exact List.ne_nil_of_mem (a := f) (List.mem_filter.mpr ⟨by simp, by simp [h]⟩)
    · exact List.ne_nil_of_mem (a := g) (List.mem_filter.mpr ⟨by simp [hg], by simp [h]⟩)

theorem exists_lane {m : Word} (h : m ≠ 0) : ∃ l, m.getLsbD l = true := by
  by_contra hnone
  refine h (BitVec.eq_of_getLsbD_eq fun l _ => ?_)
  simpa using (not_exists.mp hnone) l

/-- A pack whose live threads have all been released has a path to go on with. -/
theorem nextPath_isSome {y : Pack} (hpath : y.mask = 0 ∨ y.atRecon = true) (hlive : y.live ≠ 0)
    (hfree : ∀ l, y.live.getLsbD l = true → ∃ pc, (l, released, pc) ∈ y.parked) : y.nextPath.isSome = true := by
  unfold Pack.nextPath
  cases hstack : y.stack with
  | nil =>
    obtain ⟨l, hl⟩ := exists_lane hlive
    obtain ⟨pc, hpc⟩ := hfree l hl
    have hmask : y.mask = 0 := hpath.resolve_right (by simp [Pack.atRecon, hstack])
    simp only
    rw [if_pos ⟨hmask, freed_ne_nil hpc rfl hl⟩]
    rfl
  | cons f fs =>
    have hdue : y.mask = 0 ∨ f.recon = y.pc := hpath.imp_right fun h => by simpa [Pack.atRecon, hstack] using h
    simp only
    rw [if_neg (not_not.mpr hdue)]
    split
    · rfl
    · split
      · rfl
      case isFalse hfreed =>
        rw [if_neg]
        · rfl
        intro hparked
        obtain ⟨e, -, he⟩ := List.any_eq_true.mp hparked
        obtain ⟨pc, hpc⟩ := hfree e.1 (by simp only [BitVec.getLsbD_and, Bool.and_eq_true] at he; exact he.2)
        exact hfreed (freed_ne_nil hpc rfl he)

/-! ### BARRIER_INSTANCE_COMPLETE (R172, R173) -/

/-- A pack with its threads at a barrier released, before they go on. -/
def freedFrom (x : Pack) (id : Nat) : Pack :=
  { x with parked := x.parked.map fun e => if e.2.1 == id then (e.1, released, e.2.2) else e }

theorem freedFrom_parked {x : Pack} {id : Nat} (hid : id < 16) : ∀ e ∈ (freedFrom x id).parked, e.2.1 ≠ id := by
  intro e he
  obtain ⟨z, -, rfl⟩ := List.mem_map.mp he
  split
  · exact fun h : released = id => by unfold released at h; omega
  case isFalse h => simpa using h

/-- Once every live thread of a pack is released, the pack is not stuck. -/
theorem freedFrom_stuck {x : Pack} {id : Nat} (hlive : x.live ≠ 0)
    (harrived : ∀ l, x.live.getLsbD l = true → ∃ pc, (l, id, pc) ∈ x.parked) : (freedFrom x id).stuck = false := by
  refine Bool.eq_false_iff.mpr fun h => ?_
  unfold Pack.stuck at h
  simp only [Bool.and_eq_true, Bool.or_eq_true, beq_iff_eq] at h
  obtain ⟨⟨-, hpath⟩, hnone⟩ := h
  have hsome := nextPath_isSome (y := freedFrom x id) hpath hlive fun l hl => by
    obtain ⟨pc, hpc⟩ := harrived l hl
    exact ⟨pc, List.mem_map.mpr ⟨_, hpc, by simp⟩⟩
  rw [Option.isNone_iff_eq_none.mp hnone] at hsome
  cases hsome

theorem release_eq {x : Pack} {id : Nat} (h : (freedFrom x id).stuck = false) :
    ∃ z, (z.wait ≠ some .barrier ∧ z.live = x.live ∧ z.regs = x.regs ∧ ∀ e ∈ z.parked, e ∈ (freedFrom x id).parked) ∧
      (x.release id = z ∨ z.nextPath = some (x.release id)) := by
  refine ⟨if (freedFrom x id).wait = some .barrier then { freedFrom x id with wait := none } else freedFrom x id, ?_, ?_⟩
  · split
    · exact ⟨by simp, rfl, rfl, fun _ h => h⟩
    case isFalse hwait => exact ⟨hwait, rfl, rfl, fun _ h => h⟩
  · generalize hz : (if (freedFrom x id).wait = some .barrier then { freedFrom x id with wait := none } else freedFrom x id) = z
    have hrelease : x.release id = if z.mask = 0 ∨ z.atRecon ∧ x.wait = some .barrier then z.nextPath.getD z else z := by
      unfold Pack.release
      rw [← hz]
      exact if_neg (by simpa [freedFrom] using h)
    rw [hrelease]
    split
    · cases z.nextPath <;> simp
    · exact .inl rfl

/-- A pack of which every live thread waits at a barrier holds none there once released, and waits for no barrier. -/
theorem release_spec {x : Pack} {id : Nat} (hid : id < 16) (hlive : x.live ≠ 0)
    (harrived : ∀ l, x.live.getLsbD l = true → ∃ pc, (l, id, pc) ∈ x.parked) :
    (∀ e ∈ (x.release id).parked, e.2.1 ≠ id) ∧ (x.release id).wait ≠ some .barrier ∧ (x.release id).live = x.live ∧
      (x.release id).regs = x.regs := by
  obtain ⟨z, ⟨hwait, hzlive, hregs, hparked⟩, hz⟩ := release_eq (freedFrom_stuck hlive harrived)
  have hsame : samePack z (x.release id) := by
    rcases hz with hz | hz
    · rw [hz]
      exact ⟨rfl, rfl, rfl, fun _ h => h⟩
    · exact samePack_nextPath hz
  obtain ⟨slive, sregs, swait, sparked⟩ := hsame
  exact ⟨fun e he => freedFrom_parked hid e (hparked e (sparked e he)), swait ▸ hwait, slive.trans hzlive, sregs.trans hregs⟩

/-- The packs of a block, each live one released from a barrier. -/
def releaseAll (b id n : Nat) (d : Device) : Device :=
  ((List.range n).map fun i => 16 * b + i).foldl
    (fun d p => if (d.pack p).live = 0 then d else d.updPack p fun x => x.release id) d

theorem releaseAll_succ (b id n : Nat) (d : Device) : releaseAll b id (n + 1) d =
    if ((releaseAll b id n d).pack (16 * b + n)).live = 0 then releaseAll b id n d
    else (releaseAll b id n d).updPack (16 * b + n) fun x => x.release id := by
  unfold releaseAll
  rw [List.range_succ, List.map_append, List.foldl_append]
  rfl

theorem releaseAll_eq_packs (b id n : Nat) (d : Device) : releaseAll b id n d =
    { d with collie := { d.collie with packs := (releaseAll b id n d).collie.packs } } := by
  induction n with
  | zero => rfl
  | succ n ih =>
    rw [releaseAll_succ]
    split
    · exact ih
    · rw [ih]
      rfl

theorem releaseAll_pack_ge (b id : Nat) (d : Device) {n j : Nat} (h : n ≤ j) :
    (releaseAll b id n d).pack (16 * b + j) = d.pack (16 * b + j) := by
  induction n with
  | zero => rfl
  | succ n ih =>
    rw [releaseAll_succ]
    split
    · exact ih (by omega)
    · rw [Device.pack_updPack, if_neg (by omega), ih (by omega)]

theorem releaseAll_pack (b id : Nat) (d : Device) {n j : Nat} (h : j < n) (hlive : (d.pack (16 * b + j)).live ≠ 0) :
    (releaseAll b id n d).pack (16 * b + j) = (d.pack (16 * b + j)).release id := by
  induction n with
  | zero => omega
  | succ n ih =>
    rw [releaseAll_succ]
    by_cases hj : j = n
    · subst hj
      rw [releaseAll_pack_ge b id d (le_refl j), if_neg hlive, Device.pack_updPack, if_pos rfl,
        releaseAll_pack_ge b id d (le_refl j)]
    · split
      · exact ih (by omega)
      · rw [Device.pack_updPack, if_neg (by omega), ih (by omega)]

theorem releaseAll_block (b id n : Nat) (d : Device) (a : Nat) : (releaseAll b id n d).block a = d.block a := by
  rw [releaseAll_eq_packs]
  rfl

/-- A block without its instance of a barrier. -/
def closeBar (id : Nat) (k : KBlock) : KBlock := { k with bars := k.bars.filter fun x => x.id != id }

/-- A barrier at which every live thread of the block waits. -/
theorem barrierComplete_eq {d : Device} {b id : Nat} {k : KBlock} (hblock : d.block b = some k)
    (hopen : (k.bars.any fun x => x.id == id) = true)
    (harrived : ∀ j, j < k.packs → ∀ l, l < 32 → (d.pack (16 * b + j)).live.getLsbD l = true →
      ∃ pc, (l, id, pc) ∈ (d.pack (16 * b + j)).parked) :
    barrierComplete b id d = (releaseAll b id k.packs (d.updBlock b (closeBar id))).count k.ctx 81 1 := by
  have hall : (((List.range k.packs).map fun i => 16 * b + i).all fun p => (d.pack p).arrivedAt id) = true := by
    simp only [List.all_eq_true, List.mem_map, List.mem_range]
    rintro p ⟨j, hj, rfl⟩
    unfold Pack.arrivedAt lanesOf
    simp only [List.all_eq_true, List.mem_filter, List.mem_range]
    rintro l ⟨hl, hlane⟩
    obtain ⟨pc, hpc⟩ := harrived j hj l hl hlane
    exact List.any_eq_true.mpr ⟨_, hpc, by simp⟩
  unfold barrierComplete
  simp only [hblock]
  rw [if_pos (by rw [hopen, hall]; rfl)]
  rfl

theorem exec_barrierInstanceComplete {s : State} {b id : Nat} {k : KBlock} (hblock : s.dev.block b = some k)
    (hopen : (k.bars.any fun x => x.id == id) = true) (hid : id < 16)
    (harrived : ∀ j, j < k.packs → ∀ l, l < 32 → (s.dev.pack (16 * b + j)).live.getLsbD l = true →
      ∃ pc, (l, id, pc) ∈ (s.dev.pack (16 * b + j)).parked) :
    ∃ t k1, exec (.barrierInstanceComplete b id) s = .next t ∧ t.plat = s.plat ∧ t.dev.mem = s.dev.mem ∧
      t.dev.eng = s.dev.eng ∧ t.dev.block b = some k1 ∧ k1 = { k with bars := k1.bars } ∧
      (k1.bars.any fun x => x.id == id) = false ∧ (∀ x ∈ k.bars, x.id ≠ id → x ∈ k1.bars) ∧
      (∀ j, j < k.packs → (s.dev.pack (16 * b + j)).live ≠ 0 →
        (∀ e ∈ (t.dev.pack (16 * b + j)).parked, e.2.1 ≠ id) ∧ (t.dev.pack (16 * b + j)).wait ≠ some .barrier ∧
        (t.dev.pack (16 * b + j)).live = (s.dev.pack (16 * b + j)).live ∧
        (t.dev.pack (16 * b + j)).regs = (s.dev.pack (16 * b + j)).regs) ∧
      (t.dev.counter k.ctx 81).toNat = min ((s.dev.counter k.ctx 81).toNat + 1) (2 ^ 64 - 1) := by
  have hexec : exec (.barrierInstanceComplete b id) s = .next { s with dev := barrierComplete b id s.dev } := rfl
  rw [barrierComplete_eq hblock hopen harrived] at hexec
  have hparts := releaseAll_eq_packs b id k.packs (s.dev.updBlock b (closeBar id))
  refine ⟨_, closeBar id k, hexec, rfl, ?_, ?_, ?_, rfl, ?_, fun x hx hne => ?_,
    fun j hj hlive => ?_, ?_⟩
  · rw [Device.count_mem, hparts]
    rfl
  · rw [Device.count_eng, hparts]
    rfl
  · change Option.map Prod.snd (List.find? _ (Device.count _ _ _ _).collie.blocks) = _
    rw [Device.count_collie]
    refine (releaseAll_block b id k.packs _ b).trans ?_
    rw [block_updBlock, if_pos rfl, hblock]
    rfl
  · simp [closeBar]
  · exact List.mem_filter.mpr ⟨hx, by simpa using hne⟩
  · rw [Device.count_pack, releaseAll_pack b id (s.dev.updBlock b (closeBar id)) hj hlive]
    exact release_spec hid hlive fun l hl => harrived j hj l (BitVec.lt_of_getLsbD hl) hl
  · rw [Device.counter_count, if_pos rfl, satAdd64_toNat, hparts]
    rfl

/-! ### BARRIER_TIMEOUT (R175, R341) -/

theorem exec_barrierTimeout {s : State} {b id : Nat} {k : KBlock} {x : Barrier} {i l : Nat} (hblock : s.dev.block b = some k)
    (hbar : k.bars.find? (fun x => x.id == id) = some x) (hcycles : 2 ^ 22 ≤ x.cycles)
    (hmissing : s.dev.missing b id k = some (i, l)) (hopen : (s.dev.ctx k.ctx).st = .opened) :
    ∃ t, exec (.barrierTimeout b id) s = .next t ∧ (t.dev.ctx k.ctx).st = .killed ∧
      (t.dev.ctx k.ctx).fault.code = 0x0405#16 ∧ (t.dev.ctx k.ctx).fault.source = 2#8 ∧
      (t.dev.ctx k.ctx).fault.die = BitVec.ofNat 8 k.die ∧ (t.dev.ctx k.ctx).fault.unit = BitVec.ofNat 8 k.core := by
  have hfault : barrierTimeout b id s.plat s.dev = s.dev.takeFaults s.plat k.ctx [⟨.barrierTimeout, 2, k.die, k.core, l,
      k.seq % (s.dev.ring k.ctx).sqSize, noPc, i, id + i * 2 ^ 8 + l * 2 ^ 16, 0⟩] := by
    unfold barrierTimeout
    simp only [hblock, hbar, hmissing]
    exact if_neg (by unfold Config.barrierLimit; omega)
  refine ⟨{ s with dev := barrierTimeout b id s.plat s.dev }, rfl, ?_⟩
  rw [hfault, takeFaults_killed s.plat _ [] hopen]
  exact ⟨rfl, rfl, rfl, rfl, rfl⟩

/-- Settles O7: threads park, exit and are released pack by pack; a time-out is a context fault. -/
theorem threadsExitAndMeetAtBarriers : Obligations.ThreadsExitAndMeetAtBarriers := by
  refine ⟨fun i s k x it hissuer himm => ⟨fun hcode => exec_flowNop ⟨hissuer, hcode⟩ himm,
    fun id hls hcode => exec_bar_of_none_passes ⟨hissuer, hcode⟩ himm hls, fun id hls hcode => ?_, fun hcode hlive => ?_,
    fun hcode => exit_of_other_live ⟨hissuer, hcode⟩ himm, fun hcode => exit_of_last ⟨hissuer, hcode⟩ himm⟩,
    fun s b id k hblock hopen hid _ => exec_barrierInstanceComplete hblock hopen hid,
    fun s b id k x i l => exec_barrierTimeout⟩
  · have hissue : issues s (.bar i id) i k x it := ⟨hissuer, hcode⟩
    obtain ⟨sl, w, st, hpack⟩ := parkedAt_pack s.dev i id.toNat x
    refine ⟨_, k.openBar id.toNat, exec_bar_of_some_pass hissue himm hls, outerFrame_counted _ _ _ (parkedAt_eq_collie _ _ _ _),
      ?_, ?_, ?_, ?_, ?_, ?_, ?_, ?_, openBar_eq_bars _ _, openBar_any _ _, fun b hb => mem_openBar hb⟩
    iterate 7 (rw [counted_pack, hpack])
    rw [counted_block]
    exact parkedAt_block (block_of_issues hissue) _ _
  · obtain ⟨t, hexec, hframe, sl, w, st, hpack⟩ := exit_of_live ⟨hissuer, hcode⟩ himm hlive
    refine ⟨t, hexec, hframe, ?_, ?_, ?_, ?_⟩
    iterate 4 (rw [hpack]; rfl)

end Sys2Proof.Proofs.Barriers
end

section
/-! O8: changes of path, moves to the active set and the placement of blocks (R163, R164, R166, R170, R191). -/

namespace Sys2Proof.Proofs.Placement

open Sys2Proof.Machine Sys2Proof.Spec Sys2Proof.Proofs.PackIssue Sys2Proof.Proofs.QuietMemory Sys2Proof.Proofs.ItemEnds
  Sys2Proof.Proofs.Barriers

/-! ### PATH_RECONVERGE (R170) -/

section Paths

variable {d : Device} {p : Nat} {x y : Pack} {f : Frame} {fs : List Frame}

theorem freed_nil (h : x.parked = []) (m : Word) : x.freed m = [] := by
  unfold Pack.freed
  rw [h]
  rfl

theorem nextPath_of_pending (hstack : x.stack = f :: fs) (hpc : x.pc = f.recon) (hpend : f.pend &&& x.live ≠ 0) :
    x.nextPath = some (otherPath x f fs) := by
  unfold Pack.nextPath
  simp only [hstack]
  rw [if_neg (by simp [hpc]), if_pos hpend]
  rfl

/-- A pack on the path an entry restores. -/
def popped (x : Pack) (f : Frame) (fs : List Frame) : Pack := { x with pc := f.recon, mask := f.mask &&& x.live, stack := fs }

theorem nextPath_of_pop (hstack : x.stack = f :: fs) (hpc : x.pc = f.recon) (hpend : f.pend &&& x.live = 0)
    (hparked : x.parked = []) : x.nextPath = some (popped x f fs) := by
  unfold Pack.nextPath
  simp only [hstack]
  rw [if_neg (by simp [hpc]), if_neg (by simp [hpend]), if_neg (by simp [freed_nil hparked]), if_neg (by simp [hparked])]
  rfl

/-- A pack that runs threads and has none at a barrier is never stuck: its top entry can be left. -/
theorem stuck_eq_false (hmask : y.mask ≠ 0) (hparked : y.parked = []) : y.stuck = false := by
  unfold Pack.stuck Pack.atRecon
  rw [beq_eq_false_iff_ne.mpr hmask]
  cases hstack : y.stack with
  | nil => simp
  | cons g gs =>
    by_cases hpc : g.recon = y.pc
    · by_cases hpend : g.pend &&& y.live = 0
      · simp [nextPath_of_pop hstack hpc.symm hpend hparked]
      · simp [nextPath_of_pending hstack hpc.symm hpend]
    · simp [hpc]

theorem pathReconverge_eq (hblock : (d.block (p / 16)).isSome = true) (hlive : (d.pack p).live ≠ 0)
    (hnext : (d.pack p).nextPath = some y) : pathReconverge p d = (d.setPack p y).idlePack p := by
  unfold pathReconverge
  simp only [hnext]
  rw [beq_eq_false_iff_ne.mpr hlive, if_neg (by simp [Option.isSome_iff_ne_none.mp hblock])]

theorem idlePack_setPack_of_not_stuck (h : y.stuck = false) : (d.setPack p y).idlePack p = d.setPack p y := by
  unfold Device.idlePack
  rw [Device.pack_setPack, if_pos rfl, h]
  rfl

theorem setPack_idlePack_self (d : Device) (p : Nat) (y : Pack) :
    ∃ sl w st, ((d.setPack p y).idlePack p).pack p = { y with slot := sl, wait := w, stamp := st } := by
  obtain ⟨sl, w, st, h⟩ := idlePack_pack_self (d.setPack p y) p
  rw [Device.pack_setPack, if_pos rfl] at h
  exact ⟨sl, w, st, h⟩

theorem setPack_idlePack_ne (d : Device) {p q : Nat} (y : Pack) (h : q ≠ p) :
    ((d.setPack p y).idlePack p).pack q = d.pack q := by
  rw [idlePack_pack_ne _ h, Device.pack_setPack, if_neg h]

variable {s : State} (hblock : (s.dev.block (p / 16)).isSome = true) (hpack : s.dev.pack p = x) (hlive : x.live ≠ 0)
  (hstack : x.stack = f :: fs) (hpc : x.pc = f.recon)
include hblock hpack hlive hstack hpc

theorem exec_pathReconverge_of_pending (hpend : f.pend &&& x.live ≠ 0) : ∃ t, exec (.pathReconverge p) s = .next t ∧
    (x.parked = [] → t = { s with dev := s.dev.setPack p (otherPath x f fs) }) ∧
    (∃ sl w st, t.dev.pack p = { otherPath x f fs with slot := sl, wait := w, stamp := st }) ∧
    t.plat = s.plat ∧ t.dev.hub = s.dev.hub ∧ t.dev.mem = s.dev.mem ∧ t.dev.eng = s.dev.eng ∧
    ∀ q, q ≠ p → t.dev.pack q = s.dev.pack q := by
  subst hpack
  have hexec : exec (.pathReconverge p) s = .next { s with dev := pathReconverge p s.dev } := rfl
  rw [pathReconverge_eq hblock hlive (nextPath_of_pending hstack hpc hpend)] at hexec
  have hparts := idlePack_eq_collie (s.dev.setPack p (otherPath (s.dev.pack p) f fs)) p
  refine ⟨_, hexec, fun hparked => ?_, setPack_idlePack_self _ _ _, rfl, ?_, ?_, ?_, fun q hq => setPack_idlePack_ne _ _ hq⟩
  · have hrun : (otherPath (s.dev.pack p) f fs).stuck = false := stuck_eq_false hpend hparked
    rw [idlePack_setPack_of_not_stuck hrun]
  all_goals
    rw [hparts]
    rfl

theorem exec_pathReconverge_of_pop (hpend : f.pend &&& x.live = 0) (hparked : x.parked = []) :
    ∃ t, exec (.pathReconverge p) s = .next t ∧
      (f.mask &&& x.live ≠ 0 →
        t = { s with dev := s.dev.setPack p { x with pc := f.recon, mask := f.mask &&& x.live, stack := fs } }) ∧
      (t.dev.pack p).mask = f.mask &&& x.live ∧ (t.dev.pack p).stack = fs ∧ (t.dev.pack p).pc = f.recon ∧
      (t.dev.pack p).live = x.live ∧ (t.dev.pack p).regs = x.regs ∧ ∀ q, q ≠ p → t.dev.pack q = s.dev.pack q := by
  subst hpack
  have hexec : exec (.pathReconverge p) s = .next { s with dev := pathReconverge p s.dev } := rfl
  rw [pathReconverge_eq hblock hlive (nextPath_of_pop hstack hpc hpend hparked)] at hexec
  obtain ⟨sl, w, st, hpack⟩ := setPack_idlePack_self s.dev p (popped (s.dev.pack p) f fs)
  refine ⟨_, hexec, fun hmask => ?_, ?_, ?_, ?_, ?_, ?_, fun q hq => setPack_idlePack_ne _ _ hq⟩
  · have hrun : (popped (s.dev.pack p) f fs).stuck = false := stuck_eq_false hmask hparked
    rw [idlePack_setPack_of_not_stuck hrun]
    rfl
  all_goals
    rw [hpack]
    rfl

end Paths

/-! ### PACK_MOVE (R166) -/

/-- A report without cycles charges nothing. -/
theorem chargeCore_zero (d : Device) (die core : Nat) : d.chargeCore die core Report.zero = d := by
  unfold Device.chargeCore
  dsimp only
  split
  · rfl
  · unfold Device.charge
    simp [Report.zero, Device.count, Device.countUnit]

theorem exec_packMove {s : State} {die core e p : Nat} {k : KBlock} (hslot : s.dev.freeSlot die core = some e)
    (hready : s.dev.readyPack die core = some p) (hblock : s.dev.block (p / 16) = some k) :
    exec (.packMove die core Report.zero) s = .next { s with
      dev := (s.dev.updPack p fun x => { x with slot := some e, wait := none }).count k.ctx 80 1 } := by
  change Host.Outcome.next { s with dev := packMove die core Report.zero s.dev } = _
  unfold packMove
  simp only [chargeCore_zero, hslot, hready, hblock]

/-! ### BLOCK_PLACE (R163, R164, R191, R217) -/

/-- The device on which a block is placed: the core's data cache has been invalidated before an item's first block there. -/
def cleared (d : Device) (it : Item) (die core : Nat) : Device :=
  if !(d.collie.blocks.any fun b => b.2.ctx == it.ctx && b.2.seq == it.seq && b.2.die == die && b.2.core == core) then
    Device.loseWrites (d.acquireCore it.ctx die core)
  else d

theorem cleared_shrinks (d : Device) (it : Item) (die core : Nat) : Shrinks d (cleared d it die core) :=
  Shrinks.ite (Shrinks.loseWrites ((Shrinks.refl d).quiet ((Quiet.refl d).acquireCore it.ctx die core))) (Shrinks.refl d)

/-- The block an item places next. -/
def nextBlock (it : Item) (y : Xlat) (die core : Nat) : KBlock :=
  ⟨die, core, it.ctx, it.seq, it.blocks, y.packs, y.tregs, y.blkmem, [], y.consts, [], [], []⟩

/-- The packs of a block at its first instruction, beside those there are. -/
def startPacks (it : Item) (y : Xlat) (b t n : Nat) (m : FMap Pack) : FMap Pack :=
  (List.range n).foldl (fun m i => FMap.set Pack.none m (16 * b + i) (Pack.start y.entry (t + i) it.oprec)) m

theorem placeBlock_eq (d : Device) (it : Item) (y : Xlat) (die core : Nat) : d.placeBlock it y die core =
    ((cleared d it die core).mapCollie fun c => { c with
      blocks := c.blocks ++ [((cleared d it die core).collie.nextBlk, nextBlock it y die core)]
      packs := startPacks it y (cleared d it die core).collie.nextBlk (cleared d it die core).collie.stamp y.packs
        (cleared d it die core).collie.packs
      nextBlk := (cleared d it die core).collie.nextBlk + 1
      stamp := (cleared d it die core).collie.stamp + y.packs }).updItem it.ctx it.seq fun y => { y with blocks := y.blocks + 1 } :=
  rfl

theorem get_startPacks (it : Item) (y : Xlat) (b t : Nat) (m : FMap Pack) {n j : Nat} (h : j < n) :
    FMap.get Pack.none (startPacks it y b t n m) (16 * b + j) = Pack.start y.entry (t + j) it.oprec := by
  induction n with
  | zero => omega
  | succ n ih =>
    unfold startPacks
    rw [List.range_succ, List.foldl_append, List.foldl_cons, List.foldl_nil, FMap.get_set]
    by_cases hj : j = n
    · rw [if_pos (by omega), hj]
    · rw [if_neg (by omega)]
      exact ih (by omega)

theorem start_ureg (entry stamp : Nat) (args : List Byte) (r : Nat) : ureg (Pack.start entry stamp args) r =
    if r < 32 then BitVec.ofNat 32 (field args (4 * r) 4) else 0 :=
  FMap.get_foldl_set 0 (fun j => BitVec.ofNat 32 (field args (4 * j) 4)) [] 32 r

theorem block_placed {d e : Device} {b : Nat} {k : KBlock} (he : e.collie.blocks = d.collie.blocks ++ [(b, k)])
    (hnew : ∀ y ∈ d.collie.blocks, y.1 ≠ b) : e.block b = some k := by
  have hnone : (d.collie.blocks.find? fun x => x.1 == b) = none :=
    List.find?_eq_none.mpr fun e he => by simpa using hnew e he
  unfold Device.block
  rw [he, List.find?_append, hnone]
  simp

theorem exec_blockPlace {s : State} {c q die core : Nat} {it : Item} {y : Xlat} (hitem : s.dev.item c q = some it)
    (htyp : it.typ = 3) (hrun : it.phase = .running) (hleft : it.blocks < field it.desc 0x20 4)
    (hxlat : s.dev.xlatOf it = some y) (hpick : s.dev.pickCore it y = some (die, core)) :
    exec (.blockPlace c q) s = .next { s with dev := s.dev.placeBlock it y die core } := by
  change Host.Outcome.next { s with dev := blockPlace c q s.dev } = _
  unfold blockPlace
  simp only [hitem, hxlat, hpick]
  rw [if_neg (by simp [htyp, hrun]; omega)]

/-- Settles O8: a path that is pending runs next, else the entry is popped; the picked pack and the picked core take the pack and the
block. -/
theorem packsChangePathMoveAndArePlaced : Obligations.PacksChangePathMoveAndArePlaced := by
  refine ⟨fun s p f fs x hblock hpack hlive hstack hpc =>
    ⟨exec_pathReconverge_of_pending hblock hpack hlive hstack hpc, exec_pathReconverge_of_pop hblock hpack hlive hstack hpc⟩,
    fun s die core e p k hslot hready hblock => ?_, fun s c q it y die core hitem htyp hrun hleft hxlat hpick hnum hpacks => ?_⟩
  · refine ⟨_, exec_packMove hslot hready hblock, ?_, ?_, ?_, ?_, fun q hq => ?_, ?_, ?_, ?_⟩
    iterate 4 (simp only [Device.count_pack, Device.pack_updPack, if_true])
    · simp [hq]
    · simp
    · simp
    · rw [Device.counter_count, if_pos rfl, satAdd64_toNat]
      rfl
  · have hexec := exec_blockPlace hitem htyp hrun hleft hxlat hpick
    obtain ⟨-, hnext, hblocks⟩ := cleared_shrinks s.dev it die core
    have hnew : ∀ e ∈ (cleared s.dev it die core).collie.blocks, e.1 ≠ (cleared s.dev it die core).collie.nextBlk := by
      intro e he
      obtain ⟨z, hz, hkey⟩ := List.mem_map.mp (hblocks e he)
      have hlt := hnum z hz
      omega
    refine ⟨_, nextBlock it y die core, hexec, ?_, rfl, rfl, rfl, rfl, rfl, rfl, rfl, rfl, rfl, rfl, rfl, fun j hj => ?_⟩
    · rw [placeBlock_eq, ← hnext]
      exact block_placed (d := cleared s.dev it die core) (k := nextBlock it y die core) rfl hnew
    · have hpack : (s.dev.placeBlock it y die core).pack (16 * s.dev.collie.nextBlk + j) =
          Pack.start y.entry ((cleared s.dev it die core).collie.stamp + j) it.oprec := by
        rw [placeBlock_eq, ← hnext]
        exact get_startPacks _ _ _ _ _ hj
      simp only [hpack]
      exact ⟨rfl, rfl, rfl, rfl, rfl, rfl, rfl, fun _ _ _ => rfl, fun _ l => BitVec.getLsbD_zero, fun r _ => start_ureg _ _ _ r⟩

end Sys2Proof.Proofs.Placement
end

section
/-! Lines of a core's data cache that lie on no uncorrectable half-line are written back without loss, and no touch of the memory
system brings one that does (R140, R168, R229). -/

namespace Sys2Proof.Proofs.SoundCores

open Sys2Proof.Machine Sys2Proof.Spec Sys2Proof.Proofs.QuietMemory

/-- The line lies on none of the half-lines of `B`. -/
def clear (B : Nat → Bool) (x : CLine) : Prop :=
  ∀ a, x.at_ = .dev a → B (2 * (a / 128)) = false ∧ B (2 * (a / 128) + 1) = false

/-- Every uncorrectable half-line is one of `B`, and no dirty line of the core lies on one of these. -/
def Sound (die core : Nat) (B : Nat → Bool) (d : Device) : Prop :=
  (∀ h, FMap.get false d.mem.bad h = true → B h = true) ∧ ∀ x ∈ (d.core die core).lines, x.dirty.any id = true → clear B x

theorem Sound.of_coreSound {d : Device} {die core : Nat} (h : coreSound d die core) :
    Sound die core (FMap.get false d.mem.bad) d :=
  ⟨fun _ h => h, fun x hx _ a ha => h x hx a ha⟩

variable {die core : Nat} {B : Nat → Bool} {d : Device}

/-- What changes no core and makes no half-line uncorrectable. -/
theorem Sound.of_bad (h : Sound die core B d) {e : Device} (hcores : e.collie = d.collie)
    (hbad : ∀ n, FMap.get false e.mem.bad n = true → FMap.get false d.mem.bad n = true) : Sound die core B e := by
  obtain ⟨hb, hl⟩ := h
  refine ⟨fun n hn => hb n (hbad n hn), fun x hx => hl x ?_⟩
  unfold Device.core at hx ⊢
  rwa [hcores] at hx

theorem Sound.mapMem (h : Sound die core B d) {f : Mem → Mem}
    (hbad : ∀ n, FMap.get false (f d.mem).bad n = true → FMap.get false d.mem.bad n = true) :
    Sound die core B (d.mapMem f) := h.of_bad rfl hbad

theorem Sound.tick (h : Sound die core B d) (n : Nat) : Sound die core B { d with lruTick := n } := h

theorem Sound.count (h : Sound die core B d) (c n k : Nat) : Sound die core B (d.count c n k) :=
  h.of_bad (d.count_collie c n k) (by simp)

theorem Sound.emit (h : Sound die core B d) (o : Output) : Sound die core B (d.emit o) :=
  h.of_bad (d.emit_collie o) (by simp)

/-- The core's lines may lose their marks, be dropped, or be joined by clean ones. -/
theorem Sound.of_lines (h : Sound die core B d) {e : Device} (hmem : e.mem.bad = d.mem.bad)
    (hlines : ∀ x ∈ (e.core die core).lines, x.dirty.any id = true →
      ∃ y ∈ (d.core die core).lines, y.dirty = x.dirty ∧ y.at_ = x.at_) : Sound die core B e := by
  obtain ⟨hb, hl⟩ := h
  refine ⟨by rwa [hmem], fun x hx hd a ha => ?_⟩
  obtain ⟨y, hy, hdirty, hat⟩ := hlines x hx hd
  exact hl y hy (by rwa [hdirty]) a (hat.trans ha)

theorem Sound.updCore (h : Sound die core B d) (die' core' : Nat) {f : CoreSt → CoreSt}
    (hf : ∀ x ∈ (f (d.core die' core')).lines, x.dirty.any id = true →
      ∃ y ∈ (d.core die' core').lines, y.dirty = x.dirty ∧ y.at_ = x.at_) : Sound die core B (d.updCore die' core' f) := by
  refine h.of_lines rfl fun x hx hd => ?_
  rw [Device.core_updCore] at hx
  split at hx
  next he =>
    obtain ⟨y, hy, hyx⟩ := hf x hx hd
    refine ⟨y, ?_, hyx⟩
    unfold Device.core at hy ⊢
    rwa [he]
  next => exact ⟨x, hx, rfl, rfl⟩

/-! ### The die caches -/

theorem get_map_cores (cs : FMap CoreSt) (g : Nat → CoreSt → CoreSt) (hreset : ∀ n, g n CoreSt.reset = CoreSt.reset) (n : Nat) :
    FMap.get CoreSt.reset (cs.map fun e => (e.1, g e.1 e.2)) n = g n (FMap.get CoreSt.reset cs n) := by
  induction cs with
  | nil => exact (hreset n).symm
  | cons e cs ih =>
    obtain ⟨m, c⟩ := e
    rw [List.map_cons, FMap.get, FMap.get]
    split
    next hm => rw [hm]
    next => exact ih

/-- The lines of a core once a prefetch has been used: the mark goes. -/
def unmark (die l : Nat) (n : Nat) (c : CoreSt) : CoreSt := if n / 16 = die then
  { c with lines := c.lines.map fun x => if x.at_ = .dev (128 * l) then { x with pref := none } else x } else c

theorem core_prefUsed (d : Device) (i l c die core : Nat) :
    (d.prefUsed i l c).core die core = unmark i l (16 * die + core) (d.core die core) := by
  unfold Device.prefUsed Device.core
  rw [Device.count_collie]
  refine Eq.trans ?_ (get_map_cores d.collie.cores (unmark i l) ?_ _)
  · congr 1
    refine List.map_congr_left fun e _ => ?_
    by_cases he : e.1 / 16 = i <;> simp [unmark, he]
  · intro n
    unfold unmark
    split <;> rfl

theorem Sound.prefUsed (h : Sound die core B d) (i l c : Nat) : Sound die core B (d.prefUsed i l c) := by
  refine h.of_lines ?_ fun x hx _ => ?_
  · unfold Device.prefUsed
    rw [Device.count_mem]
    rfl
  · rw [core_prefUsed] at hx
    unfold unmark at hx
    split at hx
    · obtain ⟨y, hy, rfl⟩ := List.mem_map.mp hx
      refine ⟨y, hy, ?_⟩
      split
      · exact ⟨rfl, rfl⟩
      · exact ⟨rfl, rfl⟩
    · exact ⟨x, hx, rfl, rfl⟩

theorem closed_sound (die core : Nat) (B : Nat → Bool) : Closed (Sound die core B) where
  count h := h.count
  emit h := h.emit
  prefUsed h := h.prefUsed
  tick h := h.tick
  mem h _ hf := h.mapMem fun n hn => hf _ n hn

/-! ### A dirty line that goes back -/

theorem mem_partialHalves {patch : List (Option Byte)} {n : Nat} (h : n ∈ partialHalves patch) : n = 0 ∨ n = 1 := by
  have hmem := (List.mem_filter.mp h).1
  simpa using hmem

theorem halfBad_false {m : Mem} {B : Nat → Bool} (hb : ∀ h, FMap.get false m.bad h = true → B h = true) {n : Nat}
    (h : B n = false) : m.halfBad n = false := by
  unfold Mem.halfBad
  rw [Bool.and_eq_false_iff]
  left
  by_contra hbad
  have hset := hb n (by simpa using hbad)
  rw [h] at hset
  cases hset

theorem storeLine_sound (h : Sound die core B d) {i tc key l : Nat} {patch : List (Option Byte)}
    (h0 : B (2 * l) = false) (h1 : B (2 * l + 1) = false) :
    ∃ e, d.storeLine (some i) tc key l patch = some e ∧ Sound die core B e := by
  have hgood : ∀ n, n = 0 ∨ n = 1 → d.mem.halfBad (2 * l + n) = false := by
    rintro n (rfl | rfl)
    · exact halfBad_false h.1 h0
    · exact halfBad_false h.1 h1
  have hpart : (partialHalves patch).any (fun n => d.mem.halfBad (2 * l + n)) = false :=
    List.any_eq_false.mpr fun n hn => by simp [hgood n (mem_partialHalves hn)]
  have hleft : ([0, 1].filter fun n => d.mem.halfBad (2 * l + n) &&
      ((patch.drop (64 * n)).take 64).any Option.isNone) = [] :=
    List.filter_eq_nil_iff.mpr fun n hn => by simp [hgood n (by simpa using hn)]
  unfold Device.storeLine
  dsimp only
  simp only [Option.isNone_some, Bool.false_eq_true, if_false, hpart, hleft]
  have hP := closed_sound die core B
  exact ⟨_, rfl, hP.cachePut ((hP.backInval (hP.unusedLines h _) l).mapMem fun _ hn => hn) _ _ _ _ _ _ _ _⟩

theorem writeBackLine_sound (h : Sound die core B d) (i : Nat) {x : CLine} (hx : x.dirty.any id = true → clear B x) :
    (d.writeBackLine i x).2 = [] ∧ Sound die core B (d.writeBackLine i x).1 := by
  unfold Device.writeBackLine
  split
  next => exact ⟨rfl, h⟩
  next hdirty =>
    dsimp only
    split
    next a ha =>
      obtain ⟨h0, h1⟩ := hx (by simpa using hdirty) a ha
      obtain ⟨e, he, hsound⟩ := storeLine_sound (d := d.countBack i x) (h.count _ _ _) (i := i) (tc := 4) (key := x.key)
        (patch := List.zipWith (fun b v => if b then some v else none) x.dirty x.data) h0 h1
      rw [he]
      exact ⟨rfl, hsound⟩
    next => exact ⟨rfl, (closed_sound die core B).storeHostLine (h.count _ _ _) _ _ _ _⟩
    next => exact ⟨rfl, h.count _ _ _⟩

theorem writeBackAll_sound (h : Sound die core B d) (i : Nat) {xs : List CLine}
    (hxs : ∀ x ∈ xs, x.dirty.any id = true → clear B x) :
    (d.writeBackAll i xs).2 = [] ∧ Sound die core B (d.writeBackAll i xs).1 := by
  unfold Device.writeBackAll
  induction xs using List.reverseRecOn with
  | nil => exact ⟨rfl, h⟩
  | append_singleton xs x ih =>
    obtain ⟨hlost, hsound⟩ := ih fun y hy => hxs y (by simp [hy])
    obtain ⟨hlostx, hsoundx⟩ := writeBackLine_sound hsound i (hxs x (by simp))
    rw [List.foldl_append, List.foldl_cons, List.foldl_nil]
    refine ⟨?_, hsoundx⟩
    dsimp only
    rw [hlost, hlostx]
    rfl

theorem Sound.lines (h : Sound die core B d) : ∀ x ∈ (d.core die core).lines, x.dirty.any id = true → clear B x := h.2

end Sys2Proof.Proofs.SoundCores
end

section
/-! What a read or a store of the cores asks of the die caches: misses, trackers and prefetches move, and no item, context, engine,
block or pack, and no write is lost (R168, R227, R238 to R241). -/

namespace Sys2Proof.Proofs.QuietMemory

open Sys2Proof.Machine

section Demand
variable {P : Device → Prop} (hP : Closed P) {d : Device} (h : P d)
include hP h

theorem Closed.deadRead (c l : Nat) : P (d.deadRead c l) := hP.count h _ _ _

theorem Closed.prefetchLine (die unit tc key : Nat) (w : Waiter) (l : Nat) : P (d.prefetchLine die unit tc key w l) := by
  unfold Device.prefetchLine
  dsimp only
  split
  · exact hP.count h _ _ _
  · split
    · exact hP.count (hP.count (hP.mem h _ (by exact fun _ _ hn => hn)) _ _ _) _ _ _
    · exact h

theorem Closed.prefetchLines (die unit tc key : Nat) (w : Waiter) (ls : List Nat) :
    P (ls.foldl (Device.prefetchLine · die unit tc key w ·) d) := by
  induction ls generalizing d with
  | nil => exact h
  | cons l ls ih => exact ih (hP.prefetchLine h die unit tc key w l)

theorem Closed.retrieve (die unit tc key : Nat) (w : Waiter) (l : Nat) : P (d.retrieve die unit tc key w l) := by
  unfold Device.retrieve
  dsimp only
  split
  · exact h
  · split
    · exact hP.mem (hP.tick h _) _ (by exact fun _ _ hn => hn)
    · split
      · exact hP.prefetchLines (hP.mem (hP.tick h _) _ (by exact fun _ _ hn => hn)) _ _ _ _ _ _
      · exact hP.mem (hP.tick h _) _ (by exact fun _ _ hn => hn)

theorem Closed.follow (die unit tc key : Nat) (w : Waiter) (l : Nat) : P (d.follow die unit tc key w l) := by
  unfold Device.follow
  dsimp only
  split
  · exact hP.retrieve h _ _ _ _ _ _
  · exact h

theorem Closed.request (die unit tc key l : Nat) (w : Waiter) : P (d.request die unit tc key l w) := by
  unfold Device.request
  split
  · exact hP.mem h _ (by exact fun _ _ hn => hn)
  · dsimp only
    split
    · exact hP.count (hP.count (hP.count (hP.count (hP.mem h _ (by exact fun _ _ hn => hn)) _ _ _) _ _ _) _ _ _) _ _ _
    · exact hP.count (hP.count (hP.mem h _ (by exact fun _ _ hn => hn)) _ _ _) _ _ _

theorem Closed.demand {die unit tc key : Nat} {w : Waiter} {l : Nat} {reads : Bool} {r : Device × Bool}
    (hr : d.demand die unit tc key w l reads = .ok r) : P r.1 := by
  unfold Device.demand at hr
  dsimp only at hr
  have hread : P (if reads && !decide (hostLineBase ≤ l) then d.deadRead w.ctx l else d) :=
    Closed.ite (hP.deadRead h _ _) h
  generalize (if reads && !decide (hostLineBase ≤ l) then d.deadRead w.ctx l else d) = e at hread hr
  generalize (if decide (hostLineBase ≤ l) then l - hostLineBase else l) = n at hr
  by_cases hcache : d.inCache die (decide (hostLineBase ≤ l)) n = true
  · rw [if_pos hcache] at hr
    obtain rfl := Except.ok.inj hr
    have htouched := hP.count (hP.cacheTouch hread die (decide (hostLineBase ≤ l)) n) w.ctx (96 + tc) 1
    exact Closed.ite htouched (hP.follow htouched _ _ _ _ _ _)
  · rw [if_neg hcache] at hr
    split at hr
    · cases hr
    · obtain rfl := Except.ok.inj hr
      have hasked := hP.request (hP.count hread w.ctx (104 + tc) 1) die unit tc key l w
      exact Closed.ite hasked (hP.retrieve hasked _ _ _ _ _ _)

end Demand

end Sys2Proof.Proofs.QuietMemory

namespace Sys2Proof.Proofs.Touches

open Sys2Proof.Machine Sys2Proof.Spec Sys2Proof.Proofs.QuietMemory Sys2Proof.Proofs.SoundCores

/-! ### A line brought into the core -/

theorem fetchCoreLine_clean {d : Device} {pl : Place} {key va : Nat} {y : CLine} (h : d.fetchCoreLine pl key va = some y) :
    y.dirty.any id = false := by
  unfold Device.fetchCoreLine at h
  dsimp only at h
  split at h
  · split at h
    · cases h
    · obtain rfl := Option.some.inj h
      simp
  · obtain rfl := Option.some.inj h
    simp
  · cases h

variable {die core : Nat} {B : Nat → Bool} {d : Device}

/-- A clean line comes in, and nothing is lost of the line that makes room. -/
theorem installCore_sound (h : Sound die core B d) {x : CLine} (hx : x.dirty.any id = false) :
    (d.installCore die core x).2 = [] ∧ Sound die core B (d.installCore die core x).1 := by
  obtain ⟨hlost, hsound⟩ := writeBackAll_sound h die (xs := (d.core die core).lines.drop (coreLines - 1))
    fun y hy => h.lines y (List.mem_of_mem_drop hy)
  refine ⟨hlost, ((closed_sound die core B).unused hsound die _).updCore die core fun y hy hd => ?_⟩
  rcases List.mem_cons.mp hy with rfl | hy
  · rw [hx] at hd
    cases hd
  · exact ⟨y, List.mem_of_mem_take hy, rfl, rfl⟩

theorem loseWrites_nil (r : Device × Lost) (h : r.2 = []) : Device.loseWrites r = r.1 := by
  unfold Device.loseWrites
  rw [h]
  rfl

/-- What a touch of the lines of one access keeps. -/
def Calm (a : Device) (die core : Nat) (B : Nat → Bool) (d : Device) : Prop := Quiet a d ∧ Sound die core B d

variable {a : Device}

theorem closed_calm : Closed (Calm a die core B) where
  count h c n k := ⟨h.1.count c n k, h.2.count c n k⟩
  emit h o := ⟨h.1.emit o, h.2.emit o⟩
  prefUsed h i l c := ⟨h.1.prefUsed i l c, h.2.prefUsed i l c⟩
  tick h n := ⟨h.1.tick n, h.2.tick n⟩
  mem h f hf := ⟨h.1.mapMem f, (closed_sound die core B).mem h.2 f hf⟩

theorem Calm.touchLine {k : KBlock} (h : Calm a k.die k.core B d) {pk : Nat} {reads : Bool} {p : Place × Nat × Nat}
    {r : Device × Went} (hr : d.touchLine k pk reads p = .ok r) : Calm a k.die k.core B r.1 := by
  unfold Device.touchLine at hr
  dsimp only at hr
  split at hr
  · obtain rfl := Except.ok.inj hr
    split
    · exact h
    · have hused := closed_calm.prefUsed h k.die (lineNo p.1) ‹Nat›
      exact closed_calm.follow (Closed.ite (closed_calm.deadRead hused _ _) hused) _ _ _ _ _ _
  · split at hr
    · cases hr
    · next e hit hdem =>
      obtain rfl := Except.ok.inj hr
      obtain ⟨hquiet, hsound⟩ := closed_calm.demand h hdem
      dsimp only
      split
      · next y hy =>
        obtain ⟨hlost, hnext⟩ := installCore_sound hsound (fetchCoreLine_clean hy)
        rw [loseWrites_nil _ hlost]
        exact ⟨hquiet.installCore _ _ y, hnext⟩
      · exact ⟨hquiet, hsound⟩

theorem Calm.touchLines {k : KBlock} (h : Calm a k.die k.core B d) (pk : Nat) (reads : Bool) (ps : List (Place × Nat × Nat)) :
    Calm a k.die k.core B (d.touchLines k pk reads ps).1 := by
  unfold Device.touchLines
  induction distinctLines ps using List.reverseRecOn with
  | nil => exact h
  | append_singleton ps p ih =>
    rw [List.foldl_append, List.foldl_cons, List.foldl_nil]
    split
    · exact ih
    · next hr => exact ih.touchLine hr

/-! ### Lines that stand in the core already -/

/-- A line in the core whose prefetch has been used is at hand: nothing moves. -/
theorem touchLine_near {k : KBlock} {pk : Nat} {reads : Bool} {p : Place × Nat × Nat} {y : CLine}
    (hy : (d.core k.die k.core).line p.1 p.2.1 = some y) (hpref : y.pref = none) :
    d.touchLine k pk reads p = .ok (d, .near) := by
  unfold Device.touchLine
  simp only [hy, hpref]

theorem linePlace_linePlace (p : Place) : linePlace (linePlace p) = linePlace p := by
  cases p <;> simp [linePlace]

theorem line_linePlace (c : CoreSt) (p : Place) (key : Nat) : c.line (linePlace p) key = c.line p key := by
  unfold CoreSt.line
  rw [linePlace_linePlace]

theorem mem_distinctLines {ps : List (Place × Nat × Nat)} {q : Place × Nat × Nat} (h : q ∈ distinctLines ps) :
    ∃ p ∈ ps, q = (linePlace p.1, p.2.1, p.2.2) := by
  unfold distinctLines at h
  induction ps using List.reverseRecOn with
  | nil => cases h
  | append_singleton ps p ih =>
    rw [List.foldl_append, List.foldl_cons, List.foldl_nil] at h
    split at h
    · obtain ⟨p', hp', rfl⟩ := ih h
      exact ⟨p', by simp [hp'], rfl⟩
    · rcases List.mem_append.mp h with h | h
      · obtain ⟨p', hp', rfl⟩ := ih h
        exact ⟨p', by simp [hp'], rfl⟩
      · exact ⟨p, by simp, List.mem_singleton.mp h⟩

theorem touchLines_near {k : KBlock} {pk : Nat} {reads : Bool} {ps : List (Place × Nat × Nat)}
    (h : ∀ p ∈ ps, nearLine d k p.1 p.2.1) : d.touchLines k pk reads ps = (d, .near, none) := by
  have hnear : ∀ q ∈ distinctLines ps, d.touchLine k pk reads q = .ok (d, .near) := by
    intro q hq
    obtain ⟨p, hp, rfl⟩ := mem_distinctLines hq
    obtain ⟨y, hy, hpref, -⟩ := h p hp
    exact touchLine_near (by rw [line_linePlace]; exact hy) hpref
  unfold Device.touchLines
  revert hnear
  induction distinctLines ps with
  | nil => exact fun _ => rfl
  | cons q qs ih =>
    intro hnear
    rw [List.foldl_cons, hnear q (by simp)]
    exact ih fun p hp => hnear p (by simp [hp])

end Sys2Proof.Proofs.Touches
end

section
/-! O36: global loads (R168, R195, R211). -/

namespace Sys2Proof.Proofs.GlobalLoads

open Sys2Proof.Machine Sys2Proof.Spec Sys2Proof.Proofs.PackIssue Sys2Proof.Proofs.BlockStores Sys2Proof.Proofs.QuietMemory
  Sys2Proof.Proofs.SoundCores Sys2Proof.Proofs.Touches

/-! ### Words written to the registers of lanes -/

/-- Registers after words have been written from `base` on. -/
def putWords (m : FMap Word) (base : Nat) (ws : List Word) : FMap Word :=
  ws.zipIdx.foldl (fun t e => FMap.set 0 t (base + e.2) e.1) m

theorem putWords_append_singleton (m : FMap Word) (base : Nat) (ws : List Word) (w : Word) :
    putWords m base (ws ++ [w]) = FMap.set 0 (putWords m base ws) (base + ws.length) w := by
  simp [putWords, List.zipIdx_append]

theorem get_putWords (m : FMap Word) (base : Nat) (ws : List Word) (b : Nat) : FMap.get 0 (putWords m base ws) b =
    if base ≤ b ∧ b < base + ws.length then ws.getD (b - base) 0 else FMap.get 0 m b := by
  induction ws using List.reverseRecOn with
  | nil => rw [if_neg (by simp only [List.length_nil]; omega)]; rfl
  | append_singleton ws w ih =>
    rw [putWords_append_singleton, FMap.get_set, ih, List.length_append, List.length_singleton]
    by_cases hb : b = base + ws.length
    · rw [if_pos hb, if_pos (by omega), hb]
      simp
    · rw [if_neg hb]
      by_cases hin : base ≤ b ∧ b < base + ws.length
      · rw [if_pos hin, if_pos (by omega), List.getD_append _ _ _ _ (by omega)]
      · rw [if_neg hin, if_neg (by omega)]

theorem writeWords_append_singleton (y : Pack) (l : Nat) (s : BitVec 8) (ws : List Word) (w : Word) :
    y.writeWords l s (ws ++ [w]) = (y.writeWords l s ws).putWord l s ws.length w := by
  simp [Pack.writeWords, List.zipIdx_append]

/-- A write to thread registers, to uniform registers, or to none (R188). -/
theorem writeWords_eq (y : Pack) (l : Nat) (s : BitVec 8) (ws : List Word) : y.writeWords l s ws =
    if s.toNat < 0x80 then { y with regs := putWords y.regs (128 * l + s.toNat) ws }
    else if s.toNat < 0xC0 then { y with uregs := putWords y.uregs (s.toNat - 0x80) ws } else y := by
  induction ws using List.reverseRecOn with
  | nil =>
    split
    · rfl
    · split <;> rfl
  | append_singleton ws w ih =>
    rw [writeWords_append_singleton, ih, putWords_append_singleton, putWords_append_singleton]
    unfold Pack.putWord
    dsimp only
    split
    · rfl
    · split <;> rfl

/-- A pack after each of some lanes has written its words. -/
def writeLanes (s : BitVec 8) (ws : Nat → List Word) (ls : List Nat) (y : Pack) : Pack :=
  ls.foldl (fun y l => y.writeWords l s (ws l)) y

theorem writeLanes_eq_regs (s : BitVec 8) (ws : Nat → List Word) (ls : List Nat) (y : Pack) : writeLanes s ws ls y =
    { y with regs := (writeLanes s ws ls y).regs, uregs := (writeLanes s ws ls y).uregs } := by
  unfold writeLanes
  induction ls generalizing y with
  | nil => rfl
  | cons l ls ih =>
    rw [List.foldl_cons, ih, writeWords_eq]
    split
    · rfl
    · split <;> rfl

theorem treg_writeWords (y : Pack) (l : Nat) {s : BitVec 8} {ws : List Word} (hs : s.toNat < 128 → s.toNat + ws.length ≤ 128)
    (l' : Nat) {r : Nat} (hr : r < 128) : treg (y.writeWords l s ws) l' r =
      if l' = l ∧ s.toNat ≤ r ∧ r < s.toNat + ws.length then ws.getD (r - s.toNat) 0 else treg y l' r := by
  rw [writeWords_eq]
  unfold treg
  split
  next hT =>
    have := hs hT
    dsimp only
    rw [get_putWords]
    by_cases hin : l' = l ∧ s.toNat ≤ r ∧ r < s.toNat + ws.length
    · rw [if_pos (by omega), if_pos hin]
      congr 1
      omega
    · rw [if_neg (by omega), if_neg hin]
  next hT =>
    have hout : ¬(l' = l ∧ s.toNat ≤ r ∧ r < s.toNat + ws.length) := by omega
    rw [if_neg hout]
    split <;> rfl

theorem treg_writeLanes (y : Pack) {s : BitVec 8} {ws : Nat → List Word} {m : Nat} (hm : ∀ l, (ws l).length = m)
    (hs : s.toNat < 128 → s.toNat + m ≤ 128) (ls : List Nat) (l' : Nat) {r : Nat} (hr : r < 128) :
    treg (writeLanes s ws ls y) l' r =
      if l' ∈ ls ∧ s.toNat ≤ r ∧ r < s.toNat + m then (ws l').getD (r - s.toNat) 0 else treg y l' r := by
  unfold writeLanes
  induction ls using List.reverseRecOn with
  | nil => rw [if_neg (by simp)]; rfl
  | append_singleton ls l ih =>
    rw [List.foldl_append, List.foldl_cons, List.foldl_nil, treg_writeWords _ _ (by rwa [hm]) _ hr, ih, hm]
    by_cases hl : l' = l
    · subst hl
      by_cases hin : s.toNat ≤ r ∧ r < s.toNat + m <;> simp [hin]
    · simp [hl]

theorem ureg_writeWords (y : Pack) (l : Nat) {s : BitVec 8} {ws : List Word} (h : 0x80 ≤ s.toNat) (h2 : s.toNat < 0xC0)
    {j : Nat} (hj : j < ws.length) : ureg (y.writeWords l s ws) (s.toNat - 0x80 + j) = ws.getD j 0 := by
  rw [writeWords_eq, if_neg (by omega), if_pos h2]
  unfold ureg
  dsimp only
  rw [get_putWords, if_pos (by omega), Nat.add_sub_cancel_left]

@[simp] theorem length_loadWords (fmt : Nat) (bs : List Byte) : (loadWords fmt bs).length = memRegs fmt := by
  unfold loadWords
  split
  next h => rw [h]; rfl
  next => simp

/-! ### The destination of a load -/

/-- Where a legal load puts its registers: in thread registers, nowhere, or in uniform registers of a uniform load (R190). -/
theorem dst_of_memOk {i : Issue} {b : MemBody} {tregs : Nat} (h : memOk true tregs i b = true) :
    (b.data.toNat < 0x80 ∧ b.data.toNat + memRegs b.fmt.toNat ≤ tregs) ∨ b.data = 0xC1#8 ∨
      (0x80 ≤ b.data.toNat ∧ b.data.toNat + memRegs b.fmt.toNat ≤ 0xC0 ∧ (memFields true i b).uniform = true) := by
  unfold memOk memFields Operands.ok at h
  simp only [if_true, Bool.and_eq_true, Bool.not_eq_true'] at h
  obtain ⟨-, ⟨⟨⟨⟨-, hdst⟩, -⟩, -⟩, hmix⟩, -⟩ := h
  simp only [Option.all_some, dstOk, regsOk, Bool.or_eq_true, Bool.and_eq_true] at hdst
  rcases hdst with ⟨-, ⟨hT, hlen⟩ | ⟨hU, hlen⟩⟩ | hnone
  · exact .inl ⟨of_decide_eq_true hT, of_decide_eq_true hlen⟩
  · have hU' := hU
    unfold selU at hU'
    obtain ⟨h0, h1⟩ := of_decide_eq_true hU'
    refine .inr (.inr ⟨h0, of_decide_eq_true hlen, ?_⟩)
    have hT : selT b.data = false := decide_eq_false (by omega)
    simp only [Option.any_some, hU, Bool.true_and, Bool.or_eq_false_iff, List.any_cons, List.any_nil, Bool.or_false] at hmix
    obtain ⟨-, haddr⟩ := hmix
    simp [memFields, Operands.uniform, haddr, hT]
  · exact .inr (.inl (by simpa using hnone))

theorem toNat_reg {s : BitVec 8} {j : Nat} (h : s.toNat + j < 256) : (s + BitVec.ofNat 8 j).toNat = s.toNat + j := by
  rw [BitVec.toNat_add, BitVec.toNat_ofNat, Nat.mod_eq_of_lt (a := j) (by omega), Nat.mod_eq_of_lt (by omega)]

/-- A lane reads in the destination the words it has loaded. -/
theorem opnd_writeLanes {i : Issue} {b : MemBody} {tregs : Nat} {x : Pack} {ws : Nat → List Word}
    (h : memOk true tregs i b = true) (htregs : tregs ≤ 128) (hws : ∀ l, (ws l).length = memRegs b.fmt.toNat) {l j : Nat}
    (hl : l ∈ x.lanes (memFields true i b) i.guard) (hj : j < memRegs b.fmt.toNat) (hdst : b.data ≠ 0xC1#8) :
    opnd (writeLanes b.data ws (x.lanes (memFields true i b) i.guard) x) none l (b.data + BitVec.ofNat 8 j) =
      (ws l).getD j 0 := by
  unfold opnd
  rcases dst_of_memOk h with ⟨hT, hlen⟩ | hnone | ⟨hU, hlen, huniform⟩
  · rw [toNat_reg (by omega), if_pos (by omega), treg_writeLanes _ hws (by omega) _ _ (by omega),
      if_pos ⟨hl, by omega, by omega⟩, Nat.add_sub_cancel_left]
  · exact absurd hnone hdst
  · rw [toNat_reg (by omega), if_neg (by omega), if_pos (by omega)]
    unfold Pack.lanes at hl ⊢
    rw [if_pos huniform] at hl ⊢
    obtain rfl := List.mem_singleton.mp hl
    rw [show b.data.toNat + j - 0x80 = b.data.toNat - 0x80 + j by omega]
    exact ureg_writeWords _ _ hU (by omega) (by rwa [hws])

/-! ### A core that loses no line -/

/-- The device after a core has let no line go. -/
def kept (d : Device) (die core : Nat) : Device := d.updCore die core fun c => { c with lines := (d.core die core).lines }

theorem evictCore_nil (d : Device) (die core : Nat) : d.evictCore die core [] = (kept d die core, []) := by
  have hgone : ((d.core die core).lines.zipIdx.filter fun e => ([] : List Nat).contains e.2) = [] :=
    List.filter_eq_nil_iff.mpr fun _ _ => by simp
  have hkept : ((d.core die core).lines.zipIdx.filter fun e => !([] : List Nat).contains e.2) = (d.core die core).lines.zipIdx :=
    List.filter_eq_self.mpr fun _ _ => by simp
  unfold Device.evictCore
  simp only [hgone, hkept, List.map_nil, List.zipIdx_map_fst]
  rfl

theorem core_kept (d : Device) (i c j e : Nat) : (kept d i c).core j e = d.core j e := by
  unfold kept
  rw [Device.core_updCore]
  split
  next h =>
    unfold Device.core
    rw [h]
  next => rfl

theorem lanePlace_kept (d : Device) (die core c : Nat) (va : Int) (n : Nat) (a : Acc) :
    (kept d die core).lanePlace c va n a = d.lanePlace c va n a := rfl

theorem coreByte_kept (d : Device) (i c die core : Nat) (a : Actor) (va : Nat) :
    (kept d i c).coreByte die core a va = d.coreByte die core a va := by
  unfold Device.coreByte
  rw [core_kept]
  rfl

theorem coreBytes_kept (d : Device) (i c die core : Nat) (a : Actor) (n va : Nat) :
    (kept d i c).coreBytes die core a n va = d.coreBytes die core a n va := by
  induction n generalizing va with
  | zero => rfl
  | succ n ih => rw [Device.coreBytes, Device.coreBytes, coreByte_kept, ih]

theorem nearLine_kept {d : Device} {k : KBlock} {pl : Place} {key : Nat} (h : nearLine d k pl key) (i c : Nat) :
    nearLine (kept d i c) k pl key := by
  unfold nearLine
  rwa [core_kept]

theorem not_away {pl : Place} (h : ∀ nd c r, pl ≠ .peer nd c r) : pl.away = false := by
  cases pl with
  | dev a => rfl
  | host a => rfl
  | peer nd c r => exact absurd rfl (h nd c r)

theorem farLine_of_not_peer (d : Device) (k : KBlock) {pl : Place} (key : Nat) (h : ∀ nd c r, pl ≠ .peer nd c r) :
    d.farLine k pl key = false := by
  unfold Device.farLine
  rw [not_away h]
  rfl

theorem calm_kept {d : Device} {die core : Nat} (h : coreSound d die core) :
    Calm d die core (FMap.get false d.mem.bad) (kept d die core) :=
  ⟨(Quiet.refl d).updCore die core _, (Sound.of_coreSound h).updCore die core fun x hx _ => ⟨x, hx, rfl, rfl⟩⟩

/-! ### The pack after the access -/

theorem parkPack_pack (d : Device) (p : Nat) (w : Option Wait) :
    (d.parkPack p w).pack p = { d.pack p with slot := none, wait := w, stamp := d.collie.stamp } := by
  unfold Device.parkPack
  dsimp only
  rw [Device.pack_updPack, if_pos rfl]
  rfl

theorem settlePack_pack (d : Device) (p : Nat) (w : Went) : ∃ slot wait stamp,
    (d.settlePack p w).pack p = { d.pack p with slot := slot, wait := wait, stamp := stamp } := by
  cases w with
  | near => exact ⟨_, _, _, rfl⟩
  | die => exact ⟨_, _, _, parkPack_pack d p _⟩
  | far => exact ⟨_, _, _, parkPack_pack d p _⟩

theorem settlePack_pack_ne (d : Device) {p q : Nat} (w : Went) (hq : q ≠ p) : (d.settlePack p w).pack q = d.pack q := by
  have hpark : ∀ v, (d.parkPack p v).pack q = d.pack q := by
    intro v
    unfold Device.parkPack
    rw [Device.pack_updPack, if_neg hq]
    rfl
  cases w with
  | near => rfl
  | die => exact hpark none
  | far => exact hpark (some .miss)

/-! ### The load -/

/-- What the lines of a load's lanes are. -/
def linesOf (i : Issue) (b : MemBody) (x : Pack) (pl : Nat → Place) (key : Nat → Nat) (ls : List Nat) : List (Place × Nat × Nat) :=
  ls.map fun l => (pl l, key l, (memAddr i b x l).toNat)

variable {i : Issue} {b : MemBody} {s : State} {k : KBlock} {x : Pack} {pl : Nat → Place} {key : Nat → Nat} {ls : List Nat}

theorem globalLoad_go {bs : Nat → List Byte}
    (hlanes : ∀ l ∈ ls, laneAt s k (memAddr i b x l) (memBytes b.fmt.toNat) .read (pl l) (key l) ∧
      s.dev.coreBytes k.die k.core ⟨k.ctx, k.seq, some k.die, none⟩ (memBytes b.fmt.toNat) (memAddr i b x l).toNat = .ok (bs l))
    {d1 : Device} {w : Went} (ht : (kept s.dev k.die k.core).touchLines k i.pack true (linesOf i b x pl key ls) = (d1, w, none)) :
    globalLoad i b [] k x ls s.dev =
      .go ((d1.setPack i.pack (writeLanes b.data (fun l => loadWords b.fmt.toNat (bs l)) ls x)).settlePack i.pack w) := by
  unfold globalLoad
  dsimp only
  rw [evictCore_nil, loseWrites_nil _ rfl]
  dsimp only
  rw [eachLane_map (fun l => (((memAddr i b x l).toNat, pl l, key l), bs l)) fun l hl => ?_]
  · have hfar : ((ls.map fun l => (l, ((memAddr i b x l).toNat, pl l, key l), bs l)).any fun v =>
        (kept s.dev k.die k.core).farLine k v.2.1.2.1 v.2.1.2.2) = false := by
      rw [List.any_map]
      exact List.any_eq_false.mpr fun l hl => by
        obtain ⟨⟨-, hpeer⟩, -⟩ := hlanes l hl
        simp [farLine_of_not_peer _ _ _ hpeer]
    have hall : ((ls.map fun l => (l, ((memAddr i b x l).toNat, pl l, key l), bs l)).filter fun v => !v.2.1.2.1.away) =
        ls.map fun l => (l, ((memAddr i b x l).toNat, pl l, key l), bs l) :=
      List.filter_eq_self.mpr fun v hv => by
        obtain ⟨l, hl, rfl⟩ := List.mem_map.mp hv
        obtain ⟨⟨-, hpeer⟩, -⟩ := hlanes l hl
        simp [not_away hpeer]
    have hlines : ((ls.map fun l => (l, ((memAddr i b x l).toNat, pl l, key l), bs l)).map fun v =>
        (v.2.1.2.1, v.2.1.2.2, v.2.1.1)) = linesOf i b x pl key ls := List.map_map
    dsimp only
    rw [hfar, hall, hlines, ht, List.foldl_map]
    rfl
  · obtain ⟨⟨hplace, hpeer⟩, hbytes⟩ := hlanes l hl
    rw [lanePlace_kept, hplace]
    dsimp only
    rw [farLine_of_not_peer _ _ _ hpeer, coreBytes_kept, hbytes]
    rfl

/-- Settles O36: the touch of the lines loses no write and changes no pack, and the lanes then write what they have read. -/
theorem globalLoadsReadCoherentBytes : Obligations.GlobalLoadsReadCoherentBytes := by
  intro i b s k x it pl key bs hissue hlegal hspace n ls hlanes hnone htregs hsound
  have hpack := pack_of_issues hissue
  rw [evictCore_nil] at hnone
  obtain ⟨d1, w, hcode⟩ : ∃ d1 w, (kept s.dev k.die k.core).touchLines k i.pack true (linesOf i b x pl key ls) = (d1, w, none) :=
    ⟨_, _, Prod.ext rfl (Prod.ext rfl hnone)⟩
  have hquiet : Quiet s.dev d1 := by
    have hcalm := (calm_kept hsound).touchLines i.pack true (linesOf i b x pl key ls)
    rw [hcode] at hcalm
    exact hcalm.1
  have hexec := exec_go hissue (f := memLoad i b []) rfl rfl hlegal (by
    dsimp only
    rw [if_pos hspace]
    exact globalLoad_go hlanes hcode)
  set y := writeLanes b.data (fun l => loadWords b.fmt.toNat (bs l)) ls x
  have hyx : y = { x with regs := y.regs, uregs := y.uregs } := writeLanes_eq_regs _ _ _ _
  obtain ⟨slot, wait, stamp, hsettle⟩ := settlePack_pack (d1.setPack i.pack y) i.pack w
  have hfinal : ∀ time slot', (counted (((d1.setPack i.pack y).settlePack i.pack w).updPack i.pack fun z =>
      { z with pc := x.pc + wordsOf i }) time k slot').pack i.pack =
      { x with regs := y.regs, uregs := y.uregs, slot := slot, wait := wait, stamp := stamp, pc := x.pc + wordsOf i } := by
    intro time slot'
    rw [counted_pack, Device.pack_updPack, if_pos rfl, hsettle, Device.pack_setPack, if_pos rfl, hyx]
  refine ⟨_, hexec, rfl, rfl, fun q hq => ?_, ?_, ?_, ?_, ?_, fun l r hr hother => ?_, fun l hl j hj hdst => ?_, fun hnear => ?_⟩
  · simp [hq, settlePack_pack_ne, hquiet.pack]
  · exact congrArg Pack.pc (hfinal _ _)
  · rw [hfinal]
  · rw [hfinal]
  · rw [hfinal]
  · rw [hfinal]
    refine (treg_writeLanes x (fun l => length_loadWords _ (bs l)) (fun hT => ?_) ls l hr).trans (if_neg hother)
    rcases dst_of_memOk hlegal with ⟨-, hlen⟩ | hnone | ⟨hU, -⟩
    · omega
    · rw [hnone] at hT
      exact absurd hT (by decide)
    · omega
  · rw [hfinal]
    exact opnd_writeLanes hlegal htregs (fun l => length_loadWords _ (bs l)) hl hj hdst
  · have hat : ∀ p ∈ linesOf i b x pl key ls, nearLine (kept s.dev k.die k.core) k p.1 p.2.1 := by
      intro p hp
      obtain ⟨l, hl, rfl⟩ := List.mem_map.mp hp
      exact nearLine_kept (hnear l hl) _ _
    rw [touchLines_near hat] at hcode
    obtain ⟨rfl, rfl⟩ : kept s.dev k.die k.core = d1 ∧ Went.near = w := by simpa using hcode
    exact coreFrame_counted _ _ _ rfl rfl fun q hq => by
      simp [hq, settlePack_pack_ne, hquiet.pack]

end Sys2Proof.Proofs.GlobalLoads
end

section
/-! O37: global stores to lines at hand, and discards (R168, R195, R232, R233). -/

namespace Sys2Proof.Proofs.GlobalStores

open Sys2Proof.Machine Sys2Proof.Spec Sys2Proof.Proofs.PackIssue Sys2Proof.Proofs.BlockStores Sys2Proof.Proofs.QuietMemory
  Sys2Proof.Proofs.Touches Sys2Proof.Proofs.GlobalLoads

/-! ### A line that takes bytes -/

theorem getD_patchAt (off : Nat) (bs : List Byte) {o : Nat} (ho : o < 128) : (patchAt off bs).getD o none =
    if off ≤ o ∧ o < off + bs.length then some (bs.getD (o - off) 0) else none := by
  unfold patchAt
  rw [List.getD_eq_getElem _ _ (by simpa using ho), List.getElem_map, List.getElem_range]
  by_cases h : off ≤ o ∧ o < off + bs.length
  · rw [if_pos h, if_pos h.1, List.getElem?_eq_getElem (by omega), List.getD_eq_getElem _ _ (by omega)]
  · rw [if_neg h]
    split
    · exact List.getElem?_eq_none (by omega)
    · rfl

theorem length_patchAt (off : Nat) (bs : List Byte) : (patchAt off bs).length = 128 := by simp [patchAt]

theorem put_data {z : CLine} (hz : z.data.length = 128) (c q va : Nat) (bs : List Byte) {o : Nat} (ho : o < 128) :
    (z.put c q va bs).data.getD o 0 =
      if va % 128 ≤ o ∧ o < va % 128 + bs.length then bs.getD (o - va % 128) 0 else z.data.getD o 0 := by
  have hp := getD_patchAt (va % 128) bs ho
  unfold CLine.put overlay
  dsimp only
  rw [List.getD_eq_getElem _ _ (by simp [length_patchAt, hz, ho]), List.getElem_zipWith,
    ← List.getD_eq_getElem _ none (by simpa [length_patchAt] using ho), hp, ← List.getD_eq_getElem _ 0 (by omega)]
  split <;> rfl

theorem put_dirty {z : CLine} (hz : z.dirty.length = 128) (c q va : Nat) (bs : List Byte) {o : Nat} (ho : o < 128) :
    (z.put c q va bs).dirty.getD o false =
      if va % 128 ≤ o ∧ o < va % 128 + bs.length then true else z.dirty.getD o false := by
  have hp := getD_patchAt (va % 128) bs ho
  unfold CLine.put
  dsimp only
  rw [List.getD_eq_getElem _ _ (by simp [length_patchAt, hz, ho]), List.getElem_zipWith,
    ← List.getD_eq_getElem (patchAt _ _) none (by simpa [length_patchAt] using ho), hp,
    ← List.getD_eq_getElem _ false (by omega)]
  split <;> simp

/-! ### The lines of a core after the lanes' stores -/

section Lanes
variable (k : KBlock) (pl : Nat → Place) (key va : Nat → Nat) (bs : Nat → List Byte)

/-- A line after a lane's store. -/
def putOn (z : CLine) (l : Nat) : CLine :=
  if z.at_ == linePlace (pl l) && z.key == key l then z.put k.ctx k.seq (va l) (bs l) else z

/-- A core after a lane's store to its lines. -/
def coreAfter (t : CoreSt) (l : Nat) : CoreSt := { t with lines := t.lines.map fun z => putOn k pl key va bs z l }

/-- The device after a lane's store to its core's lines. -/
def storeAt (d : Device) (l : Nat) : Device := d.updCore k.die k.core fun t => coreAfter k pl key va bs t l

theorem putOn_at (z : CLine) (l : Nat) : (putOn k pl key va bs z l).at_ = z.at_ := by
  unfold putOn
  split <;> rfl

theorem putOn_key (z : CLine) (l : Nat) : (putOn k pl key va bs z l).key = z.key := by
  unfold putOn
  split <;> rfl

theorem line_coreAfter (t : CoreSt) (l : Nat) (p : Place) (kk : Nat) :
    (coreAfter k pl key va bs t l).line p kk = (t.line p kk).map fun z => putOn k pl key va bs z l := by
  unfold coreAfter CoreSt.line
  dsimp only
  rw [List.find?_map]
  congr 2
  funext z
  simp only [Function.comp, putOn_at, putOn_key]

theorem core_storeAt (d : Device) (l : Nat) :
    (storeAt k pl key va bs d l).core k.die k.core = coreAfter k pl key va bs (d.core k.die k.core) l := by
  unfold storeAt
  rw [Device.core_updCore, if_pos rfl]

theorem line_foldl_storeAt (ls : List Nat) (d : Device) (p : Place) (kk : Nat) :
    ((ls.foldl (storeAt k pl key va bs) d).core k.die k.core).line p kk =
      ((d.core k.die k.core).line p kk).map fun z => ls.foldl (putOn k pl key va bs) z := by
  induction ls generalizing d with
  | nil => simp
  | cons l ls ih =>
    rw [List.foldl_cons, ih, core_storeAt, line_coreAfter, Option.map_map]
    rfl

theorem foldl_storeAt_eq_cores (ls : List Nat) (d : Device) : ls.foldl (storeAt k pl key va bs) d =
    { d with collie := { d.collie with cores := (ls.foldl (storeAt k pl key va bs) d).collie.cores } } := by
  induction ls generalizing d with
  | nil => rfl
  | cons l ls ih =>
    rw [List.foldl_cons, ih]
    rfl

/-- Does a lane write byte `o` of a line? -/
def hits (n : Nat) (p : Place) (kk o l : Nat) : Bool :=
  decide (linePlace (pl l) = linePlace p ∧ key l = kk ∧ va l % 128 ≤ o ∧ o < va l % 128 + n)

/-- Of the lanes that write a byte of a line, ascending, the last one's stands, and it is marked dirty. -/
theorem foldl_putOn {y : CLine} {p : Place} {kk n : Nat} (hat : y.at_ = linePlace p) (hkey : y.key = kk)
    (hdata : y.data.length = 128) (hdirty : y.dirty.length = 128) (hbs : ∀ l, (bs l).length = n) (ls : List Nat) :
    let z := ls.foldl (putOn k pl key va bs) y
    z.at_ = linePlace p ∧ z.key = kk ∧ z.data.length = 128 ∧ z.dirty.length = 128 ∧ ∀ o, o < 128 →
      match (ls.filter (hits pl key va n p kk o)).getLast? with
      | some l => z.data.getD o 0 = (bs l).getD (o - va l % 128) 0 ∧ z.dirty.getD o false = true
      | none => z.data.getD o 0 = y.data.getD o 0 ∧ z.dirty.getD o false = y.dirty.getD o false := by
  induction ls using List.reverseRecOn with
  | nil => exact ⟨hat, hkey, hdata, hdirty, fun _ _ => ⟨rfl, rfl⟩⟩
  | append_singleton ls l ih =>
    obtain ⟨hat', hkey', hdata', hdirty', hbytes⟩ := ih
    dsimp only
    rw [List.foldl_append, List.foldl_cons, List.foldl_nil]
    generalize ls.foldl (putOn k pl key va bs) y = z at hat' hkey' hdata' hdirty' hbytes ⊢
    refine ⟨by rw [putOn_at, hat'], by rw [putOn_key, hkey'], ?_, ?_, fun o ho => ?_⟩
    · unfold putOn
      split
      · simp [CLine.put, overlay, length_patchAt, hdata']
      · exact hdata'
    · unfold putOn
      split
      · simp [CLine.put, length_patchAt, hdirty']
      · exact hdirty'
    · rw [List.filter_append, List.filter_singleton]
      by_cases hline : linePlace (pl l) = linePlace p ∧ key l = kk
      · obtain ⟨hpl, hkl⟩ := hline
        have hput : putOn k pl key va bs z l = z.put k.ctx k.seq (va l) (bs l) := by
          unfold putOn
          rw [if_pos (by simp [hat', hkey', hpl, hkl])]
        rw [hput, put_data hdata' _ _ _ _ ho, put_dirty hdirty' _ _ _ _ ho, hbs]
        by_cases hbyte : va l % 128 ≤ o ∧ o < va l % 128 + n
        · have hhit : hits pl key va n p kk o l = true := decide_eq_true ⟨hpl, hkl, hbyte⟩
          rw [hhit, if_pos hbyte, if_pos hbyte, cond_true, List.getLast?_concat]
          exact ⟨rfl, rfl⟩
        · have hhit : hits pl key va n p kk o l = false := decide_eq_false fun h => hbyte h.2.2
          rw [hhit, if_neg hbyte, if_neg hbyte, cond_false, List.append_nil]
          exact hbytes o ho
      · have hhit : hits pl key va n p kk o l = false := decide_eq_false fun h => hline ⟨h.1, h.2.1⟩
        have hput : putOn k pl key va bs z l = z := by
          unfold putOn
          rw [if_neg (by simp only [hat', hkey', Bool.and_eq_true, beq_iff_eq]; tauto)]
        rw [hput, hhit, cond_false, List.append_nil]
        exact hbytes o ho

end Lanes

/-! ### ST to lines at hand -/

theorem ownLine_near {d : Device} {k : KBlock} {p : Place × Nat × Nat} (h : ((d.core k.die k.core).line p.1 p.2.1).isSome) :
    d.ownLine k p = d := by
  unfold Device.ownLine
  rw [if_pos h]

theorem foldl_ownLine_near {d : Device} {k : KBlock} {ps : List (Place × Nat × Nat)}
    (h : ∀ p ∈ ps, ((d.core k.die k.core).line p.1 p.2.1).isSome) : ps.foldl (fun d p => d.ownLine k p) d = d := by
  induction ps with
  | nil => rfl
  | cons p ps ih =>
    rw [List.foldl_cons, ownLine_near (h p (by simp))]
    exact ih fun q hq => h q (by simp [hq])

theorem storeCore_near {d : Device} {k : KBlock} {pl : Nat → Place} {key va : Nat → Nat} {bs : Nat → List Byte} {l : Nat} (p : Nat)
    (hpeer : ∀ nd c r, pl l ≠ .peer nd c r) (h : ((d.core k.die k.core).line (pl l) (key l)).isSome) :
    d.storeCore k p l (va l) (pl l) (key l) (bs l) = .ok (storeAt k pl key va bs d l) := by
  obtain ⟨y, hy⟩ := Option.isSome_iff_exists.mp h
  have hfound : y.at_ = linePlace (pl l) ∧ y.key = key l := by
    simpa [CoreSt.line] using List.find?_some hy
  obtain ⟨hat, hkey⟩ := hfound
  unfold Device.storeCore storeAt coreAfter putOn
  rw [hy]
  cases hpl : pl l with
  | dev a => simp only [hat, hkey, hpl]
  | host a => simp only [hat, hkey, hpl]
  | peer nd c r => exact absurd hpl (hpeer nd c r)

variable {i : Issue} {b : MemBody} {s : State} {k : KBlock} {x : Pack} {pl : Nat → Place} {key : Nat → Nat} {ls : List Nat} {it : Item}

theorem globalStore_go
    (hlanes : ∀ l ∈ ls, laneAt s k (memAddr i b x l) (memBytes b.fmt.toNat) .write (pl l) (key l) ∧
      nearLine s.dev k (pl l) (key l)) : globalStore i b [] k x ls s.dev =
    .go (ls.foldl (storeAt k pl key (fun l => (memAddr i b x l).toNat) (storeBytes i b x)) (kept s.dev k.die k.core)) := by
  have hline : ∀ l ∈ ls, (((kept s.dev k.die k.core).core k.die k.core).line (pl l) (key l)).isSome := by
    intro l hl
    obtain ⟨-, y, hy, -⟩ := hlanes l hl
    rw [core_kept, hy]
    rfl
  have hplace : ∀ l ∈ ls, (kept s.dev k.die k.core).lanePlace k.ctx (memAddr i b x l) (memBytes b.fmt.toNat) .write =
      .ok ((memAddr i b x l).toNat, pl l, key l) := by
    intro l hl
    obtain ⟨⟨hplace, -⟩, -⟩ := hlanes l hl
    rw [lanePlace_kept, hplace]
  unfold globalStore
  dsimp only
  rw [evictCore_nil, loseWrites_nil _ rfl]
  dsimp only
  rw [eachLane_map (fun l => ((memAddr i b x l).toNat, pl l, key l)) fun l hl => by rw [hplace l hl]]
  have hhere : ((ls.map fun l => (l, (memAddr i b x l).toNat, pl l, key l)).filter fun v => !v.2.2.1.away) =
      ls.map fun l => (l, (memAddr i b x l).toNat, pl l, key l) :=
    List.filter_eq_self.mpr fun v hv => by
      obtain ⟨l, hl, rfl⟩ := List.mem_map.mp hv
      obtain ⟨⟨-, hpeer⟩, -⟩ := hlanes l hl
      simp [not_away hpeer]
  have hall : ((ls.map fun l => (l, (memAddr i b x l).toNat, pl l, key l)).map fun v => (v.2.2.1, v.2.2.2, v.2.1)) =
      linesOf i b x pl key ls := List.map_map
  dsimp only
  rw [hhere, hall, foldl_ownLine_near, touchLines_near]
  · dsimp only
    rw [eachLane_ok (fun d => (∀ l ∈ ls, d.lanePlace k.ctx (memAddr i b x l) (memBytes b.fmt.toNat) .write =
          .ok ((memAddr i b x l).toNat, pl l, key l)) ∧ ∀ l ∈ ls, ((d.core k.die k.core).line (pl l) (key l)).isSome)
        (fun _ => ()) (storeAt k pl key (fun l => (memAddr i b x l).toNat) (storeBytes i b x)) ls _ ⟨hplace, hline⟩]
    · rfl
    · intro l hl d ⟨hp, hd⟩
      obtain ⟨⟨-, hpeer⟩, -⟩ := hlanes l hl
      refine ⟨?_, hp, fun j hj => ?_⟩
      · rw [hp l hl]
        dsimp only
        rw [storeCore_near (va := fun l => (memAddr i b x l).toNat) (bs := storeBytes i b x) _ hpeer (hd l hl)]
      · rw [core_storeAt, line_coreAfter, Option.isSome_map]
        exact hd j hj
  · intro p hp
    obtain ⟨l, hl, rfl⟩ := List.mem_map.mp (List.mem_of_mem_filter hp)
    obtain ⟨-, hnear⟩ := hlanes l hl
    exact nearLine_kept hnear _ _
  · intro p hp
    obtain ⟨q, hq, rfl⟩ := mem_distinctLines (List.mem_of_mem_filter hp)
    obtain ⟨l, hl, rfl⟩ := List.mem_map.mp hq
    rw [line_linePlace]
    exact hline l hl

theorem globalStore_near (hissue : issues s (.memSt i b []) i k x it) (hlegal : memOk false k.tregs i b = true)
    (hspace : b.space = 0) (hlanes : ∀ l ∈ x.lanes (memFields false i b) i.guard,
      laneAt s k (memAddr i b x l) (memBytes b.fmt.toNat) .write (pl l) (key l) ∧ nearLine s.dev k (pl l) (key l)) :
    ∃ t, exec (.memSt i b []) s = .next t ∧ outerFrame k s t ∧ t.dev.pack i.pack = movedOn i x ∧
      (∀ q, q ≠ i.pack → t.dev.pack q = s.dev.pack q) ∧ t.dev.collie.blocks = s.dev.collie.blocks ∧
      ∀ p kk, (t.dev.core k.die k.core).line p kk = ((s.dev.core k.die k.core).line p kk).map fun z =>
        (x.lanes (memFields false i b) i.guard).foldl
          (putOn k pl key (fun l => (memAddr i b x l).toNat) (storeBytes i b x)) z := by
  have hpack := pack_of_issues hissue
  have hexec := exec_go hissue (f := memStore i b []) rfl rfl hlegal (by
    dsimp only
    rw [hspace]
    exact globalStore_go hlanes)
  have hcores := foldl_storeAt_eq_cores k pl key (fun l => (memAddr i b x l).toNat) (storeBytes i b x)
    (x.lanes (memFields false i b) i.guard) (kept s.dev k.die k.core)
  have hline := line_foldl_storeAt k pl key (fun l => (memAddr i b x l).toNat) (storeBytes i b x)
    (x.lanes (memFields false i b) i.guard) (kept s.dev k.die k.core)
  generalize (x.lanes (memFields false i b) i.guard).foldl (storeAt k pl key (fun l => (memAddr i b x l).toNat)
    (storeBytes i b x)) (kept s.dev k.die k.core) = e at hexec hcores hline
  have hpacks : ∀ q, e.pack q = s.dev.pack q := by
    intro q
    rw [hcores]
    rfl
  refine ⟨_, hexec, outerFrame_counted _ _ _ (by rw [hcores]; rfl), ?_, fun q hq => by simp [hq, hpacks], ?_, fun p kk => ?_⟩
  · simp [hpacks, hpack, movedOn, wordsOf]
  · rw [counted_blocks, hcores]
    rfl
  · rw [← core_kept s.dev k.die k.core, ← hline]
    unfold CoreSt.line
    rw [counted_lines]
    rfl

/-! ### DISCARD -/

theorem unused_eq_hub (d : Device) (die : Nat) (xs : List CLine) : d.unused die xs = { d with hub := (d.unused die xs).hub } := by
  unfold Device.unused
  induction xs generalizing d with
  | nil => rfl
  | cons x xs ih =>
    rw [List.foldl_cons, ih]
    split
    · split
      · rfl
      · rw [count_eq_hub]
    · rfl

theorem unusedLines_eq_hub (d : Device) (f : DLine → Bool) : d.unusedLines f = { d with hub := (d.unusedLines f).hub } := by
  unfold Device.unusedLines
  generalize d.mem.lines.filter f = xs
  induction xs generalizing d with
  | nil => rfl
  | cons x xs ih =>
    rw [List.foldl_cons, ih]
    split
    · split
      · rfl
      · rw [count_eq_hub]
    · rfl

/-- Memory after a line that no miss register holds has been discarded. -/
def lineDead (m : Mem) (l : Nat) : Mem := { m.dropCopies false l with dead := FMap.set false m.dead l true }

/-- A core after it has dropped its copies of a line of device memory. -/
def coreWithout (A : Nat) (t : CoreSt) : CoreSt := { t with lines := t.lines.filter fun z => z.at_ != linePlace (.dev A) }

theorem dropDead_eq {d : Device} {l : Nat} (hmiss : ∀ m ∈ d.mem.misses, m.line ≠ l) :
    ∃ h, d.dropDead l = { d with mem := lineDead d.mem l, hub := h } := by
  have hno : (d.mem.misses.any fun m => m.line == l) = false := List.any_eq_false.mpr fun m hm => by simpa using hmiss m hm
  unfold Device.dropDead
  rw [hno, if_neg (by decide), unusedLines_eq_hub]
  unfold Device.mapMem Mem.discardLine
  dsimp only
  rw [hno, if_neg (by decide)]
  exact ⟨_, rfl⟩

theorem discardFrom_eq {d : Device} {A : Nat} (hmiss : ∀ m ∈ d.mem.misses, m.line ≠ A / 128) : ∃ h,
    d.discardFrom k (.dev A) = { d.updCore k.die k.core (coreWithout A) with mem := lineDead d.mem (A / 128), hub := h } := by
  obtain ⟨h0, hunused⟩ : ∃ h0, d.unused k.die ((d.core k.die k.core).lines.filter fun z => z.at_ == linePlace (.dev A)) =
      { d with hub := h0 } := ⟨_, unused_eq_hub _ _ _⟩
  obtain ⟨h, hdrop⟩ := dropDead_eq (d := Device.updCore { d with hub := h0 } k.die k.core (coreWithout A)) hmiss
  have hfrom : d.discardFrom k (.dev A) =
      ((Device.updCore { d with hub := h0 } k.die k.core (coreWithout A)).dropDead (A / 128)).count k.ctx 112 1 := by
    unfold Device.discardFrom Device.discardLine
    dsimp only
    rw [hunused]
    rfl
  rw [hfrom, hdrop, count_eq_hub]
  exact ⟨_, rfl⟩

/-- What the discards of some lines leave of a device: the lines' copies are gone from the core and the die caches, they are dead, and
DRAM, the misses and the findings of ECC stay. -/
def Discarded (d : Device) (k : KBlock) (ps : List (Place × Nat × Nat)) (e : Device) : Prop :=
  e.collie.packs = d.collie.packs ∧ e.mem.misses = d.mem.misses ∧ e.mem.dram = d.mem.dram ∧ e.mem.bad = d.mem.bad ∧
    ∀ p ∈ ps, ∀ A, p.1 = .dev A → e.mem.cached false (A / 128) = none ∧ FMap.get false e.mem.dead (A / 128) = true ∧
      ∀ z ∈ (e.core k.die k.core).lines, z.at_ ≠ linePlace (.dev A)

theorem cached_lineDead {m : Mem} {l j : Nat} (h : j = l ∨ m.cached false j = none) : (lineDead m l).cached false j = none := by
  refine List.find?_eq_none.mpr fun z hz => ?_
  obtain ⟨hz, hkept⟩ := List.mem_filter.mp hz
  rcases h with rfl | h
  · rw [Bool.not_eq_true'] at hkept
    rw [hkept]
    exact Bool.false_ne_true
  · exact List.find?_eq_none.mp h z hz

theorem dead_lineDead {m : Mem} {l j : Nat} (h : j = l ∨ FMap.get false m.dead j = true) :
    FMap.get false (lineDead m l).dead j = true := by
  unfold lineDead
  rw [FMap.get_set]
  split
  next => rfl
  next hne => exact h.resolve_left hne

/-- The discards, one line after the other. -/
theorem discarded_foldl {d : Device} {ps : List (Place × Nat × Nat)}
    (hps : ∀ p ∈ ps, ∃ A, p.1 = .dev A ∧ ∀ m ∈ d.mem.misses, m.line ≠ A / 128) :
    Discarded d k ps (ps.foldl (fun d p => d.discardFrom k p.1) d) := by
  induction ps using List.reverseRecOn with
  | nil => exact ⟨rfl, rfl, rfl, rfl, nofun⟩
  | append_singleton ps p ih =>
    obtain ⟨hpacks, hmisses, hdram, hbad, hlines⟩ := ih fun q hq => hps q (by simp [hq])
    obtain ⟨A, hA, hmiss⟩ := hps p (by simp)
    rw [List.foldl_append, List.foldl_cons, List.foldl_nil, hA]
    generalize ps.foldl (fun d p => d.discardFrom k p.1) d = e at hpacks hmisses hdram hbad hlines ⊢
    obtain ⟨hub, heq⟩ := discardFrom_eq (k := k) (d := e) (A := A) (by rwa [hmisses])
    rw [heq]
    refine ⟨hpacks, hmisses, hdram, hbad, fun q hq C hC => ?_⟩
    have hcase : C = A ∨ e.mem.cached false (C / 128) = none ∧ FMap.get false e.mem.dead (C / 128) = true ∧
        ∀ z ∈ (e.core k.die k.core).lines, z.at_ ≠ linePlace (.dev C) := by
      rcases List.mem_append.mp hq with hq | hq
      · exact .inr (hlines q hq C hC)
      · rw [List.mem_singleton.mp hq, hA] at hC
        exact .inl (Place.dev.inj hC).symm
    refine ⟨cached_lineDead (hcase.imp (by rintro rfl; rfl) (·.1)), dead_lineDead (hcase.imp (by rintro rfl; rfl) (·.2.1)),
      fun z hz => ?_⟩
    have hz' : z ∈ (coreWithout A (e.core k.die k.core)).lines := by
      have hcore := Device.core_updCore e k.die k.core (coreWithout A) k.die k.core
      rw [if_pos rfl] at hcore
      rw [← hcore]
      exact hz
    obtain ⟨hzold, hzA⟩ := List.mem_filter.mp hz'
    rcases hcase with rfl | ⟨-, -, hgone⟩
    · simpa using hzA
    · exact hgone z hzold

theorem exists_mem_distinctLines {ps : List (Place × Nat × Nat)} {p : Place × Nat × Nat} (h : p ∈ ps) :
    ∃ q ∈ distinctLines ps, q.1 = linePlace p.1 := by
  unfold distinctLines
  induction ps using List.reverseRecOn with
  | nil => cases h
  | append_singleton ps p' ih =>
    rw [List.foldl_append, List.foldl_cons, List.foldl_nil]
    split
    next hany =>
      rcases List.mem_append.mp h with h | h
      · exact ih h
      · obtain ⟨q, hq, heq⟩ := List.any_eq_true.mp hany
        refine ⟨q, hq, ?_⟩
        rw [List.mem_singleton.mp h]
        simp only [Bool.and_eq_true, beq_iff_eq] at heq
        exact heq.1
    next =>
      rcases List.mem_append.mp h with h | h
      · obtain ⟨q, hq, heq⟩ := ih h
        exact ⟨q, by simp [hq], heq⟩
      · rw [List.mem_singleton.mp h]
        exact ⟨_, List.mem_append_right _ (List.mem_singleton_self _), rfl⟩

theorem discard_lines {a : Nat → Nat} (hissue : issues s (.memDiscard i b) i k x it) (hlegal : discardOk k.tregs i b = true)
    (hlanes : ∀ l ∈ x.lanes (discardFields i b) i.guard, laneAt s k (memAddr i b x l) 128 .write (.dev (a l)) (key l) ∧
      ∀ m ∈ s.dev.mem.misses, m.line ≠ a l / 128) :
    ∃ t, exec (.memDiscard i b) s = .next t ∧ t.plat = s.plat ∧ t.dev.pack i.pack = movedOn i x ∧
      t.dev.mem.dram = s.dev.mem.dram ∧ t.dev.mem.bad = s.dev.mem.bad ∧
      ∀ l ∈ x.lanes (discardFields i b) i.guard, t.dev.mem.cached false (a l / 128) = none ∧
        FMap.get false t.dev.mem.dead (a l / 128) = true ∧
        ∀ z ∈ (t.dev.core k.die k.core).lines, z.at_ ≠ .dev (a l / 128 * 128) := by
  have hpack := pack_of_issues hissue
  set ls := x.lanes (discardFields i b) i.guard with hls
  set ps := distinctLines (linesOf i b x (fun l => .dev (a l)) key ls) with hps
  have hexec := exec_go hissue (f := memDiscard i b) rfl rfl hlegal
    (e := ps.foldl (fun d p => d.discardFrom k p.1) s.dev) (by
      dsimp only
      rw [← hls, eachLane_map (fun l => ((memAddr i b x l).toNat, .dev (a l), key l)) fun l hl => by rw [(hlanes l hl).1.1]]
      dsimp only
      rw [List.map_map]
      rfl)
  have hdone : Discarded s.dev k ps (ps.foldl (fun d p => d.discardFrom k p.1) s.dev) := by
    refine discarded_foldl fun p hp => ?_
    obtain ⟨q, hq, rfl⟩ := mem_distinctLines hp
    obtain ⟨l, hl, rfl⟩ := List.mem_map.mp hq
    refine ⟨_, rfl, fun m hm => ?_⟩
    have := (hlanes l hl).2 m hm
    omega
  obtain ⟨hpacks, -, hdram, hbad, hlines⟩ := hdone
  refine ⟨_, hexec, rfl, ?_, ?_, ?_, fun l hl => ?_⟩
  · have hp : ∀ q, (ps.foldl (fun d p => d.discardFrom k p.1) s.dev).pack q = s.dev.pack q := by
      intro q
      unfold Device.pack
      rw [hpacks]
    simp [hp, hpack, movedOn, wordsOf]
  · rw [counted_mem]
    exact hdram
  · rw [counted_mem]
    exact hbad
  · obtain ⟨p, hp, hpl⟩ := exists_mem_distinctLines (List.mem_map_of_mem hl :
      ((.dev (a l), key l, (memAddr i b x l).toNat) : Place × Nat × Nat) ∈ linesOf i b x (fun l => .dev (a l)) key ls)
    obtain ⟨hcached, hdead, hcore⟩ := hlines p hp _ hpl
    rw [Nat.mul_div_cancel _ (by decide)] at hcached hdead
    refine ⟨?_, ?_, fun z hz => ?_⟩
    · rw [counted_mem]
      exact hcached
    · rw [counted_mem]
      exact hdead
    · rw [counted_lines] at hz
      have hne := hcore z hz
      rwa [linePlace, Nat.mul_div_cancel _ (by decide)] at hne

/-- Settles O37: a store to lines at hand changes those lines alone, and a discard drops every copy. -/
theorem globalStoresAndDiscards : Obligations.GlobalStoresAndDiscards := by
  constructor
  case right =>
    intro i b s k x it a key hissue hlegal hcore ls hlanes
    exact discard_lines hissue hlegal hlanes
  intro i b s k x it pl key hissue hlegal hspace hcore n ls hlanes
  obtain ⟨t, hexec, hframe, hpack, hpacks, hblocks, hline⟩ := globalStore_near hissue hlegal hspace hlanes
  refine ⟨t, hexec, hframe, hpack, hpacks, hblocks, fun p kk y hy hdata hdirty => ?_⟩
  have hfound : y.at_ = linePlace p ∧ y.key = kk := by
    simpa [CoreSt.line] using List.find?_some hy
  obtain ⟨hat, hkey⟩ := hfound
  obtain ⟨-, -, -, -, hbytes⟩ := foldl_putOn k pl key (fun l => (memAddr i b x l).toNat) (storeBytes i b x) hat hkey hdata hdirty
    (length_storeBytes i b x) ls
  refine ⟨_, by rw [hline, hy]; rfl, fun o ho => ?_⟩
  exact hbytes o ho

end Sys2Proof.Proofs.GlobalStores
end

section
/-! O39: ENG.ISSUE of a vector list (R179 to R181, R218). -/

namespace Sys2Proof.Proofs.EngIssues

open Sys2Proof.Machine Sys2Proof.Spec Sys2Proof.Proofs.PackIssue Sys2Proof.Proofs.QuietMemory Sys2Proof.Proofs.SoundCores
  Sys2Proof.Proofs.Touches

/-! ### The core's lines go back (R218) -/

/-- `d` has the items, contexts, engines, blocks and packs of `a`, and no line of the core is dirty. -/
def Cleaned (a : Device) (die core : Nat) (d : Device) : Prop :=
  Quiet a d ∧ ∀ y ∈ (d.core die core).lines, y.dirty.any id = false

variable {a d : Device} {die core : Nat}

theorem cleanCore_cleaned (h : coreSound d die core) :
    Device.loseWrites (d.cleanCore die core) = (d.cleanCore die core).1 ∧ Cleaned d die core (d.cleanCore die core).1 := by
  obtain ⟨hlost, -⟩ := writeBackAll_sound (Sound.of_coreSound h) die (xs := (d.core die core).lines.filter fun _ => true)
    fun x hx => (Sound.of_coreSound h).lines x (List.mem_of_mem_filter hx)
  refine ⟨loseWrites_nil _ hlost, (Quiet.refl d).cleanCore die core, fun y hy => ?_⟩
  unfold Device.cleanCore Device.cleanLines at hy
  dsimp only at hy
  rw [Device.core_updCore, if_pos rfl] at hy
  obtain ⟨x, -, rfl⟩ := List.mem_map.mp hy
  simp [CLine.clean]

theorem Cleaned.of_collie (h : Cleaned a die core d) {e : Device} (hquiet : Quiet a e) (hcollie : e.collie = d.collie) :
    Cleaned a die core e := by
  refine ⟨hquiet, fun y hy => h.2 y ?_⟩
  unfold Device.core at hy ⊢
  rwa [hcollie] at hy

theorem findWeak_collie (d : Device) (half : Nat) : (d.findWeak half).collie = d.collie := by
  unfold Device.findWeak
  split
  · rfl
  · rw [Device.mapMem_collie, apply_ite Device.collie]
    exact ite_self _

/-- H0 reads past the cores (R226). -/
theorem Cleaned.h0Lines (h : Cleaned a die core d) (c : Nat) (ls : List (Nat × Nat × Nat)) :
    Cleaned a die core (d.h0Lines c ls) := by
  unfold Device.h0Lines
  induction ls generalizing d with
  | nil => exact h
  | cons x ls ih =>
    refine ih ?_
    dsimp only
    split
    · exact h.of_collie h.1 rfl
    · refine h.of_collie (((h.1.count _ _ _).findWeak _).findWeak _) ?_
      unfold Device.pastCaches Device.deadRead
      rw [Device.mapMem_collie, findWeak_collie, findWeak_collie, Device.count_collie]

theorem Cleaned.h0Bytes (h : Cleaned a die core d) (act : Actor) (n va : Nat) :
    Cleaned a die core (d.h0Bytes act n va) := h.h0Lines act.ctx _

/-! ### Items by their names -/

/-- An item of a context with a sequence number after an update that keeps the names. -/
theorem item_updItem_map (d : Device) (c q : Nat) (f : Item → Item) (hf : ∀ it, (f it).ctx = it.ctx ∧ (f it).seq = it.seq)
    (b n : Nat) : (d.updItem c q f).item b n = (d.item b n).map fun i => if i.ctx == c && i.seq == q then f i else i := by
  unfold Device.item Device.updItem Device.mapHub
  dsimp only
  rw [List.find?_map]
  congr 2
  funext i
  dsimp only [Function.comp]
  split
  · rw [(hf i).1, (hf i).2]
  · rfl

theorem names_of_item {d : Device} {c q : Nat} {it : Item} (h : d.item c q = some it) : it.ctx = c ∧ it.seq = q := by
  simpa [Device.item] using List.find?_some h

theorem item_updItem_ne (d : Device) (c q : Nat) (f : Item → Item) (hf : ∀ it, (f it).ctx = it.ctx ∧ (f it).seq = it.seq)
    (b : Nat) {n : Nat} (hn : n ≠ q) : (d.updItem c q f).item b n = d.item b n := by
  rw [item_updItem_map _ _ _ _ hf]
  cases h : d.item b n with
  | none => rfl
  | some it =>
    obtain ⟨-, hseq⟩ := names_of_item h
    exact congrArg some (if_neg (by simp [hseq, hn]))

/-- The mark of the first issue is on the kernel item alone. -/
theorem item_counted_ne (d : Device) (time : Dword) (k : KBlock) (slot : Option Nat) (b : Nat) {n : Nat} (hn : n ≠ k.seq) :
    (counted d time k slot).item b n = d.item b n := by
  have hissued : (d.issued k slot).item b n = d.item b n := by
    rw [Device.issued_eq]
    change (Device.countUnit _ _ _ _ _ _).item b n = _
    simp
  rw [← hissued]
  unfold counted
  rcases (d.issued k slot).firstIssue_cases time k.ctx k.seq with h | ⟨d1, rfl, h⟩ | ⟨v, h⟩ <;> rw [h]
  · exact item_updItem_ne _ _ _ (fun x => { x with issued := true }) (fun _ => ⟨rfl, rfl⟩) _ hn
  · exact item_updItem_ne _ _ _ (fun x => { x with issued := true }) (fun _ => ⟨rfl, rfl⟩) _ hn

/-- An item as a record without claims or save leaves it once it is dispatched. -/
def asDispatched (rec : List Byte) (x : Item) : Item :=
  { x with oprec := rec, bAddr := none, holds := [], claims := [], phase := .dispatched }

/-- Only a row-engine product has a weight. -/
theorem weight_of_typ (d : Device) {it : Item} (h : it.typ ≠ 1) : d.weight it = .ok none := by
  unfold Device.weight
  exact if_pos (.inl h)

theorem updItem_updItem (d : Device) (c q : Nat) {f g : Item → Item} (hf : ∀ it, (f it).ctx = it.ctx ∧ (f it).seq = it.seq) :
    (d.updItem c q f).updItem c q g = d.updItem c q fun i => g (f i) := by
  unfold Device.updItem Device.mapHub
  dsimp only
  rw [List.map_map]
  congr 3
  funext i
  dsimp only [Function.comp]
  by_cases hi : (i.ctx == c && i.seq == q) = true
  · have hfi : ((f i).ctx == c && (f i).seq == q) = true := by rw [(hf i).1, (hf i).2]; exact hi
    simp only [hi, hfi, if_true]
  · simp only [hi, Bool.false_eq_true, if_false]

/-- Memory after no claim has been bound. -/
def unclaimed (m : Mem) : Mem := { m with segs := m.segs.map fun s => { s with claiming := s.claiming + 0 } }

theorem take_plain {d : Device} {p : Platform} {it : Item} {rec : List Byte} (hcovered : it.covered = false)
    (htyp : it.typ ≠ 1) (hsave : saveOk rec = true) (hno : saves? rec = false) (hclaims : claimWords rec = []) :
    d.take p it rec = (d.updItem it.ctx it.seq (asDispatched rec)).mapMem unclaimed := by
  have htake : d.take p it rec = (((((d.updItem it.ctx it.seq fun x => { x with oprec := rec }).updItem it.ctx it.seq fun x =>
      { x with bAddr := none, holds := [] }).updItem it.ctx it.seq fun x => { x with claims := [] }).updItem it.ctx it.seq
        fun x => { x with phase := .dispatched })).mapMem unclaimed := by
    unfold Device.take
    dsimp only
    rw [weight_of_typ _ (by exact htyp), hsave, hno, hclaims]
    dsimp only
    simp only [hcovered, Bool.false_and, Bool.not_true, Bool.false_eq_true, if_false]
    rfl
  refine htake.trans (congrArg (Device.mapMem · unclaimed) ?_)
  rw [updItem_updItem _ _ _ (by exact fun _ => ⟨rfl, rfl⟩), updItem_updItem _ _ _ (by exact fun _ => ⟨rfl, rfl⟩),
    updItem_updItem _ _ _ (by exact fun _ => ⟨rfl, rfl⟩)]
  rfl

/-! ### The engine (R180) -/

/-- The one that a scan for the least keeps is of the list, and no other is less. -/
theorem foldl_least (len : Nat → Nat) (ks : List Nat) (k : Nat) :
    ks.foldl (fun a b => if len b < len a then b else a) k ∈ k :: ks ∧
      ∀ j ∈ k :: ks, len (ks.foldl (fun a b => if len b < len a then b else a) k) ≤ len j := by
  induction ks generalizing k with
  | nil => simp
  | cons b ks ih =>
    rw [List.foldl_cons]
    obtain ⟨hmem, hle⟩ := ih (if len b < len k then b else k)
    have hpick : len (if len b < len k then b else k) ≤ len k ∧ len (if len b < len k then b else k) ≤ len b := by
      split <;> omega
    refine ⟨?_, fun j hj => ?_⟩
    · rcases List.mem_cons.mp hmem with heq | hmem
      · rw [heq]
        split <;> simp
      · simp [hmem]
    · have hfirst := hle _ List.mem_cons_self
      rcases List.mem_cons.mp hj with rfl | hj
      · exact hfirst.trans hpick.1
      · rcases List.mem_cons.mp hj with rfl | hj
        · exact hfirst.trans hpick.2
        · exact hle j (List.mem_cons_of_mem _ hj)

/-- A vector list goes to the engine it names, or to the one of the die with the shortest queue. -/
theorem target_vec {d : Device} {die : Nat} (hon : (d.die die).ve.st = .on) (it : Item) {n : Nat} (hn : n < 8 ∨ n = 15) :
    ∃ e, d.target it 1 die n = (some e, false) ∧ e < 8 ∧ (n < 8 → e = n) ∧
      (n = 15 → ∀ f, f < 8 → (d.vecEng die e).queue.length ≤ (d.vecEng die f).queue.length) := by
  have htakes : ∀ j, d.takes it 1 die j = true := by
    intro j
    unfold Device.takes Blk.isOn
    rw [if_neg (by decide), hon]
    rfl
  unfold Device.target
  rcases hn with hn | rfl
  · exact ⟨n, if_pos ⟨hn, htakes n⟩, hn, fun _ => rfl, fun h => absurd h (by omega)⟩
  · have hall : (List.range Config.enginesPerDie).filter (d.takes it 1 die) = 0 :: [1, 2, 3, 4, 5, 6, 7] :=
      List.filter_eq_self.mpr fun j _ => htakes j
    obtain ⟨hmem, hle⟩ := foldl_least (d.queueLen 1 die) [1, 2, 3, 4, 5, 6, 7] 0
    have hlt : ∀ j ∈ (0 :: [1, 2, 3, 4, 5, 6, 7] : List Nat), j < 8 := by decide
    have hin : ∀ j < 8, j ∈ (0 :: [1, 2, 3, 4, 5, 6, 7] : List Nat) := by decide
    refine ⟨_, ?_, hlt _ hmem, fun h => absurd h (by decide), fun _ f hf => hle f (hin f hf)⟩
    rw [if_neg fun h => absurd h.1 (by decide)]
    unfold Device.anyEngine
    rw [hall]
    rfl

theorem placeWork_vec {d : Device} {k : KBlock} (it : Item) {n e : Nat} (htarget : d.target it 1 k.die n = (some e, false))
    (he : e < 8) (hroom : (d.vecEng k.die e).queue.length < 64) : d.placeWork k it 1 n = .ok (d.veQueue it k.die e) := by
  have hq : d.queueRoom k 1 e = true := by
    unfold Device.queueRoom
    rw [if_pos (show e < Config.enginesPerDie from he)]
    exact decide_eq_true hroom
  unfold Device.placeWork
  rw [htarget]
  dsimp only [Option.getD_some]
  rw [if_neg (by simp [hq])]
  rfl

theorem mem_veQueue (d : Device) (it : Item) (die e : Nat) : (it.ctx, it.seq) ∈ ((d.veQueue it die e).vecEng die e).queue := by
  unfold Device.veQueue
  rw [Device.vecEng_updVe, if_pos rfl]
  simp

/-! ### The token (R181) -/

/-- As long as a token of 16 bits is unused, the block's next one is. -/
theorem freeToken_unused {k : KBlock} {tok : Nat} (h : k.freeToken = some tok) (hlen : k.tokens.length < 65536) :
    ∀ y ∈ k.tokens, y.tok ≠ tok := by
  unfold KBlock.freeToken at h
  rw [Nat.min_eq_right (by omega)] at h
  split at h
  next t hfind =>
    obtain rfl := Option.some.inj h
    have hunused := List.find?_some hfind
    rw [Bool.not_eq_true', List.any_eq_false] at hunused
    exact fun y hy heq => hunused y hy (by simp [heq])
  next hfind =>
    have hall : List.range (k.tokens.length + 1) ⊆ k.tokens.map Token.tok := by
      intro t ht
      have hused := List.find?_eq_none.mp hfind t ht
      obtain ⟨y, hy, heq⟩ : ∃ y ∈ k.tokens, y.tok = t := by simpa using hused
      exact List.mem_map.mpr ⟨y, hy, heq⟩
    have hle := (List.nodup_range.subperm hall).length_le
    simp at hle

/-- A uniform register reads as what has been written to it. -/
theorem opnd_write {x : Pack} {s : BitVec 8} (hs : uniformReg s = true) (hne : s ≠ 0xC1#8) (v : Dword) :
    opnd (x.write 0 s 1 v) none 0 s = v.setWidth 32 := by
  obtain ⟨hT, hU⟩ : 0x80 ≤ s.toNat ∧ s.toNat < 0xC0 := by
    unfold uniformReg selU at hs
    simpa [hne] using hs
  have hT' : ¬s.toNat < 0x80 := by omega
  unfold Pack.write Pack.putWord opnd
  simp only [hT', hU, if_true, if_false, show ¬(1 : Nat) = 2 by decide]
  unfold ureg
  dsimp only
  rw [Nat.add_zero, FMap.get_set_self]

/-! ### The work -/

/-- The work of a record that a kernel gives out. -/
def workOf (kit : Item) (b tok q : Nat) (r : List Byte) : Item :=
  { newItem kit.ctx q kit.slice r 0 with cls := kit.cls, layerIx := kit.seq, issuedBy := some (b, tok) }

theorem enterWork_snd (d : Device) (kit : Item) (b tok : Nat) (r : List Byte) :
    (d.enterWork kit b tok r).2 = workOf kit b tok (2 ^ 32 + d.hub.workSeq) r := rfl

/-- A lookup once an item has been entered behind the others. -/
theorem item_append (d : Device) (m : Nat) (w : Item) (c n : Nat) :
    Device.item (d.mapHub fun h => { h with workSeq := m, items := h.items ++ [w] }) c n =
      (d.item c n).or (if w.ctx = c ∧ w.seq = n then some w else none) := by
  unfold Device.item Device.mapHub
  dsimp only
  rw [List.find?_append, List.find?_singleton]
  congr 1
  by_cases hw : w.ctx = c ∧ w.seq = n
  · rw [if_pos hw, if_pos (by simpa using hw)]
  · rw [if_neg hw, if_neg (by simpa using hw)]

theorem enterWork_item {d : Device} {kit : Item} {b tok q : Nat} {r : List Byte} (hq : q = 2 ^ 32 + d.hub.workSeq)
    (hfresh : ∀ y ∈ d.hub.items, y.ctx = kit.ctx → y.seq ≠ q) (hkit : d.item kit.ctx kit.seq = some kit) :
    (d.enterWork kit b tok r).1.item kit.ctx q = some (workOf kit b tok q r) ∧
      ((d.enterWork kit b tok r).1.item kit.ctx kit.seq).isSome := by
  have hseq : kit.seq ≠ q := hfresh kit (List.mem_of_find?_eq_some hkit) rfl
  have hnone : d.item kit.ctx q = none :=
    List.find?_eq_none.mpr fun y hy hyq => by
      obtain ⟨hc, hq⟩ : y.ctx = kit.ctx ∧ y.seq = q := by simpa using hyq
      exact hfresh y hy hc hq
  have henter : (d.enterWork kit b tok r).1 = Device.updItem (d.mapHub fun h => { h with
      workSeq := d.hub.workSeq + 1, items := h.items ++ [workOf kit b tok q r] }) kit.ctx kit.seq fun x =>
        { x with out := x.out + 1 } := by
    rw [hq]
    rfl
  rw [henter, item_updItem_map _ _ _ _ (by exact fun _ => ⟨rfl, rfl⟩), item_updItem_map _ _ _ _ (by exact fun _ => ⟨rfl, rfl⟩),
    item_append, item_append, hnone, hkit]
  constructor
  · rw [if_pos ⟨rfl, rfl⟩]
    refine congrArg some (if_neg ?_)
    simp [workOf, newItem, Ne.symm hseq]
  · rfl

/-! ### The issue -/

/-- The record of a pack's ENG.ISSUE has been taken: the item is entered and dispatched, and the block holds the token. -/
def taken (d : Device) (p : Platform) (i : Issue) (b : EngBody) (x : Pack) (kit : Item) (tok q : Nat) (r rec : List Byte) : Device :=
  (((d.enterWork kit (i.pack / 16) tok r).1.giveToken i b x tok q).take p (workOf kit (i.pack / 16) tok q r) rec)

section Work
variable {i : Issue} {b : EngBody} {x : Pack} {kit : Item} {tok q : Nat} {r rec : List Byte} {p : Platform}

theorem taken_eq (htyp : field r 0 1 = 2) (hsave : saveOk rec = true) (hno : saves? rec = false) (hclaims : claimWords rec = []) :
    taken d p i b x kit tok q r rec = ((((d.enterWork kit (i.pack / 16) tok r).1.giveToken i b x tok q).updItem kit.ctx q
      (asDispatched rec)).mapMem unclaimed) :=
  take_plain rfl (show field r 0 1 ≠ 1 by omega) hsave hno hclaims

theorem taken_item (htyp : field r 0 1 = 2) (hsave : saveOk rec = true) (hno : saves? rec = false) (hclaims : claimWords rec = [])
    (hq : q = 2 ^ 32 + d.hub.workSeq) (hfresh : ∀ y ∈ d.hub.items, y.ctx = kit.ctx → y.seq ≠ q)
    (hkit : d.item kit.ctx kit.seq = some kit) :
    (taken d p i b x kit tok q r rec).item kit.ctx q = some (asDispatched rec (workOf kit (i.pack / 16) tok q r)) ∧
      ((taken d p i b x kit tok q r rec).item kit.ctx kit.seq).isSome := by
  obtain ⟨hwork, hkeep⟩ := enterWork_item (b := i.pack / 16) (tok := tok) (r := r) hq hfresh hkit
  have hitem : ∀ n, (taken d p i b x kit tok q r rec).item kit.ctx n =
      ((d.enterWork kit (i.pack / 16) tok r).1.item kit.ctx n).map fun y =>
        if y.ctx == kit.ctx && y.seq == q then asDispatched rec y else y := by
    intro n
    rw [taken_eq htyp hsave hno hclaims]
    exact item_updItem_map _ _ _ (asDispatched rec) (fun _ => ⟨rfl, rfl⟩) _ _
  rw [hitem, hitem, hwork, Option.isSome_map]
  exact ⟨congrArg some (if_pos (by simp [workOf, newItem])), hkeep⟩

theorem issueWork_vec {k : KBlock} {e : Nat} (htyp : field r 0 1 = 2) (hlist : field r 0x18 1 = 1) (hsave : saveOk rec = true)
    (hno : saves? rec = false) (hclaims : claimWords rec = []) (hq : q = 2 ^ 32 + d.hub.workSeq)
    (hfresh : ∀ y ∈ d.hub.items, y.ctx = kit.ctx → y.seq ≠ q) (hkit : d.item kit.ctx kit.seq = some kit)
    (hctx : kit.ctx = k.ctx) (hseq : kit.seq = k.seq) (hkind : b.kind.toNat = 1) (he : e < 8)
    (htarget : (taken d p i b x kit tok q r rec).target (asDispatched rec (workOf kit (i.pack / 16) tok q r)) 1 k.die b.k.toNat =
      (some e, false))
    (hroom : ((taken d p i b x kit tok q r rec).vecEng k.die e).queue.length < 64) :
    issueWork i b r rec p k kit x tok d = .go ((taken d p i b x kit tok q r rec).veQueue
      (asDispatched rec (workOf kit (i.pack / 16) tok q r)) k.die e) := by
  obtain ⟨hwork, hkeep⟩ := taken_item (p := p) (i := i) (b := b) (x := x) (tok := tok) htyp hsave hno hclaims hq hfresh hkit
  obtain ⟨kit', hkit'⟩ := Option.isSome_iff_exists.mp hkeep
  have hlegal : workLegal (taken d p i b x kit tok q r rec) (asDispatched rec (workOf kit (i.pack / 16) tok q r)) = none := by
    have h1 : (asDispatched rec (workOf kit (i.pack / 16) tok q r)).typ = 2 := htyp
    have h2 : (asDispatched rec (workOf kit (i.pack / 16) tok q r)).isStream = false := by
      unfold Item.isStream
      rw [Bool.and_eq_false_iff]
      exact .inr (beq_false_of_ne (show field r 0x18 1 ≠ 0 by omega))
    unfold workLegal
    rw [if_neg (by omega), h2]
    rfl
  have hplace := placeWork_vec _ htarget he hroom
  have hsnd : (d.enterWork kit (i.pack / 16) tok r).2 = workOf kit (i.pack / 16) tok q r := by rw [enterWork_snd, hq]
  have htaken : ((d.enterWork kit (i.pack / 16) tok r).1.giveToken i b x tok q).take p
      (workOf kit (i.pack / 16) tok q r) rec = taken d p i b x kit tok q r rec := rfl
  have hnames : (workOf kit (i.pack / 16) tok q r).ctx = kit.ctx ∧ (workOf kit (i.pack / 16) tok q r).seq = q := ⟨rfl, rfl⟩
  have hphase : (asDispatched rec (workOf kit (i.pack / 16) tok q r)).phase ≠ .done := nofun
  unfold issueWork
  simp only [hsnd, htaken, hnames, ← hctx, ← hseq, hkit', hwork, hphase, if_false, hlegal, hkind, hplace]

theorem taken_eng (htyp : field r 0 1 = 2) (hsave : saveOk rec = true) (hno : saves? rec = false) (hclaims : claimWords rec = []) :
    (taken d p i b x kit tok q r rec).eng = d.eng := by
  rw [taken_eq htyp hsave hno hclaims]
  rfl

theorem taken_collie (htyp : field r 0 1 = 2) (hsave : saveOk rec = true) (hno : saves? rec = false)
    (hclaims : claimWords rec = []) : (taken d p i b x kit tok q r rec).collie = (d.giveToken i b x tok q).collie := by
  rw [taken_eq htyp hsave hno hclaims]
  rfl

end Work

/-- A word of an operand that names a uniform register or zero is the operand. -/
theorem word_uniform {x : Pack} {s : BitVec 8} (hs : uniformReg s = true) : x.word none 0 s 0 = opnd x none 0 s := by
  unfold uniformReg selU at hs
  rcases (Bool.or_eq_true _ _).mp hs with hU | hnone
  · obtain ⟨h0, h1⟩ := of_decide_eq_true hU
    have hT : ¬s.toNat < 0x80 := by omega
    unfold Pack.word opnd ureg
    dsimp only
    rw [if_neg hT, if_neg hT, if_pos h1, if_pos h1, Nat.add_zero]
  · rw [beq_iff_eq.mp hnone]
    rfl

/-- What ENG.ISSUE asks of its fields (R189, R194). -/
theorem engIssueOk_fields {i : Issue} {b : EngBody} (h : engIssueOk i b = true) :
    i.imm = none ∧ uniformReg b.result = true ∧ uniformReg b.src = true := by
  unfold engIssueOk engOk at h
  simp only [if_true, Bool.and_eq_true] at h
  obtain ⟨⟨⟨⟨⟨himm, -⟩, hres⟩, hsrc⟩, -⟩, -⟩ := h
  exact ⟨Option.isNone_iff_eq_none.mp himm, hres, hsrc⟩

/-- A record of a vector list is one of type 2. -/
theorem typ_of_workRecordOk {r : List Byte} (h : workRecordOk 1 r = true) : field r 0 1 = 2 := by
  unfold workRecordOk at h
  simp only [Bool.and_eq_true] at h
  obtain ⟨-, h⟩ := h
  rw [if_neg (by decide), Bool.and_eq_true] at h
  exact beq_iff_eq.mp h.1

/-- The issue of a record that the core finds in its block's memory and whose operand record is read. -/
theorem exec_engIssue {s : State} {i : Issue} {b : EngBody} {k : KBlock} {x : Pack} {kit : Item} {r rec : List Byte} {tok at_ : Nat}
    {e : Device} (hissue : issues s (.engIssue i b) i k x kit) (hok : engIssueOk i b = true) (hk : b.k.toNat < 8 ∨ b.k = 15)
    (hkind : b.kind.toNat = 1) (hat : (opnd x none 0 b.src).toNat = at_) (hr : k.bytes at_ 64 = r) (hlen : at_ + 64 ≤ k.memLen)
    (hrecord : workRecordOk 1 r = true) (halign : field r 0x10 8 % 64 = 0)
    (hlose : Device.loseWrites (s.dev.cleanCore k.die k.core) = (s.dev.cleanCore k.die k.core).1)
    (hkit : (s.dev.cleanCore k.die k.core).1.item k.ctx k.seq = some kit) (htok : k.freeToken = some tok)
    (hread : ((s.dev.cleanCore k.die k.core).1.h0Bytes (kit.actor none) 128 (field r 0x10 8)).readBytes
      (kit.actor none) 128 (field r 0x10 8) = .ok rec)
    (hwork : issueWork i b r rec s.plat k kit x tok
      ((s.dev.cleanCore k.die k.core).1.h0Bytes (kit.actor none) 128 (field r 0x10 8)) = .go e) :
    exec (.engIssue i b) s = .next { s with
      dev := counted (e.updPack i.pack fun y => { y with pc := x.pc + wordsOf i }) s.plat.pow.time k x.slot } := by
  obtain ⟨himm, hresult, hsrc⟩ := engIssueOk_fields hok
  refine exec_go hissue (f := engIssue i b) rfl rfl ?_ ?_
  · rw [hok, Bool.true_and, Bool.or_eq_true]
    exact hk.imp decide_eq_true fun h => by rw [h]; rfl
  · dsimp only
    rw [hlose, hkit, htok, word_uniform hsrc, hat, hr]
    dsimp only
    rw [if_neg (by omega), hkind, hrecord, if_neg (by decide), if_neg (by omega), hread]
    exact hwork

/-- The device after the work has been entered, dispatched and queued. -/
structure Queued (d : Device) (i : Issue) (b : EngBody) (k : KBlock) (x : Pack) (kit : Item) (tok q : Nat) (r rec : List Byte)
    (e : Nat) (d3 : Device) : Prop where
  engine : e < 8
  named : b.k.toNat < 8 → e = b.k.toNat
  least : b.k.toNat = 15 → ∀ f, f < 8 → (d.vecEng k.die e).queue.length ≤ (d.vecEng k.die f).queue.length
  queue : (kit.ctx, q) ∈ (d3.vecEng k.die e).queue
  item : d3.item kit.ctx q = some (asDispatched rec (workOf kit (i.pack / 16) tok q r))
  collie : d3.collie = (d.giveToken i b x tok q).collie

theorem issueWork_queued {d : Device} {p : Platform} {i : Issue} {b : EngBody} {k : KBlock} {x : Pack} {kit : Item} {tok q : Nat}
    {r rec : List Byte} (htyp : field r 0 1 = 2) (hlist : field r 0x18 1 = 1) (hsave : saveOk rec = true)
    (hno : saves? rec = false) (hclaims : claimWords rec = []) (hq : q = 2 ^ 32 + d.hub.workSeq)
    (hfresh : ∀ y ∈ d.hub.items, y.ctx = kit.ctx → y.seq ≠ q) (hkit : d.item kit.ctx kit.seq = some kit)
    (hctx : kit.ctx = k.ctx) (hseq : kit.seq = k.seq) (hkind : b.kind.toNat = 1) (hk : b.k.toNat < 8 ∨ b.k.toNat = 15)
    (hon : (d.die k.die).ve.st = .on) (hroom : ∀ e, e < 8 → (d.vecEng k.die e).queue.length < 64) :
    ∃ e d3, issueWork i b r rec p k kit x tok d = .go d3 ∧ Queued d i b k x kit tok q r rec e d3 := by
  have heng := taken_eng (d := d) (p := p) (i := i) (b := b) (x := x) (kit := kit) (tok := tok) (q := q) htyp hsave hno hclaims
  have hcollie := taken_collie (d := d) (p := p) (i := i) (b := b) (x := x) (kit := kit) (tok := tok) (q := q) htyp hsave hno hclaims
  have hvec : ∀ e, (taken d p i b x kit tok q r rec).vecEng k.die e = d.vecEng k.die e := by
    intro e
    unfold Device.vecEng
    rw [heng]
  have hon2 : ((taken d p i b x kit tok q r rec).die k.die).ve.st = .on := by
    unfold Device.die at hon ⊢
    rwa [heng]
  obtain ⟨e, htarget, he, hnamed, hleast⟩ := target_vec hon2 (asDispatched rec (workOf kit (i.pack / 16) tok q r)) hk
  refine ⟨e, _, issueWork_vec htyp hlist hsave hno hclaims hq hfresh hkit hctx hseq hkind he htarget (by rw [hvec]; exact hroom e he),
    he, hnamed, fun h f hf => ?_, mem_veQueue _ _ _ _, ?_, hcollie⟩
  · rw [← hvec, ← hvec]
    exact hleast h f hf
  · exact (taken_item htyp hsave hno hclaims hq hfresh hkit).1

/-- Settles O39: the core's lines go back without loss, and the record then finds room on the engine it goes to. -/
theorem engIssueGivesATokenAndQueuesTheWork : Obligations.EngIssueGivesATokenAndQueuesTheWork := by
  intro i b s k x kit rec tok hissue hok hkind hk a r q hlen hrecord hlist halign hsound htok hread hsave hno hclaims hfresh hon
    hroom
  have ha : (opnd x none 0 b.src).toNat = a := rfl
  have hr : k.bytes a 64 = r := rfl
  have hq : q = 2 ^ 32 + s.dev.hub.workSeq := rfl
  clear_value r a q
  obtain ⟨hblock, hpack, hkit⟩ := Device.issuer_pack hissue.1
  obtain ⟨hctx, hseq⟩ := names_of_item hkit
  obtain ⟨himm, hresult, -⟩ := engIssueOk_fields hok
  obtain ⟨hlose, hclean⟩ := cleanCore_cleaned hsound
  have hactor : kit.actor none = ⟨k.ctx, k.seq, none, none⟩ := by rw [← hctx, ← hseq]; rfl
  rw [← hactor] at hread
  obtain ⟨hquiet, hlines⟩ := hclean.h0Bytes (kit.actor none) 128 (field r 0x10 8)
  set d1 := (s.dev.cleanCore k.die k.core).1.h0Bytes (kit.actor none) 128 (field r 0x10 8) with hd1
  obtain ⟨hitems, hwork, -, heng, -, -, -⟩ := id hquiet
  have hvec : ∀ e, d1.vecEng k.die e = s.dev.vecEng k.die e := by
    intro e
    unfold Device.vecEng
    rw [heng]
  have hkindN : b.kind.toNat = 1 := by rw [hkind]; rfl
  obtain ⟨e, d3, hgo, hqueued⟩ := issueWork_queued (p := s.plat) (i := i) (b := b) (x := x) (tok := tok) (q := q) (d := d1)
    (kit := kit) (k := k) (typ_of_workRecordOk hrecord) hlist hsave hno hclaims (by rw [hwork, hq]) (by rwa [hitems, hctx])
    (by rw [hquiet.item, hctx, hseq, hkit]) hctx hseq hkindN (hk.imp id fun h => by rw [h]; rfl)
    (by unfold Device.die at hon ⊢; rwa [heng]) fun e he => by rw [hvec]; exact hroom e he
  have hexec := exec_engIssue hissue hok hk hkindN ha hr hlen hrecord halign hlose (by rw [hclean.1.item, hkit]) htok hread hgo
  obtain ⟨he, hnamed, hleast, hqueue, hitem, hcollie⟩ := hqueued
  have hblock3 : d3.block (i.pack / 16) = some { k with tokens := (k.tokens.filter fun y => y.tok != tok) ++ [⟨tok, q, none⟩] } := by
    have hb : d3.block (i.pack / 16) = (d1.giveToken i b x tok q).block (i.pack / 16) := by
      unfold Device.block
      rw [hcollie]
    rw [hb, Device.giveToken, block_updPack, block_updBlock, if_pos rfl, hquiet.block, hblock]
    rfl
  have hpack3 : d3.pack i.pack = x.write 0 b.result 1 (BitVec.ofNat 64 tok) := by
    have hp : d3.pack i.pack = (d1.giveToken i b x tok q).pack i.pack := by
      unfold Device.pack
      rw [hcollie]
    rw [hp, Device.giveToken, Device.pack_updPack, if_pos rfl]
  have hlines3 : (d3.core k.die k.core).lines = (d1.core k.die k.core).lines := by
    unfold Device.core
    rw [hcollie]
    rfl
  have hseqq : q ≠ k.seq := by
    have hne := hfresh kit (List.mem_of_find?_eq_some hkit) hctx
    rw [hseq] at hne
    exact Ne.symm hne
  refine ⟨_, e, _, asDispatched rec (workOf kit (i.pack / 16) tok q r), hexec, rfl, he, hnamed, fun h f hf => ?_, ?_, rfl,
    freeToken_unused htok, fun hne => ?_, ?_, ?_, ?_, rfl, rfl, rfl, rfl, rfl, rfl, fun y hy => ?_⟩
  · rw [← hvec, ← hvec]
    exact hleast (by rw [h]; rfl) f hf
  · rw [counted_block, block_updPack]
    exact hblock3
  · rw [counted_pack, Device.pack_updPack, if_pos rfl, hpack3]
    refine (opnd_write hresult hne (BitVec.ofNat 64 tok)).trans ?_
    exact BitVec.setWidth_ofNat_of_le (by decide) _
  · rw [counted_pack, Device.pack_updPack, if_pos rfl, wordsOf, himm]
    rfl
  · rw [counted_vecEng, ← hctx]
    exact hqueue
  · rw [item_counted_ne _ _ _ _ _ hseqq, ← hctx]
    exact hitem
  · rw [counted_lines] at hy
    exact hlines y (by rw [← hlines3]; exact hy)

end Sys2Proof.Proofs.EngIssues
end

section
/-! What the lanes of a pack's instruction read and write: a source of one register or a pair, and a destination that takes each lane's
result while the rest of the pack stays (R183, R188 to R190). -/

namespace Sys2Proof.Proofs.LaneResults

open Sys2Proof.Machine Sys2Proof.Spec Sys2Proof.Proofs.PackIssue Sys2Proof.Proofs.GlobalLoads

/-! ### Sources -/

theorem toNat_eq_c0 (s : BitVec 8) : s.toNat = 0xC0 ↔ s = 0xC0#8 := by
  rw [BitVec.toNat_eq]
  rfl

theorem word_zero (x : Pack) (imm : Option Dword) (l : Nat) (s : BitVec 8) : x.word imm l s 0 = opnd x imm l s := by
  unfold Pack.word opnd treg ureg
  dsimp only
  rw [if_congr (toNat_eq_c0 s) rfl rfl, Nat.mul_zero, BitVec.ushiftRight_zero, Nat.add_zero, Nat.add_zero]

theorem append_halves (v : Dword) : (v >>> 32).setWidth 32 ++ v.setWidth 32 = v := by
  refine BitVec.eq_of_getLsbD_eq fun j hj => ?_
  simp only [BitVec.getLsbD_append, BitVec.getLsbD_setWidth, BitVec.getLsbD_ushiftRight]
  split
  next h => simp [h]
  next h => simp [show j - 32 < 32 by omega, show 32 + (j - 32) = j by omega]

theorem read_one (x : Pack) (imm : Option Dword) (l : Nat) (s : BitVec 8) : x.read imm l s 1 = (opnd x imm l s).setWidth 64 := by
  rw [Pack.read, if_neg (by decide), word_zero]

theorem read_two (x : Pack) (imm : Option Dword) (l : Nat) (s : BitVec 8) : x.read imm l s 2 = opnd64 x imm l s := by
  rw [Pack.read, if_pos rfl, word_zero]
  unfold Pack.word opnd opnd64 treg ureg
  dsimp only
  rw [if_congr (toNat_eq_c0 s) rfl rfl, Nat.mul_one, Nat.add_assoc]
  by_cases hT : s.toNat < 0x80
  · rw [if_pos hT, if_pos hT, if_pos hT]
  · rw [if_neg hT, if_neg hT, if_neg hT]
    by_cases hU : s.toNat < 0xC0
    · rw [if_pos hU, if_pos hU, if_pos hU]
    · rw [if_neg hU, if_neg hU, if_neg hU]
      by_cases hI : s = 0xC0#8
      · rw [if_pos hI, if_pos hI, if_pos hI, append_halves]
      · rw [if_neg hI, if_neg hI, if_neg hI]
        rfl

/-! ### Destinations -/

/-- The words a result puts into a destination of `n` registers. -/
def resultWords (n : Nat) (v : Dword) : List Word :=
  if n = 2 then [v.setWidth 32, (v >>> 32).setWidth 32] else [v.setWidth 32]

theorem length_resultWords {n : Nat} (h : n = 1 ∨ n = 2) (v : Dword) : (resultWords n v).length = n := by
  rcases h with rfl | rfl <;> rfl

theorem write_eq_writeWords (y : Pack) (l : Nat) (s : BitVec 8) (n : Nat) (v : Dword) :
    y.write l s n v = y.writeWords l s (resultWords n v) := by
  unfold Pack.write resultWords
  split <;> rfl

/-- Lanes that write their results one after the other write the words of these. -/
theorem foldl_write (s : BitVec 8) (n : Nat) (v : Nat → Dword) (ls : List Nat) (x : Pack) :
    ls.foldl (fun y l => y.write l s n (v l)) x = writeLanes s (fun l => resultWords n (v l)) ls x := by
  simp only [write_eq_writeWords]
  rfl

/-- Where a legal instruction puts its result: in thread registers, nowhere, or in uniform registers of a uniform instruction
(R188 to R190). -/
theorem dst_of_ok {o : Operands} {tregs : Nat} {i : Issue} {s : BitVec 8} {n : Nat} (h : o.ok tregs i = true)
    (hdst : o.dst = some (s, n)) :
    (s.toNat < 0x80 ∧ s.toNat + n ≤ tregs ∧ (n = 2 → s.toNat % 2 = 0)) ∨ s = 0xC1#8 ∨
      (0x80 ≤ s.toNat ∧ s.toNat + n ≤ 0xC0 ∧ o.uniform = true) := by
  unfold Operands.ok at h
  simp only [Bool.and_eq_true, Bool.not_eq_true'] at h
  obtain ⟨⟨⟨⟨⟨-, hlegal⟩, -⟩, -⟩, hmix⟩, -⟩ := h
  rw [hdst] at hlegal hmix
  simp only [Option.all_some, dstOk, regsOk, Bool.or_eq_true, Bool.and_eq_true, bne_iff_ne, beq_iff_eq] at hlegal
  rcases hlegal with ⟨heven, ⟨hT, hlen⟩ | ⟨hU, hlen⟩⟩ | hnone
  · exact .inl ⟨of_decide_eq_true hT, of_decide_eq_true hlen, fun h => heven.resolve_left (absurd h)⟩
  · obtain ⟨h0, h1⟩ := of_decide_eq_true hU
    refine .inr (.inr ⟨h0, of_decide_eq_true hlen, ?_⟩)
    have hT : selT s = false := decide_eq_false (by omega)
    simp only [Option.any_some, hU, Bool.true_and, Bool.or_eq_false_iff, List.any_eq_false] at hmix
    obtain ⟨hthread, hsrcs⟩ := hmix
    unfold Operands.uniform
    rw [hthread, hdst]
    simpa [hT] using hsrcs
  · exact .inr (.inl hnone)

/-- A result of one register or a pair lies within the thread registers of its lane. -/
theorem dst_lt {o : Operands} {tregs : Nat} {i : Issue} {s : BitVec 8} {n : Nat} (h : o.ok tregs i = true)
    (hdst : o.dst = some (s, n)) (hn : n = 1 ∨ n = 2) (hT : s.toNat < 128) : s.toNat + n ≤ 128 := by
  rcases dst_of_ok h hdst with ⟨-, -, heven⟩ | hnone | ⟨hU, -⟩
  · rcases hn with rfl | rfl
    · omega
    · have := heven rfl
      omega
  · rw [hnone] at hT
    exact absurd hT (by decide)
  · omega

section Writes

variable {o : Operands} {tregs : Nat} {i : Issue} {s : BitVec 8} {m : Nat} {ws : Nat → List Word} (hm : ∀ l, (ws l).length = m)
  (hs : s.toNat < 128 → s.toNat + m ≤ 128)
include hm

theorem ureg_writeLanes_of_outside (ls : List Nat) (y : Pack) {r : Nat}
    (h : ¬(s.toNat ≤ 0x80 + r ∧ 0x80 + r < s.toNat + m)) : ureg (writeLanes s ws ls y) r = ureg y r := by
  unfold writeLanes
  induction ls generalizing y with
  | nil => rfl
  | cons l ls ih =>
    rw [List.foldl_cons, ih, writeWords_eq]
    split
    · rfl
    · split
      · unfold ureg
        dsimp only
        rw [get_putWords, if_neg (by rw [hm]; omega)]
      · rfl

include hs

/-- A lane reads in the destination of a legal instruction the words it has written. -/
theorem opnd_writeLanes_of_ok (h : o.ok tregs i = true) (hdst : o.dst = some (s, m)) {x : Pack} {g : Option Guard} {l j : Nat}
    (hl : l ∈ x.lanes o g) (hj : j < m) (hne : s ≠ 0xC1#8) :
    opnd (writeLanes s ws (x.lanes o g) x) none l (s + BitVec.ofNat 8 j) = (ws l).getD j 0 := by
  unfold opnd
  rcases dst_of_ok h hdst with ⟨hT, -, -⟩ | hnone | ⟨hU, hlen, huniform⟩
  · have hlen := hs hT
    rw [toNat_reg (by omega), if_pos (by omega), treg_writeLanes _ hm hs _ _ (by omega),
      if_pos ⟨hl, by omega, by omega⟩, Nat.add_sub_cancel_left]
  · exact absurd hnone hne
  · rw [toNat_reg (by omega), if_neg (by omega), if_pos (by omega)]
    unfold Pack.lanes at hl ⊢
    rw [if_pos huniform] at hl ⊢
    obtain rfl := List.mem_singleton.mp hl
    rw [show s.toNat + j - 0x80 = s.toNat - 0x80 + j by omega]
    exact ureg_writeWords _ _ hU (by omega) (by rwa [hm])

/-- Of a pack whose lanes write a destination, all the rest stays. -/
theorem packFrame_writeLanes (i : Issue) (ls : List Nat) (x : Pack) :
    packFrame i s m ls x { writeLanes s ws ls x with pc := x.pc + wordsOf i } := by
  unfold packFrame
  refine ⟨?_, ?_, ?_, ?_, ?_, ?_, ?_, ?_, rfl, fun l r hr hout => ?_, fun r _ hout => ?_⟩
  iterate 8 (rw [writeLanes_eq_regs])
  · exact (treg_writeLanes x hm hs ls l hr).trans (if_neg hout)
  · exact ureg_writeLanes_of_outside hm ls x hout

end Writes

/-- A lane reads its result of one register in the destination. -/
theorem opnd_result {o : Operands} {tregs : Nat} {i : Issue} {s : BitVec 8} (h : o.ok tregs i = true) (hdst : o.dst = some (s, 1))
    (v : Nat → Dword) {x : Pack} {g : Option Guard} {l : Nat} (hl : l ∈ x.lanes o g) (hne : s ≠ 0xC1#8) :
    opnd (writeLanes s (fun l => resultWords 1 (v l)) (x.lanes o g) x) none l s = (v l).setWidth 32 := by
  have hread := opnd_writeLanes_of_ok (fun l => length_resultWords (.inl rfl) (v l)) (dst_lt h hdst (.inl rfl)) h hdst hl
    Nat.zero_lt_one hne
  rwa [BitVec.add_zero] at hread

/-- A lane reads its result of a pair in the destination. -/
theorem opnd64_result {o : Operands} {tregs : Nat} {i : Issue} {s : BitVec 8} (h : o.ok tregs i = true)
    (hdst : o.dst = some (s, 2)) (v : Nat → Dword) {x : Pack} {g : Option Guard} {l : Nat} (hl : l ∈ x.lanes o g)
    (hne : s ≠ 0xC1#8) :
    opnd64 (writeLanes s (fun l => resultWords 2 (v l)) (x.lanes o g) x) none l s = v l := by
  have hword : ∀ j, j < 2 → opnd (writeLanes s (fun l => resultWords 2 (v l)) (x.lanes o g) x) none l (s + BitVec.ofNat 8 j) =
      (resultWords 2 (v l)).getD j 0 := fun j hj =>
    opnd_writeLanes_of_ok (fun l => length_resultWords (.inr rfl) (v l)) (dst_lt h hdst (.inr rfl)) h hdst hl hj hne
  have hpair : ∀ y : Pack, opnd64 y none l s = opnd y none l (s + BitVec.ofNat 8 1) ++ opnd y none l (s + BitVec.ofNat 8 0) := by
    intro y
    unfold opnd64 opnd
    rcases dst_of_ok h hdst with ⟨hT, -, heven⟩ | hnone | ⟨hU, hlen, -⟩
    · have := heven rfl
      rw [toNat_reg (by omega), toNat_reg (by omega), if_pos hT, if_pos (by omega), if_pos (by omega)]
      rfl
    · exact absurd hnone hne
    · rw [toNat_reg (by omega), toNat_reg (by omega), if_neg (by omega), if_pos (by omega), if_neg (by omega), if_pos (by omega),
        if_neg (by omega), if_pos (by omega), show s.toNat + 1 - 0x80 = s.toNat - 0x80 + 1 by omega]
      rfl
  rw [hpair, hword 1 (by decide), hword 0 (by decide)]
  exact append_halves (v l)

/-! ### An instruction that changes its own pack alone -/

theorem exec_setPack {s : State} {c : Instr} {i : Issue} {k : KBlock} {x : Pack} {it : Item} {f : Platform → Device → Device}
    {legal : KBlock → Bool} {body : KBlock → Pack → Device → Ran} {y : Pack} (hissue : issues s c i k x it)
    (hexec : exec c s = onCode c f s) (hf : f s.plat s.dev = s.dev.runJkf i legal body s.plat) (hlegal : legal k = true)
    (hbody : body k x s.dev = .go (s.dev.setPack i.pack y)) :
    ∃ t, exec c s = .next t ∧ coreFrame k i.pack s t ∧ t.dev.pack i.pack = { y with pc := x.pc + wordsOf i } :=
  ⟨_, exec_go hissue hexec hf hlegal hbody, coreFrame_counted _ _ _ rfl rfl fun q hq => by simp [hq], by simp⟩

end Sys2Proof.Proofs.LaneResults
end

section
/-! O1, O2: INT and FP instructions (R146, R183, R197). -/

namespace Sys2Proof.Proofs.AluResults

open Sys2Proof.Machine Sys2Proof.Spec Sys2Proof.Proofs.PackIssue Sys2Proof.Proofs.GlobalLoads Sys2Proof.Proofs.LaneResults

/-! ### What an INT or FP instruction answers -/

theorem aluOk_fields {o : AluOp} {tregs : Nat} {i : Issue} {b : AluBody} (h : aluOk o tregs i b = true) :
    b.fmt.toNat ∈ o.fmts ∧ (aluFields o b).ok tregs i = true := by
  unfold aluOk at h
  simp only [Bool.and_eq_true, List.contains_iff_mem] at h
  obtain ⟨⟨⟨hfmt, -⟩, -⟩, hfields⟩ := h
  exact ⟨hfmt, hfields⟩

section Issue

variable {s : State} {c : Instr} {i : Issue} {k : KBlock} {x : Pack} {it : Item} {o : AluOp} {b : AluBody}
  (hissue : issues s c i k x it) (hexec : exec c s = onCode c (alu o i b) s) (hlegal : aluOk o k.tregs i b = true)
include hissue hexec hlegal

/-- Each lane writes what it computes from the registers as they stood before. -/
theorem exec_alu : ∃ t, exec c s = .next t ∧ coreFrame k i.pack s t ∧
    t.dev.pack i.pack = { writeLanes b.dst (fun l => resultWords (regsOf b.fmt.toNat) (aluLane o i b x l))
      (x.lanes (aluFields o b) i.guard) x with pc := x.pc + wordsOf i } :=
  exec_setPack hissue hexec rfl hlegal (by rw [foldl_write])

/-- Under a 32-bit format. -/
theorem exec_alu_word (hfmt : b.fmt.toNat ≠ 0x0F) : ∃ t, exec c s = .next t ∧ coreFrame k i.pack s t ∧
    packFrame i b.dst 1 (x.lanes (aluFields o b) i.guard) x (t.dev.pack i.pack) ∧
    ∀ l ∈ x.lanes (aluFields o b) i.guard, b.dst ≠ 0xC1#8 → opnd (t.dev.pack i.pack) none l b.dst =
      (o.f b.fmt.toNat b.cvt.toNat (preg x (b.cvt.toNat % 8) l) ((opnd x i.imm l b.a).setWidth 64)
        ((opnd x i.imm l b.b).setWidth 64) ((opnd x i.imm l b.c).setWidth 64)).setWidth 32 := by
  obtain ⟨-, hfields⟩ := aluOk_fields hlegal
  have hregs : regsOf b.fmt.toNat = 1 := if_neg hfmt
  have hdst : (aluFields o b).dst = some (b.dst, 1) := by rw [aluFields, hregs]
  obtain ⟨t, hgo, hframe, hpack⟩ := exec_alu hissue hexec hlegal
  rw [hregs] at hpack
  refine ⟨t, hgo, hframe, ?_, fun l hl hne => ?_⟩
  · rw [hpack]
    exact packFrame_writeLanes (fun l => length_resultWords (.inl rfl) _) (dst_lt hfields hdst (.inl rfl)) i _ x
  · rw [hpack]
    refine (opnd_result hfields hdst (aluLane o i b x) hl hne).trans ?_
    rw [aluLane, hregs]
    simp only [read_one]
    rfl

/-- Under b64. -/
theorem exec_alu_pair (hfmt : b.fmt.toNat = 0x0F) : ∃ t, exec c s = .next t ∧ coreFrame k i.pack s t ∧
    packFrame i b.dst 2 (x.lanes (aluFields o b) i.guard) x (t.dev.pack i.pack) ∧
    ∀ l ∈ x.lanes (aluFields o b) i.guard, b.dst ≠ 0xC1#8 → opnd64 (t.dev.pack i.pack) none l b.dst =
      o.f b.fmt.toNat b.cvt.toNat (preg x (b.cvt.toNat % 8) l) (opnd64 x i.imm l b.a) (opnd64 x i.imm l b.b)
        (opnd64 x i.imm l b.c) := by
  obtain ⟨-, hfields⟩ := aluOk_fields hlegal
  have hregs : regsOf b.fmt.toNat = 2 := if_pos hfmt
  have hdst : (aluFields o b).dst = some (b.dst, 2) := by rw [aluFields, hregs]
  obtain ⟨t, hgo, hframe, hpack⟩ := exec_alu hissue hexec hlegal
  rw [hregs] at hpack
  refine ⟨t, hgo, hframe, ?_, fun l hl hne => ?_⟩
  · rw [hpack]
    exact packFrame_writeLanes (fun l => length_resultWords (.inr rfl) _) (dst_lt hfields hdst (.inr rfl)) i _ x
  · rw [hpack]
    refine (opnd64_result hfields hdst (aluLane o i b x) hl hne).trans ?_
    rw [aluLane, hregs]
    simp only [read_two]
    rfl

end Issue

/-! ### The operations on words (R183, R197) -/

@[simp] theorem setWidth_word (x : Word) : (x.setWidth 64).setWidth 32 = x := by
  rw [BitVec.setWidth_setWidth_of_le x (by decide), BitVec.setWidth_eq]

/-- The value of a word under s32 and u32. -/
theorem intVal_word {m : Nat} (hm : m = 1 ∨ m = 2) (x : Word) :
    intVal m (x.setWidth 64) = if m == 1 then x.toInt else (x.toNat : Int) := by
  rw [intVal, setWidth_word]
  rcases hm with rfl | rfl <;> rfl

theorem intVal_eq_zero {m : Nat} (hm : m = 1 ∨ m = 2) (x : Word) : intVal m (x.setWidth 64) = 0 ↔ x = 0 := by
  rw [intVal_word hm]
  split
  · exact BitVec.toInt_inj (y := 0)
  · rw [Int.natCast_eq_zero]
    exact BitVec.toNat_inj (y := 0)

theorem intVal_lt {m : Nat} (hm : m = 1 ∨ m = 2) (x y : Word) : intVal m (x.setWidth 64) < intVal m (y.setWidth 64) ↔
    (if m == 1 then x.slt y else x.ult y) = true := by
  rw [intVal_word hm, intVal_word hm]
  split
  · exact BitVec.slt_iff_toInt_lt.symm
  · rw [Int.ofNat_lt]
    exact BitVec.ult_iff_toNat_lt.symm

theorem ofInt32_word (v : Int) : (ofInt32 v).setWidth 32 = BitVec.ofInt 32 v := setWidth_word _

theorem setWidth_sub_word (x y : Word) : (x.setWidth 64 - y.setWidth 64 : Dword).setWidth 32 = x - y := by
  refine BitVec.eq_of_toNat_eq ?_
  simp only [BitVec.toNat_setWidth, BitVec.toNat_sub]
  omega

theorem setWidth_shl_word (x : Word) (n : Nat) : ((x.setWidth 64 : Dword) <<< n).setWidth 32 = x <<< n := by
  refine BitVec.eq_of_getLsbD_eq fun j hj => ?_
  simp only [BitVec.getLsbD_setWidth, BitVec.getLsbD_shiftLeft, hj, show j < 64 by omega, show j - n < 64 by omega, decide_true,
    Bool.true_and]

theorem setWidth_shr_word (x : Word) (n : Nat) : ((x.setWidth 64 : Dword) >>> n).setWidth 32 = x >>> n := by
  rw [← BitVec.setWidth_ushiftRight (by decide), setWidth_word]

/-- The high word of a 64-bit number is its quotient by 2^32. -/
theorem highWord_eq (v : Dword) : (v >>> 32).setWidth 32 = BitVec.ofInt 32 (v.toInt / 2 ^ 32) := by
  refine BitVec.eq_of_toNat_eq ?_
  rw [BitVec.toNat_setWidth, BitVec.toNat_ushiftRight, Nat.shiftRight_eq_div_pow, BitVec.toNat_ofInt, BitVec.toInt_eq_toNat_cond]
  have := v.isLt
  split <;> omega

theorem toInt_signedProduct (x y : Word) : (x.signExtend 64 * y.signExtend 64).toInt = x.toInt * y.toInt := by
  rw [BitVec.toInt_mul, BitVec.toInt_signExtend_of_le (by decide), BitVec.toInt_signExtend_of_le (by decide)]
  have hx0 := BitVec.le_toInt x
  have hx1 := BitVec.toInt_lt (x := x)
  have hy0 := BitVec.le_toInt y
  have hy1 := BitVec.toInt_lt (x := y)
  have habs : |x.toInt * y.toInt| ≤ 2 ^ 31 * 2 ^ 31 := by
    rw [abs_mul]
    exact mul_le_mul (abs_le.mpr ⟨by omega, by omega⟩) (abs_le.mpr ⟨by omega, by omega⟩) (abs_nonneg _) (by decide)
  obtain ⟨hlo, hhi⟩ := abs_le.mp habs
  exact Int.bmod_eq_of_le (by omega) (by omega)

theorem mulhi_signed (x y : Word) : ((x.signExtend 64 * y.signExtend 64) >>> 32).setWidth 32 =
    BitVec.ofInt 32 (x.toInt * y.toInt / 2 ^ 32) := by
  rw [highWord_eq, toInt_signedProduct]

theorem mulhi_unsigned (x y : Word) : ((x.setWidth 64 * y.setWidth 64 : Dword) >>> 32).setWidth 32 =
    BitVec.ofInt 32 ((x.toNat : Int) * y.toNat / 2 ^ 32) := by
  have hlt : x.toNat * y.toNat < 2 ^ 32 * 2 ^ 32 := Nat.mul_lt_mul'' x.isLt y.isLt
  refine BitVec.eq_of_toNat_eq ?_
  rw [BitVec.toNat_setWidth, BitVec.toNat_ushiftRight, Nat.shiftRight_eq_div_pow, BitVec.toNat_ofInt, BitVec.toNat_mul,
    BitVec.toNat_setWidth_of_le (by decide), BitVec.toNat_setWidth_of_le (by decide), ← Int.natCast_mul]
  generalize x.toNat * y.toNat = p at hlt ⊢
  omega

theorem quotient_signed (x y : Word) : BitVec.ofInt 32 (x.toInt.tdiv y.toInt) = x.sdiv y := by
  refine BitVec.eq_of_toInt_eq ?_
  rw [BitVec.toInt_ofInt, BitVec.toInt_sdiv]

theorem quotient_unsigned (x y : Word) : BitVec.ofInt 32 ((x.toNat : Int).tdiv y.toNat) = x / y := by
  rw [← Int.ofNat_tdiv, BitVec.ofInt_natCast]
  refine BitVec.eq_of_toNat_eq ?_
  rw [BitVec.toNat_ofNat, BitVec.toNat_udiv, Nat.mod_eq_of_lt (Nat.lt_of_le_of_lt (Nat.div_le_self _ _) x.isLt)]

theorem remainder_signed (x y : Word) : BitVec.ofInt 32 (x.toInt.tmod y.toInt) = x.srem y := by
  rw [← BitVec.toInt_srem, BitVec.ofInt_toInt]

theorem remainder_unsigned (x y : Word) : BitVec.ofInt 32 ((x.toNat : Int).tmod y.toNat) = x % y := by
  rw [← Int.ofNat_tmod, BitVec.ofInt_natCast]
  refine BitVec.eq_of_toNat_eq ?_
  rw [BitVec.toNat_ofNat, BitVec.toNat_umod, Nat.mod_eq_of_lt (Nat.lt_of_le_of_lt (Nat.mod_le _ _) x.isLt)]

/-- Bits set in a word are those whose place in the number is 1. -/
theorem popCount_eq (x : Word) : popCount 32 (x.setWidth 64) = bitsSet x := by
  unfold popCount bitsSet
  have hlen : ∀ js : List Nat, (js.filter fun j => x.getLsbD j).length = (js.map fun j => x.toNat / 2 ^ j % 2).sum := by
    intro js
    induction js with
    | nil => rfl
    | cons j js ih =>
      have hbit : x.getLsbD j = decide (x.toNat / 2 ^ j % 2 = 1) := Nat.testBit_eq_decide_div_mod_eq
      rw [List.filter_cons, List.map_cons, List.sum_cons, ← ih, hbit]
      rcases Nat.mod_two_eq_zero_or_one (x.toNat / 2 ^ j) with h | h <;> simp [h, Nat.add_comm]
  rw [← hlen]
  refine congrArg List.length (List.filter_congr fun j hj => ?_)
  have hlt := List.mem_range.mp hj
  rw [BitVec.getLsbD_setWidth, decide_eq_true (by omega), Bool.true_and]

/-- A prefix of a range ends where the property first fails. -/
theorem length_takeWhile_range {p : Nat → Bool} {k n : Nat} (hk : k ≤ n) (hp : ∀ j, j < k → p j = true)
    (hstop : k < n → p k = false) : ((List.range n).takeWhile p).length = k := by
  obtain ⟨m, rfl⟩ := Nat.exists_eq_add_of_le hk
  rw [List.range_add, List.takeWhile_append_of_pos fun j hj => hp j (List.mem_range.mp hj)]
  cases m with
  | zero => simp
  | succ m =>
    rw [List.range_succ_eq_map, List.map_cons, List.takeWhile_cons_of_neg (by simp [hstop (by omega)]), List.append_nil,
      List.length_range]

theorem leadZeros_eq (x : Word) : leadZeros (x.setWidth 64) = if x = 0 then 32 else 31 - x.toNat.log2 := by
  have hbit : ∀ j, j < 32 → ((x.setWidth 64 : Dword).getLsbD (31 - j)) = x.toNat.testBit (31 - j) := fun j hj => by
    rw [BitVec.getLsbD_setWidth, decide_eq_true (by omega), Bool.true_and]
    rfl
  unfold leadZeros
  split
  next h =>
    subst h
    decide
  next h =>
    have hne : x.toNat ≠ 0 := fun h0 => h (BitVec.eq_of_toNat_eq h0)
    have hlog : x.toNat.log2 < 32 := (Nat.log2_lt hne).mpr x.isLt
    refine length_takeWhile_range (by omega) (fun j hj => ?_) fun _ => ?_
    · rw [hbit j (by omega), Nat.testBit_lt_two_pow, Bool.not_false]
      exact (Nat.log2_lt hne).mp (by omega)
    · rw [hbit _ (by omega), show 31 - (31 - x.toNat.log2) = x.toNat.log2 by omega, Nat.testBit_log2 hne]
      rfl

/-! ### INT (R197) -/

theorem exec_intWords {c : Instr} {i : Issue} {b : AluBody} {o : AluOp} {f} (h : intWords c = some (i, b, o, f)) (s : State) :
    exec c s = onCode c (alu o i b) s := by
  unfold intWords at h
  split at h
  all_goals cases h
  all_goals rfl

theorem fmts_intWords {c : Instr} {i : Issue} {b : AluBody} {o : AluOp} {f} (h : intWords c = some (i, b, o, f)) :
    ∀ m ∈ o.fmts, m ∈ intFmts64 := by
  unfold intWords at h
  split at h
  all_goals cases h
  all_goals decide

section Rows

variable {m : Nat} (hm : m = 1 ∨ m = 2) (x y : Word)
include hm

theorem fitFmt_word (v : Dword) : (fitFmt m v).setWidth 32 = v.setWidth 32 := by
  rw [fitFmt, if_neg (by omega), setWidth_word]

/-- The high word of the product (R197). -/
theorem mulhi_word : BitVec.ofInt 32 (intVal m (x.setWidth 64) * intVal m (y.setWidth 64) / 2 ^ 32) =
    if m == 1 then ((x.signExtend 64 * y.signExtend 64) >>> 32).setWidth 32
      else ((x.setWidth 64 * y.setWidth 64 : Dword) >>> 32).setWidth 32 := by
  rw [intVal_word hm, intVal_word hm]
  split
  · exact (mulhi_signed x y).symm
  · exact (mulhi_unsigned x y).symm

theorem quotient_word : (quotient m (x.setWidth 64) (y.setWidth 64)).setWidth 32 =
    if y = 0 then 0xFFFFFFFF#32 else if m == 1 then x.sdiv y else x / y := by
  rw [quotient, if_congr (intVal_eq_zero hm y) rfl rfl]
  split
  · rfl
  · rw [ofInt32_word, intVal_word hm, intVal_word hm]
    split
    · exact quotient_signed x y
    · exact quotient_unsigned x y

theorem remainder_word : (remainder m (x.setWidth 64) (y.setWidth 64)).setWidth 32 =
    if y = 0 then x else if m == 1 then x.srem y else x % y := by
  rw [remainder, if_congr (intVal_eq_zero hm y) rfl rfl]
  split
  · rw [fitFmt_word hm, setWidth_word]
  · rw [ofInt32_word, intVal_word hm, intVal_word hm]
    split
    · exact remainder_signed x y
    · exact remainder_unsigned x y

/-- The lesser of two words: the second where it is below the first. -/
theorem pick_word (u v : Word) : (if intVal m (u.setWidth 64) < intVal m (v.setWidth 64) then fitFmt m (y.setWidth 64)
    else fitFmt m (x.setWidth 64)).setWidth 32 =
      if m == 1 then (if u.slt v then y else x) else (if u.ult v then y else x) := by
  rw [apply_ite (BitVec.setWidth 32), fitFmt_word hm, fitFmt_word hm, setWidth_word, setWidth_word, if_congr (intVal_lt hm u v) rfl rfl]
  cases m == 1 <;> rfl

/-- A shift by less than the width (R197). -/
theorem shifted_word (n : Nat) (v : Dword) {r w : Word} (hr : (if y.toNat < 32 then some w else none) = some r)
    (hw : v.setWidth 32 = w) : (shifted n m (x.setWidth 64) (y.setWidth 64) v).setWidth 32 = r := by
  obtain ⟨hlt, rfl⟩ : y.toNat < 32 ∧ w = r := by simpa using hr
  have hamount : (y.setWidth 64 : Dword).toNat < widthOf m := by
    rw [BitVec.toNat_setWidth_of_le (by decide), widthOf, if_neg (by omega)]
    exact hlt
  rw [shifted, if_pos hamount, fitFmt_word hm, hw]

/-- Under s32 and u32 each operation gives the word of its row. -/
theorem result_intWords {c : Instr} {i : Issue} {b : AluBody} {o : AluOp} {f} (h : intWords c = some (i, b, o, f)) (v : Nat)
    (p : Bool) (z : Dword) {r : Word} (hr : f (m == 1) p x y = some r) :
    (o.f m v p (x.setWidth 64) (y.setWidth 64) z).setWidth 32 = r := by
  have hamount : (y.setWidth 64 : Dword).toNat = y.toNat := BitVec.toNat_setWidth_of_le (by decide)
  unfold intWords at h
  split at h
  all_goals cases h
  case h_13 => exact shifted_word hm x y 0 _ hr (by rw [hamount, setWidth_shl_word])
  case h_14 => exact shifted_word hm x y 1 _ hr (by rw [hamount, setWidth_shr_word])
  case h_15 => exact shifted_word hm x y 2 _ hr (by rw [hamount, setWidth_word, setWidth_word])
  all_goals obtain rfl := Option.some.inj hr
  case h_1 => exact (fitFmt_word hm _).trans (by rw [BitVec.setWidth_add _ _ (by decide), setWidth_word, setWidth_word])
  case h_2 => exact (fitFmt_word hm _).trans (setWidth_sub_word x y)
  case h_3 => exact (fitFmt_word hm _).trans (by rw [BitVec.setWidth_mul _ _ (by decide), setWidth_word, setWidth_word])
  case h_4 => exact (ofInt32_word _).trans (mulhi_word hm x y)
  case h_5 => exact quotient_word hm x y
  case h_6 => exact remainder_word hm x y
  case h_7 => exact pick_word hm x y y x
  case h_8 => exact pick_word hm x y x y
  case h_9 => exact (fitFmt_word hm _).trans (by rw [BitVec.setWidth_and, setWidth_word, setWidth_word])
  case h_10 => exact (fitFmt_word hm _).trans (by rw [BitVec.setWidth_or, setWidth_word, setWidth_word])
  case h_11 => exact (fitFmt_word hm _).trans (by rw [BitVec.setWidth_xor, setWidth_word, setWidth_word])
  case h_12 => exact (fitFmt_word hm _).trans (by rw [BitVec.setWidth_not (by decide), setWidth_word])
  case h_16 => exact (BitVec.setWidth_ofNat_of_le (by decide) _).trans (congrArg _ (popCount_eq x))
  case h_17 => exact (BitVec.setWidth_ofNat_of_le (by decide) _).trans (congrArg _ (leadZeros_eq x))
  case h_18 => exact (setWidth_word _).trans (congrArg _ (setWidth_word x))
  case h_19 => exact (fitFmt_word hm _).trans (setWidth_word x)
  case h_20 => exact (fitFmt_word hm _).trans (by rw [apply_ite (BitVec.setWidth 32), setWidth_word, setWidth_word])

end Rows

/-- An operation that b64 allows is one of the rows of words. -/
theorem exec_intPairs {c : Instr} {i : Issue} {b : AluBody} {o : AluOp} {f} (h : intPairs c = some (i, b, o, f)) (s : State) :
    exec c s = onCode c (alu o i b) s := by
  unfold intPairs at h
  split at h
  all_goals cases h
  all_goals rfl

theorem shifted_pair (n : Nat) (x y v : Dword) {r : Dword} (hr : (if y.toNat < 64 then some v else none) = some r) :
    shifted n 0x0F x y v = r := by
  obtain ⟨hlt, rfl⟩ : y.toNat < 64 ∧ v = r := by simpa using hr
  exact if_pos hlt

/-- Under b64 each operation gives the pair of its row. -/
theorem result_intPairs {c : Instr} {i : Issue} {b : AluBody} {o : AluOp} {f} (h : intPairs c = some (i, b, o, f)) (v : Nat)
    (p : Bool) (x y z : Dword) {r : Dword} (hr : f p x y = some r) : o.f 0x0F v p x y z = r := by
  unfold intPairs at h
  split at h
  all_goals cases h
  case h_7 => exact shifted_pair 0 x y _ hr
  case h_8 => exact shifted_pair 1 x y _ hr
  all_goals exact Option.some.inj hr

/-- Settles O1: each lane writes what it computes, and by rows that is the word or the pair of the rules. -/
theorem integerInstructionsComputeTheirResults : Obligations.IntegerInstructionsComputeTheirResults := by
  refine ⟨fun c i b o f hrow s k x it hissue hlegal h64 => ?words, fun c i b o f hrow s k x it hissue hlegal h64 => ?pairs⟩
  case words =>
    have hne : b.fmt.toNat ≠ 0x0F := fun h => h64 (BitVec.eq_of_toNat_eq h)
    obtain ⟨hfmt, -⟩ := aluOk_fields hlegal
    have hm : b.fmt.toNat = 1 ∨ b.fmt.toNat = 2 := by
      have := fmts_intWords hrow _ hfmt
      simp only [intFmts64, List.mem_cons, List.not_mem_nil, or_false] at this
      omega
    have hsigned : (b.fmt == 1) = (b.fmt.toNat == 1) := by
      rw [Bool.eq_iff_iff, beq_iff_eq, beq_iff_eq]
      exact BitVec.toNat_inj.symm
    obtain ⟨t, hgo, hframe, hpack, hresult⟩ := exec_alu_word hissue (exec_intWords hrow s) hlegal hne
    refine ⟨t, hgo, hframe, hpack, fun l hl r hr hdst => ?_⟩
    rw [hresult l hl hdst]
    exact result_intWords hm _ _ hrow _ _ _ (hsigned ▸ hr)
  case pairs =>
    have hm : b.fmt.toNat = 0x0F := congrArg BitVec.toNat h64
    obtain ⟨t, hgo, hframe, hpack, hresult⟩ := exec_alu_pair hissue (exec_intPairs hrow s) hlegal hm
    refine ⟨t, hgo, hframe, hpack, fun l hl r hr hdst => ?_⟩
    rw [hresult l hl hdst, hm]
    exact result_intPairs hrow _ _ _ _ _ hr

/-! ### FP and CVT (R146, R197) -/

theorem exec_fpWords {c : Instr} {i : Issue} {b : AluBody} {o : AluOp} {f} (h : fpWords c = some (i, b, o, f)) (s : State) :
    exec c s = onCode c (alu o i b) s := by
  unfold fpWords at h
  split at h
  all_goals cases h
  all_goals rfl

theorem fmts_fpWords {c : Instr} {i : Issue} {b : AluBody} {o : AluOp} {f} (h : fpWords c = some (i, b, o, f)) :
    ∀ m ∈ o.fmts, m ≠ 0x0F := by
  unfold fpWords at h
  split at h
  all_goals cases h
  all_goals decide

/-- Each operation gives the word of its row. -/
theorem result_fpWords {c : Instr} {i : Issue} {b : AluBody} {o : AluOp} {f} (h : fpWords c = some (i, b, o, f)) (m v : Nat)
    (p : Bool) (x y z : Word) :
    (o.f m v p (x.setWidth 64) (y.setWidth 64) (z.setWidth 64)).setWidth 32 = f m v x y z := by
  unfold fpWords at h
  split at h
  all_goals cases h
  case h_20 => exact (BitVec.setWidth_ofNat_of_le (by decide) _).trans (by rw [setWidth_word])
  case h_21 => exact (setWidth_word _).trans (by rw [BitVec.toNat_setWidth_of_le (by decide)])
  all_goals
    refine (setWidth_word _).trans ?_
    simp only [setWidth_word]

/-- Settles O2: each lane writes what it computes, and by rows that is the FP32 operation or conversion. -/
theorem floatInstructionsComputeWords : Obligations.FloatInstructionsComputeWords := by
  intro c i b o f hrow s k x it hissue hlegal
  obtain ⟨hfmt, -⟩ := aluOk_fields hlegal
  obtain ⟨t, hgo, hframe, hpack, hresult⟩ := exec_alu_word hissue (exec_fpWords hrow s) hlegal (fmts_fpWords hrow _ hfmt)
  refine ⟨t, hgo, hframe, hpack, fun l hl hdst => ?_⟩
  rw [hresult l hl hdst]
  exact result_fpWords hrow _ _ _ _ _ _

end Sys2Proof.Proofs.AluResults
end

section
/-! O3: comparisons, class tests and predicate logic (R146, R192, R194, R197). -/

namespace Sys2Proof.Proofs.PredicateResults

open Sys2Proof.Machine Sys2Proof.Spec Sys2Proof.Proofs.PackIssue Sys2Proof.Proofs.LaneResults Sys2Proof.Proofs.AluResults

/-! ### Predicates written lane by lane (R192) -/

theorem getLsbD_putBit (w : Word) {j : Nat} (hj : j < 32) (v : Bool) (l : Nat) :
    (putBit w j v).getLsbD l = if l = j then v else w.getLsbD l := by
  have hbit : (1#32 <<< j).getLsbD l = decide (l = j) := by
    rw [BitVec.getLsbD_shiftLeft, BitVec.getLsbD_one]
    by_cases hl : l = j
    · simp [hl, hj]
    · simp only [hl, decide_false]
      by_cases hlt : l < j
      · simp [hlt]
      · simp [show l - j ≠ 0 by omega]
  unfold putBit
  cases v
  · by_cases hl : l = j
    · simp [hl, hj]
    · simpa [hbit, hl] using fun h => BitVec.lt_of_getLsbD h
  · by_cases hl : l = j
    · simp [hl, hj]
    · simp [hbit, hl]

/-- A pack after each of some lanes has written a predicate. -/
def setLanes (pd : Nat) (v : Nat → Bool) (ls : List Nat) (x : Pack) : Pack := ls.foldl (fun y l => y.putPred pd l (v l)) x

theorem setLanes_eq_preds (pd : Nat) (v : Nat → Bool) (ls : List Nat) (x : Pack) :
    setLanes pd v ls x = { x with preds := (setLanes pd v ls x).preds } := by
  unfold setLanes
  induction ls generalizing x with
  | nil => rfl
  | cons l ls ih =>
    rw [List.foldl_cons, ih]
    rfl

theorem preg_putPred (y : Pack) (pd : Nat) {j : Nat} (hj : j < 32) (v : Bool) (p l : Nat) :
    preg (y.putPred pd j v) p l = if p = pd ∧ l = j then v else preg y p l := by
  unfold preg Pack.putPred FMap.upd
  dsimp only
  rw [FMap.get_set]
  by_cases hp : p = pd
  · rw [if_pos hp, getLsbD_putBit _ hj, hp]
    simp
  · rw [if_neg hp, if_neg fun h => hp h.1]

theorem preg_setLanes (pd : Nat) (v : Nat → Bool) (ls : List Nat) (hls : ∀ l ∈ ls, l < 32) (x : Pack) (p l : Nat) :
    preg (setLanes pd v ls x) p l = if p = pd ∧ l ∈ ls then v l else preg x p l := by
  unfold setLanes
  induction ls using List.reverseRecOn with
  | nil => simp
  | append_singleton ls j ih =>
    rw [List.foldl_append, List.foldl_cons, List.foldl_nil, preg_putPred _ _ (hls j (by simp)), ih fun l hl => hls l (by simp [hl])]
    by_cases hl : l = j
    · subst hl
      by_cases hp : p = pd <;> simp [hp]
    · simp [hl]

theorem lt_of_mem_lanesOf {m : Word} {l : Nat} (h : l ∈ lanesOf m) : l < 32 := List.mem_range.mp (List.mem_filter.mp h).1

theorem predFrame_setLanes (i : Issue) (pd : Nat) (v : Nat → Bool) (m : Word) (x : Pack) :
    predFrame i pd (lanesOf m) v x { setLanes pd v (lanesOf m) x with pc := x.pc + wordsOf i } := by
  have hpreg := preg_setLanes pd v (lanesOf m) (fun _ => lt_of_mem_lanesOf) x
  unfold predFrame
  refine ⟨?_, ?_, ?_, ?_, ?_, ?_, ?_, ?_, ?_, rfl, fun j l hj => ?_, fun l _ => ?_⟩
  iterate 9 (rw [setLanes_eq_preds])
  · exact (hpreg j l).trans (if_neg fun h => hj h.1)
  · exact (hpreg pd l).trans (if_congr (and_iff_right rfl) rfl rfl)

/-! ### What PRED answers (R194) -/

theorem combine_eq_combined (comb : BitVec 2) (r p : Bool) : combine comb r p = combined comb r p := by
  cases r <;> cases p <;> revert comb <;> decide

/-- The operands as a comparison takes them: words, or pairs under b64. -/
theorem read_operand (x : Pack) (imm : Option Dword) (l : Nat) (s : BitVec 8) (m : Nat) :
    x.read imm l s (regsOf m) = if m = 0x0F then opnd64 x imm l s else (opnd x imm l s).setWidth 64 := by
  unfold regsOf
  split
  · exact read_two x imm l s
  · exact read_one x imm l s

section Issue

variable {s : State} {c : Instr} {i : Issue} {k : KBlock} {x : Pack} {it : Item} (hissue : issues s c i k x it)
include hissue

/-- Each lane that the guard passes sets the predicate. -/
theorem exec_setPred {b : PredBody} {cls : Bool} {f : Nat → Dword → Dword → Bool}
    (hexec : exec c s = onCode c (setPred cls f i b) s) (hlegal : predOk cls k.tregs i b = true) {v : Nat → Bool}
    (hv : ∀ l, combined b.comb (f b.fmt.toNat (x.read i.imm l b.a (regsOf b.fmt.toNat)) (x.read i.imm l b.b (regsOf b.fmt.toNat)))
      (preg x b.ps.toNat l) = v l) :
    ∃ t, exec c s = .next t ∧ coreFrame k i.pack s t ∧
      predFrame i b.pd.toNat (lanesOf (x.passing i.guard)) v x (t.dev.pack i.pack) := by
  obtain ⟨t, hgo, hframe, hpack⟩ := exec_setPack hissue hexec (y := setLanes b.pd.toNat v (lanesOf (x.passing i.guard)) x) rfl hlegal
    (by
      dsimp only
      simp only [combine_eq_combined]
      rw [← funext hv]
      rfl)
  exact ⟨t, hgo, hframe, hpack ▸ predFrame_setLanes i _ v _ x⟩

theorem exec_setPlog {b : PlogBody} {f : Bool → Bool → Bool} (hexec : exec c s = onCode c (setPlog f i b) s)
    (himm : i.imm = none) : ∃ t, exec c s = .next t ∧ coreFrame k i.pack s t ∧
      predFrame i b.pd.toNat (lanesOf (x.passing i.guard)) (fun l => f (preg x b.pa.toNat l) (preg x b.pb.toNat l)) x
        (t.dev.pack i.pack) := by
  obtain ⟨t, hgo, hframe, hpack⟩ := exec_setPack hissue hexec
    (y := setLanes b.pd.toNat (fun l => f (preg x b.pa.toNat l) (preg x b.pb.toNat l)) (lanesOf (x.passing i.guard)) x) rfl
    (by rw [himm]; rfl) rfl
  exact ⟨t, hgo, hframe, hpack ▸ predFrame_setLanes i _ _ _ x⟩

end Issue

/-! ### Comparisons (R146, R197) -/

/-- Which of less, equal and greater a comparison accepts. -/
def accepts : CmpOp → Bool × Bool × Bool
  | .eq => (false, true, false)
  | .ne => (true, false, true)
  | .lt => (true, false, false)
  | .le => (true, true, false)
  | .gt => (false, false, true)
  | .ge => (false, true, true)

/-- A comparison of integers accepts by their order. -/
theorem int_eq_accepts (o : CmpOp) {a b : Int} {lt eq gt : Bool} (hlt : lt = true ↔ a < b) (heq : eq = true ↔ a = b)
    (hgt : gt = true ↔ b < a) :
    o.int a b = ((accepts o).1 && lt || (accepts o).2.1 && eq || (accepts o).2.2 && gt) := by
  rw [Bool.eq_iff_iff]
  cases o <;> simp [CmpOp.int, accepts, hlt, heq, hgt] <;> omega

theorem run_eq_intCompare (o : CmpOp) {m : Nat} (hm : m = 1 ∨ m = 2 ∨ m = 0x0F) (x y : Dword) :
    o.run m x y = intCompare m (accepts o).1 (accepts o).2.1 (accepts o).2.2 x y := by
  rcases hm with rfl | rfl | rfl
  · exact int_eq_accepts o BitVec.slt_iff_toInt_lt (beq_iff_eq.trans BitVec.toInt_inj.symm) BitVec.slt_iff_toInt_lt
  · exact int_eq_accepts o (BitVec.ult_iff_toNat_lt.trans Int.ofNat_lt.symm)
      (beq_iff_eq.trans (BitVec.toNat_inj.symm.trans Int.natCast_inj.symm)) (BitVec.ult_iff_toNat_lt.trans Int.ofNat_lt.symm)
  · exact int_eq_accepts o (BitVec.ult_iff_toNat_lt.trans Int.ofNat_lt.symm)
      (beq_iff_eq.trans (BitVec.toNat_inj.symm.trans Int.natCast_inj.symm)) (BitVec.ult_iff_toNat_lt.trans Int.ofNat_lt.symm)

/-- A row of the integer comparisons is one of the six. -/
theorem row_predRows {c : Instr} {i : Issue} {b : PredBody} {f} (h : predRows c = some (i, b, f)) :
    ∃ o : CmpOp, (∀ s, exec c s = onCode c (setPred false o.run i b) s) ∧
      f = fun m => intCompare m (accepts o).1 (accepts o).2.1 (accepts o).2.2 := by
  unfold predRows at h
  split at h
  all_goals cases h
  case h_1 => exact ⟨.eq, fun _ => rfl, rfl⟩
  case h_2 => exact ⟨.ne, fun _ => rfl, rfl⟩
  case h_3 => exact ⟨.lt, fun _ => rfl, rfl⟩
  case h_4 => exact ⟨.le, fun _ => rfl, rfl⟩
  case h_5 => exact ⟨.gt, fun _ => rfl, rfl⟩
  case h_6 => exact ⟨.ge, fun _ => rfl, rfl⟩

theorem fmt_of_predOk {b : PredBody} {tregs : Nat} {i : Issue} (h : predOk false tregs i b = true) (h0 : b.fmt ≠ 0) :
    b.fmt.toNat = 1 ∨ b.fmt.toNat = 2 ∨ b.fmt.toNat = 0x0F := by
  have hne : b.fmt.toNat ≠ 0 := fun hz => h0 (BitVec.eq_of_toNat_eq hz)
  unfold predOk at h
  simpa [hne] using (Bool.and_eq_true_iff.mp h).1

/-- A row of the FP32 comparisons and class tests, on words. -/
theorem row_predFloatRows {c : Instr} {i : Issue} {b : PredBody} {cls : Bool} {f} (h : predFloatRows c = some (i, b, cls, f)) :
    ∃ g : Nat → Dword → Dword → Bool, (∀ s, exec c s = onCode c (setPred cls g i b) s) ∧
      ∀ x y : Word, g 0 (x.setWidth 64) (y.setWidth 64) = f (toNum x) (toNum y) := by
  have hcmp : ∀ (o : CmpOp) (x y : Word), o.run 0 (x.setWidth 64) (y.setWidth 64) = o.fp x y := fun o x y => by
    rw [CmpOp.run, setWidth_word, setWidth_word]
  have hcls : ∀ (o : ClassOp) (x : Word), o.run ((x.setWidth 64 : Dword).setWidth 32) = o.run x := fun o x => by
    rw [setWidth_word]
  unfold predFloatRows at h
  split at h
  all_goals cases h
  case h_1 => exact ⟨_, fun _ => rfl, hcmp .eq⟩
  case h_2 => exact ⟨_, fun _ => rfl, hcmp .ne⟩
  case h_3 => exact ⟨_, fun _ => rfl, hcmp .lt⟩
  case h_4 => exact ⟨_, fun _ => rfl, hcmp .le⟩
  case h_5 => exact ⟨_, fun _ => rfl, hcmp .gt⟩
  case h_6 => exact ⟨_, fun _ => rfl, hcmp .ge⟩
  case h_7 => exact ⟨_, fun _ => rfl, fun x _ => (hcls .nan x).trans (by unfold ClassOp.run; cases toNum x <;> rfl)⟩
  case h_8 => exact ⟨_, fun _ => rfl, fun x _ => (hcls .inf x).trans (by unfold ClassOp.run; cases toNum x <;> rfl)⟩
  case h_9 => exact ⟨_, fun _ => rfl, fun x _ => (hcls .finite x).trans (by unfold ClassOp.run; cases toNum x <;> rfl)⟩

theorem exec_plogRows {c : Instr} {i : Issue} {b : PlogBody} {f} (h : plogRows c = some (i, b, f)) (s : State) :
    exec c s = onCode c (setPlog f i b) s := by
  unfold plogRows at h
  split at h
  all_goals cases h
  all_goals rfl

/-- Settles O3: each lane that the guard passes sets the predicate, by rows to the comparison or the logic of the rules. -/
theorem comparesAndPredicateLogicSetPredicates : Obligations.ComparesAndPredicateLogicSetPredicates := by
  refine ⟨fun c i b f hrow s k x it hissue hlegal h0 => ?compares,
    fun c i b cls f hrow s k x it hissue hlegal h0 => ?floats,
    fun c i b f hrow s k x it hissue himm => exec_setPlog hissue (exec_plogRows hrow s) himm⟩
  case compares =>
    obtain ⟨o, hexec, rfl⟩ := row_predRows hrow
    have hm := fmt_of_predOk hlegal h0
    have h64 : b.fmt = 0x0F ↔ b.fmt.toNat = 0x0F := BitVec.toNat_inj.symm
    refine exec_setPred hissue (hexec s) hlegal fun l => ?_
    rw [run_eq_intCompare o hm, read_operand, read_operand, if_congr h64 rfl rfl]
    by_cases hfmt : b.fmt.toNat = 0x0F
    · rw [if_pos hfmt, if_pos hfmt, if_pos hfmt, hfmt]
    · rw [if_neg hfmt, if_neg hfmt, if_neg hfmt]
  case floats =>
    obtain ⟨g, hexec, hg⟩ := row_predFloatRows hrow
    refine exec_setPred hissue (hexec s) hlegal fun l => ?_
    have hfmt : b.fmt.toNat = 0 := congrArg BitVec.toNat h0
    rw [hfmt, read_operand, read_operand, if_neg (by decide), if_neg (by decide), hg]

end Sys2Proof.Proofs.PredicateResults
end

section
/-! O5: loads of block memory and of the constant pool, and atomics on block memory (R129, R161, R176, R195, R197). -/

namespace Sys2Proof.Proofs.BlockAccesses

open Sys2Proof.Machine Sys2Proof.Spec Sys2Proof.Proofs.PackIssue Sys2Proof.Proofs.BlockStores Sys2Proof.Proofs.GlobalLoads
  Sys2Proof.Proofs.LaneResults Sys2Proof.Proofs.AluResults

/-! ### Loads (R195) -/

section Load

variable {s : State} {i : Issue} {b : MemBody} {ev : List Nat} {k : KBlock} {x : Pack} {it : Item}

/-- Lanes whose addresses are aligned and within their space write what they load. -/
theorem innerLoad_go {ls : List Nat} (d : Device)
    (h : ∀ l ∈ ls, innerOk i b x (if b.space = 1 then k.memLen else k.consts.length) l) :
    innerLoad i b k x ls d = .go (d.setPack i.pack
      (writeLanes b.data (fun l => loadWords b.fmt.toNat (innerBytes b k (memAddr i b x l).toNat)) ls x)) := by
  unfold innerLoad
  dsimp only
  rw [eachLane_map (fun l => innerBytes b k (memAddr i b x l).toNat) fun l hl => ?_]
  · dsimp only
    rw [List.foldl_map]
    rfl
  · obtain ⟨h0, hn, hlen⟩ := h l hl
    rw [innerAddr_ok h0 hn hlen]
    rfl

theorem exec_innerLoad (hissue : issues s (.memLd i b ev) i k x it) (hlegal : memOk true k.tregs i b = true)
    (hspace : b.space = 1 ∨ b.space = 2) (htregs : k.tregs ≤ 128)
    (hlanes : ∀ l ∈ x.lanes (memFields true i b) i.guard,
      innerOk i b x (if b.space = 1 then k.memLen else k.consts.length) l) :
    ∃ t, exec (.memLd i b ev) s = .next t ∧ coreFrame k i.pack s t ∧
      packFrame i b.data (memRegs b.fmt.toNat) (x.lanes (memFields true i b) i.guard) x (t.dev.pack i.pack) ∧
      ∀ l ∈ x.lanes (memFields true i b) i.guard, ∀ j, j < memRegs b.fmt.toNat → b.data ≠ 0xC1#8 →
        opnd (t.dev.pack i.pack) none l (b.data + BitVec.ofNat 8 j) =
          (loadWords b.fmt.toNat (innerBytes b k (memAddr i b x l).toNat)).getD j 0 := by
  have hglobal : ¬b.space = 0 := by rcases hspace with h | h <;> rw [h] <;> decide
  have hdst : b.data.toNat < 128 → b.data.toNat + memRegs b.fmt.toNat ≤ 128 := fun hT => by
    rcases dst_of_memOk hlegal with ⟨-, hlen⟩ | hnone | ⟨hU, -⟩
    · omega
    · rw [hnone] at hT
      exact absurd hT (by decide)
    · omega
  obtain ⟨t, hgo, hframe, hpack⟩ := exec_setPack hissue (f := memLoad i b ev) rfl rfl hlegal (by
    dsimp only
    rw [if_neg hglobal]
    exact innerLoad_go s.dev hlanes)
  refine ⟨t, hgo, hframe, ?_, fun l hl j hj hne => ?_⟩
  · rw [hpack]
    exact packFrame_writeLanes (fun l => length_loadWords _ _) hdst i _ x
  · rw [hpack]
    exact opnd_writeLanes hlegal htregs (fun l => length_loadWords _ _) hl hj hne

end Load

/-! ### The steps of an atomic (R129, R176) -/

theorem atomBytes_eq (ty : AtomTy) : atomBytes ty = 4 ∨ atomBytes ty = 8 := by
  cases ty <;> simp [atomBytes]

theorem atomFit_of_four {ty : AtomTy} (h : atomBytes ty = 4) (v : Dword) : atomFit ty v = (v.setWidth 32).setWidth 64 := if_pos h

theorem atomFit_of_eight {ty : AtomTy} (h : atomBytes ty = 8) (v : Dword) : atomFit ty v = v := if_neg (by rw [h]; decide)

/-- The order of a type's values: of words, or of double words. -/
theorem atomVal_lt_word {ty : AtomTy} (h : atomBytes ty = 4) (x y : Dword) : atomVal ty x < atomVal ty y ↔
    (if ty == .s32 || ty == .s64 then (x.setWidth 32).slt (y.setWidth 32) else (x.setWidth 32 : Word).ult (y.setWidth 32)) =
      true := by
  cases ty
  case s32 => exact BitVec.slt_iff_toInt_lt.symm
  case u32 | f32 | b32 => exact Int.ofNat_lt.trans BitVec.ult_iff_toNat_lt.symm
  all_goals exact absurd h (by decide)

theorem atomVal_lt_dword {ty : AtomTy} (h : atomBytes ty = 8) (x y : Dword) : atomVal ty x < atomVal ty y ↔
    (if ty == .s32 || ty == .s64 then x.slt y else x.ult y) = true := by
  cases ty
  case s64 => exact BitVec.slt_iff_toInt_lt.symm
  case u64 | b64 => exact Int.ofNat_lt.trans BitVec.ult_iff_toNat_lt.symm
  all_goals exact absurd h (by decide)

theorem setWidth_dword_inj {x y : Word} : (x.setWidth 64 : Dword) = y.setWidth 64 ↔ x = y :=
  ⟨fun h => by simpa using congrArg (BitVec.setWidth 32) h, congrArg _⟩

/-- The steps that no type of FP32 takes differently. -/
theorem atomNew_bits {op : AtomOp} {ty : AtomTy} (h : atomBytes ty = 4) (hop : op ≠ .add ∧ op ≠ .min ∧ op ≠ .max)
    (old x cmp : Dword) : atomNew op ty old x cmp = atomResult op ty old x cmp := by
  obtain ⟨hadd, hmin, hmax⟩ := hop
  unfold atomNew atomResult
  simp only [atomFit_of_four h, h, show ¬(4 : Nat) = 8 by decide, if_false]
  cases op with
  | add => exact absurd rfl hadd
  | min => exact absurd rfl hmin
  | max => exact absurd rfl hmax
  | and => rw [BitVec.setWidth_and]
  | or => rw [BitVec.setWidth_or]
  | xor => rw [BitVec.setWidth_xor]
  | xchg => rfl
  | cas =>
    simp only [setWidth_dword_inj]
    exact (apply_ite (BitVec.setWidth 64) _ _ _).symm

theorem atomNew_word {ty : AtomTy} (h : atomBytes ty = 4) (hf : ty ≠ .f32) (op : AtomOp) (old x cmp : Dword) :
    atomNew op ty old x cmp = atomResult op ty old x cmp := by
  by_cases hop : op ≠ .add ∧ op ≠ .min ∧ op ≠ .max
  · exact atomNew_bits h hop old x cmp
  have hfp : (ty == .f32) = false := beq_eq_false_iff_ne.mpr hf
  unfold atomNew atomResult
  simp only [hfp, Bool.false_eq_true, atomFit_of_four h, h, show ¬(4 : Nat) = 8 by decide, if_false, atomVal_lt_word h]
  cases op with
  | add => rw [BitVec.setWidth_add _ _ (by decide)]
  | min => exact (apply_ite (BitVec.setWidth 64) _ _ _).symm
  | max => exact (apply_ite (BitVec.setWidth 64) _ _ _).symm
  | _ => exact absurd (by decide) hop

theorem atomNew_dword {ty : AtomTy} (h : atomBytes ty = 8) (op : AtomOp) (old x cmp : Dword) :
    atomNew op ty old x cmp = atomResult op ty old x cmp := by
  have hfp : (ty == .f32) = false := by
    rw [beq_eq_false_iff_ne]
    rintro rfl
    exact absurd h (by decide)
  unfold atomNew atomResult
  simp only [hfp, Bool.false_eq_true, atomFit_of_eight h, h, if_true, if_false, atomVal_lt_dword h]

/-- A step on a 4 B location computes with words, one on an 8 B location with double words. -/
theorem atomNew_eq_atomWrites (op : AtomOp) (ty : AtomTy) (old x cmp : Dword) :
    atomNew op ty old x cmp = atomWrites op ty old x cmp := by
  unfold atomWrites
  split
  next hf =>
    subst hf
    cases op with
    | add => rfl
    | min => rfl
    | max => rfl
    | _ => exact atomNew_bits (by decide) (by decide) old x cmp
  next hf =>
    rcases atomBytes_eq ty with h4 | h8
    · exact atomNew_word h4 hf op old x cmp
    · exact atomNew_dword h8 op old x cmp

theorem atomFit_idem (ty : AtomTy) (v : Dword) : atomFit ty (atomFit ty v) = atomFit ty v := by
  rcases atomBytes_eq ty with h4 | h8
  · rw [atomFit_of_four h4, atomFit_of_four h4, setWidth_word]
  · rw [atomFit_of_eight h8, atomFit_of_eight h8]

/-- A step writes a value that fits its type. -/
theorem atomFit_atomNew (op : AtomOp) (ty : AtomTy) (old x cmp : Dword) :
    atomFit ty (atomNew op ty old x cmp) = atomNew op ty old x cmp := by
  have hpick : ∀ (p : Prop) [Decidable p] (u v : Dword),
      atomFit ty (if p then atomFit ty u else atomFit ty v) = if p then atomFit ty u else atomFit ty v := fun p _ u v => by
    split <;> exact atomFit_idem ty _
  have hfp : ∀ (w : Word) (v : Dword), atomFit ty v = v →
      atomFit ty (if ty == .f32 then w.setWidth 64 else v) = if ty == .f32 then w.setWidth 64 else v := fun w v hv => by
    split
    next hf =>
      obtain rfl := beq_iff_eq.mp hf
      rw [atomFit_of_four (by decide), setWidth_word]
    next => exact hv
  cases op with
  | add => exact hfp _ _ (atomFit_idem ty _)
  | min => exact hfp _ _ (hpick _ _ _)
  | max => exact hfp _ _ (hpick _ _ _)
  | and => exact atomFit_idem ty _
  | or => exact atomFit_idem ty _
  | xor => exact atomFit_idem ty _
  | xchg => exact atomFit_idem ty _
  | cas => exact hpick _ _ _

theorem atomAfter_zero (op : AtomOp) (ty : AtomTy) (v : Dword) (ps : List (Dword × Dword)) : atomAfter op ty v ps 0 = v := rfl

theorem atomAfter_cons_succ (op : AtomOp) (ty : AtomTy) (v : Dword) (p : Dword × Dword) (ps : List (Dword × Dword)) (n : Nat) :
    atomAfter op ty v (p :: ps) (n + 1) = atomAfter op ty (atomNew op ty v p.1 p.2) ps n := by
  rw [atomNew_eq_atomWrites]
  rfl

/-- The steps give the values that stood before them, and leave the value after the last. -/
theorem atomSteps_eq (op : AtomOp) (ty : AtomTy) (v : Dword) (ps : List (Dword × Dword)) :
    atomSteps op ty v ps = ((List.range ps.length).map (atomAfter op ty v ps), atomAfter op ty v ps ps.length) := by
  induction ps generalizing v with
  | nil => rfl
  | cons p ps ih =>
    rw [atomSteps, ih, List.length_cons, atomAfter_cons_succ, List.range_succ_eq_map, List.map_cons, List.map_map, atomAfter_zero]
    congr 2
    exact List.map_congr_left fun n _ => (atomAfter_cons_succ op ty v p ps n).symm

theorem atomFit_atomAfter (op : AtomOp) (ty : AtomTy) {v : Dword} (hv : atomFit ty v = v) (ps : List (Dword × Dword)) (n : Nat) :
    atomFit ty (atomAfter op ty v ps n) = atomAfter op ty v ps n := by
  induction ps generalizing v n with
  | nil =>
    unfold atomAfter
    rwa [List.take_nil]
  | cons p ps ih =>
    cases n with
    | zero => exact hv
    | succ n =>
      rw [atomAfter_cons_succ]
      exact ih (atomFit_atomNew op ty v p.1 p.2) n

theorem leNat_lt (bs : List Byte) : leNat bs < 256 ^ bs.length := by
  induction bs with
  | nil => decide
  | cons b bs ih =>
    have := b.isLt
    rw [leNat, List.length_cons, Nat.pow_succ]
    omega

/-- What a location holds fits its type. -/
theorem atomFit_location (ty : AtomTy) {bs : List Byte} (h : bs.length = atomBytes ty) :
    atomFit ty (BitVec.ofNat 64 (leNat bs)) = BitVec.ofNat 64 (leNat bs) := by
  rcases atomBytes_eq ty with h4 | h8
  · have hlt := leNat_lt bs
    rw [h, h4] at hlt
    rw [atomFit_of_four h4]
    refine BitVec.eq_of_toNat_eq ?_
    simp only [BitVec.toNat_setWidth, BitVec.toNat_ofNat]
    omega
  · exact atomFit_of_eight h8 _

/-! ### Lanes at one location -/

/-- Lanes that name one location are one group. -/
theorem groupLanes_one (a l : Nat) (ls : List Nat) : groupLanes ((l :: ls).map fun l => (l, a)) = [(a, l :: ls)] := by
  unfold groupLanes
  induction ls using List.reverseRecOn with
  | nil => rfl
  | append_singleton ls j ih =>
    rw [← List.cons_append, List.map_append, List.foldl_append, ih]
    simp

theorem nodup_lanes (x : Pack) (o : Operands) (g : Option Guard) : (x.lanes o g).Nodup := by
  unfold Pack.lanes
  split
  · exact List.nodup_singleton 0
  · exact List.nodup_range.filter _

/-- Results in the order of their lanes, by lane. -/
theorem zip_eq_map {ls : List Nat} (h : ls.Nodup) {os : List Dword} (hlen : os.length = ls.length) :
    ls.zip os = ls.map fun l => (l, os.getD (ls.idxOf l) 0) := by
  refine List.ext_getElem (by simp [hlen]) fun j h1 h2 => ?_
  have hj : j < ls.length := by simpa using h2
  rw [List.getElem_zip, List.getElem_map, h.idxOf_getElem j hj, List.getD_eq_getElem _ _ (by omega)]

theorem atomBytes_of_atomTyOf {op : AtomOp} {m : Nat} {ty : AtomTy} (h : atomTyOf op m = some ty) :
    atomBytes ty = 8 ↔ m = 0x0F ∨ m = 0x11 := by
  unfold atomTyOf at h
  split at h
  all_goals cases h
  all_goals decide

/-- Registers of an atomic's result. -/
def atomRegs (ty : AtomTy) : Nat := if atomBytes ty = 8 then 2 else 1

theorem dst_atomFields {op : AtomOp} {b : AtomBody} {ty : AtomTy} (h : atomTyOf op b.fmt.toNat = some ty) :
    (atomFields op b).dst = some (b.dst, atomRegs ty) := by
  have hfmt : (b.fmt = 0x0F ∨ b.fmt = 0x11) ↔ atomBytes ty = 8 := by
    rw [atomBytes_of_atomTyOf h]
    exact or_congr BitVec.toNat_inj.symm BitVec.toNat_inj.symm
  unfold atomFields atomRegs
  dsimp only
  rw [if_congr hfmt rfl rfl]
  split <;> rfl

/-! ### Atomics on block memory (R176, R195) -/

section Atomic

variable {s : State} {c : Instr} {i : Issue} {b : AtomBody} {op : AtomOp} {ty : AtomTy} {k : KBlock} {x : Pack} {it : Item}
  {a : Nat} {ls : List Nat}

/-- The value that each lane takes back. -/
def oldOf (op : AtomOp) (ty : AtomTy) (old : Dword) (ps : List (Dword × Dword)) (ls : List Nat) (l : Nat) : Dword :=
  atomAfter op ty old ps (ls.idxOf l)

/-- Lanes that name one aligned location within block memory step there one after the other. -/
theorem innerAtomic_go (d : Device) (hne : ls ≠ []) (hnodup : ls.Nodup) (haddr : ∀ l ∈ ls, (opnd x i.imm l b.addr).toNat = a)
    (halign : a % atomBytes ty = 0) (hlen : a + atomBytes ty ≤ k.memLen) {old : Dword}
    (hold : old = BitVec.ofNat 64 (leNat (k.bytes a (atomBytes ty)))) {ps : List (Dword × Dword)}
    (hps : ps = ls.map (atomArgs i b (atomRegs ty) x)) : innerAtomic op ty i b k x ls d =
      .go (((d.updBlock (i.pack / 16) fun _ => k.put a (leBytes (atomBytes ty) (atomAfter op ty old ps ps.length).toNat)).setPack
        i.pack (writeLanes b.dst (fun l => resultWords (atomRegs ty) (oldOf op ty old ps ls l)) ls x)).count
          k.ctx 82 (merged [(a, ls)])) := by
  have hpslen : ps.length = ls.length := by rw [hps, List.length_map]
  have hstep : ∀ l ∈ ls, innerAddr (x.read i.imm l b.addr 1).toNat (atomBytes ty) k.memLen = .ok a := fun l hl => by
    rw [read_one, BitVec.toNat_setWidth_of_le (by decide), haddr l hl]
    exact innerAddr_ok (by omega) (by exact_mod_cast halign) (by exact_mod_cast hlen)
  have hgroup : groupLanes (ls.map fun l => (l, a)) = [(a, ls)] := by
    obtain ⟨l, ls', rfl⟩ := List.exists_cons_of_ne_nil hne
    exact groupLanes_one a l ls'
  have holds : ls.zip ((List.range ps.length).map (atomAfter op ty old ps)) = ls.map fun l => (l, oldOf op ty old ps ls l) := by
    rw [zip_eq_map hnodup (by simp [hpslen])]
    refine List.map_congr_left fun l hl => ?_
    have hidx : ls.idxOf l < ps.length := by rw [hpslen]; exact List.idxOf_lt_length_of_mem hl
    simp [oldOf, hidx]
  unfold innerAtomic
  dsimp only
  rw [eachLane_map (fun _ => a) fun l hl => by rw [hstep l hl]]
  dsimp only
  rw [hgroup]
  simp only [List.foldl_cons, List.foldl_nil, KBlock.atom]
  rw [show (if atomBytes ty = 8 then 2 else 1) = atomRegs ty from rfl, ← hps, ← hold, atomSteps_eq]
  dsimp only
  rw [List.nil_append, holds, Pack.takeOlds, List.foldl_map, foldl_write]

theorem exec_atomRows (h : atomRows c = some (i, b, op)) (s : State) : exec c s = onCode c (atomic op i b) s := by
  unfold atomRows at h
  split at h
  all_goals cases h
  all_goals rfl

theorem block_count (d : Device) (c n j e : Nat) : (d.count c n j).block e = d.block e := by
  unfold Device.block
  rw [Device.count_collie]

theorem atomRegs_eq (ty : AtomTy) : atomRegs ty = 1 ∧ atomBytes ty = 4 ∨ atomRegs ty = 2 ∧ atomBytes ty = 8 := by
  cases ty <;> decide

/-- A lane reads in the destination the value that stood before its step. -/
theorem old_of_dst {tregs : Nat} {g : Option Guard} {v : Nat → Dword} (hfields : (atomFields op b).ok tregs i = true)
    (hdst : (atomFields op b).dst = some (b.dst, atomRegs ty)) {l : Nat} (hl : l ∈ x.lanes (atomFields op b) g)
    (hne : b.dst ≠ 0xC1#8) (hfit : atomFit ty (v l) = v l) :
    (if atomRegs ty = 2 then
        opnd64 (writeLanes b.dst (fun l => resultWords (atomRegs ty) (v l)) (x.lanes (atomFields op b) g) x) none l b.dst
      else (opnd (writeLanes b.dst (fun l => resultWords (atomRegs ty) (v l)) (x.lanes (atomFields op b) g) x) none l
        b.dst).setWidth 64) = v l := by
  rcases atomRegs_eq ty with ⟨h1, h4⟩ | ⟨h2, -⟩
  · rw [h1] at hdst ⊢
    rw [if_neg (by decide), opnd_result hfields hdst v hl hne, ← atomFit_of_four h4, hfit]
  · rw [h2] at hdst ⊢
    rw [if_pos rfl, opnd64_result hfields hdst v hl hne]

theorem exec_innerAtomic (hrow : atomRows c = some (i, b, op)) (hissue : issues s c i k x it)
    (hlegal : atomOk op k.tregs i b = true) (hty : atomTyOf op b.fmt.toNat = some ty) (hspace : b.space = 1)
    (hls : ls = x.lanes (atomFields op b) i.guard) (hne : ls ≠ []) (haddr : ∀ l ∈ ls, (opnd x i.imm l b.addr).toNat = a)
    (halign : a % atomBytes ty = 0) (hlen : a + atomBytes ty ≤ k.memLen) {ps : List (Dword × Dword)}
    (hps : ps = ls.map (atomArgs i b (atomRegs ty) x)) {old : Dword}
    (hold : old = BitVec.ofNat 64 (leNat (k.bytes a (atomBytes ty)))) :
    ∃ t k1, exec c s = .next t ∧ t.dev.mem = s.dev.mem ∧ t.plat = s.plat ∧ t.pending = s.pending ∧
      packFrame i b.dst (atomRegs ty) ls x (t.dev.pack i.pack) ∧ (∀ q, q ≠ i.pack → t.dev.pack q = s.dev.pack q) ∧
      t.dev.block (i.pack / 16) = some k1 ∧ k1 = { k with mem := k1.mem } ∧
      (∀ j, j < atomBytes ty → FMap.get 0 k1.mem (a + j) =
        (leBytes (atomBytes ty) (atomAfter op ty old ps ps.length).toNat).getD j 0) ∧
      (∀ m, m < a ∨ a + atomBytes ty ≤ m → FMap.get 0 k1.mem m = FMap.get 0 k.mem m) ∧
      ∀ j, j < ls.length → b.dst ≠ 0xC1#8 →
        (if atomRegs ty = 2 then opnd64 (t.dev.pack i.pack) none (ls.getD j 0) b.dst
          else (opnd (t.dev.pack i.pack) none (ls.getD j 0) b.dst).setWidth 64) = atomAfter op ty old ps j := by
  have hblock := block_of_issues hissue
  have hfields : (atomFields op b).ok k.tregs i = true := (Bool.and_eq_true_iff.mp hlegal).2
  have hdst := dst_atomFields hty
  have hregs : atomRegs ty = 1 ∨ atomRegs ty = 2 := (atomRegs_eq ty).imp And.left And.left
  have hnodup : ls.Nodup := hls ▸ nodup_lanes x _ _
  have hfit : atomFit ty old = old := hold ▸ atomFit_location ty (by simp [KBlock.bytes])
  have hexec := exec_go hissue (f := atomic op i b) (exec_atomRows hrow s) rfl hlegal (by
    dsimp only
    rw [hty]
    dsimp only
    rw [if_pos hspace, ← hls]
    exact innerAtomic_go s.dev hne hnodup haddr halign hlen hold hps)
  refine ⟨_, k.put a (leBytes (atomBytes ty) (atomAfter op ty old ps ps.length).toNat), hexec, by simp, rfl, rfl, ?_, fun q hq => ?_,
    ?_, rfl, fun j hj => ?_, fun m hm => ?_, fun j hj hout => ?_⟩
  · simp only [counted_pack, Device.pack_updPack, Device.count_pack, Device.pack_setPack, if_true]
    exact packFrame_writeLanes (fun l => length_resultWords hregs _) (dst_lt hfields hdst hregs) i ls x
  · simp [hq]
  · rw [counted_block, block_updPack, block_count, block_setPack, block_updBlock, if_pos rfl, hblock]
    rfl
  · rw [get_put, if_pos (by rw [length_leBytes]; omega), Nat.add_sub_cancel_left]
  · rw [get_put, if_neg (by rw [length_leBytes]; omega)]
  · have hget : ls.getD j 0 = ls[j] := List.getD_eq_getElem _ _ hj
    have hread := old_of_dst (v := oldOf op ty old ps ls) (l := ls[j]) hfields hdst
      (by rw [← hls]; exact List.getElem_mem hj) hout
      (atomFit_atomAfter op ty hfit ps _)
    simp only [counted_pack, Device.pack_updPack, Device.count_pack, Device.pack_setPack, if_true]
    rw [hget]
    rw [← hls] at hread
    refine hread.trans ?_
    rw [oldOf, hnodup.idxOf_getElem j hj]

end Atomic

/-- Settles O5: lanes of a load write the bytes at their addresses; lanes of an atomic are one group that steps at its location. -/
theorem loadsAndAtomicsOnBlockMemory : Obligations.LoadsAndAtomicsOnBlockMemory := by
  refine ⟨fun i b ev s k x it => exec_innerLoad, fun c i b op hrow s k x it ty a hissue hlegal hty hspace => ?_⟩
  intro ls n ps old hne haddr halign hlen
  exact exec_innerAtomic hrow hissue hlegal hty hspace rfl hne haddr halign hlen rfl rfl

end Sys2Proof.Proofs.BlockAccesses
end

section
/-! O10: engines that blocks hold, ENG.WAIT and special registers (R181, R198, R199, R218). -/

namespace Sys2Proof.Proofs.EngineOwnership

open Sys2Proof.Machine Sys2Proof.Spec Sys2Proof.Proofs.PackIssue Sys2Proof.Proofs.QuietMemory Sys2Proof.Proofs.SoundCores
  Sys2Proof.Proofs.Touches Sys2Proof.Proofs.GlobalLoads Sys2Proof.Proofs.EngIssues Sys2Proof.Proofs.LaneResults
  Sys2Proof.Proofs.AluResults

/-! ### VACQ, VREL and VSYNC (R198) -/

theorem vecEng_updVe_of_lt (d : Device) {i j die k : Nat} (f : VecEng → VecEng) (hj : j < 8) (hk : k < 8) :
    (d.updVe die k f).vecEng i j = if i = die ∧ j = k then f (d.vecEng i j) else d.vecEng i j := by
  have hkey : 8 * i + j = 8 * die + k ↔ i = die ∧ j = k := by omega
  rw [Device.vecEng_updVe, if_congr hkey rfl rfl]
  split
  next he => rw [he.1, he.2]
  next => rfl

@[simp] theorem vecEng_updPack (d : Device) (p : Nat) (f : Pack → Pack) (die e : Nat) :
    (d.updPack p f).vecEng die e = d.vecEng die e := rfl

@[simp] theorem core_updPack (d : Device) (p : Nat) (f : Pack → Pack) (die c : Nat) : (d.updPack p f).core die c = d.core die c := rfl

@[simp] theorem core_dropBuf (d : Device) (c q die core : Nat) : (d.dropBuf c q).core die core = d.core die core := rfl

@[simp] theorem pack_dropBuf (d : Device) (c q p : Nat) : (d.dropBuf c q).pack p = d.pack p := rfl

section Own

variable {s : State} {i : Issue} {b : EngBody} {k : KBlock} {x : Pack} {it : Item} {c : Instr} {f : Platform → Device → Device}
  {legal : KBlock → Bool} {body : KBlock → Pack → Device → Ran} {e : Device}

/-- An instruction that changes engines and its block: what is read after it. -/
theorem exec_own (hissue : issues s c i k x it) (hexec : exec c s = onCode c f s)
    (hf : f s.plat s.dev = s.dev.runJkf i legal body s.plat) (hlegal : legal k = true) (hbody : body k x s.dev = .go e) :
    ∃ t, exec c s = .next t ∧ t.dev.mem = e.mem ∧ (∀ q, t.dev.block q = e.block q) ∧
      (∀ die j, t.dev.vecEng die j = e.vecEng die j) ∧
      t.dev.pack i.pack = { e.pack i.pack with pc := x.pc + wordsOf i } :=
  ⟨_, exec_go hissue hexec hf hlegal hbody, by simp, fun q => by simp, fun die j => by simp, by simp⟩

theorem legal_of_engOwnOk (hok : engOwnOk i b = true) (hk : b.k.toNat < 8) :
    (engOwnOk i b && decide (b.k.toNat < Config.enginesPerDie)) = true := by
  rw [hok, decide_eq_true (by exact hk), Bool.and_self]

theorem exec_vacq (hissue : issues s (.vacq i b) i k x it) (hok : engOwnOk i b = true) (hk : b.k.toNat < 8)
    (hheld : k.held.contains b.k.toNat = false) (hfree : s.dev.vacqFree k b.k.toNat = true) :
    ∃ t k1, exec (.vacq i b) s = .next t ∧ (t.dev.vecEng k.die b.k.toNat).holder = some (i.pack / 16) ∧
      (t.dev.vecEng k.die b.k.toNat).regs = [] ∧ (t.dev.vecEng k.die b.k.toNat).masks = [] ∧
      t.dev.block (i.pack / 16) = some k1 ∧ k1 = { k with held := k.held ++ [b.k.toNat] } ∧ t.dev.mem = s.dev.mem ∧
      t.dev.pack i.pack = movedOn i x ∧
      ∀ die e, e < 8 → ¬(die = k.die ∧ e = b.k.toNat) → t.dev.vecEng die e = s.dev.vecEng die e := by
  obtain ⟨t, hgo, hmem, hblock, hvec, hpack⟩ := exec_own hissue (f := vacq i b) rfl rfl
    (legal_of_engOwnOk hok hk) (by dsimp only; rw [if_neg (by rw [hheld]; decide), if_pos hfree])
  have heng : ∀ die e, e < 8 → t.dev.vecEng die e = if die = k.die ∧ e = b.k.toNat then
      { s.dev.vecEng die e with regs := [], masks := [], holder := some (i.pack / 16) } else s.dev.vecEng die e := fun die e he =>
    (hvec die e).trans (vecEng_updVe_of_lt _ _ he hk)
  have hself := (heng k.die b.k.toNat hk).trans (if_pos ⟨rfl, rfl⟩)
  refine ⟨t, _, hgo, by rw [hself], by rw [hself], by rw [hself], ?_, rfl, hmem, ?_, fun die e he hne => ?_⟩
  · rw [hblock, block_updBlock, if_pos rfl]
    exact congrArg _ (block_of_issues hissue)
  · rw [hpack]
    exact congrArg (fun y : Pack => { y with pc := x.pc + wordsOf i }) (pack_of_issues hissue)
  · rw [heng die e he, if_neg hne]

theorem exec_vrel (hissue : issues s (.vrel i b) i k x it) (hok : engOwnOk i b = true) (hk : b.k.toNat < 8)
    (hheld : k.held.contains b.k.toNat = true) :
    ∃ t k1, exec (.vrel i b) s = .next t ∧ (t.dev.vecEng k.die b.k.toNat).holder = none ∧
      t.dev.block (i.pack / 16) = some k1 ∧ k1.held = k.held.filter (fun e => e != b.k.toNat) ∧ t.dev.mem = s.dev.mem ∧
      t.dev.pack i.pack = movedOn i x ∧
      ∀ die e, e < 8 → ¬(die = k.die ∧ e = b.k.toNat) → t.dev.vecEng die e = s.dev.vecEng die e := by
  obtain ⟨t, hgo, hmem, hblock, hvec, hpack⟩ := exec_own hissue (f := vrel i b) rfl rfl (legal_of_engOwnOk hok hk)
    (congrArg Ran.go (if_neg (by rw [hheld]; decide)))
  have heng : ∀ die e, e < 8 → t.dev.vecEng die e = if die = k.die ∧ e = b.k.toNat then
      { s.dev.vecEng die e with holder := none } else s.dev.vecEng die e := fun die e he =>
    (hvec die e).trans (vecEng_updVe_of_lt _ _ he hk)
  refine ⟨t, { k with held := k.held.filter fun e => e != b.k.toNat }, hgo, ?_, ?_, rfl, hmem, ?_, fun die e he hne => ?_⟩
  · rw [heng k.die b.k.toNat hk, if_pos ⟨rfl, rfl⟩]
  · rw [hblock, block_updBlock, if_pos rfl]
    exact congrArg _ (block_of_issues hissue)
  · rw [hpack]
    exact congrArg (fun y : Pack => { y with pc := x.pc + wordsOf i }) (pack_of_issues hissue)
  · rw [heng die e he, if_neg hne]

/-- An instruction that is done and changes nothing. -/
theorem exec_nothing (hissue : issues s c i k x it) (hexec : exec c s = onCode c f s)
    (hf : f s.plat s.dev = s.dev.runJkf i legal body s.plat) (hlegal : legal k = true) (hbody : body k x s.dev = .go s.dev) :
    ∃ t, exec c s = .next t ∧ coreFrame k i.pack s t ∧ t.dev.pack i.pack = movedOn i x :=
  ⟨_, exec_go hissue hexec hf hlegal hbody, coreFrame_counted _ _ _ rfl rfl fun q hq => by simp [hq], by
    simp [pack_of_issues hissue, movedOn, wordsOf]⟩

theorem exec_vrel_of_not_held (hissue : issues s (.vrel i b) i k x it) (hok : engOwnOk i b = true) (hk : b.k.toNat < 8)
    (hheld : k.held.contains b.k.toNat = false) :
    ∃ t, exec (.vrel i b) s = .next t ∧ coreFrame k i.pack s t ∧ t.dev.pack i.pack = movedOn i x :=
  exec_nothing hissue (f := vrel i b) rfl rfl (legal_of_engOwnOk hok hk) (congrArg Ran.go (if_pos (by rw [hheld]; rfl)))

/-- Have the block's stream operation on the engine and its kernel's stores to partner memory ended (R198, R218)? -/
theorem vecDone_iff (d : Device) (q : Nat) (k : KBlock) (e : Nat) : d.vecDone q k e = true ↔
    ¬((d.vecEng k.die e).holder = some q ∧ (d.vecEng k.die e).stream = true) ∧
      ∀ o ∈ d.ports.out, o.ctx = k.ctx → o.seq = k.seq → o.write = true → o.use ≠ .store := by
  unfold Device.vecDone
  simp only [Bool.and_eq_true, Bool.not_eq_true', Bool.and_eq_false_iff, List.any_eq_false, beq_iff_eq, beq_eq_false_iff_ne, not_and]
  exact and_congr (by rw [imp_iff_not_or, Bool.not_eq_true]) (forall₂_congr fun o _ => by tauto)

/-- An instruction that waits is issued again when the pack is ready (R166). -/
theorem exec_wait {w : Wait} (hissue : issues s c i k x it) (hexec : exec c s = onCode c f s)
    (hf : f s.plat s.dev = s.dev.runJkf i legal body s.plat) (hlegal : legal k = true) (hbody : body k x s.dev = .wait w e) :
    exec c s = .next { s with dev := e.parkPack i.pack (some w) } := by
  obtain ⟨hissuer, hcode⟩ := hissue
  rw [exec_of_atCode hexec hcode, hf, Device.runJkf, hissuer]
  simp only [hlegal, if_true, hbody]

theorem exec_vsync (hissue : issues s (.vsync i b) i k x it) (hok : engOwnOk i b = true) (hk : b.k.toNat < 8)
    (hdone : s.dev.vecDone (i.pack / 16) k b.k.toNat = true) :
    ∃ t, exec (.vsync i b) s = .next t ∧ coreFrame k i.pack s t ∧ t.dev.pack i.pack = movedOn i x :=
  exec_nothing hissue (f := vsync i b) rfl rfl (legal_of_engOwnOk hok hk) (if_pos hdone)

theorem exec_vsync_of_busy (hissue : issues s (.vsync i b) i k x it) (hok : engOwnOk i b = true) (hk : b.k.toNat < 8)
    (hbusy : ¬s.dev.vecDone (i.pack / 16) k b.k.toNat = true) :
    ∃ t, exec (.vsync i b) s = .next t ∧ (t.dev.pack i.pack).wait = some (.vsync b.k.toNat) ∧
      (t.dev.pack i.pack).slot = none ∧ (t.dev.pack i.pack).pc = x.pc ∧ (t.dev.pack i.pack).regs = x.regs ∧
      t.dev.hub = s.dev.hub := by
  have hgo := exec_wait hissue (f := vsync i b) rfl rfl (legal_of_engOwnOk hok hk) (if_neg hbusy)
  have hpack := pack_of_issues hissue
  refine ⟨_, hgo, ?_, ?_, ?_, ?_, rfl⟩
  iterate 4 (simp only [parkPack_pack, hpack])

end Own

/-! ### ENG.WAIT (R181, R218) -/

theorem engWaitOk_fields {i : Issue} {b : EngBody} (h : engWaitOk i b = true) :
    i.imm = none ∧ uniformReg b.result = true ∧ uniformReg b.src = true := by
  unfold engWaitOk engOk at h
  simp only [if_true, Bool.and_eq_true] at h
  obtain ⟨⟨⟨⟨⟨himm, -⟩, hres⟩, hsrc⟩, -⟩, -⟩ := h
  exact ⟨Option.isNone_iff_eq_none.mp himm, hres, hsrc⟩

/-- A core that can write every line back loses none when it is emptied. -/
theorem emptyCore_spec {d : Device} {die core : Nat} (h : coreSound d die core) :
    Device.loseWrites (d.emptyCore die core) = (d.emptyCore die core).1 ∧ Quiet d (d.emptyCore die core).1 ∧
      ((d.emptyCore die core).1.core die core).lines = [] := by
  obtain ⟨hlost, -⟩ := writeBackAll_sound (Sound.of_coreSound h) die (xs := (d.core die core).lines.filter fun _ => true)
    fun x hx => (Sound.of_coreSound h).lines x (List.mem_of_mem_filter hx)
  have hcore : ∀ (e : Device) (f : Nat → Nat → Nat → Bool), (e.unkeep die core f).core die core = e.core die core := fun _ _ => rfl
  refine ⟨loseWrites_nil _ hlost, (Quiet.refl d).emptyCore die core, ?_⟩
  unfold Device.emptyCore
  dsimp only
  rw [hcore, Device.core_updCore, if_pos rfl]

theorem exec_engWait {s : State} {i : Issue} {b : EngBody} {k : KBlock} {x : Pack} {it : Item} {y : Token} {st : Status}
    (hissue : issues s (.engWait i b) i k x it) (hok : engWaitOk i b = true)
    (htok : k.tokens.find? (fun y => y.tok == (opnd x none 0 b.src).toNat) = some y) (hst : y.status = some st)
    (hsound : coreSound s.dev k.die k.core) :
    ∃ t, exec (.engWait i b) s = .next t ∧ packFrame i b.result 1 [0] x (t.dev.pack i.pack) ∧
      (b.result ≠ 0xC1#8 → opnd (t.dev.pack i.pack) none 0 b.result = BitVec.ofNat 32 st.code) ∧
      (t.dev.core k.die k.core).lines = [] ∧ ∀ q, q ≠ i.pack → t.dev.pack q = s.dev.pack q := by
  obtain ⟨himm, hresult, hsrc⟩ := engWaitOk_fields hok
  obtain ⟨hlose, hquiet, hempty⟩ := emptyCore_spec hsound
  have hdst : 127 < b.result.toNat := by
    unfold uniformReg selU at hresult
    rcases (Bool.or_eq_true _ _).mp hresult with hU | hnone
    · exact (of_decide_eq_true hU).1
    · rw [beq_iff_eq.mp hnone]
      decide
  have hgo := exec_go hissue (f := engWait i b) rfl rfl hok (by
    dsimp only
    rw [word_uniform hsrc, htok]
    dsimp only
    rw [hst])
  rw [hlose] at hgo
  refine ⟨_, hgo, ?_, fun hne => ?_, ?_, fun q hq => ?_⟩
  · simp only [counted_pack, Device.pack_updPack, if_true, write_eq_writeWords]
    exact packFrame_writeLanes (m := 1) (ws := fun _ => resultWords 1 (BitVec.ofNat 64 st.code)) (fun _ => rfl) (by omega) i [0] x
  · simp only [counted_pack, Device.pack_updPack, if_true]
    refine (opnd_write hresult hne (BitVec.ofNat 64 st.code)).trans ?_
    exact BitVec.setWidth_ofNat_of_le (by decide) _
  · rw [counted_lines, core_updPack, core_updPack, core_dropBuf, hempty]
  · rw [counted_pack, Device.pack_updPack, if_neg hq, Device.pack_updPack, if_neg hq, pack_dropBuf, hquiet.pack]

/-! ### MOVSR (R199) -/

/-- What MOVSR gives lane `l`: the special register's value, or the model's arbitrary value where the spec states none. -/
def sregValue (d : Device) (k : KBlock) (i : Issue) (b : SpecBody) (l : Nat) : Dword :=
  match specValue d k i.pack l (specFields b).uniform b with
  | some v => BitVec.ofNat 64 v
  | none => (Config.freeSreg (b.sr.toNat + 256 * b.idx.toNat)).setWidth 64

theorem exec_movsr {s : State} {i : Issue} {b : SpecBody} {k : KBlock} {x : Pack} {it : Item}
    (hissue : issues s (.movsr i b) i k x it) (hsr : b.sr.toNat ≤ 0x0D) (hok : (specFields b).ok k.tregs i = true) :
    ∃ t, exec (.movsr i b) s = .next t ∧ coreFrame k i.pack s t ∧
      packFrame i b.dst 1 (x.lanes (specFields b) i.guard) x (t.dev.pack i.pack) ∧
      ∀ l ∈ x.lanes (specFields b) i.guard, ∀ v, specValue s.dev k i.pack l (specFields b).uniform b = some v →
        b.dst ≠ 0xC1#8 → opnd (t.dev.pack i.pack) none l b.dst = BitVec.ofNat 32 v := by
  obtain ⟨t, hgo, hframe, hpack⟩ := exec_setPack hissue (f := movsr i b) rfl rfl (by rw [hok, decide_eq_true hsr, Bool.and_self])
    (y := writeLanes b.dst (fun l => resultWords 1 (sregValue s.dev k i b l)) (x.lanes (specFields b) i.guard) x)
    (by rw [← foldl_write]; rfl)
  refine ⟨t, hgo, hframe, ?_, fun l hl v hv hne => ?_⟩
  · rw [hpack]
    exact packFrame_writeLanes (m := 1) (fun _ => rfl) (dst_lt hok rfl (.inl rfl)) i _ x
  · rw [hpack]
    refine (opnd_result hok rfl (sregValue s.dev k i b) hl hne).trans ?_
    rw [sregValue, hv]
    exact BitVec.setWidth_ofNat_of_le (by decide) _

/-- Settles O10: each instruction is done or waits by what it finds, and its block, its engine or its pack changes accordingly. -/
theorem engineOwnershipAndTokens : Obligations.EngineOwnershipAndTokens := by
  refine ⟨fun i b s k x it hissuer hok => ⟨fun hcode hk => exec_vacq ⟨hissuer, hcode⟩ hok hk,
      fun hcode hk => exec_vrel ⟨hissuer, hcode⟩ hok hk, fun hcode hk => exec_vrel_of_not_held ⟨hissuer, hcode⟩ hok hk,
      fun hcode hk => ?vsync⟩,
    fun i b s k x it y st => exec_engWait, fun i b s k x it => exec_movsr⟩
  case vsync =>
    intro v idle
    have hdone := vecDone_iff s.dev (i.pack / 16) k b.k.toNat
    exact ⟨fun h => exec_vsync ⟨hissuer, hcode⟩ hok hk (hdone.mpr h),
      fun h => exec_vsync_of_busy ⟨hissuer, hcode⟩ hok hk fun hd => h (hdone.mp hd)⟩

end Sys2Proof.Proofs.EngineOwnership
end

section
/-! O57 fails in its first clause. Besides the pack, the guard and the immediate word, an `Issue` carries `rivals`, the packs that could
issue at that moment as well (R165; log 15). The environment reports them; no bit of the word holds them, and `jkfDecode` answers
none of them. The statement compares the whole `Issue`, so it fails for every command with a rival. -/

namespace Sys2Proof.Proofs.InstructionWords

open Sys2Proof.Machine Sys2Proof.Spec

/-- INT.ADD T0, T0, T0 under s32, issued by pack 0 with the rivals that `rivals` names. -/
def addWith (rivals : BitVec 4) : Instr := .intAdd ⟨0, none, none, rivals⟩ ⟨0, 0, 0, 0, 1, 0⟩

/-- The parts of the command, its rivals among them. -/
def addParts (rivals : BitVec 4) : Nat × Nat × Issue × BitVec 46 :=
  (0, 0, ⟨0, none, none, rivals⟩, (⟨0, 0, 0, 0, 1, 0⟩ : AluBody).bits)

theorem jkfParts_addWith (rivals : BitVec 4) : jkfParts (addWith rivals) = some (addParts rivals) := rfl

/-- The word with a rival is that without: class and operation 0, no guard, format 1 in bits 13 to 8. -/
theorem jkfEncode_addWith_one : jkfEncode (addWith 1) = some (0x100, none) := by decide +kernel

/-- Decoding the word gives the command without rivals. -/
theorem jkfDecode_addWord : jkfDecode 0 0x100 none = some (addWith 0) := by decide +kernel

/-- Refutes O57: INT.ADD with a rival is encoded in the word of INT.ADD without one, which decodes to the latter. -/
theorem not_instructionWordsRoundTrip : ¬ Obligations.InstructionWordsRoundTrip := by
  intro h
  obtain ⟨hround, -⟩ := h
  obtain ⟨c, hdecode, hparts⟩ := hround (addWith 1) 0x100 none (addParts 1) (jkfParts_addWith 1) jkfEncode_addWith_one
  obtain rfl : addWith 0 = c := Option.some.inj (jkfDecode_addWord.symm.trans hdecode)
  rw [jkfParts_addWith] at hparts
  exact absurd hparts (by decide)

end Sys2Proof.Proofs.InstructionWords
end

section
/-! O45 fails in the premise of its first part, as O48 does. `sound` leaves out the ECC finding 2 alone, while an agent without a die
cache takes every finding on a codeword but 0 and 1 for an uncorrectable error that its read discovers (`Device.findWeak`, R124,
R125). Where a codeword of a kernel's argument record carries a finding of 3, the premises hold, the read of R191 makes the half-line
bad, and the item ends with an error instead of running. The commands of the model write findings up to 2 only (`eccWeak`). -/

namespace Sys2Proof.Proofs.UndiscoveredErrorOfKernel

open Sys2Proof.Machine Sys2Proof.Spec
open Sys2Proof.Proofs.PrefetchedLoad (owner)
open Sys2Proof.Proofs.UndiscoveredError (ok_of_toOption)

/-! ### A part whose argument record lies in a codeword with an error that nothing has found -/

/-- A KERNEL descriptor: the image at 0x400, the argument record at 0x200. -/
def kernelDesc : List Byte := 3 :: List.replicate 15 0 ++ leBytes 8 0x400 ++ leBytes 8 0x200 ++ List.replicate 32 0

/-- Its item, dispatched. -/
def kernelItem : Item := { newItem 1 5 0 kernelDesc 0 with phase := .dispatched }

/-- The translation of its image: one pack of 32 registers a lane, whose one instruction is NOP. -/
def translation : Xlat := ⟨1, 0x400, 0, 0, 32, 1, 0, [0x5040000000000000], [], false, 0⟩

/-- The argument record is zero, and its first half-line carries the finding 3. -/
def start : State :=
  { pending := []
    plat := ⟨Fuses.reset, { Power.reset with stage := .ready }, Mastiff.reset⟩
    dev := { Device.reset with
      hub := { Hub.reset with ctxs := [(1, owner)], items := [kernelItem], xlats := [translation] }
      mem := { Mem.reset with lineKey := [(0, 1), (4, 1)], weak := [(8, 3)] } } }

/-! ### The statement's part on a translation that fits applies to it -/

theorem start_sound : sound start := by
  intro h
  change FMap.get 0 [(8, 3)] h ≠ 2
  rw [FMap.get_cons, FMap.get_nil]
  split <;> decide

theorem start_wholeLines : wholeLines start.dev.mem := nofun

/-- As long as nothing has found the error, the record reads. -/
theorem start_record_reads :
    start.dev.readBytes ⟨1, 5, none, none⟩ 128 (field kernelItem.desc 0x18 8) = .ok (List.replicate 128 0) :=
  ok_of_toOption (by decide +kernel)

/-! ### The item does not run -/

/-- The part after KERNEL. -/
def ended : State := { start with dev := kernel 1 5 start.plat start.dev }

theorem exec_kernel_start : exec (.kernel 1 5) start = .next ended := rfl

/-- The read of the record finds the error, and the item's work is over. -/
theorem ended_phase : (ended.dev.item 1 5).map Item.phase = some .done := by decide +kernel

/-- Refutes O45: KERNEL of a dispatched item whose argument record lies in a codeword with the finding 3 discovers an uncorrectable
error with its read (R124, R125) and ends the item, which `sound` does not rule out. -/
theorem not_workIsStarted : ¬ Obligations.WorkIsStarted := by
  intro h
  obtain ⟨hkernel, -⟩ := h
  obtain ⟨hfits, -⟩ := hkernel start 1 5 kernelItem translation (by decide +kernel) (by decide +kernel) rfl rfl
    (by decide +kernel) (by decide +kernel)
  obtain ⟨t, hexec, -, hitem, -⟩ := hfits (List.replicate 128 0) (by decide +kernel) start_sound start_wholeLines
    start_record_reads
  obtain rfl : ended = t := Host.Outcome.next.inj (exec_kernel_start.symm.trans hexec)
  have hphase := ended_phase
  rw [hitem] at hphase
  exact absurd hphase nofun

end Sys2Proof.Proofs.UndiscoveredErrorOfKernel
end

section
/-! O9: fences and the core's data cache (R166, R211, R213, R224). -/

namespace Sys2Proof.Proofs.Fences

open Sys2Proof.Machine Sys2Proof.Spec Sys2Proof.Proofs.PackIssue Sys2Proof.Proofs.QuietMemory Sys2Proof.Proofs.SoundCores
  Sys2Proof.Proofs.Touches Sys2Proof.Proofs.GlobalLoads Sys2Proof.Proofs.EngIssues Sys2Proof.Proofs.EngineOwnership

/-! ### What a core's write-back leaves of the other cores and of the counters of fences -/

/-- The lines of a core without the marks of prefetched ones, which go once a die's copy has served a demand (R241). -/
def unmarked (c : CoreSt) : List CLine := c.lines.map fun y => { y with pref := none }

/-- FENCE_DEVICE, FENCE_SYSTEM and FENCE_CYCLES (R224). -/
def fenceCounters : List Nat := [87, 88, 90]

/-- Every core but the one given has the lines of `a`, and the counters of fences read as in `a`. -/
structure Undisturbed (a : Device) (die core : Nat) (d : Device) : Prop where
  lines : ∀ i c, 16 * i + c ≠ 16 * die + core → unmarked (d.core i c) = unmarked (a.core i c)
  counters : ∀ b, ∀ n ∈ fenceCounters, d.counter b n = a.counter b n

variable {a d : Device} {die core : Nat}

theorem Undisturbed.refl (d : Device) (die core : Nat) : Undisturbed d die core d := ⟨fun _ _ _ => rfl, fun _ _ _ => rfl⟩

theorem Undisturbed.of_parts (h : Undisturbed a die core d) {e : Device} (hhub : e.hub = d.hub) (hcollie : e.collie = d.collie) :
    Undisturbed a die core e where
  lines i c hne := by
    rw [← h.lines i c hne]
    unfold Device.core
    rw [hcollie]
  counters b n hn := by
    rw [← h.counters b n hn]
    unfold Device.counter
    rw [hhub]

theorem Undisturbed.mapMem (h : Undisturbed a die core d) (f : Mem → Mem) : Undisturbed a die core (d.mapMem f) :=
  h.of_parts rfl rfl

theorem Undisturbed.tick (h : Undisturbed a die core d) (n : Nat) : Undisturbed a die core { d with lruTick := n } :=
  h.of_parts rfl rfl

/-- Another counter's count leaves the counters of fences, in every context. -/
theorem counter_count_of_fence (d : Device) (c : Nat) {n : Nat} (hn : n < 256 ∧ n ∉ fenceCounters) (k b : Nat) {m : Nat}
    (hm : m ∈ fenceCounters) : (d.count c n k).counter b m = d.counter b m := by
  have hlt : ∀ m ∈ fenceCounters, m < 256 := by decide
  have hm256 := hlt m hm
  have hne : m ≠ n := fun heq => hn.2 (heq ▸ hm)
  rw [Device.counter_count, if_neg (by omega)]

theorem Undisturbed.count (h : Undisturbed a die core d) (c : Nat) {n : Nat} (hn : n < 256 ∧ n ∉ fenceCounters) (k : Nat) :
    Undisturbed a die core (d.count c n k) where
  lines i j hne := by
    rw [← h.lines i j hne]
    unfold Device.core
    rw [Device.count_collie]
  counters b m hm := (counter_count_of_fence d c hn k b hm).trans (h.counters b m hm)

theorem Undisturbed.updCore (h : Undisturbed a die core d) (f : CoreSt → CoreSt) :
    Undisturbed a die core (d.updCore die core f) where
  lines i c hne := by
    rw [Device.core_updCore, if_neg hne]
    exact h.lines i c hne
  counters := h.counters

theorem unmarked_unmark (i l n : Nat) (c : CoreSt) : unmarked (unmark i l n c) = unmarked c := by
  unfold unmarked unmark
  split
  · rw [List.map_map]
    refine List.map_congr_left fun y _ => ?_
    dsimp only [Function.comp]
    split <;> rfl
  · rfl

theorem Undisturbed.prefUsed (h : Undisturbed a die core d) (i l c : Nat) : Undisturbed a die core (d.prefUsed i l c) where
  lines j e hne := by
    rw [core_prefUsed, unmarked_unmark]
    exact h.lines j e hne
  counters b n hn := (counter_count_of_fence _ c (by decide) 1 b hn).trans (h.counters b n hn)

theorem Undisturbed.cachePut (h : Undisturbed a die core d) (i : Nat) (host : Bool) (l tc : Nat) (st : LineSt) (key : Nat)
    (data : List Byte) (pref : Option Nat) : Undisturbed a die core (d.cachePut i host l tc st key data pref) := by
  unfold Device.cachePut
  dsimp only
  split
  · split
    · exact (h.tick _).mapMem _
    · exact ((h.tick _).mapMem _).prefUsed _ _ _
  · split
    · exact (h.tick _).mapMem _
    · split
      · exact (h.tick _).mapMem _
      · exact Closed.ite ((h.tick _).mapMem _) (((h.tick _).mapMem _).count _ (by decide) 1)

theorem Undisturbed.backInval (h : Undisturbed a die core d) (l : Nat) : Undisturbed a die core (d.backInval l) :=
  Closed.ite (h.of_parts (Device.emit_hub _ _) (Device.emit_collie _ _)) h

theorem Undisturbed.unusedLines (h : Undisturbed a die core d) (f : DLine → Bool) : Undisturbed a die core (d.unusedLines f) := by
  refine Closed.foldl (fun d x h => ?_) _ h
  split
  · exact Closed.ite h (h.count _ (by decide) 1)
  · exact h

theorem Undisturbed.unused (h : Undisturbed a die core d) (i : Nat) (xs : List CLine) :
    Undisturbed a die core (d.unused i xs) := by
  refine Closed.foldl (fun d x h => ?_) _ h
  split
  · exact Closed.ite h (h.count _ (by decide) 1)
  · exact h

theorem Undisturbed.storeLine (h : Undisturbed a die core d) {i tc key l : Nat} {patch : List (Option Byte)} {e : Device}
    (hs : d.storeLine (some i) tc key l patch = some e) : Undisturbed a die core e := by
  have hready : ∀ f, Undisturbed a die core ((d.unusedLines f).backInval l) := fun f => (h.unusedLines f).backInval l
  unfold Device.storeLine at hs
  simp only [Option.isNone_some, Bool.false_eq_true, if_false] at hs
  split at hs
  · cases hs
  · split at hs
    · obtain rfl := Option.some.inj hs
      exact ((hready _).mapMem _).cachePut _ _ _ _ _ _ _ _
    · obtain rfl := Option.some.inj hs
      exact (hready _).mapMem _

theorem Undisturbed.storeHostLine (h : Undisturbed a die core d) (i : Option Nat) (tc l : Nat) (patch : List (Option Byte)) :
    Undisturbed a die core (d.storeHostLine i tc l patch) := by
  unfold Device.storeHostLine
  dsimp only
  split
  · exact (h.mapMem _).cachePut _ _ _ _ _ _ _ _
  · exact h.mapMem _

theorem Undisturbed.countBack (h : Undisturbed a die core d) (i : Nat) (x : CLine) : Undisturbed a die core (d.countBack i x) := by
  have hn : ∀ here : Bool, (if here then 100 else 108) < 256 ∧ (if here then 100 else 108) ∉ fenceCounters := by decide
  exact h.count _ (hn _) 1

theorem Undisturbed.writeBackLine (h : Undisturbed a die core d) (i : Nat) (x : CLine) :
    Undisturbed a die core (d.writeBackLine i x).1 := by
  have hback := h.countBack i x
  unfold Device.writeBackLine
  split
  · exact h
  · dsimp only
    split
    · split
      · exact hback.storeLine ‹_›
      · exact hback.of_parts rfl rfl
    · exact hback.storeHostLine (some i) 4 _ _
    · exact hback

theorem Undisturbed.writeBackAll (h : Undisturbed a die core d) (i : Nat) (xs : List CLine) :
    Undisturbed a die core (d.writeBackAll i xs).1 := by
  unfold Device.writeBackAll
  refine List.foldlRecOn (motive := fun r : Device × Lost => Undisturbed a die core r.1) xs _ h fun r hr x _ => ?_
  exact hr.writeBackLine i x

theorem Undisturbed.cleanCore (h : Undisturbed a die core d) : Undisturbed a die core (d.cleanCore die core).1 :=
  (h.writeBackAll die _).updCore _

theorem Undisturbed.emptyCore (h : Undisturbed a die core d) : Undisturbed a die core (d.emptyCore die core).1 :=
  ((h.cleanCore.unused die _).updCore fun c => { c with lines := [] }).of_parts rfl rfl

theorem Undisturbed.dropBuf (h : Undisturbed a die core d) (c q : Nat) : Undisturbed a die core (d.dropBuf c q) :=
  h.of_parts rfl rfl

/-! ### The caches' part of a fence (R211) -/

theorem quiet_dropBuf (h : Quiet a d) (c q : Nat) : Quiet a (d.dropBuf c q) := h

theorem coreSound_count (h : coreSound d die core) (c n j : Nat) : coreSound (d.count c n j) die core := by
  intro y hy
  unfold Device.core at hy
  rw [Device.count_collie] at hy
  rw [Device.count_mem]
  exact h y hy

/-- The device once a fence of device scope or wider is through with the caches. -/
def fenced (b : SyncBody) (k : KBlock) (d : Device) : Device :=
  if kindAcquires b.kind then (fenceCaches b k d).1.dropBuf k.ctx k.seq else (fenceCaches b k d).1

/-- The device once the lines that a fence will write back have been counted (R224). -/
def backCounted (k : KBlock) (d : Device) : Device := d.count k.ctx 89 (d.dirtyLines k.die k.core fun _ => true)

theorem fenceCaches_of_acquires {b : SyncBody} (h : kindAcquires b.kind = true) (k : KBlock) (d : Device) :
    fenceCaches b k d = (backCounted k d).emptyCore k.die k.core := if_pos h

theorem fenceCaches_of_not_acquires {b : SyncBody} (h : kindAcquires b.kind = false) (k : KBlock) (d : Device) :
    fenceCaches b k d = (backCounted k d).cleanCore k.die k.core := if_neg (by rw [h]; decide)

theorem fenced_of_acquires {b : SyncBody} (h : kindAcquires b.kind = true) (k : KBlock) (d : Device) :
    fenced b k d = ((backCounted k d).emptyCore k.die k.core).1.dropBuf k.ctx k.seq := by
  rw [fenced, if_pos h, fenceCaches_of_acquires h]

theorem fenced_of_not_acquires {b : SyncBody} (h : kindAcquires b.kind = false) (k : KBlock) (d : Device) :
    fenced b k d = ((backCounted k d).cleanCore k.die k.core).1 := by
  rw [fenced, if_neg (by rw [h]; decide), fenceCaches_of_not_acquires h]

/-- What a fence does to the core's data cache. -/
structure FenceEffect (d : Device) (b : SyncBody) (k : KBlock) (e : Device) : Prop where
  quiet : Quiet d e
  undisturbed : Undisturbed d k.die k.core e
  released : kindAcquires b.kind = false → ∀ y ∈ (e.core k.die k.core).lines, y.dirty.any id = false
  acquired : kindAcquires b.kind = true → (e.core k.die k.core).lines = []

/-- A fence whose core has no line on an uncorrectable half-line loses no write. -/
theorem fenceCaches_effect (b : SyncBody) {k : KBlock} (hsound : coreSound d k.die k.core) :
    Device.loseWrites (fenceCaches b k d) = (fenceCaches b k d).1 ∧ FenceEffect d b k (fenced b k d) := by
  have hcounted : coreSound (backCounted k d) k.die k.core := coreSound_count hsound _ _ _
  have hquiet : Quiet d (backCounted k d) := (Quiet.refl d).count _ _ _
  have hund : Undisturbed d k.die k.core (backCounted k d) := (Undisturbed.refl d _ _).count _ (by decide) _
  cases hacq : kindAcquires b.kind with
  | true =>
    obtain ⟨hlose, -, hempty⟩ := emptyCore_spec hcounted
    rw [fenceCaches_of_acquires hacq, fenced_of_acquires hacq]
    exact ⟨hlose, quiet_dropBuf (hquiet.emptyCore _ _) _ _, hund.emptyCore.dropBuf _ _, fun h => absurd (hacq.symm.trans h) nofun,
      fun _ => by rw [core_dropBuf, hempty]⟩
  | false =>
    obtain ⟨hlose, -, hclean⟩ := cleanCore_cleaned hcounted
    rw [fenceCaches_of_not_acquires hacq, fenced_of_not_acquires hacq]
    exact ⟨hlose, hquiet.cleanCore _ _, hund.cleanCore, fun _ => hclean, fun h => absurd (hacq.symm.trans h) nofun⟩

/-! ### The wait for partner memory (R211) -/

theorem packWrites_eq_false {p : Nat} (h : ∀ o ∈ d.ports.out, o.write = true →
    (∀ l, o.use ≠ .packStore p l) ∧ ∀ ls dst f, o.use ≠ .atom p ls dst f) : d.packWrites p = false := by
  refine List.any_eq_false.mpr fun o ho hwrites => ?_
  obtain ⟨hw, huse⟩ := (Bool.and_eq_true _ _).mp hwrites
  obtain ⟨hstore, hatom⟩ := h o ho hw
  cases hu : o.use with
  | packStore q l => exact hstore l (by rw [hu] at huse ⊢; rw [beq_iff_eq.mp huse])
  | atom q ls dst f => exact hatom ls dst f (by rw [hu] at huse ⊢; rw [beq_iff_eq.mp huse])
  | _ => rw [hu] at huse; cases huse

/-! ### The fence -/

theorem fence_legal {i : Issue} {b : SyncBody} (hkind : b.kind ≠ 3) (himm : i.imm = none) (hguard : i.guard = none) :
    (b.kind != 3 && i.imm.isNone && i.guard.isNone) = true := by
  rw [himm, hguard, bne_iff_ne.mpr hkind]
  rfl

/-- FENCE_DEVICE or FENCE_SYSTEM, by the scope of a fence (R224). -/
def scopeCounter (b : SyncBody) : Nat := if b.scope = 3 then 88 else 87

theorem scopeCounter_mem (b : SyncBody) : scopeCounter b ∈ fenceCounters ∧ scopeCounter b ≠ 90 := by
  unfold scopeCounter
  split <;> decide

/-- The device once a fence has been counted and its pack has left the active set. -/
def fenceDone (i : Issue) (b : SyncBody) (w : Nat) (k : KBlock) (d : Device) : Device :=
  ((d.count k.ctx (scopeCounter b) 1).count k.ctx 90 w).parkPack i.pack none

section Done

variable (i : Issue) (b : SyncBody) (w : Nat) (k : KBlock) (d : Device)

theorem fenceDone_pack : (fenceDone i b w k d).pack i.pack =
    { d.pack i.pack with slot := none, wait := none, stamp := d.collie.stamp } := by
  rw [fenceDone, parkPack_pack]
  simp

theorem fenceDone_pack_ne {q : Nat} (hq : q ≠ i.pack) : (fenceDone i b w k d).pack q = d.pack q := by
  refine ((Device.pack_updPack _ _ _ _).trans (if_neg hq)).trans ?_
  change (Device.count _ _ _ _).pack q = _
  simp

theorem fenceDone_core (die core : Nat) : (fenceDone i b w k d).core die core = d.core die core := by
  change (Device.count _ _ _ _).core die core = _
  unfold Device.core
  rw [Device.count_collie, Device.count_collie]

theorem fenceDone_counter (n : Nat) : (fenceDone i b w k d).counter k.ctx n =
    if n = 90 then satAdd64 (d.counter k.ctx n) w else if n = scopeCounter b then satAdd64 (d.counter k.ctx n) 1
    else d.counter k.ctx n := by
  have hscope := (scopeCounter_mem b).2
  change (Device.count _ _ _ _).counter k.ctx n = _
  simp only [Device.counter_count, Nat.add_left_cancel_iff]
  split
  next h => rw [if_neg (by omega), h]
  next =>
    split
    next h => rw [h]
    next => rfl

end Done

section Wide

variable {s : State} {i : Issue} {b : SyncBody} {w : Nat} {k : KBlock} {x : Pack} {it : Item}
  (hissue : issues s (.fence i b w) i k x it) (hkind : b.kind ≠ 3) (himm : i.imm = none) (hguard : i.guard = none)
  (hscope : 2 ≤ b.scope.toNat) (hsound : coreSound s.dev k.die k.core) (hphase : it.phase ≠ .done)
  (hacked : b.scope = 3 → kindReleases b.kind = true → s.dev.packWrites i.pack = false)
include hissue hkind himm hguard hscope hsound hphase hacked

theorem exec_fence_wide : exec (.fence i b w) s = .next { s with
    dev := counted ((fenceDone i b w k (fenced b k s.dev)).updPack i.pack fun y => { y with pc := x.pc + wordsOf i })
      s.plat.pow.time k x.slot } := by
  obtain ⟨hlose, heffect⟩ := fenceCaches_effect b hsound
  obtain ⟨-, -, hitem⟩ := Device.issuer_pack hissue.1
  have hwait : ¬(b.scope = 3 && kindReleases b.kind && s.dev.packWrites i.pack) = true := by
    intro h
    simp only [Bool.and_eq_true, decide_eq_true_eq] at h
    obtain ⟨⟨hsys, hrel⟩, hpend⟩ := h
    rw [hacked hsys hrel] at hpend
    cases hpend
  have hrunning : ¬(((fenced b k s.dev).item k.ctx k.seq).any fun it => it.phase == .done) = true := by
    rw [heffect.quiet.item, hitem]
    simpa using hphase
  refine exec_go hissue (f := fence i b w) rfl rfl (fence_legal hkind himm hguard) ?_
  dsimp only
  rw [if_neg (by omega), if_neg hwait, hlose]
  exact if_neg hrunning

/-- What is read after a fence of device or system scope, whose part at the caches leaves `e`. -/
theorem exec_fence_reads : ∃ t e st, exec (.fence i b w) s = .next t ∧ t.plat = s.plat ∧ FenceEffect s.dev b k e ∧
    (∀ die core, (t.dev.core die core).lines = (e.core die core).lines) ∧
    (∀ n ∈ fenceCounters, t.dev.counter k.ctx n = (fenceDone i b w k e).counter k.ctx n) ∧
    t.dev.pack i.pack = { x with pc := x.pc + 1, slot := none, wait := none, stamp := st } ∧
    ∀ q, q ≠ i.pack → t.dev.pack q = s.dev.pack q := by
  obtain ⟨-, heffect⟩ := fenceCaches_effect b hsound
  have hgo := exec_fence_wide hissue hkind himm hguard hscope hsound hphase hacked
  refine ⟨_, fenced b k s.dev, (fenced b k s.dev).collie.stamp, hgo, rfl, heffect, fun die core => ?lines,
    fun n hn => ?counters, ?pack, fun q hq => ?others⟩
  case lines => rw [counted_lines, core_updPack, fenceDone_core]
  case counters =>
    have hrange : ∀ n ∈ fenceCounters, n < 256 ∧ n ≠ 125 ∧ ¬(n = 44 ∨ n = 78) := by decide
    obtain ⟨hlt, h125, hother⟩ := hrange n hn
    rw [counted_counter _ _ _ _ hlt (fun h => h125 h.2), if_neg fun h => hother h.2]
    rfl
  case pack =>
    rw [counted_pack, Device.pack_updPack, if_pos rfl, fenceDone_pack, heffect.quiet.pack, pack_of_issues hissue, wordsOf, himm]
    rfl
  case others => rw [counted_pack, Device.pack_updPack, if_neg hq, fenceDone_pack_ne _ _ _ _ _ hq, heffect.quiet.pack]

end Wide

theorem acquires_iff {c : BitVec 2} (h : c ≠ 3) : kindAcquires c = true ↔ c ≠ 1 := by
  revert c
  decide

theorem ne_zero_of_releases {c : BitVec 2} : kindReleases c = true → c ≠ 0 := by
  revert c
  decide

/-- Settles O9: a narrow fence only moves its pack on, and a wide one finds every line of its core fit to be written back. -/
theorem fencesWriteBackAndInvalidate : Obligations.FencesWriteBackAndInvalidate := by
  intro i b w s k x it hissue hkind himm hguard
  refine ⟨fun hnarrow => ?narrow, fun hwide hsound hphase hacked => ?wide⟩
  case narrow => exact exec_nothing hissue (f := fence i b w) rfl rfl (fence_legal hkind himm hguard) (if_pos hnarrow)
  case wide =>
    obtain ⟨t, e, st, hexec, hplat, heffect, hlines, hcounters, hpack, hothers⟩ := exec_fence_reads hissue hkind himm hguard
      hwide hsound hphase fun hsys hrel => packWrites_eq_false (hacked hsys (ne_zero_of_releases hrel))
    obtain ⟨-, ⟨hcores, hcounts⟩, hreleased, hacquired⟩ := heffect
    refine ⟨t, hexec, hplat, ?fences, ?cycles, fun hrel => ?release, fun hacq => ?acquire, by rw [hpack], by rw [hpack],
      by rw [hpack], by rw [hpack], hothers, fun die core hne hcore hk => ?cores⟩
    case fences =>
      change (t.dev.counter k.ctx (scopeCounter b)).toNat = min ((s.dev.counter k.ctx (scopeCounter b)).toNat + 1) _
      obtain ⟨hmem, h90⟩ := scopeCounter_mem b
      rw [hcounters _ hmem, fenceDone_counter, if_neg h90, if_pos rfl, hcounts _ _ hmem, satAdd64_toNat]
    case cycles => rw [hcounters 90 (by decide), fenceDone_counter, if_pos rfl, hcounts _ _ (by decide), satAdd64_toNat]
    case release =>
      rw [hlines]
      exact hreleased (by rw [hrel]; rfl)
    case acquire =>
      rw [hlines]
      exact hacquired ((acquires_iff hkind).mpr hacq)
    case cores =>
      rw [hlines]
      exact hcores die core (by omega)

end Sys2Proof.Proofs.Fences
end

section
/-! O35 fails in its last part, on host reads, as O48 does. The host reads past the die caches, and its read takes every finding on a
codeword but 0 (none) and 1 (corrected) for an uncorrectable error that it discovers (`Device.findWeak`, R124, R125), while `sound`
leaves out the finding 2 alone. Where the half-line read carries a finding of 3, the premises hold, the read makes the half-line bad,
and the answer is poisoned (R248) instead of giving the bytes. The commands of the model write findings up to 2 only (`eccWeak`). -/

namespace Sys2Proof.Proofs.UndiscoveredErrorOfHostRead

open Sys2Proof.Machine Sys2Proof.Spec
open Sys2Proof.Proofs.UndiscoveredError (ok_of_toOption)

/-! ### A window on a codeword with an error that nothing has found -/

/-- The page at device address 0, whose first codeword carries the finding 3, lies in context 1's window 0. -/
def start : State :=
  { UndiscoveredErrorOfAtomic.start with dev := UndiscoveredErrorOfAtomic.start.dev.mapHub fun h =>
      { h with windows := [(0, some (1, 0))] } }

/-! ### The statement's part on host reads applies to it -/

theorem start_sound : sound start := by
  intro h
  change FMap.get 0 [(0, 3)] h ≠ 2
  rw [FMap.get_cons, FMap.get_nil]
  split <;> decide

theorem start_wholeLines : wholeLines start.dev.mem := nofun

/-- The one byte read is granted and lies in a half-line that nothing knows to be bad. -/
theorem start_reads : ∀ i < 1, translate start.dev 1 (0 + 0 + i) .read = .ok (.dev 0, 1) ∧
    start.dev.mem.halfBad (0 / 64) = false := by
  intro i hi
  obtain rfl : i = 0 := Nat.lt_one_iff.mp hi
  exact ⟨ok_of_toOption (by decide +kernel), by decide +kernel⟩

/-! ### The bytes do not come back -/

/-- The part after the host's read of one byte. -/
def answered : State := { start with dev := hostMemAccess 0 0 (.read 1) start.plat start.dev }

theorem exec_read_start : exec (.hostMemAccess 0 0 (.read 1)) start = .next answered := rfl

/-- The read finds the error, and its answer is poisoned. -/
theorem answered_sent : answered.dev.sent = [.hdmData [Config.freeByte 0 0] true] := by rfl

/-- Refutes O35: HOST_MEM_ACCESS through a bound window of a byte in a codeword with the finding 3 discovers an uncorrectable error
with its read (R124, R125) and answers poison (R248), which neither `sound` nor the half-line's state rules out. -/
theorem not_cacheControlAndHostAccess : ¬ Obligations.CacheControlAndHostAccess := by
  intro h
  obtain ⟨-, -, -, hhost⟩ := h
  obtain ⟨-, hbound⟩ := hhost start 0 0 1 (by decide)
  obtain ⟨hread, -⟩ := hbound 1 0 rfl (by decide +kernel)
  obtain ⟨t, hexec, -, -, hsent⟩ := hread (fun _ => 0) (fun _ => 1) le_rfl start_sound start_wholeLines start_reads
  obtain rfl : answered = t := Host.Outcome.next.inj (exec_read_start.symm.trans hexec)
  rw [answered_sent] at hsent
  obtain ⟨hdata, -⟩ := List.cons.inj hsent
  obtain ⟨-, hpoison⟩ := Output.hdmData.inj hdata
  exact absurd hpoison (by decide)

end Sys2Proof.Proofs.UndiscoveredErrorOfHostRead
end

section
/-! O59, the ground: what of a device the invariant speaks of, and the operations that leave it alone. -/

namespace Sys2Proof.Proofs.MemoryInvariant

open Sys2Proof.Machine Sys2Proof.Spec

/-! ### The invariant, part by part -/

/-- The memory system's part of the invariant. -/
def MemSound (m : Mem) : Prop := Memory.wf m ∧ coherent m

/-- A line of a core's data cache with its 128 bytes and marks. -/
def WholeLine (x : CLine) : Prop := x.data.length = 128 ∧ x.dirty.length = 128

/-- The cores' part of the invariant. -/
def CoresSound (cs : FMap CoreSt) : Prop := ∀ e ∈ cs, ∀ x ∈ e.2.lines, WholeLine x

/-- The invariant of O59. -/
def Sound (d : Device) : Prop := MemSound d.mem ∧ CoresSound d.collie.cores

theorem sound_iff (d : Device) : Sound d ↔ memorySound d := and_assoc

variable {d e : Device}

theorem Sound.mem (h : Sound d) : MemSound d.mem := h.1

theorem Sound.cores (h : Sound d) : CoresSound d.collie.cores := h.2

theorem CoresSound.get {cs : FMap CoreSt} (h : CoresSound cs) (n : Nat) :
    ∀ x ∈ (FMap.get CoreSt.reset cs n).lines, WholeLine x := by
  induction cs with
  | nil => exact fun x hx => nomatch hx
  | cons e cs ih =>
    obtain ⟨k, c⟩ := e
    rw [FMap.get_cons]
    split
    · exact h (k, c) (by simp)
    · exact ih fun e he => h e (by simp [he])

theorem Sound.core (h : Sound d) (die core : Nat) : ∀ x ∈ (d.core die core).lines, WholeLine x := h.cores.get _

/-- What has the memory and the cores of a device. -/
theorem sound_congr (hmem : e.mem = d.mem) (hcollie : e.collie = d.collie) : Sound e ↔ Sound d := by
  unfold Sound
  rw [hmem, hcollie]

@[simp] theorem sound_ite (c : Prop) [Decidable c] : Sound (if c then d else e) ↔ if c then Sound d else Sound e := by
  split <;> rfl

@[simp] theorem sound_fst_ite {α : Type} (c : Prop) [Decidable c] (r u : Device × α) :
    Sound (if c then r else u).1 ↔ if c then Sound r.1 else Sound u.1 := by
  split <;> rfl

/-- A fold keeps what each of its steps keeps. -/
theorem Sound.foldl {β : Type} {f : Device → β → Device} (h : Sound d) (hf : ∀ d x, Sound d → Sound (f d x)) (l : List β) :
    Sound (l.foldl f d) := by
  induction l generalizing d with
  | nil => exact h
  | cons x l ih => exact ih (hf d x h)

@[simp] theorem sound_foldl {β : Type} {f : Device → β → Device} (hf : ∀ d x, Sound (f d x) ↔ Sound d) (l : List β) :
    Sound (l.foldl f d) ↔ Sound d := by
  induction l generalizing d with
  | nil => rfl
  | cons x l ih => exact ih.trans (hf d x)

/-! ### Updates of the other parts -/

section Frames
variable (d)

@[simp] theorem sound_mapHub (f : Hub → Hub) : Sound (d.mapHub f) ↔ Sound d := .rfl
@[simp] theorem sound_mapEng (f : Engines → Engines) : Sound (d.mapEng f) ↔ Sound d := .rfl
@[simp] theorem sound_mapUps (f : Ups → Ups) : Sound (d.mapUps f) ↔ Sound d := .rfl
@[simp] theorem sound_mapReel (f : Reel → Reel) : Sound (d.mapReel f) ↔ Sound d := .rfl
@[simp] theorem sound_mapPorts (f : Ports → Ports) : Sound (d.mapPorts f) ↔ Sound d := .rfl
@[simp] theorem sound_setCtx (c : Nat) (x : Ctx) : Sound (d.setCtx c x) ↔ Sound d := .rfl
@[simp] theorem sound_updCtx (c : Nat) (f : Ctx → Ctx) : Sound (d.updCtx c f) ↔ Sound d := .rfl
@[simp] theorem sound_setRing (c : Nat) (x : Ring) : Sound (d.setRing c x) ↔ Sound d := .rfl
@[simp] theorem sound_updRing (c : Nat) (f : Ring → Ring) : Sound (d.updRing c f) ↔ Sound d := .rfl
@[simp] theorem sound_setSlice (i : Nat) (x : Slice) : Sound (d.setSlice i x) ↔ Sound d := .rfl
@[simp] theorem sound_updSlice (i : Nat) (f : Slice → Slice) : Sound (d.updSlice i f) ↔ Sound d := .rfl
@[simp] theorem sound_updDie (i : Nat) (f : DieBlocks → DieBlocks) : Sound (d.updDie i f) ↔ Sound d := .rfl
@[simp] theorem sound_updRe (i k : Nat) (f : RowEng → RowEng) : Sound (d.updRe i k f) ↔ Sound d := .rfl
@[simp] theorem sound_updVe (i k : Nat) (f : VecEng → VecEng) : Sound (d.updVe i k f) ↔ Sound d := .rfl
@[simp] theorem sound_setPack (p : Nat) (x : Pack) : Sound (d.setPack p x) ↔ Sound d := .rfl
@[simp] theorem sound_updPack (p : Nat) (f : Pack → Pack) : Sound (d.updPack p f) ↔ Sound d := .rfl
@[simp] theorem sound_updBlock (b : Nat) (f : KBlock → KBlock) : Sound (d.updBlock b f) ↔ Sound d := .rfl
@[simp] theorem sound_updMemBlk (i : Nat) (f : MemBlk → MemBlk) : Sound (d.updMemBlk i f) ↔ Sound d := .rfl
@[simp] theorem sound_setGroup (g : Nat) (x : Group) : Sound (d.setGroup g x) ↔ Sound d := .rfl
@[simp] theorem sound_updPort (p : Nat) (f : Port → Port) : Sound (d.updPort p f) ↔ Sound d := .rfl
@[simp] theorem sound_updItem (c q : Nat) (f : Item → Item) : Sound (d.updItem c q f) ↔ Sound d := .rfl
@[simp] theorem sound_logEvent (time : Dword) (event who res arg : Nat) (more : LogMore) :
    Sound (d.logEvent time event who res arg more) ↔ Sound d := .rfl
@[simp] theorem sound_setCounter (c n : Nat) (v : Dword) : Sound (d.setCounter c n v) ↔ Sound d := .rfl
@[simp] theorem sound_fresh : Sound d.fresh.2 ↔ Sound d := .rfl
@[simp] theorem sound_unkeep (die core : Nat) (f : Nat → Nat → Nat → Bool) : Sound (d.unkeep die core f) ↔ Sound d := .rfl
@[simp] theorem sound_dropBuf (c q : Nat) : Sound (d.dropBuf c q) ↔ Sound d := .rfl

@[simp] theorem sound_emit (o : Output) : Sound (d.emit o) ↔ Sound d := sound_congr (d.emit_mem o) (d.emit_collie o)

@[simp] theorem sound_count (c n k : Nat) : Sound (d.count c n k) ↔ Sound d :=
  sound_congr (d.count_mem c n k) (d.count_collie c n k)

@[simp] theorem sound_countUnit (c die u j k : Nat) : Sound (d.countUnit c die u j k) ↔ Sound d :=
  sound_congr (d.countUnit_mem c die u j k) (d.countUnit_collie c die u j k)

@[simp] theorem sound_mk (hub : Hub) (eng : Engines) (ups : Ups) (reel : Reel) (ports : Ports) (log : List LogEntry)
    (sent : List Output) (freeCtr lruTick : Nat) :
    Sound ⟨hub, eng, d.collie, d.mem, ups, reel, ports, log, sent, freeCtr, lruTick⟩ ↔ Sound d := .rfl

/-- Changes of the cores' side that leave the data caches. -/
@[simp] theorem sound_mapCollie {f : Collie → Collie} (hf : ∀ c, (f c).cores = c.cores) :
    Sound (d.mapCollie f) ↔ Sound d := by
  unfold Sound
  rw [Device.mapCollie_mem, Device.mapCollie_collie, hf]

/-- Changes of the memory system that leave both memories and the die caches. -/
@[simp] theorem sound_mapMem {f : Mem → Mem} (hdram : ∀ m, (f m).dram = m.dram) (hhost : ∀ m, (f m).hostMem = m.hostMem)
    (hlines : ∀ m, (f m).lines = m.lines) : Sound (d.mapMem f) ↔ Sound d := by
  unfold Sound MemSound Memory.wf coherent
  rw [Device.mapMem_mem, Device.mapMem_collie, hdram, hhost, hlines]

end Frames

end Sys2Proof.Proofs.MemoryInvariant
end

section
/-! O59, the memory system: every operation on lines, die caches and data caches keeps the invariant (R122 to R130, R168, R225 to
R241). -/

namespace Sys2Proof.Proofs.MemoryInvariant

open Sys2Proof.Machine Sys2Proof.Spec

/-! ### Lists of die-cache lines -/

section Lines
variable {m m' : Mem}

/-- Lines may leave the die caches. -/
theorem coherent_of_sublist (h : coherent m) (hsub : m'.lines.Sublist m.lines) : coherent m' :=
  ⟨fun x hx => h.1 x (hsub.mem hx), h.2.sublist hsub⟩

/-- Lines may be changed where they stand, so long as none takes other bytes or leaves the state shared. -/
theorem coherent_of_map {f : DLine → DLine} (h : coherent m) (hlines : m'.lines = m.lines.map f)
    (hf : ∀ x, (f x).die = x.die ∧ (f x).host = x.host ∧ (f x).line = x.line ∧ (f x).data = x.data ∧
      (x.st = .shared → (f x).st = .shared)) : coherent m' := by
  obtain ⟨hwhole, hpair⟩ := h
  unfold coherent
  rw [hlines]
  refine ⟨fun x hx => ?_, List.pairwise_map.mpr (hpair.imp fun {x y} hxy hhost hline => ?_)⟩
  · obtain ⟨y, hy, rfl⟩ := List.mem_map.mp hx
    rw [(hf y).2.2.2.1]
    exact hwhole y hy
  · obtain ⟨hxd, hxh, hxl, -, hxs⟩ := hf x
    obtain ⟨hyd, hyh, hyl, -, hys⟩ := hf y
    rw [hxh, hyh] at hhost
    rw [hxl, hyl] at hline
    obtain ⟨hdie, hx, hy⟩ := hxy hhost hline
    exact ⟨by rwa [hxd, hyd], hxs hx, hys hy⟩

/-- A whole line comes in beside copies in other dies that are shared, and is shared itself then. -/
theorem coherent_cons {x : DLine} (h : coherent m) (hlines : m'.lines = x :: m.lines) (hx : x.data.length = 128)
    (hfree : ∀ y ∈ m.lines, y.host = x.host → y.line = x.line → y.die ≠ x.die ∧ x.st = .shared ∧ y.st = .shared) :
    coherent m' := by
  obtain ⟨hwhole, hpair⟩ := h
  unfold coherent
  rw [hlines]
  refine ⟨fun y hy => ?_, List.pairwise_cons.mpr ⟨fun y hy hhost hline => ?_, hpair⟩⟩
  · rcases List.mem_cons.mp hy with rfl | hy
    · exact hx
    · exact hwhole y hy
  · obtain ⟨hdie, hshared⟩ := hfree y hy hhost.symm hline.symm
    exact ⟨hdie.symm, hshared⟩

/-- A line's die cache takes new bytes of it in any state that copies in other dies agree with. -/
theorem coherent_replace {m m' : Mem} {die l : Nat} {host : Bool} {f : DLine → DLine} (h : coherent m)
    (hlines : m'.lines = m.lines.map fun x => if x.die == die && x.host == host && x.line == l then f x else x)
    (hf : ∀ x, (f x).die = x.die ∧ (f x).host = x.host ∧ (f x).line = x.line ∧ (f x).data.length = 128)
    (hfree : ∀ y ∈ m.lines, y.host = host → y.line = l → y.die ≠ die → (∀ x, (f x).st = .shared) ∧ y.st = .shared) :
    coherent m' := by
  obtain ⟨hwhole, hpair⟩ := h
  unfold coherent
  rw [hlines]
  refine ⟨fun x hx => ?_, List.pairwise_map.mpr (hpair.imp_of_mem fun {x y} hx hy hxy => ?_)⟩
  · obtain ⟨y, hy, rfl⟩ := List.mem_map.mp hx
    split
    · exact (hf y).2.2.2
    · exact hwhole y hy
  · obtain ⟨hxd, hxh, hxl, -⟩ := hf x
    obtain ⟨hyd, hyh, hyl, -⟩ := hf y
    have hother := hfree x hx
    have hself := hfree y hy
    split <;> split <;> grind

end Lines

/-! ### Memory -/

section Mem
variable {m : Mem}

theorem MemSound.foldl {β : Type} {f : Mem → β → Mem} (h : MemSound m) (hf : ∀ m x, MemSound m → MemSound (f m x))
    (l : List β) : MemSound (l.foldl f m) := by
  induction l generalizing m with
  | nil => exact h
  | cons x l ih => exact ih (hf m x h)

/-- Both memories stay canonical, and lines may leave the caches. -/
theorem MemSound.of_sublist {m' : Mem} (h : MemSound m) (hwf : Memory.wf m') (hsub : m'.lines.Sublist m.lines) :
    MemSound m' := ⟨hwf, coherent_of_sublist h.2 hsub⟩

theorem MemSound.dramPut (h : MemSound m) (k l : Nat) (bs : List Byte) : MemSound (m.dramPut k l bs) :=
  ⟨Mem.wf_dramPut h.1 k l bs, h.2⟩

theorem MemSound.hostPut (h : MemSound m) (l : Nat) (bs : List Byte) : MemSound (m.hostPut l bs) :=
  ⟨Mem.wf_hostPut h.1 l bs, h.2⟩

@[simp] theorem lines_writeBack (m : Mem) (x : DLine) : (m.writeBack x).lines = m.lines := by
  unfold Mem.writeBack
  repeat' split
  all_goals rfl

theorem MemSound.writeBack (h : MemSound m) (x : DLine) : MemSound (m.writeBack x) :=
  h.of_sublist (Mem.wf_writeBack h.1 x) (by simp)

theorem MemSound.writeBacks (h : MemSound m) (xs : List DLine) : MemSound (xs.foldl Mem.writeBack m) :=
  h.foldl (fun _ x h => h.writeBack x) xs

theorem MemSound.dropCopies (h : MemSound m) (host : Bool) (l : Nat) : MemSound (m.dropCopies host l) :=
  h.of_sublist (Mem.wf_dropCopies h.1 host l) List.filter_sublist

theorem MemSound.recall (h : MemSound m) (host : Bool) (l : Nat) : MemSound (m.recall host l) := by
  unfold Mem.recall
  split
  · exact h.dropCopies host l
  · exact (h.writeBack _).dropCopies host l

theorem MemSound.shareLine (h : MemSound m) (host : Bool) (l : Nat) : MemSound (m.shareLine host l) := by
  have hshare : ∀ x : DLine, let y := if x.host == host && x.line == l then { x with st := LineSt.shared } else x
      y.die = x.die ∧ y.host = x.host ∧ y.line = x.line ∧ y.data = x.data ∧ (x.st = .shared → y.st = .shared) := by
    intro x
    dsimp only
    split <;> simp
  unfold Mem.shareLine
  split
  · exact ⟨h.1, coherent_of_map h.2 rfl hshare⟩
  · exact ⟨Mem.wf_writeBack h.1 _, coherent_of_map (h.writeBack _).2 rfl hshare⟩

theorem MemSound.scrubLines (h : MemSound m) (ls : List Nat) : MemSound (m.scrubLines ls) := by
  unfold Mem.scrubLines
  generalize List.replicate 128 (0 : Byte) = zeros
  exact h.foldl (fun _ l h => (h.dropCopies false l).dramPut 0 l zeros) ls

/-- Which context a page belongs to, and whether it is to be scrubbed, is another table's. -/
theorem MemSound.markPages (h : MemSound m) (pages : FMap Nat) (scrubQ : FMap Bool) :
    MemSound { m with pages := pages, scrubQ := scrubQ } := h

theorem MemSound.scrubPages (h : MemSound m) (ps : List Nat) : MemSound (m.scrubPages ps) := by
  refine h.foldl (fun m p h => ?_) ps
  exact (h.scrubLines (linesOfPage p)).markPages _ _

theorem MemSound.discardLine (h : MemSound m) (l : Nat) : MemSound (m.discardLine l) := by
  unfold Mem.discardLine
  split
  · exact h
  · exact h.dropCopies false l

theorem MemSound.recalls (h : MemSound m) (host : Bool) (ls : List Nat) :
    MemSound (ls.foldl (fun m l => m.recall host l) m) := h.foldl (fun _ l h => h.recall host l) ls

theorem MemSound.hostWrites (h : MemSound m) (w : HostWrite) : MemSound (m.hostWrites w) := by
  refine ⟨Mem.wf_hostWrites h.1 w, ?_⟩
  unfold Mem.hostWrites
  dsimp only
  split
  · exact h.2
  · exact (h.recalls true _).2

theorem MemSound.scanWays (h : MemSound m) (dies ways : List Nat) (tc : Nat) : MemSound (m.scanWays dies ways tc) := by
  have hback := h.writeBacks (m.lines.filter (DLine.scanHit dies ways tc))
  exact hback.of_sublist hback.1 List.filter_sublist

theorem MemSound.flushDie (h : MemSound m) (die : Nat) : MemSound (m.flushDie die) := by
  have hback := h.writeBacks (m.lines.filter fun x => x.die == die)
  exact hback.of_sublist hback.1 List.filter_sublist

theorem MemSound.wiped (h : MemSound m) : MemSound m.wiped :=
  ⟨⟨⟨.nil, by simp [Mem.wiped, Mem.reset]⟩, h.1.2⟩, by simp [coherent, Mem.wiped, Mem.reset]⟩

end Mem

/-! ### The data caches of the cores -/

variable {d : Device}

theorem Sound.mapMem (h : Sound d) {f : Mem → Mem} (hf : MemSound (f d.mem)) : Sound (d.mapMem f) := ⟨hf, h.cores⟩

theorem mem_set_cores {cs : FMap CoreSt} {n : Nat} {c : CoreSt} {e : Nat × CoreSt}
    (h : e ∈ FMap.set CoreSt.reset cs n c) : e = (n, c) ∨ e ∈ cs := by
  unfold FMap.set at h
  split at h
  · exact .inr (List.mem_filter.mp h).1
  · exact (FMap.mem_insert.mp h).imp_right fun he => (List.mem_filter.mp he).1

/-- The lines of one core are changed to whole ones. -/
theorem CoresSound.upd {cs : FMap CoreSt} (h : CoresSound cs) (n : Nat) {f : CoreSt → CoreSt}
    (hf : ∀ c : CoreSt, (∀ x ∈ c.lines, WholeLine x) → ∀ x ∈ (f c).lines, WholeLine x) :
    CoresSound (FMap.upd CoreSt.reset cs n f) := by
  intro e he
  rcases mem_set_cores he with rfl | he
  · exact hf _ (h.get n)
  · exact h e he

theorem Sound.updCore (h : Sound d) (die core : Nat) {f : CoreSt → CoreSt}
    (hf : ∀ c : CoreSt, (∀ x ∈ c.lines, WholeLine x) → ∀ x ∈ (f c).lines, WholeLine x) : Sound (d.updCore die core f) :=
  ⟨h.mem, h.cores.upd _ hf⟩

/-- Marks of prefetches go. -/
theorem Sound.prefUsed (h : Sound d) (die l c : Nat) : Sound (d.prefUsed die l c) := by
  unfold Device.prefUsed
  refine (sound_count ..).mpr ⟨⟨h.mem.1, coherent_of_map h.mem.2 rfl fun x => ?line⟩, fun e he x hx => ?core⟩
  case line =>
    split <;> simp
  case core =>
    obtain ⟨e0, he0, rfl⟩ := List.mem_map.mp he
    split at hx
    · obtain ⟨y, hy, rfl⟩ := List.mem_map.mp hx
      have hwhole := h.cores e0 he0 y hy
      split <;> exact hwhole
    · exact h.cores e0 he0 x hx

/-! ### The die caches -/

/-- The own copy of a die takes a whole line, agreeing with copies in other dies. -/
theorem MemSound.replaceLine {m : Mem} (h : MemSound m) {die : Nat} {host : Bool} {l : Nat} {f : DLine → DLine}
    (hf : ∀ x, (f x).die = x.die ∧ (f x).host = x.host ∧ (f x).line = x.line ∧ (f x).data.length = 128)
    (hfree : ∀ y ∈ m.lines, y.host = host → y.line = l → y.die ≠ die → (∀ x, (f x).st = .shared) ∧ y.st = .shared) :
    MemSound { m with lines := m.lines.map fun x => if x.die == die && x.host == host && x.line == l then f x else x } :=
  ⟨h.1, coherent_replace h.2 rfl hf hfree⟩

/-- A whole line comes in, with or without a victim that goes. -/
theorem MemSound.newLine {m : Mem} (h : MemSound m) {x : DLine} (hx : x.data.length = 128)
    (hfree : ∀ y ∈ m.lines, y.host = x.host → y.line = x.line → y.die ≠ x.die ∧ x.st = .shared ∧ y.st = .shared)
    {p : DLine → Bool} : MemSound { m with lines := x :: m.lines.filter p } :=
  ⟨h.1, coherent_cons (m := { m with lines := m.lines.filter p }) (coherent_of_sublist h.2 List.filter_sublist) rfl hx
    fun y hy => hfree y (List.mem_filter.mp hy).1⟩

/-- A whole line is put in a die's cache, where copies in other dies, if there are any, are shared as it is. -/
theorem Sound.cachePut (h : Sound d) {die : Nat} {host : Bool} {l tc : Nat} {st : LineSt} {key : Nat} {data : List Byte}
    {pref : Option Nat} (hdata : data.length = 128)
    (hfree : ∀ y ∈ d.mem.lines, y.host = host → y.line = l → y.die ≠ die → st = .shared ∧ y.st = .shared) :
    Sound (d.cachePut die host l tc st key data pref) := by
  obtain ⟨hmem, hcores⟩ := h
  unfold Device.cachePut
  dsimp only
  split
  case h_1 own hown =>
    have hput := hmem.replaceLine (die := die) (host := host) (l := l)
      (f := fun x => { x with st := st, tc := tc, stamp := d.lruTick, key := key, data := data, pref := pref })
      (fun x => ⟨rfl, rfl, rfl, hdata⟩) fun y hy hhost hline hdie =>
        ⟨fun _ => (hfree y hy hhost hline hdie).1, (hfree y hy hhost hline hdie).2⟩
    have hsound : Sound ({ d with lruTick := d.lruTick + 1 }.mapMem fun _ => _) := ⟨hput, hcores⟩
    split
    · exact hsound
    · exact hsound.prefUsed _ _ _
  case h_2 hnone =>
    have hnew : ∀ y ∈ d.mem.lines, y.host = host → y.line = l → y.die ≠ die ∧ st = .shared ∧ y.st = .shared := by
      intro y hy hhost hline
      have hdie : y.die ≠ die := fun hd => by simpa [hd, hhost, hline] using List.find?_eq_none.mp hnone y hy
      exact ⟨hdie, hfree y hy hhost hline hdie⟩
    split
    · exact ⟨⟨hmem.1, coherent_cons hmem.2 rfl hdata hnew⟩, hcores⟩
    · next x _ =>
      have hplaced : ∀ way, MemSound { d.mem.writeBack x with
          lines := ⟨die, host, l, way, st, tc, d.lruTick, key, data, pref⟩ :: (d.mem.writeBack x).lines.filter fun y =>
            !(y.die == x.die && y.host == x.host && y.line == x.line) } :=
        fun _ => (hmem.writeBack x).newLine hdata (by simpa using hnew)
      split
      · exact ⟨hplaced _, hcores⟩
      · rw [sound_ite, sound_count, ite_self]
        exact ⟨hplaced _, hcores⟩

end Sys2Proof.Proofs.MemoryInvariant
end

section
/-! O59, stores, the first level and the units' accesses (R124 to R130, R168, R211 to R217, R225, R249, R319). -/

namespace Sys2Proof.Proofs.MemoryInvariant

open Sys2Proof.Machine Sys2Proof.Spec

variable {d e : Device}

/-! ### Touches and findings -/

@[simp] theorem Sound.cacheTouch (h : Sound d) (die : Nat) (host : Bool) (l : Nat) : Sound (d.cacheTouch die host l) := by
  unfold Device.cacheTouch
  split
  · exact h
  · next x _ =>
    have hstamped : ∀ n, MemSound { d.mem with lines := d.mem.lines.map fun y =>
        if y.die == die && y.host == host && y.line == l then { y with stamp := n } else y } := fun n =>
      ⟨h.mem.1, coherent_of_map h.mem.2 rfl fun y => by split <;> simp⟩
    have htouched : Sound ({ d with lruTick := d.lruTick + 1 }.mapMem fun _ => _) := ⟨hstamped d.lruTick, h.cores⟩
    dsimp only
    split
    · exact htouched
    · exact htouched.prefUsed ..

@[simp] theorem sound_eccCe (d : Device) (half : Nat) : Sound (d.eccCe half) ↔ Sound d := .rfl

@[simp] theorem sound_eccUe (d : Device) (half : Nat) : Sound (d.eccUe half) ↔ Sound d := .rfl

@[simp] theorem sound_eccFound (d : Device) (half : Nat) (x : Ecc) : Sound (d.eccFound half x) ↔ Sound d := by
  unfold Device.eccFound
  split <;> simp

@[simp] theorem sound_findWeak (d : Device) (half : Nat) : Sound (d.findWeak half) ↔ Sound d := by
  unfold Device.findWeak
  split
  · rfl
  · simp

@[simp] theorem sound_backInval (d : Device) (l : Nat) : Sound (d.backInval l) ↔ Sound d := by
  unfold Device.backInval
  split <;> simp

@[simp] theorem sound_unusedLines (d : Device) (f : DLine → Bool) : Sound (d.unusedLines f) ↔ Sound d := by
  unfold Device.unusedLines
  refine sound_foldl (fun d x => ?_) _
  split <;> simp

@[simp] theorem sound_hostResponse (d : Device) (l : Nat) : Sound (d.hostResponse l) ↔ Sound d := .rfl

/-! ### Stores -/

@[simp] theorem length_overlay (p : List (Option Byte)) (bs : List Byte) :
    (overlay p bs).length = min p.length bs.length := List.length_zipWith

@[simp] theorem length_devLine (m : Mem) (rk l : Nat) : (m.devLine rk l).length = 128 := by simp [Mem.devLine]

@[simp] theorem length_rawLine (m : Mem) (l : Nat) : (m.rawLine l).length = 128 := by simp [Mem.rawLine]

@[simp] theorem length_patchAt (off : Nat) (bs : List Byte) : (patchAt off bs).length = 128 := by simp [patchAt]

/-- Copies in other dies that a store recalls leave no line that the stored one must agree with. -/
theorem Sound.cachePut_alone (h : Sound d) {die : Nat} {host : Bool} {l tc : Nat} {st : LineSt} {key : Nat} {data : List Byte}
    {pref : Option Nat} {p : DLine → Bool} (hdata : data.length = 128)
    (hp : ∀ x, x.host = host → x.line = l → x.die ≠ die → p x = false) :
    Sound ((d.mapMem fun m => { m with lines := m.lines.filter p }).cachePut die host l tc st key data pref) := by
  refine Sound.cachePut (h.mapMem (h.mem.of_sublist h.mem.1 List.filter_sublist)) hdata fun y hy hhost hline hdie => ?_
  obtain ⟨-, hkept⟩ := List.mem_filter.mp hy
  exact absurd hkept (by simp [hp y hhost hline hdie])

theorem Sound.storeLine (h : Sound d) {die : Option Nat} {tc key l : Nat} {patch : List (Option Byte)}
    (hpatch : patch.length = 128) (he : d.storeLine die tc key l patch = some e) : Sound e := by
  unfold Device.storeLine at he
  have hread : Sound (if die.isNone then (partialHalves patch).foldl (fun d h => d.findWeak (2 * l + h)) d else d) := by
    simp [h]
  revert he
  generalize (if die.isNone then (partialHalves patch).foldl (fun d h => d.findWeak (2 * l + h)) d else d) = d0 at hread
  intro he
  have hout : ∀ f, Sound ((d0.unusedLines f).backInval l) := fun f => by simpa using hread
  dsimp only at he
  split at he
  · cases he
  · split at he <;> obtain rfl := Option.some.inj he
    · have hdata : (overlay patch (d0.mem.devLine key l)).length = 128 := by simp [hpatch]
      exact Sound.cachePut_alone (hout _) hdata (by simp +contextual)
    · exact (hout _).mapMem (((hout _).mem.dropCopies false l).dramPut key l (overlay patch (d0.mem.devLine key l)))

@[simp] theorem Sound.storeHostLine (h : Sound d) (die : Option Nat) (tc l : Nat) {patch : List (Option Byte)}
    (hpatch : patch.length = 128) : Sound (d.storeHostLine die tc l patch) := by
  unfold Device.storeHostLine
  split
  · next i =>
    have hdata : (overlay patch ((List.range 128).map fun i => d.mem.hostByte (128 * l + i))).length = 128 := by
      simp [hpatch]
    exact h.cachePut_alone hdata (by simp +contextual)
  · exact h.mapMem ((h.mem.dropCopies true l).hostPut ..)

/-! ### Accesses of an item's units -/

@[simp] theorem sound_peerSend (d : Device) (c seq port node rctx rva bytes va : Nat) (op : PeerOp) (use : PeerUse) :
    Sound (d.peerSend c seq port node rctx rva bytes va op use) ↔ Sound d := by simp [Device.peerSend]

@[simp] theorem sound_countStore (d : Device) (a : Actor) (tc : Nat) (host : Bool) (l : Nat) (bs : List Byte) :
    Sound (d.countStore a tc host l bs) ↔ Sound d := by
  unfold Device.countStore
  split
  · rfl
  · split <;> simp

theorem Sound.writePlace (h : Sound d) {a : Actor} {tc va : Nat} {pl : Place} {key : Nat} {bs : List Byte}
    (he : d.writePlace a tc va pl key bs = .ok e) : Sound e := by
  unfold Device.writePlace at he
  split at he
  case h_1 x =>
    split at he
    · cases he
    · split at he
      · cases he
      · next d1 hd1 =>
        obtain rfl := Except.ok.inj he
        exact Sound.storeLine (by simpa using h) (by simp) hd1
  case h_2 x =>
    split at he
    · cases he
    · obtain rfl := Except.ok.inj he
      exact Sound.storeHostLine (by simpa using h) _ _ _ (by simp)
  case h_3 n rc rva =>
    split at he
    · cases he
    · obtain rfl := Except.ok.inj he
      simpa using h

theorem Sound.writeLoop (h : Sound d) {a : Actor} {tc : Nat} {f va : Nat} {bs : List Byte}
    (he : Device.writeLoop a tc f d va bs = .ok e) : Sound e := by
  induction f generalizing d va bs with
  | zero => exact Except.ok.inj he ▸ h
  | succ f ih =>
    cases bs with
    | nil => exact Except.ok.inj he ▸ h
    | cons b bs =>
      unfold Device.writeLoop at he
      dsimp only at he
      split at he
      · cases he
      · split at he
        · cases he
        · next d1 hd1 => exact ih (h.writePlace hd1) he

theorem Sound.writeVa (h : Sound d) {a : Actor} {tc va : Nat} {bs : List Byte} (he : d.writeVa a tc va bs = .ok e) :
    Sound e := h.writeLoop he

theorem Sound.askAway (h : Sound d) {a : Actor} {node rctx rva va : Nat} (he : d.askAway a node rctx rva va = .ok e) :
    Sound e := by
  unfold Device.askAway at he
  split at he
  · cases he
  · dsimp only at he
    split at he <;> obtain rfl := Except.ok.inj he <;> simpa using h

/-! ### Atomics -/

theorem Sound.atomDev (h : Sound d) {key a : Nat} {op : AtomOp} {ty : AtomTy} {ps : List (Dword × Dword)} {vs : List Dword}
    (he : d.atomDev key a op ty ps = some (vs, e)) : Sound e := by
  unfold Device.atomDev at he
  have hout : Sound (d.unusedLines fun x => !x.host && x.line == a / 128) := by simpa using h
  have hrecalled := hout.mapMem (f := fun m => m.recall false (a / 128)) (hout.mem.recall ..)
  dsimp only at he
  split at he
  · cases he
  · split at he
    · cases he
    · next d2 hd2 =>
      obtain ⟨-, rfl⟩ := Prod.mk.inj (Option.some.inj he)
      exact hrecalled.storeLine (by simp) hd2

theorem Sound.atomDie (h : Sound d) {die key a : Nat} {op : AtomOp} {ty : AtomTy} {ps : List (Dword × Dword)} {vs : List Dword}
    (he : d.atomDie die key a op ty ps = some (vs, e)) : Sound e := by
  unfold Device.atomDie at he
  dsimp only at he
  split at he
  · cases he
  · split at he
    · cases he
    · next d2 hd2 =>
      obtain ⟨-, rfl⟩ := Prod.mk.inj (Option.some.inj he)
      exact h.storeLine (by simp) hd2

theorem Sound.atomHost (h : Sound d) {a : Nat} {op : AtomOp} {ty : AtomTy} {ps : List (Dword × Dword)} {vs : List Dword}
    (he : d.atomHost a op ty ps = some (vs, e)) : Sound e := by
  unfold Device.atomHost at he
  have hanswered : Sound (d.hostResponse (a / 128)) := by simpa using h
  have hrecalled := hanswered.mapMem (f := fun m => m.recall true (a / 128)) (hanswered.mem.recall ..)
  dsimp only at he
  split at he
  · cases he
  · obtain ⟨-, rfl⟩ := Prod.mk.inj (Option.some.inj he)
    exact hrecalled.storeHostLine _ _ _ (by simp)

/-! ### The data caches of the cores -/

@[simp] theorem sound_countBack (d : Device) (die : Nat) (x : CLine) : Sound (d.countBack die x) ↔ Sound d := by
  simp [Device.countBack]

@[simp] theorem Sound.writeBackLine (h : Sound d) (die : Nat) {x : CLine} (hx : WholeLine x) :
    Sound (d.writeBackLine die x).1 := by
  have hpatch : (List.zipWith (fun b v => if b then some v else none) x.dirty x.data).length = 128 := by
    obtain ⟨hdata, hdirty⟩ := hx
    simp [hdata, hdirty]
  have hcounted : Sound (d.countBack die x) := by simpa using h
  unfold Device.writeBackLine
  split
  · exact h
  · dsimp only
    split
    · split
      · next d1 hd1 => exact hcounted.storeLine hpatch hd1
      · simpa using h
    · exact hcounted.storeHostLine _ _ _ hpatch
    · exact hcounted

theorem Sound.writeBackAll (h : Sound d) (die : Nat) {xs : List CLine} (hxs : ∀ x ∈ xs, WholeLine x) :
    Sound (d.writeBackAll die xs).1 := by
  unfold Device.writeBackAll
  generalize ([] : Lost) = lost
  induction xs generalizing d lost with
  | nil => exact h
  | cons x xs ih => exact ih (h.writeBackLine die (hxs x (by simp))) (fun y hy => hxs y (by simp [hy])) _

@[simp] theorem sound_unused (d : Device) (die : Nat) (xs : List CLine) : Sound (d.unused die xs) ↔ Sound d := by
  unfold Device.unused
  refine sound_foldl (fun d x => ?_) _
  split
  · split <;> simp
  · rfl

theorem wholeLine_clean {x : CLine} (hx : WholeLine x) : WholeLine x.clean := by
  obtain ⟨hdata, hdirty⟩ := hx
  exact ⟨hdata, by simpa [CLine.clean] using hdirty⟩

theorem wholeLine_put {x : CLine} (hx : WholeLine x) (c q va : Nat) (bs : List Byte) : WholeLine (x.put c q va bs) := by
  obtain ⟨hdata, hdirty⟩ := hx
  simp [WholeLine, CLine.put, hdata, hdirty]

theorem wholeLine_of_fetch {pl : Place} {key va : Nat} {x : CLine} (hx : d.fetchCoreLine pl key va = some x) :
    WholeLine x := by
  unfold Device.fetchCoreLine at hx
  dsimp only at hx
  split at hx
  · split at hx
    · cases hx
    · obtain rfl := Option.some.inj hx
      simp [WholeLine]
  · obtain rfl := Option.some.inj hx
    simp [WholeLine]
  · cases hx

/-- Lines of a core may leave. -/
theorem Sound.updCore_of_subset (h : Sound d) (die core : Nat) {f : CoreSt → CoreSt} (hf : ∀ c, (f c).lines ⊆ c.lines) :
    Sound (d.updCore die core f) := h.updCore die core fun c hc x hx => hc x (hf c hx)

/-- A change of a core that leaves its lines. -/
@[simp] theorem Sound.updCore_of_lines (h : Sound d) (die core : Nat) {f : CoreSt → CoreSt} (hf : ∀ c, (f c).lines = c.lines) :
    Sound (d.updCore die core f) := h.updCore_of_subset die core fun c => by simp [hf c]

@[simp] theorem Sound.cleanLines (h : Sound d) (die core : Nat) (f : CLine → Bool) : Sound (d.cleanLines die core f).1 := by
  refine (h.writeBackAll die fun x hx => h.core die core x (List.mem_filter.mp hx).1).updCore die core fun c hc x hx => ?_
  obtain ⟨y, hy, rfl⟩ := List.mem_map.mp hx
  split
  · exact wholeLine_clean (hc y hy)
  · exact hc y hy

@[simp] theorem Sound.cleanCore (h : Sound d) (die core : Nat) : Sound (d.cleanCore die core).1 := h.cleanLines die core _

@[simp] theorem Sound.releaseCore (h : Sound d) (c die core : Nat) : Sound (d.releaseCore c die core).1 :=
  Sound.cleanCore ((sound_count ..).mpr h) die core

@[simp] theorem Sound.emptyCore (h : Sound d) (die core : Nat) : Sound (d.emptyCore die core).1 :=
  by
  have hback := h.cleanCore die core
  unfold Device.emptyCore
  generalize d.cleanCore die core = r at hback
  exact Sound.updCore_of_subset ((sound_unused ..).mpr hback) die core fun _ => List.nil_subset _

@[simp] theorem Sound.acquireCore (h : Sound d) (c die core : Nat) : Sound (d.acquireCore c die core).1 :=
  Sound.emptyCore ((sound_count ..).mpr h) die core

@[simp] theorem Sound.dropCoreLine (h : Sound d) (die core : Nat) (pl : Place) (key : Nat) :
    Sound (d.dropCoreLine die core pl key).1 := by
  unfold Device.dropCoreLine
  split
  · exact h
  · next x hx =>
    have hback := h.writeBackLine die (h.core die core x (List.mem_of_find?_eq_some hx))
    exact Sound.updCore_of_subset ((sound_unused ..).mpr hback) die core fun _ => List.filter_sublist.subset

/-- A fold of steps that answer a device and more keeps what each step keeps. -/
theorem Sound.foldl_fst {α β : Type} {f : Device × α → β → Device × α} {r : Device × α} (h : Sound r.1)
    (hf : ∀ r x, Sound r.1 → Sound (f r x).1) (l : List β) : Sound (l.foldl f r).1 := by
  induction l generalizing r with
  | nil => exact h
  | cons x l ih => exact ih (hf r x h)

@[simp] theorem Sound.releaseSlice (h : Sound d) (c q slice : Nat) : Sound (d.releaseSlice c q slice).1 := by
  unfold Device.releaseSlice
  generalize List.range Config.coresPerDie = cores
  refine Sound.foldl_fst (r := (d, [])) h (fun r i h => Sound.foldl_fst h (fun r k h => ?_) _) _
  have hcounted := (sound_count r.1 c 89 (r.1.dirtyLines i k fun x => x.dirtyBy c q)).mpr h
  exact hcounted.cleanLines i k fun x => x.dirtyBy c q

theorem Sound.installCore (h : Sound d) (die core : Nat) {x : CLine} (hx : WholeLine x) :
    Sound (d.installCore die core x).1 := by
  have hback := h.writeBackAll die (xs := (d.core die core).lines.drop (coreLines - 1))
    fun x hx => h.core die core x (List.mem_of_mem_drop hx)
  refine Sound.updCore ((sound_unused ..).mpr hback) die core fun c hc y hy => ?_
  rcases List.mem_cons.mp hy with rfl | hy
  · exact hx
  · exact hc y (List.mem_of_mem_take hy)

@[simp] theorem Sound.dropFilled (h : Sound d) (die l : Nat) : Sound (d.dropFilled die l).1 := by
  unfold Device.dropFilled
  generalize List.range Config.coresPerDie = cores
  exact Sound.foldl_fst (r := (d, [])) h (fun _ _ h => Sound.updCore_of_subset ((sound_unused ..).mpr h) _ _ fun _ => List.filter_sublist.subset) _

/-- The lines at the positions that satisfy a condition are among all. -/
theorem map_fst_filter_zipIdx_subset {α : Type} (l : List α) (p : α × Nat → Bool) :
    (l.zipIdx.filter p).map Prod.fst ⊆ l := by
  intro x hx
  obtain ⟨e, he, rfl⟩ := List.mem_map.mp hx
  exact List.fst_mem_of_mem_zipIdx (List.mem_filter.mp he).1

@[simp] theorem Sound.evictCore (h : Sound d) (die core : Nat) (evicts : List Nat) :
    Sound (d.evictCore die core evicts).1 := by
  have hlines := map_fst_filter_zipIdx_subset (d.core die core).lines
  have hback := h.writeBackAll die fun x hx => h.core die core x (hlines (fun e => evicts.contains e.2) hx)
  exact Sound.updCore ((sound_unused ..).mpr hback) die core fun _ _ x hx => h.core die core x (hlines _ hx)

end Sys2Proof.Proofs.MemoryInvariant
end

section
/-! O59, the end of items: however an item ends, by an error, a fault or a kill, the invariant stays (R81, R117, R260 to R277, R339 to
R347). -/

namespace Sys2Proof.Proofs.MemoryInvariant

open Sys2Proof.Machine Sys2Proof.Spec

variable {d e : Device}

/-! ### Stash entries (R131 to R141) -/

@[simp] theorem sound_stashCount (d : Device) (c : Nat) : Sound (d.stashCount c) ↔ Sound d := by simp [Device.stashCount]

@[simp] theorem sound_poolExtent (d : Device) : Sound d.poolExtent ↔ Sound d := by
  unfold Device.poolExtent
  split <;> simp

@[simp] theorem sound_dropSegs (d : Device) (c : Nat) (f : Seg → Bool) : Sound (d.dropSegs c f) ↔ Sound d := by
  simp [Device.dropSegs]

@[simp] theorem sound_endClaims (d : Device) (it : Item) (ok : Bool) : Sound (d.endClaims it ok) ↔ Sound d := by
  simp [Device.endClaims]

@[simp] theorem sound_endSave (d : Device) (it : Item) (ok : Bool) : Sound (d.endSave it ok) ↔ Sound d := by
  unfold Device.endSave
  split
  · rfl
  · split <;> simp

/-! ### Swaps undone (R117) -/

@[simp] theorem sound_setLayer (d : Device) (recAt i : Nat) (version : Dword) (slot : Bool) :
    Sound (setLayer d recAt i version slot) ↔ Sound d := .rfl

theorem Sound.undoSwap (h : Sound d) (w : WSet) (r : Update) (i : Nat) : Sound (undoSwap w r d i) := by
  unfold Machine.undoSwap
  split
  · exact h
  · dsimp only
    split
    · exact h
    · next hd1 => simpa using h.writeVa hd1

@[simp] theorem Sound.undoRun (h : Sound d) (c q : Nat) : Sound (d.undoRun c q) := by
  refine (sound_mapUps ..).mpr (h.foldl (fun d r h => ?_) _)
  split
  · split
    · exact h
    · exact h.foldl (fun _ i h => h.undoSwap _ _ i) _
  · exact h

/-! ### Items leave the units that run them -/

@[simp] theorem sound_veResume (d : Device) (die k : Nat) : Sound (d.veResume die k) ↔ Sound d := by
  unfold Device.veResume
  dsimp only
  split
  · split <;> simp
  · rfl

@[simp] theorem sound_freeBlock (d : Device) (b : Nat) : Sound (d.freeBlock b) ↔ Sound d := by simp [Device.freeBlock]

@[simp] theorem sound_unusedNear (d : Device) (c q : Nat) : Sound (d.unusedNear c q) ↔ Sound d := by
  refine sound_foldl (fun d x => ?_) _
  split <;> simp

@[simp] theorem sound_purgeOne (d : Device) (c q : Nat) (how : Stop) : Sound (d.purgeOne c q how) ↔ Sound d := by
  simp [Device.purgeOne]

@[simp] theorem Sound.leaveUnits (h : Sound d) (c q : Nat) (how : Stop) : Sound (d.leaveUnits c q how) := by
  simp [Device.leaveUnits, h]

/-! ### The destination of an item that fails (R81) -/

theorem Sound.mixByte (h : Sound d) (a : Actor) (n va : Nat) : Sound (Device.mixByte a n d va) := by
  unfold Device.mixByte
  split
  · split
    · next hd1 => exact h.writeVa hd1
    · exact h
  · exact h

@[simp] theorem Sound.mixDest (h : Sound d) (it : Item) : Sound (d.mixDest it) :=
  Sound.foldl ((sound_fresh d).mpr h) (fun _ va h => h.mixByte _ _ va) _

@[simp] theorem Sound.mixOnce (h : Sound d) (it : Item) : Sound (d.mixOnce it) := by
  unfold Device.mixOnce
  split <;> simp [h]

@[simp] theorem Sound.dropWork (h : Sound d) (c w : Nat) (how : Stop) : Sound (d.dropWork c w how) := by
  have hleft := h.leaveUnits c w how
  unfold Device.dropWork
  dsimp only
  split
  · exact hleft
  · simp [hleft]

@[simp] theorem Sound.purge (h : Sound d) (c q : Nat) (how : Stop) : Sound (d.purge c q how) :=
  (h.leaveUnits c q how).foldl (fun _ w h => h.dropWork c w how) _

@[simp] theorem sound_kernelCheck (d : Device) (c q : Nat) : Sound (d.kernelCheck c q) ↔ Sound d := by
  unfold Device.kernelCheck
  split
  · rfl
  · split <;> simp

@[simp] theorem Sound.settleWork (h : Sound d) (c q : Nat) : Sound (d.settleWork c q) := by
  unfold Device.settleWork
  split
  · exact h
  · next it _ =>
    dsimp only
    split <;> simp [h]

/-! ### Instances that items join or leave (R299, R304, R305) -/

@[simp] theorem sound_joinReel (d : Device) (it : Item) : Sound (d.joinReel it).1 ↔ Sound d := by
  unfold Device.joinReel
  split
  · rfl
  · simp

@[simp] theorem sound_renumber (d : Device) (g : Nat) : Sound (d.renumber g) ↔ Sound d := by simp [Device.renumber]

@[simp] theorem sound_leaveReel (d : Device) (it : Item) : Sound (d.leaveReel it) ↔ Sound d := by
  unfold Device.leaveReel
  split
  · rfl
  · dsimp only
    split <;> simp

/-! ### Records (R273, R276) -/

@[simp] theorem sound_countStatus (d : Device) (c : Nat) (s : Status) : Sound (d.countStatus c s) ↔ Sound d := by
  cases s <;> simp [Device.countStatus]

@[simp] theorem Sound.putRecord (h : Sound d) (c : Nat) (r : Record) : Sound (d.putRecord c r) := by
  simp [Device.putRecord, h]

@[simp] theorem Sound.writeOldest (h : Sound d) (c : Nat) : Sound (d.writeOldest c) := by
  unfold Device.writeOldest
  split
  · exact h
  · split <;> simp [h]

@[simp] theorem Sound.pushRecord (h : Sound d) (c : Nat) (r : Record) : Sound (d.pushRecord c r) := by
  simp [Device.pushRecord, h]

@[simp] theorem sound_setOutcome (d : Device) (time : Dword) (c q : Nat) (s : Status) (peer : Bool) :
    Sound (d.setOutcome time c q s peer) ↔ Sound d := .rfl

@[simp] theorem sound_countEnd (d : Device) (it : Item) : Sound (d.countEnd it) ↔ Sound d := by
  unfold Device.countEnd
  split <;> simp

@[simp] theorem sound_promote (d : Device) (c : Nat) : Sound (d.promote c) ↔ Sound d := by simp [Device.promote]

@[simp] theorem sound_drainReport (d : Device) : Sound d.drainReport ↔ Sound d := by
  unfold Device.drainReport
  split <;> simp

@[simp] theorem sound_loadWait (d : Device) (time : Dword) (it : Item) : Sound (d.loadWait time it) ↔ Sound d := by
  unfold Device.loadWait
  split
  · split <;> simp
  · rfl

@[simp] theorem Sound.tellOthers (h : Sound d) (time : Dword) (fin : Item) (s : Status) (idx : Nat) :
    Sound (d.tellOthers time fin s idx) :=
  Sound.foldl (by simp [h]) (fun _ x h => h.purge x.ctx x.seq .complete) _

/-! ### The end of an item -/

@[simp] theorem Sound.itemError (h : Sound d) (c q : Nat) (s : Status) (detail : Nat) : Sound (d.itemError c q s detail) := by
  simp [Device.itemError, h]

@[simp] theorem Sound.loseWrites {r : Device × Lost} (h : Sound r.1) : Sound (Device.loseWrites r) :=
  h.foldl (fun _ _ h => h.itemError ..) _

@[simp] theorem Sound.endNow (h : Sound d) (time : Dword) (it : Item) : Sound (d.endNow time it) := by
  unfold Device.endNow
  extract_lets r it1 o idx ok d0 d1 d2 d3 missed d4 d5
  have hr : Sound r.1 := by simp [r, h]
  have h0 : Sound d0 := by
    refine Sound.purge (Sound.loseWrites ?_) ..
    exact hr
  have h3 : Sound d3 := by
    refine Sound.tellOthers ?_ ..
    simp [d2, d1, h0]
  have h5 : Sound d5 := by simp [d5, d4, h3]
  simp [h5]

@[simp] theorem Sound.endItem (h : Sound d) (time : Dword) (it : Item) : Sound (d.endItem time it) := by
  unfold Device.endItem
  split
  · exact h.endNow time it
  · have hmixed := (h.purge it.ctx it.seq .now).mixDest it
    dsimp only
    split <;> simp [hmixed]

@[simp] theorem sound_sparseError (d : Device) (c q : Nat) (s : Status) (detail : Nat) :
    Sound (d.sparseError c q s detail) ↔ Sound d := .rfl

@[simp] theorem sound_noteEcc (d : Device) (c va : Nat) : Sound (d.noteEcc c va) ↔ Sound d := by
  unfold Device.noteEcc
  split <;> simp

/-! ### Faults and kills (R277, R327, R341 to R345) -/

@[simp] theorem Sound.killUnfetched (h : Sound d) (time : Dword) (code c n : Nat) :
    Sound (Device.killUnfetched time code c n d) := by
  induction n generalizing d with
  | zero => exact h
  | succ n ih =>
    unfold Device.killUnfetched
    dsimp only
    split
    · exact h
    · exact ih (by simp [h])

theorem Sound.killOne (h : Sound d) (time : Dword) (code : Nat) (it : Item) : Sound (Device.killOne time code d it) := by
  have hpurged : Sound ((d.loadWait time it).purge it.ctx it.seq .now) := by simp [h]
  unfold Device.killOne
  dsimp only
  split <;> simp [hpurged]

@[simp] theorem Sound.lastKilled (h : Sound d) (time : Dword) (c code : Nat) : Sound (d.lastKilled time c code) := by
  unfold Device.lastKilled
  split <;> simp [h]

@[simp] theorem Sound.account (h : Sound d) (time : Dword) (c code : Nat) : Sound (d.account time c code) :=
  Sound.lastKilled (Sound.foldl (by simp [h]) (fun _ it h => h.killOne time code it) _) time c code

@[simp] theorem Sound.takeFaults (h : Sound d) (p : Platform) (c : Nat) (fs : List FaultInfo) :
    Sound (d.takeFaults p c fs) := by
  unfold Device.takeFaults
  split
  · exact h
  · split <;> simp [h]

@[simp] theorem Sound.killByMgmt (h : Sound d) (p : Platform) (c : Nat) : Sound (d.killByMgmt p c) := by
  simp [Device.killByMgmt, h]

@[simp] theorem Sound.itemFault (h : Sound d) (p : Platform) (it : Item) (source die unit : Nat) (code : FaultCode) (va : Nat) :
    Sound (d.itemFault p it source die unit code va) := by simp [Device.itemFault, h]

@[simp] theorem Sound.accessFailed (h : Sound d) (p : Platform) (it : Item) (source die unit : Nat) (x : MemErr) :
    Sound (d.accessFailed p it source die unit x) := by
  unfold Device.accessFailed
  split
  case h_5 =>
    split
    · next hd1 => exact h.askAway hd1
    all_goals simp [h]
  all_goals simp [h]

@[simp] theorem sound_firstIssue (d : Device) (time : Dword) (c q : Nat) : Sound (d.firstIssue time c q) ↔ Sound d := by
  rcases d.firstIssue_cases time c q with heq | ⟨d1, rfl, heq⟩ | ⟨v, heq⟩ <;> simp [heq]

end Sys2Proof.Proofs.MemoryInvariant
end

section
/-! O59, misses, fills, atomics, rings and the items that the ring engine runs itself (R124 to R130, R221, R225 to R241, R247 to
R271). -/

namespace Sys2Proof.Proofs.MemoryInvariant

open Sys2Proof.Machine Sys2Proof.Spec

variable {d e : Device}

/-! ### Discards (R232, R233) -/

@[simp] theorem Sound.dropDead (h : Sound d) (l : Nat) : Sound (d.dropDead l) := by
  unfold Device.dropDead
  dsimp only
  generalize hd1 : (if d.mem.misses.any fun x => x.line == l then d else _) = d1
  have hout : Sound d1 := by simp [← hd1, h]
  exact hout.mapMem (hout.mem.discardLine l)

@[simp] theorem Sound.discardLine (h : Sound d) (c l : Nat) : Sound (d.discardLine c l) := by simp [Device.discardLine, h]

/-! ### Misses and the Retriever (R234 to R241) -/

@[simp] theorem sound_request (d : Device) (die unit tc key l : Nat) (w : Waiter) :
    Sound (d.request die unit tc key l w) ↔ Sound d := by
  unfold Device.request
  split
  · simp
  · dsimp only
    split <;> simp

@[simp] theorem sound_prefetchLine (d : Device) (die unit tc key : Nat) (w : Waiter) (l : Nat) :
    Sound (d.prefetchLine die unit tc key w l) ↔ Sound d := by
  unfold Device.prefetchLine
  dsimp only
  split
  · simp
  · split <;> simp

@[simp] theorem sound_retrieve (d : Device) (die unit tc key : Nat) (w : Waiter) (l : Nat) :
    Sound (d.retrieve die unit tc key w l) ↔ Sound d := by
  unfold Device.retrieve
  dsimp only
  split
  · rfl
  · split
    · simp
    · split <;> simp

@[simp] theorem sound_follow (d : Device) (die unit tc key : Nat) (w : Waiter) (l : Nat) :
    Sound (d.follow die unit tc key w l) ↔ Sound d := by
  unfold Device.follow
  dsimp only
  split <;> simp

@[simp] theorem sound_deadRead (d : Device) (c l : Nat) : Sound (d.deadRead c l) ↔ Sound d := by simp [Device.deadRead]

theorem Sound.demand (h : Sound d) {die unit tc key : Nat} {w : Waiter} {l : Nat} {reads hit : Bool}
    (he : d.demand die unit tc key w l reads = .ok (e, hit)) : Sound e := by
  unfold Device.demand at he
  extract_lets host n d1 dHit dMiss at he
  have h1 : Sound d1 := by simp [d1, h]
  split at he
  · obtain ⟨rfl, -⟩ := Prod.mk.inj (Except.ok.inj he)
    simp [dHit, h1]
  · split at he
    · cases he
    · obtain ⟨rfl, -⟩ := Prod.mk.inj (Except.ok.inj he)
      simp [dMiss, h1]

/-! ### Reads of stream units -/

@[simp] theorem sound_chargeStall (d : Device) (c die unit code n : Nat) : Sound (d.chargeStall c die unit code n) ↔ Sound d := by
  simp [Device.chargeStall]

@[simp] theorem Sound.useLines (h : Sound d) (die unit : Nat) (cls : Nat → Nat → Nat) (c q : Nat) (ls : List (Nat × Nat × Nat)) :
    Sound (d.useLines die unit cls c q ls).1 := by
  induction ls generalizing d with
  | nil => exact h
  | cons x ls ih =>
    obtain ⟨l, va, key⟩ := x
    unfold Device.useLines
    dsimp only
    split
    · split
      · next p _ => exact ih (by simpa using h.prefUsed die l p)
      · exact ih h
    · split
      · exact ih h
      · next hd1 => exact ih (by simpa using h.demand hd1)

theorem Sound.fetch {α : Type} (h : Sound d) {a : Actor} {die unit : Nat} {tc : Nat → Nat} {f : Actor → Except MemErr α} {x : α}
    (he : d.fetch a die unit tc f = .got e x) : Sound e := by
  unfold Device.fetch at he
  split at he
  · cases he
  · next y _ =>
    extract_lets ls at he
    have hused := h.useLines die unit (fun l va => if d.stashLine a.ctx a.seq l va then 1 else tc va) a.ctx a.seq ls
    split at he
    · next hd1 =>
      obtain ⟨rfl, -⟩ := Fetch.got.inj he
      rw [hd1] at hused
      simpa using hused
    · cases he

theorem Sound.fetch_stall {α : Type} (h : Sound d) {a : Actor} {die unit : Nat} {tc : Nat → Nat}
    {f : Actor → Except MemErr α} (he : d.fetch a die unit tc f = .stall e) : Sound e := by
  unfold Device.fetch at he
  split at he
  · cases he
  · next y _ =>
    extract_lets ls at he
    have hused := h.useLines die unit (fun l va => if d.stashLine a.ctx a.seq l va then 1 else tc va) a.ctx a.seq ls
    split at he
    · cases he
    · next hd1 =>
      obtain rfl := Fetch.stall.inj he
      rw [hd1] at hused
      simpa using hused

/-! ### Fills (R124, R125, R226, R232, R235, R239) -/

@[simp] theorem sound_wakeMiss (d : Device) (ws : List Waiter) : Sound (d.wakeMiss ws) ↔ Sound d := .rfl

@[simp] theorem Sound.failWaiters (h : Sound d) (ws : List Waiter) (half : Nat) : Sound (d.failWaiters ws half) :=
  h.foldl (fun _ _ h => h.itemError ..) _

theorem lines_shareLine (m : Mem) (host : Bool) (l : Nat) : (m.shareLine host l).lines =
    m.lines.map fun x => if x.host == host && x.line == l then { x with st := .shared } else x := by
  unfold Mem.shareLine
  split
  · rfl
  · simp

@[simp] theorem Sound.share (h : Sound d) (host : Bool) (l : Nat) : Sound (d.mapMem fun m => m.shareLine host l) :=
  h.mapMem (h.mem.shareLine host l)

@[simp] theorem Sound.install (h : Sound d) (die : Nat) (host : Bool) (l tc : Nat) (pref : Option Nat) :
    Sound (d.install die host l tc pref) := by
  unfold Device.install
  split
  · exact h
  · refine (h.share host l).cachePut ?whole fun y hy hhost hline _ => ?agree
    case whole =>
      split <;> simp
    case agree =>
      rw [Device.mapMem_mem, lines_shareLine] at hy
      obtain ⟨x, hx, rfl⟩ := List.mem_map.mp hy
      by_cases hcopy : x.host = host ∧ x.line = l
      · have hcached : (d.mem.cached host l).isSome := List.find?_isSome.mpr ⟨x, hx, by simp [hcopy]⟩
        simp [hcached, hcopy]
      · have hsame : (x.host == host && x.line == l) = false := by simpa using hcopy
        simp only [hsame] at hhost hline
        exact absurd ⟨hhost, hline⟩ hcopy

@[simp] theorem Sound.pastCaches (h : Sound d) (c l : Nat) : Sound (d.pastCaches c l) := by
  refine Sound.share ?_ false l
  simp [h]

@[simp] theorem Sound.h0Lines (h : Sound d) (c : Nat) (ls : List (Nat × Nat × Nat)) : Sound (d.h0Lines c ls) := by
  refine h.foldl (fun d x h => ?_) _
  split
  · exact Sound.share ((sound_hostResponse ..).mpr h) ..
  · exact h.pastCaches ..

@[simp] theorem Sound.h0Read {α : Type} (h : Sound d) (a : Actor) (f : Actor → Except MemErr α) : Sound (d.h0Read a f) :=
  h.h0Lines ..

@[simp] theorem Sound.h0Bytes (h : Sound d) (a : Actor) (n va : Nat) : Sound (d.h0Bytes a n va) := h.h0Read ..

@[simp] theorem sound_readHalves (d : Device) (l : Nat) (lo hi : Ecc) : Sound (d.readHalves l lo hi) ↔ Sound d := by
  simp [Device.readHalves]

/-- Lines may leave the die caches. -/
theorem Sound.filterLines (h : Sound d) (p : DLine → Bool) :
    Sound (d.mapMem fun m => { m with lines := m.lines.filter p }) := h.mapMem (h.mem.of_sublist h.mem.1 List.filter_sublist)

@[simp] theorem Sound.fillDevice (h : Sound d) (die l tc : Nat) (ws : List Waiter) (discard : Bool) (lo hi : Ecc) :
    Sound (d.fillDevice die l tc ws discard lo hi) := by
  unfold Device.fillDevice
  dsimp only
  split
  · split <;> simp [h]
  · have hread : Sound (d.readHalves l lo hi) := by simpa using h
    split
    · refine Sound.failWaiters ?_ ..
      split
      · exact hread.dropDead l
      · exact (hread.dropFilled die l).loseWrites.filterLines _
    · split <;> simp [h]

@[simp] theorem Sound.settleReads (h : Sound d) (ws : List Waiter) : Sound (d.settleReads ws) :=
  h.foldl (fun _ _ h => h.settleWork ..) _

@[simp] theorem sound_modeNow (d : Device) (i : Nat) : Sound (d.modeNow i) ↔ Sound d := by
  unfold Device.modeNow
  split <;> simp

@[simp] theorem sound_modeCheck (d : Device) (die : Nat) : Sound (d.modeCheck die) ↔ Sound d := by
  unfold Device.modeCheck
  split <;> simp

@[simp] theorem Sound.fillHost (h : Sound d) (die l tc : Nat) (ws : List Waiter) (lo hi : Ecc) :
    Sound (d.fillHost die l tc ws lo hi) := by
  unfold Device.fillHost
  split <;> simp [h]

theorem Sound.demandMissFill (h : Sound d) (die line : Nat) (lo hi : Ecc) : Sound (demandMissFill die line lo hi d) := by
  unfold Machine.demandMissFill
  split
  · simpa using h
  · split
    · exact h
    · extract_lets d1 d2
      have h1 : Sound d1 := by simpa [d1] using h
      have h2 : Sound d2 := by simp [d2, h1]
      simp [h2]

@[simp] theorem sound_prefetchLost (d : Device) (x : Miss) : Sound (d.prefetchLost x) ↔ Sound d := by
  simp [Device.prefetchLost]

@[simp] theorem Sound.installFirst (h : Sound d) (x : Miss) : Sound (d.installFirst x) := by
  unfold Device.installFirst
  dsimp only
  split
  · split <;> simp [h]
  · split
    · simp [h]
    · split
      · next y hy =>
        have hwhole : WholeLine y := wholeLine_of_fetch hy
        exact (h.installCore _ _ (x := { y with pref := some x.ctx }) hwhole).loseWrites
      · simp [h]

@[simp] theorem Sound.installPrefetch (h : Sound d) (x : Miss) : Sound (d.installPrefetch x) := by
  unfold Device.installPrefetch
  dsimp only
  split <;> split <;> simp [h]

theorem Sound.prefetchFill (h : Sound d) (die line : Nat) (lo hi : Ecc) : Sound (prefetchFill die line lo hi d) := by
  unfold Machine.prefetchFill
  split
  · exact h
  · extract_lets d1 clean d2
    have h1 : Sound d1 := by simpa [d1] using h
    have h2 : Sound d2 := by simp [d2, h1]
    split <;> simp [h1, h2]

/-! ### The host's side of the caches (R221, R226) -/

theorem Sound.cxlCacheSnoop (h : Sound d) (line : Nat) (takes : Bool) : Sound (cxlCacheSnoop line takes d) := by
  unfold Machine.cxlCacheSnoop
  split
  · exact h
  · extract_lets d1
    have h1 : Sound d1 := by
      unfold d1
      split <;> simp [h]
    split
    · exact h1.mapMem (h1.mem.dropCopies true line)
    · exact h1

/-! ### Atomics past the caches (R129, R130, R249) -/

@[simp] theorem Sound.atomFault (h : Sound d) (p : Platform) (c q die : Nat) (f : FaultCode) (va : Nat) :
    Sound (d.atomFault p c q die f va) := h.takeFaults ..

theorem Sound.combinerAtomic (h : Sound d) (c q : Nat) (r : AtomReq) (p : Platform) : Sound (combinerAtomic c q r p d) := by
  unfold Machine.combinerAtomic
  split
  · exact h
  · split
    · simp [h]
    · split
      · simp [h]
      · dsimp only
        split
        · next hd1 => simpa using (h.pastCaches ..).atomDev hd1
        · simp [h]
    · exact h

theorem Sound.hostLineAtomic (h : Sound d) (c q : Nat) (r : AtomReq) (p : Platform) : Sound (hostLineAtomic c q r p d) := by
  unfold Machine.hostLineAtomic
  split
  · exact h
  · split
    · simp [h]
    · split
      · simp [h]
      · split
        · simp [h]
        · next hd1 => simpa using h.atomHost hd1
    · exact h

/-! ### Rings (R253 to R257, R274 to R276) -/

@[simp] theorem Sound.see (h : Sound d) (ws : List HostWrite) : Sound (d.see ws) :=
  h.mapMem (h.mem.foldl (fun _ w h => h.hostWrites w) ws)

@[simp] theorem sound_bellIgnored (d : Device) (c : Nat) : Sound (d.bellIgnored c) ↔ Sound d := by simp [Device.bellIgnored]

theorem Sound.sqTail (h : Sound d) (c : Nat) (v : Word) (seen : List HostWrite) (p : Platform) : Sound (sqTail c v seen p d) := by
  unfold Machine.sqTail
  dsimp only
  split <;> simp [h]

@[simp] theorem sound_cqHead (d : Device) (c : Nat) (v : Word) (p : Platform) : Sound (cqHead c v p d) ↔ Sound d := by
  unfold cqHead
  dsimp only
  split <;> simp

@[simp] theorem Sound.fetchOne (h : Sound d) (p : Platform) (c : Nat) (poison : Bool) (hostNs : Nat) :
    Sound (d.fetchOne p c poison hostNs).1 := by
  unfold Device.fetchOne
  dsimp only
  split
  · simp [h]
  · split <;> simp [h]

@[simp] theorem Sound.fetchLoop (h : Sound d) (p : Platform) (c : Nat) (poisoned : List Nat) (hostNs n : Nat) :
    Sound (Device.fetchLoop p c poisoned hostNs n d) := by
  induction n generalizing d with
  | zero => exact h
  | succ n ih =>
    unfold Device.fetchLoop
    dsimp only
    split
    · exact h
    · have hone := h.fetchOne p c (poisoned.contains (d.ring c).sqHead) hostNs
      split
      · next hd1 => exact ih (by rwa [hd1] at hone)
      · next hd1 => rwa [hd1] at hone

theorem Sound.itemComplete (h : Sound d) (c q : Nat) (p : Platform) : Sound (itemComplete c q p d) := by
  unfold Machine.itemComplete
  split
  · exact h
  · split
    · dsimp only
      split <;> simp [h]
    · exact h

@[simp] theorem sound_sendMsix (d : Device) (time : Dword) (v : Nat) : Sound (d.sendMsix time v) ↔ Sound d := by
  unfold Device.sendMsix
  dsimp only
  split <;> simp

/-! ### Items that the ring engine runs (R228 to R233, R258, R268 to R271) -/

/-- The ring engine's start of an item keeps what its action keeps. -/
theorem Sound.act (h : Sound d) (p : Platform) (c q typ : Nat) (ok : Item → Bool) {go : Item → Device → Device}
    (hgo : ∀ it d, Sound d → Sound (go it d)) : Sound (d.act p c q typ ok go) := by
  unfold Device.act
  split
  · exact h
  · split
    · exact h
    · exact hgo _ _ (by simpa using h)

@[simp] theorem sound_finish (d : Device) (it : Item) : Sound (d.finish it) ↔ Sound d := .rfl

@[simp] theorem Sound.eventAdd (h : Sound d) (p : Platform) (it : Item) : Sound (d.eventAdd p it) := by
  unfold Device.eventAdd
  dsimp only
  split
  · simp [h]
  · split
    · simp [h]
    · next hd1 => simpa using (h.pastCaches ..).atomDev hd1
  · split
    · simp [h]
    · next hd1 => simpa using h.atomHost hd1
  · split <;> simp [h]

@[simp] theorem sound_eventOver (d : Device) (time : Dword) (it : Item) (v : Nat) : Sound (d.eventOver time it v) ↔ Sound d := by
  simp [Device.eventOver]

@[simp] theorem Sound.eventRead (h : Sound d) (p : Platform) (it : Item) : Sound (d.eventRead p it) := by
  unfold Device.eventRead
  dsimp only
  split
  · simp [h]
  · split <;> simp [h]

@[simp] theorem sound_eventWait (d : Device) (time : Dword) (it : Item) : Sound (d.eventWait time it) ↔ Sound d := .rfl

@[simp] theorem Sound.cancelOne (h : Sound d) (time : Dword) (idx : Nat) (x : Item) : Sound (Device.cancelOne time idx d x) := by
  simp [Device.cancelOne, h]

theorem Sound.pinStart (h : Sound d) (it : Item) : Sound (pinStart it d) := by
  unfold Machine.pinStart
  dsimp only
  repeat' split
  all_goals simp [h]

theorem Sound.pinScanDone (h : Sound d) (slice : Nat) : Sound (pinScanDone slice d) := by
  unfold Machine.pinScanDone
  dsimp only
  split
  · exact h
  · simp only [sound_finish, sound_updSlice]
    have hout : ∀ f, Sound (d.unusedLines f) := fun f => by simpa using h
    exact (hout _).mapMem ((hout _).mem.scanWays ..)

@[simp] theorem Sound.discardRange (h : Sound d) (c n va : Nat) : Sound (Device.discardRange c n va d).1 := by
  induction n generalizing va d with
  | zero => exact h
  | succ n ih =>
    unfold Device.discardRange
    split
    · exact h
    · exact ih (h.discardLine ..) _
    · exact ih h _

theorem Sound.cacheDiscard (h : Sound d) (c q : Nat) (p : Platform) : Sound (cacheDiscard c q p d) := by
  unfold Machine.cacheDiscard
  dsimp only
  split
  · exact h
  · split
    · split <;> simp [h]
    · refine h.act _ _ _ _ _ fun it d h => ?_
      have hrange := h.discardRange c (field it.desc 0x20 8 / 128) (field it.desc 0x18 8)
      split
      · next hd1 =>
        rw [hd1] at hrange
        split <;> simpa using hrange
      · next hd1 =>
        rw [hd1] at hrange
        exact hrange.accessFailed ..

/-! ### Host accesses (R127, R221, R247, R248) -/

@[simp] theorem sound_hostDropped (d : Device) (w : Nat) (op : HdmOp) : Sound (d.hostDropped w op) ↔ Sound d := by
  unfold Device.hostDropped
  dsimp only
  split <;> simp

@[simp] theorem sound_hostTakes (d : Device) (l : Nat) : Sound (d.hostTakes l) ↔ Sound d := by
  unfold Device.hostTakes
  split <;> simp

@[simp] theorem Sound.hostRead (h : Sound d) (c : Nat) (xs : List HdmPiece) (n : Nat) : Sound (d.hostRead c xs n) := by
  have hread : Sound (xs.foldl (fun d x => d.pastCaches c (x.addr / 128)) d) := h.foldl (fun _ _ h => h.pastCaches ..) _
  unfold Device.hostRead
  dsimp only
  split <;> simp [hread]

theorem Sound.hostPut (h : Sound d) (bs : List Byte) (x : HdmPiece) : Sound (Device.hostPut bs d x) := by
  unfold Device.hostPut
  dsimp only
  split
  · exact h
  · next hd2 =>
    have hput := Sound.storeLine (by simpa using h) (by simp) hd2
    simpa using hput

@[simp] theorem Sound.hostWrite (h : Sound d) (xs : List HdmPiece) (bs : List Byte) : Sound (d.hostWrite xs bs) := by
  have hread : Sound (xs.foldl (fun d x => (x.halves true).foldl Device.findWeak d) d) := by simp [h]
  unfold Device.hostWrite
  dsimp only
  rw [sound_emit]
  split
  · exact hread.foldl (fun _ x h => h.hostPut bs x) _
  · simpa using hread

theorem Sound.hostMemAccess (h : Sound d) (w offset : Nat) (op : HdmOp) (p : Platform) : Sound (hostMemAccess w offset op p d) := by
  unfold Machine.hostMemAccess
  split
  · exact h
  · split
    · simpa using h
    · split <;> split <;> simp [h]

end Sys2Proof.Proofs.MemoryInvariant
end

section
/-! O59, products and the admission of items (R25 to R81, R92 to R117, R131 to R137, R259 to R267, R290, R299). -/

namespace Sys2Proof.Proofs.MemoryInvariant

open Sys2Proof.Machine Sys2Proof.Spec

variable {d e : Device}

/-! ### Answers that may be errors -/

theorem bind_eq_ok {ε α β : Type} {r : Except ε α} {f : α → Except ε β} {b : β} :
    (r >>= f) = .ok b ↔ ∃ a, r = .ok a ∧ f a = .ok b := by
  cases r <;> simp [bind, Except.bind]

/-- What an answer holds, or the error in its place. -/
def Answers {ε α : Type} (P : ε → Prop) (Q : α → Prop) : Except ε α → Prop
  | .ok a => Q a
  | .error x => P x

@[simp] theorem answers_ok {ε α : Type} {P : ε → Prop} {Q : α → Prop} {a : α} : Answers P Q (.ok a) ↔ Q a := .rfl

@[simp] theorem answers_error {ε α : Type} {P : ε → Prop} {Q : α → Prop} {x : ε} : Answers P Q (.error x) ↔ P x := .rfl

/-- A fold that may fail keeps what each of its steps keeps. -/
theorem Sound.foldlM {ε β : Type} {f : Device → β → Except ε Device} (h : Sound d)
    (hf : ∀ d x e, Sound d → f d x = .ok e → Sound e) {l : List β} (he : l.foldlM f d = .ok e) : Sound e := by
  induction l generalizing d with
  | nil => exact Except.ok.inj he ▸ h
  | cons x l ih =>
    rw [List.foldlM_cons] at he
    obtain ⟨d1, hd1, he⟩ := bind_eq_ok.mp he
    exact ih (hf d x d1 h hd1) he

/-- A step that is skipped leaves the device. -/
theorem Sound.of_skip {ε : Type} {c : Prop} [Decidable c] {r : Except ε Device} (h : Sound d)
    (hr : r = .ok e → Sound e) (he : (if c then pure d else r) = .ok e) : Sound e := by
  split at he
  · exact Except.ok.inj he ▸ h
  · exact hr he

/-- A step that is skipped, before others. -/
theorem Sound.of_skip_bind {ε β : Type} {c : Prop} [Decidable c] {r : Except ε Device} {k : Device → Except ε β} {b : β} (h : Sound d)
    (hr : ∀ d1, r = .ok d1 → Sound d1) (he : (if c then pure d >>= k else r >>= k) = .ok b) :
    ∃ d1, Sound d1 ∧ k d1 = .ok b := by
  split at he <;> obtain ⟨d1, hd1, he⟩ := bind_eq_ok.mp he
  · exact ⟨d1, Except.ok.inj hd1 ▸ h, he⟩
  · exact ⟨d1, hr d1 hd1, he⟩

/-- A step that is done only sometimes, before others. -/
theorem Sound.of_when_bind {ε β : Type} {c : Prop} [Decidable c] {r : Except ε Device} {k : Device → Except ε β} {b : β} (h : Sound d)
    (hr : ∀ d1, r = .ok d1 → Sound d1) (he : (if c then r >>= k else pure d >>= k) = .ok b) :
    ∃ d1, Sound d1 ∧ k d1 = .ok b := by
  split at he <;> obtain ⟨d1, hd1, he⟩ := bind_eq_ok.mp he
  · exact ⟨d1, hr d1 hd1, he⟩
  · exact ⟨d1, Except.ok.inj hd1 ▸ h, he⟩

/-- A value that comes from one of two reads. -/
theorem ite_bind_eq_ok {ε α β : Type} {c : Prop} [Decidable c] {r u : Except ε α} {k : α → Except ε β} {b : β}
    (he : (if c then r >>= k else u >>= k) = .ok b) : ∃ a, k a = .ok b := by
  split at he <;> obtain ⟨a, -, he⟩ := bind_eq_ok.mp he <;> exact ⟨a, he⟩

/-! ### Elements and saves (R134, R136) -/

theorem Sound.poolWrite (h : Sound d) {a : Actor} {key : Nat} {s : Seg} {f i : Nat} {bs : List Byte}
    (he : Device.poolWrite a key s f d i bs = .ok e) : Sound e := by
  induction f generalizing d i bs with
  | zero => exact Except.ok.inj he ▸ h
  | succ f ih =>
    cases bs with
    | nil => exact Except.ok.inj he ▸ h
    | cons b bs =>
      unfold Device.poolWrite at he
      dsimp only at he
      split at he
      · exact Except.ok.inj he ▸ h
      · split at he
        · cases he
        · cases he
        · next hd1 => exact ih (h.writePlace hd1) he

theorem Sound.saveBytes (h : Sound d) {it : Item} {a : Actor} {i : Nat} {bs : List Byte}
    (he : d.saveBytes it a i bs = .ok e) : Sound e := by
  unfold Device.saveBytes at he
  split at he
  · exact Except.ok.inj he ▸ h
  · split at he
    · exact Except.ok.inj he ▸ h
    · dsimp only at he
      split at he
      · split at he
        · cases he
        · split at he
          · cases he
          · next hd1 =>
            obtain rfl := Except.ok.inj he
            simpa using h.poolWrite hd1
      · split at he
        · cases he
        · next hd1 =>
          obtain rfl := Except.ok.inj he
          simpa using h.writeVa hd1
      · exact Except.ok.inj he ▸ h

theorem Sound.putElems (h : Sound d) {a : Actor} {tc base fmt i : Nat} {codes : List Nat}
    (he : d.putElems a tc base fmt i codes = .ok e) : Sound e := by
  obtain ⟨first, he⟩ := ite_bind_eq_ok he
  obtain ⟨last, he⟩ := ite_bind_eq_ok he
  exact h.writeVa he

theorem Sound.saveElems (h : Sound d) {it : Item} {a : Actor} {off fmt i : Nat} {codes : List Nat}
    (he : d.saveElems it a off fmt i codes = .ok e) : Sound e := by
  refine h.of_skip (fun he => ?_) he
  obtain ⟨first, he⟩ := ite_bind_eq_ok he
  obtain ⟨last, he⟩ := ite_bind_eq_ok he
  exact h.saveBytes he

/-! ### Items dealt to the engines (R45 to R48) -/

theorem Sound.startClaimed (h : Sound d) (it : Item) {go : Device → Device} (hgo : Sound (go d)) : Sound (d.startClaimed it go) := by
  unfold Device.startClaimed
  split
  · exact h
  · split
    · simp [h]
    · exact hgo

theorem Sound.reProduct (h : Sound d) (c q : Nat) (p : Platform) : Sound (reProduct c q p d) := by
  unfold Machine.reProduct
  split
  · exact h
  · split
    · exact h
    · dsimp only
      split
      · simp [h]
      · split
        · simp [h]
        · exact h.startClaimed _ (by simpa using h)

@[simp] theorem sound_queueWork (d : Device) (it : Item) (die k : Nat) : Sound (d.queueWork it die k) ↔ Sound d := .rfl

@[simp] theorem sound_dealRun (d : Device) (it : Item) (pr : Prod) (x : Nat × Nat) : Sound (d.dealRun it pr x) ↔ Sound d := .rfl

@[simp] theorem sound_dealWork (d : Device) (it : Item) : Sound (d.dealWork it) ↔ Sound d := by
  unfold Device.dealWork
  dsimp only
  split
  · simp
  · split
    · rfl
    · split <;> simp

@[simp] theorem sound_tileDeal (d : Device) (c q : Nat) : Sound (tileDeal c q d) ↔ Sound d := by
  unfold tileDeal
  split
  · rfl
  · dsimp only
    split
    · rfl
    · split
      · simp
      · split <;> simp

/-! ### Tiles (R39 to R58) -/

@[simp] theorem sound_charge (d : Device) (c die u : Nat) (r : Report) : Sound (d.charge c die u r) ↔ Sound d := by
  simp only [Device.charge, sound_countUnit, sound_count]
  refine sound_foldl (fun d x => ?_) _
  split <;> simp

@[simp] theorem sound_setLanes (d : Device) (die k : Nat) (t : Tile) (i : Nat) : Sound (d.setLanes die k t i) ↔ Sound d := .rfl

@[simp] theorem sound_noteSparse (d : Device) (die k : Nat) (t : Tile) (z : ZcCounts) (bad : List (Status × Nat)) :
    Sound (d.noteSparse die k t z bad) ↔ Sound d := by simp [Device.noteSparse]

/-- What a unit that cannot go on leaves: the device with its requests made, where it stalls. -/
def HeldSound : Held → Prop
  | .stall d => Sound d
  | _ => True

@[simp] theorem heldSound_stall : HeldSound (.stall d) ↔ Sound d := .rfl

theorem Sound.advanceComb (h : Sound d) (die k : Nat) (which : Bool) (it : Item) (t : Tile) (stop : Nat) :
    Answers HeldSound Sound (d.advanceComb die k which it t stop) := by
  unfold Device.advanceComb
  dsimp only
  split
  · trivial
  · next hd1 => simpa using h.fetch_stall hd1
  · next hd1 => simpa using h.fetch hd1

/-- The device with the requests of a unit's reads made. -/
def FetchSound {α : Type} : Fetch α → Prop
  | .got d _ => Sound d
  | .stall d => Sound d
  | .err _ => True

@[simp] theorem fetchSound_got {α : Type} {x : α} : FetchSound (.got d x) ↔ Sound d := .rfl

theorem Sound.tileReads (h : Sound d) (die k : Nat) (r : RowEng) (it : Item) (t : Tile) (pos stop : Nat) :
    FetchSound (d.tileReads die k r it t pos stop) := by
  unfold Device.tileReads
  dsimp only
  split
  · next hd1 => exact h.fetch_stall hd1
  · trivial
  · next hd1 =>
    have h1 := h.fetch hd1
    split
    · next hd2 => exact h1.fetch_stall hd2
    · trivial
    · next hd2 => exact h1.fetch hd2

theorem Sound.advanceTile (h : Sound d) (die k : Nat) (which : Bool) (it : Item) (t : Tile) (stop : Nat) :
    Answers HeldSound Sound (d.advanceTile die k which it t stop) := by
  unfold Device.advanceTile
  dsimp only
  split
  · exact h
  · split
    · trivial
    · have hread := h.tileReads die k (d.re die k) it t ((d.re die k).bank which).pos stop
      split
      · trivial
      · next hd1 => rwa [hd1] at hread
      · next hd1 =>
        rw [hd1] at hread
        split
        · split
          · trivial
          · trivial
          · simpa using hread
        · simpa using hread

theorem Sound.advance (h : Sound d) (p : Platform) (die k : Nat) (which : Bool) (upTo : Nat) :
    Answers HeldSound Sound (d.advance p die k which upTo) := by
  unfold Device.advance
  dsimp only
  split
  · exact h
  · split
    · exact h.advanceComb ..
    · have htile := fun it t stop => h.advanceTile die k which it t stop
      split
      · next hx => exact hx ▸ htile _ _ _
      · next hd1 =>
        have h1 := hd1 ▸ htile _ _ _
        simp only [answers_ok] at h1 ⊢
        split <;> simpa using h1

@[simp] theorem Sound.heldUp (h : Sound d) (p : Platform) (die k : Nat) {x : Held} (hx : HeldSound x) :
    Sound (d.heldUp p die k x) := by
  unfold Device.heldUp
  split
  · exact h
  · exact hx
  · simp [h]

theorem Sound.finishOther (h : Sound d) (p : Platform) (die k : Nat) : Answers HeldSound Sound (d.finishOther p die k) := by
  unfold Device.finishOther
  dsimp only
  split
  · exact h.advance ..
  · exact h

theorem Sound.loadBank (h : Sound d) (p : Platform) (die k : Nat) (it : Item) (t : Tile) :
    Answers Sound (fun r => Sound r.1) (d.loadBank p die k it t) := by
  unfold Device.loadBank
  dsimp only
  split
  · exact h
  · split
    · next hd1 => simpa using h.fetch_stall hd1
    · exact Sound.accessFailed (by simpa using h) ..
    · exact h.accessFailed ..
    · next hd1 =>
      have h1 := h.fetch hd1
      simp only [answers_ok]
      split <;> simpa using h1

@[simp] theorem Sound.startTile (h : Sound d) (p : Platform) (die k : Nat) (rep : Report) (it : Item) (t : Tile) (rest : List Tile) :
    Sound (d.startTile p die k rep it t rest) := by
  have hloaded := h.loadBank p die k it t
  unfold Device.startTile
  split
  · next hd1 => rwa [hd1] at hloaded
  · next hd1 =>
    rw [hd1] at hloaded
    simpa using hloaded

theorem Sound.tileStart (h : Sound d) (die k : Nat) (rep : Report) (p : Platform) : Sound (tileStart die k rep p d) := by
  have hother := h.finishOther p die k
  unfold Machine.tileStart
  dsimp only
  split
  · exact h
  · split
    · exact h
    · split
      · simpa using h
      · split
        · exact h
        · split
          · simp [h]
          · split
            · next hx => exact h.heldUp _ _ _ (by rwa [hx] at hother)
            · next hd1 => exact Sound.startTile (by rwa [hd1] at hother) ..

/-! ### Drains (R48, R81, R109, R134) -/

theorem Sound.drainRow (h : Sound d) {it : Item} {pr : Prod} {a : Actor} {t : Tile} {i : Nat} {ws : List Word}
    (he : Device.drainRow it pr a t d i ws = .ok e) : Sound e := by
  obtain ⟨row, -, he⟩ := bind_eq_ok.mp he
  obtain ⟨d1, h1, he⟩ := h.of_skip_bind (fun _ => h.putElems) he
  obtain ⟨d2, h2, he⟩ := h1.of_skip_bind (fun _ => h1.writeVa) he
  obtain ⟨d3, hd3, he⟩ := bind_eq_ok.mp he
  have h3 := h2.saveElems hd3
  exact h3.of_skip h3.saveBytes he

theorem Sound.eachRow {f : Device → Nat → List Word → Except MemErr Device} (h : Sound d)
    (hf : ∀ d i ws e, Sound d → f d i ws = .ok e → Sound e) {i : Nat} {rows : List (List Word)}
    (he : eachRow f i rows d = .ok e) : Sound e := by
  induction rows generalizing d i with
  | nil => exact Except.ok.inj he ▸ h
  | cons ws rows ih =>
    obtain ⟨d1, hd1, he⟩ := bind_eq_ok.mp he
    exact ih (hf d i ws d1 h hd1) he

theorem Sound.writeTap (h : Sound d) {it : Item} {pr : Prod} {a : Actor} {t : Tile} {acc : List (List Word)}
    (he : Device.writeTap it pr a t acc d = .ok e) : Sound e := h.foldlM (fun _ _ _ h he => h.writeVa he) he

theorem Sound.drainTile (h : Sound d) {it : Item} {pr : Prod} {a : Actor} {t : Tile} {acc : List (List Word)}
    (he : d.drainTile it pr a t acc = .ok e) : Sound e := by
  obtain ⟨d1, hd1, he⟩ := bind_eq_ok.mp he
  have h1 := h.eachRow (fun _ _ _ _ h he => h.drainRow he) hd1
  split at he
  · exact h1.writeTap he
  · exact Except.ok.inj he ▸ h1

theorem Sound.drainPartial (h : Sound d) {it : Item} {pr : Prod} {a : Actor} {t : Tile} {acc : List (List Word)}
    (he : d.drainPartial it pr a t acc = .ok e) : Sound e := h.eachRow (fun _ _ _ _ h he => h.writeVa he) he

theorem Sound.drainWrites (h : Sound d) {it : Item} {pr : Prod} {a : Actor} {b : Bank} {t : Tile}
    (he : d.drainWrites it pr a b t = .ok e) : Sound e := by
  unfold Device.drainWrites at he
  split at he
  · exact h.drainTile he
  · exact h.drainPartial he

@[simp] theorem Sound.productCheck (h : Sound d) (c q : Nat) : Sound (d.productCheck c q) := by
  unfold Device.productCheck
  split
  · exact h
  · split <;> simp [h]

@[simp] theorem Sound.tileDrained (h : Sound d) (die k : Nat) (pr : Prod) (t : Tile) : Sound (d.tileDrained die k pr t) := by
  unfold Device.tileDrained
  extract_lets stopped here n
  split
  · simp [h]
  · split <;> simp [h]

@[simp] theorem Sound.combineDrained (h : Sound d) (t : Tile) : Sound (d.combineDrained t) := by simp [Device.combineDrained, h]

@[simp] theorem Sound.drainOut (h : Sound d) (p : Platform) (die k : Nat) (which : Bool) (it : Item) (t : Tile) :
    Sound (d.drainOut p die k which it t) := by
  unfold Device.drainOut
  dsimp only
  split
  · next hd1 => exact h.fetch_stall hd1
  · simp [h]
  · next hd1 =>
    have h1 := h.fetch hd1
    split
    · simp [h1]
    · next hd2 =>
      have h2 := h1.drainWrites hd2
      split <;> simp [h2]

theorem Sound.tileDrainDone (h : Sound d) (die k : Nat) (rep : Report) (p : Platform) : Sound (tileDrainDone die k rep p d) := by
  unfold Machine.tileDrainDone
  dsimp only
  split
  · exact h
  · next which b _ =>
    split
    · exact h
    · next t _ =>
      split
      · simpa using h
      · split
        · exact h
        · have hended : Answers HeldSound Sound (if b.st = .filling then d.advance p die k which toEnd else .ok d) := by
            split
            · exact h.advance ..
            · exact h
          split
          · next hx => exact h.heldUp _ _ _ (by rwa [hx] at hended)
          · next hd1 =>
            rw [hd1] at hended
            exact Sound.drainOut ((sound_charge ..).mpr hended) ..

theorem Sound.startCombine (h : Sound d) (p : Platform) (die k : Nat) (t : Tile) :
    Answers HeldSound Sound (d.startCombine p die k t) := by
  have hother := h.finishOther p die k
  unfold Device.startCombine
  split
  · next hx => rwa [hx] at hother
  · next hd1 => rwa [hd1] at hother

@[simp] theorem Sound.runCombine (h : Sound d) (p : Platform) (die k rows : Nat) (rep : Report) (which : Bool) :
    Sound (d.runCombine p die k rows rep which) := by
  have hrows := h.advance p die k which rows
  unfold Device.runCombine
  split
  · exact h
  · split
    · next hx => exact h.heldUp _ _ _ (by rwa [hx] at hrows)
    · next hd1 =>
      rw [hd1] at hrows
      have h1 := fun t : Tile => (sound_charge _ t.ctx die k rep).mpr hrows
      dsimp only
      split
      · exact h1 _
      · exact (h1 _).drainOut ..

theorem Sound.splitCombine (h : Sound d) (die k rows : Nat) (rep : Report) (p : Platform) :
    Sound (splitCombine die k rows rep p d) := by
  unfold Machine.splitCombine
  dsimp only
  split
  · exact h
  · split
    · simp [h]
    · split
      · exact h
      · next t _ =>
        split
        · simpa using h
        · split
          · exact h
          · have hstart := h.startCombine p die k t
            split
            · next hx => exact h.heldUp _ _ _ (by rwa [hx] at hstart)
            · next hd1 =>
              rw [hd1] at hstart
              exact hstart.runCombine ..

/-! ### Admission (R92, R93, R115, R131 to R137, R206, R259 to R267, R299) -/

@[simp] theorem sound_putSet (d : Device) (w : WSet) : Sound (d.putSet w) ↔ Sound d := .rfl

@[simp] theorem sound_addSeg (d : Device) (it : Item) (t : Tag) (w len : Nat) (kind : SegKind) (gs : List Nat) :
    Sound (d.addSeg it t w len kind gs) ↔ Sound d := by simp [Device.addSeg]

@[simp] theorem sound_dropStored (d : Device) (s : Seg) : Sound (d.dropStored s) ↔ Sound d := by simp [Device.dropStored]

@[simp] theorem sound_makeRoom (d : Device) (c n f : Nat) : Sound (Device.makeRoom c n f d).1 ↔ Sound d := by
  induction f generalizing d with
  | zero => rfl
  | succ f ih =>
    unfold Device.makeRoom
    split
    · rfl
    · split
      · rfl
      · exact (ih _).trans (sound_dropStored ..)

@[simp] theorem sound_replaceSeg (d : Device) (t : Tag) : Sound (d.replaceSeg t) ↔ Sound d := by
  unfold Device.replaceSeg
  split
  · rfl
  · dsimp only
    split <;> simp

@[simp] theorem sound_reserve (d : Device) (it : Item) (w len : Nat) : Sound (d.reserve it w len).1 ↔ Sound d := by
  unfold Device.reserve
  extract_lets t n full d1
  have h1 : Sound d1 ↔ Sound d := by simp [d1]
  rw [← h1]
  split
  · exact h1.symm
  · split
    · simp
    · split
      · split <;> simp
      · split
        · simp
        · have hroom := sound_makeRoom d1 it.ctx n (d1.mem.segs.length + 1)
          split <;> next hd2 => simpa [hd2] using hroom
      · rfl

@[simp] theorem sound_bindClaims (d : Device) (it : Item) (ws : List Nat) : Sound (d.bindClaims it ws) ↔ Sound d := by
  simp [Device.bindClaims]

@[simp] theorem Sound.endEarly (h : Sound d) (it : Item) (f : Item → Item) : Sound (d.endEarly it f) := by
  simp [Device.endEarly, h]

@[simp] theorem Sound.take (h : Sound d) (p : Platform) (it : Item) (oprec : List Byte) : Sound (d.take p it oprec) := by
  unfold Device.take
  extract_lets it1 peer d1 ws
  have h1 : Sound d1 := by simpa [d1] using h
  split
  · simp [h1]
  · split
    · simp [h1]
    · extract_lets d2 d3 r
      have h2 : Sound d2 := by simpa [d2] using h1
      split
      · simp [h2]
      · have hr : Sound r.1 := by simp [r, d3, h2]
        split <;> simp [hr]

@[simp] theorem Sound.takeRecord (h : Sound d) (p : Platform) (it : Item) : Sound (d.takeRecord p it) := by
  unfold Device.takeRecord
  dsimp only
  split <;> simp [h]

theorem Sound.reelCheck (h : Sound d) (p : Platform) (it : Item) {go : Device → Device} (hgo : Sound (go d)) :
    Sound (d.reelCheck p it go) := by
  unfold Device.reelCheck
  split
  · exact hgo
  · dsimp only
    repeat' split
    all_goals simp [h, hgo]

@[simp] theorem sound_useXlat (d : Device) (x : Xlat) (cls : Nat) : Sound (d.useXlat x cls) ↔ Sound d := .rfl

@[simp] theorem sound_startKernel (d : Device) (it : Item) (check : Nat) : Sound (d.startKernel it check) ↔ Sound d := by
  simp [Device.startKernel]

@[simp] theorem Sound.kernelDispatch (h : Sound d) (p : Platform) (it : Item) : Sound (d.kernelDispatch p it) := by
  unfold Device.kernelDispatch
  dsimp only
  split
  · simp [h]
  · split <;> simp [h]

@[simp] theorem Sound.normDispatch (h : Sound d) (p : Platform) (it : Item) : Sound (d.normDispatch p it) := by
  unfold Device.normDispatch
  dsimp only
  split <;> simp [h]

@[simp] theorem Sound.dispatch (h : Sound d) (p : Platform) (it : Item) : Sound (d.dispatch p it) := by
  unfold Device.dispatch
  extract_lets it1 d1
  have h1 : Sound d1 := by simpa [d1] using h
  split
  · simp [h1]
  · simp [h1]
  · simp [h1]
  · exact h1.reelCheck _ _ (h1.normDispatch ..)
  · exact h1.reelCheck _ _ (by simpa using h1)
  · simpa using h1

theorem Sound.itemDispatch (h : Sound d) (c q : Nat) (p : Platform) : Sound (itemDispatch c q p d) := by
  unfold Machine.itemDispatch
  split
  · exact h
  · split
    · exact h
    · split
      · simp [h]
      · split <;> simp [h]

end Sys2Proof.Proofs.MemoryInvariant
end

section
/-! O59, the Collie cores: instructions of packs, the packs' paths and places, and work that goes from engine to engine (R43 to R57,
R129, R161 to R219, R287 to R289). -/

namespace Sys2Proof.Proofs.MemoryInvariant

open Sys2Proof.Machine Sys2Proof.Spec

variable {d e : Device}

/-! ### What an instruction comes to -/

@[simp] theorem Sound.coreFault (h : Sound d) (pl : Platform) (p : Nat) (k : KBlock) (c : FaultCode) (addr lane more : Nat) :
    Sound (d.coreFault pl p k c addr lane more) := h.takeFaults ..

@[simp] theorem Sound.coreFail (h : Sound d) (pl : Platform) (p : Nat) (k : KBlock) (x : MemErr) (lane more : Nat) :
    Sound (d.coreFail pl p k x lane more) := by
  unfold Device.coreFail
  split <;> simp [h]

@[simp] theorem sound_parkPack (d : Device) (p : Nat) (w : Option Wait) : Sound (d.parkPack p w) ↔ Sound d := .rfl

@[simp] theorem Sound.issued (h : Sound d) (k : KBlock) (slot : Option Nat) : Sound (d.issued k slot) := by
  simp [Device.issued, h]

/-- The device that the body of an instruction leaves. -/
def RanSound : Ran → Prop
  | .go d => Sound d
  | .jump d => Sound d
  | .wait _ d => Sound d
  | .stall => True
  | .hold d => Sound d
  | .fail _ _ _ => True

@[simp] theorem ranSound_go : RanSound (.go d) ↔ Sound d := .rfl
@[simp] theorem ranSound_jump : RanSound (.jump d) ↔ Sound d := .rfl
@[simp] theorem ranSound_wait (w : Wait) : RanSound (.wait w d) ↔ Sound d := .rfl
@[simp] theorem ranSound_hold : RanSound (.hold d) ↔ Sound d := .rfl
@[simp] theorem ranSound_fail (x : MemErr) (lane more : Nat) : RanSound (.fail x lane more) := trivial

/-- An instruction keeps what its body keeps. -/
theorem Sound.runJkf (h : Sound d) (i : Issue) (legal : KBlock → Bool) {body : KBlock → Pack → Device → Ran} (pl : Platform)
    (hbody : ∀ k x, RanSound (body k x d)) : Sound (Device.runJkf i legal body pl d) := by
  unfold Device.runJkf
  split
  · exact h
  · next k x _ _ =>
    have hran := hbody k x
    split
    · split <;> next hd1 => rw [hd1] at hran; simp_all
    · simp [h]

/-- Steps taken lane by lane keep what each step keeps. -/
theorem eachLane_keeps {α β : Type} {P : β → Prop} {f : β → Nat → Except MemErr (α × β)}
    (hf : ∀ s l x s1, P s → f s l = .ok (x, s1) → P s1) {ls : List Nat} {s t : β} {xs : List (Nat × α)} (hs : P s)
    (he : eachLane f ls s = .ok (xs, t)) : P t := by
  induction ls generalizing s xs with
  | nil => exact (Prod.mk.inj (Except.ok.inj he)).2 ▸ hs
  | cons l ls ih =>
    unfold eachLane at he
    split at he
    · cases he
    · next hs1 =>
      split at he
      · cases he
      · next hs2 =>
        obtain ⟨-, rfl⟩ := Prod.mk.inj (Except.ok.inj he)
        exact ih (hf _ _ _ _ hs hs1) hs2

/-! ### Arithmetic and predicates -/

theorem Sound.alu (h : Sound d) (o : AluOp) (i : Issue) (b : AluBody) (pl : Platform) : Sound (alu o i b pl d) :=
  h.runJkf _ _ _ fun _ _ => h

theorem Sound.setPred (h : Sound d) (cls : Bool) (f : Nat → Dword → Dword → Bool) (i : Issue) (b : PredBody) (pl : Platform) :
    Sound (setPred cls f i b pl d) := h.runJkf _ _ _ fun _ _ => h

theorem Sound.setPlog (h : Sound d) (f : Bool → Bool → Bool) (i : Issue) (b : PlogBody) (pl : Platform) :
    Sound (setPlog f i b pl d) := h.runJkf _ _ _ fun _ _ => h

/-! ### Lines that a core uses -/

@[simp] theorem sound_settlePack (d : Device) (p : Nat) (w : Went) : Sound (d.settlePack p w) ↔ Sound d := by
  unfold Device.settlePack
  split <;> simp

@[simp] theorem sound_stalled (d : Device) (k : KBlock) (code : Nat) : Sound (d.stalled k code) ↔ Sound d := by
  simp [Device.stalled]

theorem Sound.touchLine (h : Sound d) {k : KBlock} {pk : Nat} {reads : Bool} {p : Place × Nat × Nat} {w : Went}
    (he : d.touchLine k pk reads p = .ok (e, w)) : Sound e := by
  unfold Device.touchLine at he
  dsimp only at he
  split at he
  · obtain ⟨rfl, -⟩ := Prod.mk.inj (Except.ok.inj he)
    split
    · exact h
    · have hused := fun c => h.prefUsed k.die (lineNo p.1) c
      simp [hused]
  · split at he
    · cases he
    · next hd1 =>
      obtain ⟨rfl, -⟩ := Prod.mk.inj (Except.ok.inj he)
      have h1 := h.demand hd1
      split
      · next hy => exact (h1.installCore _ _ (wholeLine_of_fetch hy)).loseWrites
      · exact h1

@[simp] theorem Sound.touchLines (h : Sound d) (k : KBlock) (pk : Nat) (reads : Bool) (ps : List (Place × Nat × Nat)) :
    Sound (d.touchLines k pk reads ps).1 := by
  refine Sound.foldl_fst (r := (d, Went.near, none)) h (fun r p h => ?_) _
  split
  · exact h
  · next hd1 => exact h.touchLine hd1

@[simp] theorem Sound.ownLine (h : Sound d) (k : KBlock) (p : Place × Nat × Nat) : Sound (d.ownLine k p) := by
  unfold Device.ownLine
  split
  · exact h
  · exact (h.installCore _ _ (by simp [WholeLine])).loseWrites

@[simp] theorem Sound.touchDie (h : Sound d) (k : KBlock) (pk : Nat) (ps : List (Place × Nat × Nat)) :
    Sound (d.touchDie k pk ps).1 := by
  refine Sound.foldl_fst (r := (d, Went.near, none)) h (fun r p h => ?_) _
  dsimp only
  split
  · exact h
  · split
    · exact h
    · next hd1 => exact h.demand hd1

/-! ### LD (R195) -/

theorem RanSound.innerLoad (h : Sound d) (i : Issue) (b : MemBody) (k : KBlock) (x : Pack) (ls : List Nat) :
    RanSound (innerLoad i b k x ls d) := by
  unfold Machine.innerLoad
  dsimp only
  split
  · trivial
  · simpa using h

theorem Sound.askLines (h : Sound d) {k : KBlock} {p : Nat} {vs : List (Nat × Nat × Place × Nat)}
    (he : Device.askLines k p vs d = .ok e) : Sound e := by
  induction vs generalizing d with
  | nil => exact Except.ok.inj he ▸ h
  | cons v vs ih =>
    obtain ⟨l, va, pl, key⟩ := v
    cases pl with
    | dev a => exact ih h he
    | host a => exact ih h he
    | peer nd rc rva =>
      unfold Device.askLines at he
      dsimp only at he
      split at he
      · exact ih h he
      · split at he
        · cases he
        · exact ih (by simpa using h) he

theorem RanSound.globalLoad (h : Sound d) (i : Issue) (b : MemBody) (evicts : List Nat) (k : KBlock) (x : Pack) (ls : List Nat) :
    RanSound (globalLoad i b evicts k x ls d) := by
  have hevicted := (h.evictCore k.die k.core evicts).loseWrites
  unfold Machine.globalLoad
  generalize Device.loseWrites (d.evictCore k.die k.core evicts) = d1 at hevicted
  dsimp only
  split
  · trivial
  · next vs _ _ =>
    split
    · split
      · trivial
      · next hd2 => exact hevicted.askLines hd2
    · have htouched := hevicted.touchLines k i.pack true
        ((vs.filter fun v => !v.2.1.2.1.away).map fun v => (v.2.1.2.1, v.2.1.2.2, v.2.1.1))
      split <;> next hd2 => rw [hd2] at htouched; simpa using htouched

theorem Sound.memLoad (h : Sound d) (i : Issue) (b : MemBody) (evicts : List Nat) (pl : Platform) :
    Sound (memLoad i b evicts pl d) := by
  refine h.runJkf _ _ _ fun k x => ?_
  dsimp only
  split
  · exact .globalLoad h ..
  · exact .innerLoad h ..

/-! ### ST (R195) -/

theorem RanSound.innerStore (h : Sound d) (i : Issue) (b : MemBody) (k : KBlock) (x : Pack) (ls : List Nat) :
    RanSound (innerStore i b k x ls d) := by
  unfold Machine.innerStore
  dsimp only
  split
  · trivial
  · exact h

theorem Sound.storeCore (h : Sound d) {k : KBlock} {p l va : Nat} {pl : Place} {key : Nat} {bs : List Byte}
    (he : d.storeCore k p l va pl key bs = .ok e) : Sound e := by
  unfold Device.storeCore at he
  split at he
  · split at he
    · cases he
    · obtain rfl := Except.ok.inj he
      refine (sound_unkeep ..).mpr (Sound.updCore ((sound_peerSend ..).mpr h) _ _ fun c hc x hx => ?_)
      obtain ⟨y, hy, rfl⟩ := List.mem_map.mp hx
      obtain ⟨hdata, hdirty⟩ := hc y hy
      split <;> simp [WholeLine, hdata, hdirty]
  · obtain rfl := Except.ok.inj he
    refine h.updCore _ _ fun c hc x hx => ?_
    obtain ⟨y, hy, rfl⟩ := List.mem_map.mp hx
    split
    · exact wholeLine_put (hc y hy) ..
    · exact hc y hy
  · exact h.writePlace he

theorem RanSound.globalStore (h : Sound d) (i : Issue) (b : MemBody) (evicts : List Nat) (k : KBlock) (x : Pack) (ls : List Nat) :
    RanSound (globalStore i b evicts k x ls d) := by
  unfold Machine.globalStore
  extract_lets n d1 place put
  have h1 : Sound d1 := (h.evictCore k.die k.core evicts).loseWrites
  split
  · trivial
  · extract_lets all ps
    have howned : Sound (((distinctLines all).filter (coversLine n all)).foldl (fun d p => d.ownLine k p) d1) :=
      h1.foldl (fun _ p h => h.ownLine k p) _
    have htouched := howned.touchLines k i.pack false ps
    split
    · next hd2 =>
      rw [hd2] at htouched
      simpa using htouched
    · next hd2 =>
      rw [hd2] at htouched
      have hput : ∀ d l u e, Sound d → put d l = .ok (u, e) → Sound e := by
        intro d l u e h he
        unfold put at he
        split at he
        · cases he
        · split at he
          · cases he
          · next hd3 => exact (Prod.mk.inj (Except.ok.inj he)).2 ▸ h.storeCore hd3
      split
      · trivial
      · next hd3 => simpa using eachLane_keeps hput htouched hd3

theorem Sound.memStore (h : Sound d) (i : Issue) (b : MemBody) (evicts : List Nat) (pl : Platform) :
    Sound (memStore i b evicts pl d) := by
  refine h.runJkf _ _ _ fun k x => ?_
  dsimp only
  split
  · exact .globalStore h ..
  · exact .innerStore h ..
  · split
    · exact h
    · trivial

/-! ### DISCARD (R232) -/

@[simp] theorem Sound.discardFrom (h : Sound d) (k : KBlock) (pl : Place) : Sound (d.discardFrom k pl) := by
  unfold Device.discardFrom
  split
  · exact (Sound.updCore_of_subset ((sound_unused ..).mpr h) _ _ fun _ => List.filter_sublist.subset).discardLine ..
  · exact h

theorem Sound.memDiscard (h : Sound d) (i : Issue) (b : MemBody) (pl : Platform) : Sound (memDiscard i b pl d) := by
  refine h.runJkf _ _ _ fun k x => ?_
  dsimp only
  split
  · trivial
  · exact h.foldl (fun _ p h => h.discardFrom k p.1) _

/-! ### Atomics (R129, R176) -/

theorem RanSound.innerAtomic (h : Sound d) (op : AtomOp) (ty : AtomTy) (i : Issue) (b : AtomBody) (k : KBlock) (x : Pack)
    (ls : List Nat) : RanSound (innerAtomic op ty i b k x ls d) := by
  unfold Machine.innerAtomic
  dsimp only
  split
  · trivial
  · simpa using h

theorem Sound.globalAtom {i : Issue} {b : AtomBody} {op : AtomOp} {ty : AtomTy} {k : KBlock} {r u : AtomRun} {va : Nat}
    {ls : List Nat} {ps : List (Dword × Dword)} (h : Sound r.d) (he : globalAtom i b op ty k r va ls ps = .ok u) : Sound u.d := by
  unfold Machine.globalAtom at he
  split at he
  · cases he
  · split at he
    · cases he
    · obtain rfl := Except.ok.inj he
      simp [h]
  · have hdropped := fun pl key => (h.dropCoreLine k.die k.core pl key).loseWrites
    dsimp only at he
    split at he
    · cases he
    · next hd2 =>
      obtain rfl := Except.ok.inj he
      exact (hdropped _ _).atomHost hd2
  · have hdropped := fun pl key => (h.dropCoreLine k.die k.core pl key).loseWrites
    dsimp only at he
    split at he
    · cases he
    · next hd2 =>
      obtain rfl := Except.ok.inj he
      split at hd2
      · exact (hdropped _ _).atomDie hd2
      · exact ((hdropped _ _).pastCaches ..).atomDev hd2

theorem Sound.eachGroup {f : AtomRun → Nat × List Nat → Except MemErr AtomRun}
    (hf : ∀ r g u, Sound r.d → f r g = .ok u → Sound u.d) {gs : List (Nat × List Nat)} {r u : AtomRun} (h : Sound r.d)
    (he : eachGroup f gs r = .ok u) : Sound u.d := by
  induction gs generalizing r with
  | nil => exact Except.ok.inj he ▸ h
  | cons g gs ih =>
    unfold Machine.eachGroup at he
    split at he
    · cases he
    · next hr1 => exact ih (hf _ _ _ h hr1) he

theorem RanSound.globalAtomic (h : Sound d) (op : AtomOp) (ty : AtomTy) (i : Issue) (b : AtomBody) (k : KBlock) (x : Pack)
    (ls : List Nat) : RanSound (globalAtomic op ty i b k x ls d) := by
  unfold Machine.globalAtomic
  extract_lets n gs near
  have htouched := h.touchDie k i.pack near
  split
  · next hd1 =>
    rw [hd1] at htouched
    simpa using htouched
  · next hd1 =>
    rw [hd1] at htouched
    split
    · trivial
    · next r hr =>
      have hrun : Sound r.d := Sound.eachGroup (fun _ _ _ h he => h.globalAtom he) (by simpa using htouched) hr
      simp [hrun]

theorem Sound.atomic (h : Sound d) (op : AtomOp) (i : Issue) (b : AtomBody) (pl : Platform) : Sound (atomic op i b pl d) := by
  refine h.runJkf _ _ _ fun k x => ?_
  dsimp only
  split
  · trivial
  · split
    · exact .innerAtomic h ..
    · exact .globalAtomic h ..

/-! ### Fences (R211) -/

@[simp] theorem Sound.fenceCaches (h : Sound d) (b : SyncBody) (k : KBlock) : Sound (fenceCaches b k d).1 := by
  unfold Machine.fenceCaches
  split <;> simp [h]

theorem Sound.fence (h : Sound d) (i : Issue) (b : SyncBody) (waited : Nat) (pl : Platform) : Sound (fence i b waited pl d) := by
  refine h.runJkf _ _ _ fun k x => ?_
  split
  · exact h
  · split
    · exact h
    · extract_lets d0 d1
      have h0 : Sound d0 := (h.fenceCaches b k).loseWrites
      have h1 : Sound d1 := by simp [d1, h0]
      split <;> simp [h1]

/-! ### Paths, barriers and places of packs (R161 to R175) -/

@[simp] theorem sound_idlePack (d : Device) (p : Nat) : Sound (d.idlePack p) ↔ Sound d := by simp [Device.idlePack]

@[simp] theorem sound_pathReconverge (d : Device) (p : Nat) : Sound (pathReconverge p d) ↔ Sound d := by
  unfold pathReconverge
  dsimp only
  split
  · rfl
  · split <;> simp

theorem Sound.branch (h : Sound d) (i : Issue) (b : BraBody) (pl : Platform) : Sound (branch i b pl d) := by
  refine h.runJkf _ _ _ fun k x => ?_
  split <;> simp [h]

@[simp] theorem sound_retire (d : Device) (p : Nat) (k : KBlock) : Sound (d.retire p k) ↔ Sound d := by
  unfold Device.retire
  dsimp only
  split
  · simp
  · split <;> simp

theorem Sound.exitThreads (h : Sound d) (i : Issue) (pl : Platform) : Sound (exitThreads i pl d) := by
  refine h.runJkf _ _ _ fun k x => ?_
  simpa using h

theorem Sound.bar (h : Sound d) (i : Issue) (id : Nat) (pl : Platform) : Sound (bar i id pl d) := by
  refine h.runJkf _ _ _ fun k x => ?_
  dsimp only
  split <;> simpa using h

@[simp] theorem sound_barrierComplete (d : Device) (b id : Nat) : Sound (barrierComplete b id d) ↔ Sound d := by
  unfold barrierComplete
  split
  · rfl
  · dsimp only
    split <;> simp

theorem Sound.barrierTimeout (h : Sound d) (b id : Nat) (pl : Platform) : Sound (barrierTimeout b id pl d) := by
  unfold Machine.barrierTimeout
  split
  · exact h
  · split
    · split <;> simp [h]
    · exact h

@[simp] theorem sound_chargeCore (d : Device) (die core : Nat) (rep : Report) : Sound (d.chargeCore die core rep) ↔ Sound d := by
  unfold Device.chargeCore
  dsimp only
  split <;> simp

@[simp] theorem sound_packMove (d : Device) (die core : Nat) (rep : Report) : Sound (packMove die core rep d) ↔ Sound d := by
  unfold packMove
  dsimp only
  split
  · split <;> simp
  · simp

@[simp] theorem Sound.placeBlock (h : Sound d) (it : Item) (x : Xlat) (die core : Nat) : Sound (d.placeBlock it x die core) := by
  unfold Device.placeBlock
  extract_lets first d1 b t k packs
  have h1 : Sound d1 := by simp [d1, h]
  simpa using h1

theorem Sound.blockPlace (h : Sound d) (c q : Nat) : Sound (blockPlace c q d) := by
  unfold Machine.blockPlace
  split
  · exact h
  · split
    · exact h
    · split
      · exact h
      · split <;> simp [h]

theorem Sound.movsr (h : Sound d) (i : Issue) (b : SpecBody) (pl : Platform) : Sound (movsr i b pl d) :=
  h.runJkf _ _ _ fun _ _ => h

/-! ### Stealing, halts and parked tiles (R51, R57, R287, R288) -/

@[simp] theorem sound_stealAttempt (d : Device) (die k : Nat) : Sound (stealAttempt die k d) ↔ Sound d := by
  unfold stealAttempt
  split
  · rfl
  · split
    · rfl
    · split
      · simp
      · split
        · rfl
        · split
          · rfl
          · split <;> simp

theorem Sound.endLoad (h : Sound d) (p : Platform) (die k : Nat) : Answers Sound Sound (d.endLoad p die k) := by
  unfold Device.endLoad
  dsimp only
  split
  · next t it _ =>
    split
    · exact h
    · have hloaded := h.loadBank p die k it t
      split <;> next hd1 => rw [hd1] at hloaded; simpa using hloaded
  · exact h

theorem Sound.parkedTileResume (h : Sound d) (die k : Nat) (p : Platform) : Sound (parkedTileResume die k p d) := by
  unfold Machine.parkedTileResume
  dsimp only
  split
  · split
    · exact h
    · have hother := h.finishOther p die k
      split
      · next hx => exact h.heldUp _ _ _ (by rwa [hx] at hother)
      · next hd1 =>
        rw [hd1] at hother
        simpa using hother
  · exact h

theorem Sound.txbTurnDone (h : Sound d) (die k : Nat) (isB : Bool) (row col : Nat) (p : Platform) :
    Sound (txbTurnDone die k isB row col p d) := by
  unfold Machine.txbTurnDone
  split
  · exact h
  · split
    · exact h
    · dsimp only
      split
      · split <;> simp [h]
      · simpa using h

end Sys2Proof.Proofs.MemoryInvariant
end

section
/-! O59, the vector engines, stream operations, work that kernels give to engines, and kernel images (R138 to R160, R179 to R206,
R258, R264, R284 to R291). -/

namespace Sys2Proof.Proofs.MemoryInvariant

open Sys2Proof.Machine Sys2Proof.Spec

variable {d e : Device}

/-! ### Work on an engine (R264, R284, R288, R289) -/

@[simp] theorem sound_leavePool (d : Device) (it : Item) : Sound (d.leavePool it) ↔ Sound d := by simp [Device.leavePool]

@[simp] theorem sound_veQueue (d : Device) (it : Item) (die k : Nat) : Sound (d.veQueue it die k) ↔ Sound d := .rfl

@[simp] theorem sound_veStart (d : Device) (it : Item) (die k : Nat) : Sound (d.veStart it die k) ↔ Sound d := .rfl

@[simp] theorem Sound.veEnd (h : Sound d) (die k c q : Nat) : Sound (d.veEnd die k c q) := by simp [Device.veEnd, h]

theorem Sound.veDispatch (h : Sound d) (p : Platform) (it : Item) {go : Device → Nat → Nat → Device}
    (hgo : ∀ d die k, Sound d → Sound (go d die k)) : Sound (d.veDispatch p it go) := by
  unfold Device.veDispatch
  extract_lets run
  have hrun : ∀ d x, Sound d → Sound (run d x) := by
    intro d x h
    unfold run
    split
    · exact hgo _ _ _ (by simpa using h)
    · exact h
  split
  · exact hrun _ _ h
  · split
    · exact h
    · exact hrun _ _ (by simpa using h)

theorem Sound.vecList (h : Sound d) (c q : Nat) (p : Platform) : Sound (vecList c q p d) := by
  unfold Machine.vecList
  split
  · exact h
  · split
    · exact h
    · exact h.startClaimed _ (h.veDispatch _ _ fun _ _ _ h => h)

/-! ### Vector instructions (R143, R144, R198) -/

/-- The operation keeps the invariant. -/
def VecKeeps (o : VecOp) : Prop := ∀ x d e, Sound d → o.run x d = .ok e → Sound e

theorem VecKeeps.go {o : VecOp} (ho : VecKeeps o) (h : Sound d) {x : VecIn} (he : o.go x d = .ok e) : Sound e := by
  unfold VecOp.go at he
  split at he
  · cases he
  · split at he
    · exact Except.ok.inj he ▸ h
    · exact ho x d e h he

@[simp] theorem sound_vecCount (d : Device) (x : VecIn) (rep : Report) : Sound (x.count rep d) ↔ Sound d := by
  simp [VecIn.count]

@[simp] theorem Sound.vecFault (h : Sound d) (pl : Platform) (p : Nat) (x : VecIn) (c : FaultCode) (va : Nat) :
    Sound (d.vecFault pl p x c va) := h.takeFaults ..

theorem RanSound.vecFailed (h : Sound d) (pl : Platform) (p : Nat) (x : VecIn) (m : MemErr) : RanSound (vecFailed pl p x m d) := by
  unfold Machine.vecFailed
  split <;> simp [h]

theorem Sound.vecPack {o : VecOp} (ho : VecKeeps o) (h : Sound d) (p : Nat) (rep : Report) (b : VecBody) (pl : Platform) :
    Sound (vecPack o p rep b pl d) := by
  refine h.runJkf _ _ _ fun k x => ?_
  dsimp only
  split
  · trivial
  · split
    · trivial
    · split
      · next hd1 => exact h.fetch_stall hd1
      · exact .vecFailed h ..
      · next hd0 =>
        split
        · next hd1 => simpa using ho.go (h.fetch hd0) hd1
        · exact .vecFailed h ..

@[simp] theorem Sound.listNext (h : Sound d) (die k : Nat) (it : Item) : Sound (d.listNext die k it) := by
  unfold Device.listNext
  dsimp only
  split <;> simp [h]

theorem Sound.vecOpEntry {o : VecOp} (ho : VecKeeps o) (h : Sound d) (v : VecIn) (rep : Report) (p : Platform) :
    Sound (o.entry v rep p d) := by
  unfold VecOp.entry
  split
  · simp [h]
  · split
    · next hd1 => exact h.fetch_stall hd1
    · simp [h]
    · next hd0 =>
      split
      · next hd1 => exact Sound.listNext (by simpa using ho.go (h.fetch hd0) hd1) ..
      · simp [h]

theorem Sound.vecEntry {o : VecOp} (ho : VecKeeps o) (h : Sound d) (code die k : Nat) (u : List Word) (rep : Report)
    (b : VecBody) (p : Platform) : Sound (vecEntry code o die k u rep b p d) := by
  unfold Machine.vecEntry
  extract_lets d1 eng
  have h1 : Sound d1 := by simpa [d1] using h
  split
  · exact h1
  · dsimp only
    split
    · exact h1
    · split
      · next hd2 => exact h1.fetch_stall hd2
      · simp [h1]
      · next hd2 =>
        have h2 := h1.fetch hd2
        split
        · simp [h1]
        · split
          · exact h1
          · exact h2.vecOpEntry ho ..

theorem Sound.vec {o : VecOp} (ho : VecKeeps o) (h : Sound d) (code : Nat) (v : VecArgs) (p : Platform) :
    Sound (vec code o v p d) := by
  unfold Machine.vec
  split
  · exact h.vecPack ho ..
  · exact h.vecEntry ho ..

/-! ### The operations (R146 to R157) -/

theorem vecKeeps_elemOp (fmts : List Nat) (f : Nat → Word → Word → Word → Word) : VecKeeps (elemOp fmts f) :=
  fun _ _ _ h he => Except.ok.inj he ▸ h

theorem vecKeeps_vsel (fmts : List Nat) : VecKeeps (vsel fmts) := fun _ _ _ h he => Except.ok.inj he ▸ h

theorem vecKeeps_maskOp (f : Nat → Word → Word → Bool) : VecKeeps (maskOp f) := fun _ _ _ h he => Except.ok.inj he ▸ h

theorem vecKeeps_redOp (f : Nat → Word → Word → Word) : VecKeeps (redOp f) := by
  intro x d e h he
  unfold redOp at he
  dsimp only at he
  split at he <;> exact Except.ok.inj he ▸ h

theorem vecKeeps_scanOp (excl seg : Bool) (f : Nat → Word → Word → Word) : VecKeeps (scanOp excl seg f) :=
  fun _ _ _ h he => Except.ok.inj he ▸ h

theorem Sound.vecStore (h : Sound d) {x : VecIn} {va : Nat} {bs : List Byte} (he : x.store d va bs = .ok e) : Sound e := by
  obtain ⟨d1, hd1, he⟩ := bind_eq_ok.mp he
  have h1 := h.writeVa hd1
  dsimp only at he
  split at he
  · exact h1.saveBytes he
  · exact Except.ok.inj he ▸ h1

theorem Sound.putBits (h : Sound d) {x : VecIn} {va bit code : Nat} (he : x.putBits d va bit code = .ok e) : Sound e := by
  obtain ⟨first, he⟩ := ite_bind_eq_ok he
  obtain ⟨last, he⟩ := ite_bind_eq_ok he
  exact h.vecStore he

/-- What the checks of a memory instruction let through. -/
theorem go_of_checked {x : VecIn} {go : Except MemErr Device} (he : x.checked go = .ok e) : go = .ok e := by
  unfold VecIn.checked at he
  dsimp only at he
  split at he
  · cases he
  · split at he
    · cases he
    · exact he

theorem go_of_aligned4 {x : VecIn} {go : Except MemErr Device} (he : x.aligned4 go = .ok e) : go = .ok e := by
  unfold VecIn.aligned4 at he
  split at he
  · cases he
  · exact he

theorem vecKeeps_load (words : Nat) (fmts : List Nat) (draws : VecIn → Bool) (stride : VecIn → Nat) :
    VecKeeps ⟨words, fmts, draws, fun x => x.load (stride x)⟩ := by
  intro x d e h he
  obtain ⟨xs, -, he⟩ := bind_eq_ok.mp (go_of_checked he)
  exact Except.ok.inj he ▸ h

theorem vecKeeps_save (words : Nat) (fmts : List Nat) (draws : VecIn → Bool) (stride : VecIn → Nat) :
    VecKeeps ⟨words, fmts, draws, fun x => x.save (stride x)⟩ := by
  intro x d e h he
  obtain ⟨d1, hd1, he⟩ := bind_eq_ok.mp (go_of_checked he)
  have h1 := h.foldlM (fun _ _ _ h he => h.putBits he) hd1
  exact h1.foldlM (fun _ _ _ h he => h.vecStore he) he

theorem vecKeeps_vecGather : VecKeeps vecGather := by
  intro x d e h he
  obtain ⟨xs, -, he⟩ := bind_eq_ok.mp (go_of_aligned4 he)
  exact Except.ok.inj he ▸ h

theorem vecKeeps_vecScatter : VecKeeps vecScatter :=
  fun _ _ _ h he => h.foldlM (fun _ _ _ h he => h.vecStore he) (go_of_aligned4 he)

theorem vecKeeps_vecCvt : VecKeeps vecCvt := by
  intro x d e h he
  unfold vecCvt at he
  dsimp only at he
  split at he
  · cases he
  · exact Except.ok.inj he ▸ h

theorem vecKeeps_randU32 : VecKeeps randU32 := fun _ _ _ h he => Except.ok.inj he ▸ h

theorem vecKeeps_randUni : VecKeeps randUni := fun _ _ _ h he => Except.ok.inj he ▸ h

theorem vecKeeps_randBern : VecKeeps randBern := by
  intro x d e h he
  unfold randBern at he
  dsimp only at he
  split at he
  · cases he
  · exact Except.ok.inj he ▸ h

theorem vecKeeps_dropOp : VecKeeps dropOp := fun _ _ _ h he => Except.ok.inj he ▸ h

/-! ### Grants of the generator (R158, R159) -/

@[simp] theorem sound_chargeDraw (d : Device) (die cycles : Nat) (r : DrawReq) : Sound (d.chargeDraw die cycles r) ↔ Sound d := by
  unfold Device.chargeDraw
  split
  · split <;> simp
  · rfl

@[simp] theorem sound_cb10Grant (d : Device) (die : Nat) (reqs : List DrawReq) : Sound (cb10Grant die reqs d) ↔ Sound d := by
  unfold cb10Grant
  extract_lets b blocks real won lost cycles d1 d2
  have h1 : Sound d1 ↔ Sound d := sound_foldl (fun d r => by split <;> simp) _
  have h2 : Sound d2 ↔ Sound d1 := sound_foldl (fun d r => by simp) _
  rw [sound_updDie, h2, h1]

/-! ### Stream operations (R59, R68, R72, R152, R265) -/

theorem Sound.putOut (h : Sound d) {a : Actor} {base off : Nat} {bs : List Byte} (he : d.putOut a base off bs = .ok e) :
    Sound e := h.of_skip h.writeVa he

theorem Sound.saveArrays (h : Sound d) {it : Item} {a : Actor} {off : Nat} {arrays : List (List Byte)}
    (he : d.saveArrays it a off arrays = .ok e) : Sound e := by
  induction arrays generalizing d off with
  | nil => exact Except.ok.inj he ▸ h
  | cons bs rest ih =>
    obtain ⟨d1, h1, he⟩ := h.of_skip_bind (fun _ => h.saveBytes) he
    exact ih h1 he

@[simp] theorem sound_startSeg (d : Device) (it : Item) : Sound (d.startSeg it) ↔ Sound d := by
  unfold Device.startSeg
  split <;> simp

theorem Sound.putZcRow (h : Sound d) {it : Item} {a : Actor} {mOff vOff rOff : Nat} {row : List Byte × List Byte}
    (he : d.putZcRow it a mOff vOff rOff row = .ok e) : Sound e := by
  unfold Device.putZcRow at he
  dsimp only at he
  split at he
  · split at he
    · cases he
    · obtain rfl := Except.ok.inj he
      simpa using h
  · obtain ⟨d1, hd1, he⟩ := bind_eq_ok.mp he
    obtain ⟨d2, hd2, he⟩ := bind_eq_ok.mp he
    exact ((h.putOut hd1).putOut hd2).putOut he

theorem Sound.zcRows (h : Sound d) {it : Item} {a : Actor} {m v r : Nat} {xs : List (List Byte × List Byte)}
    (he : Device.zcRows it a m v r xs d = .ok e) : Sound e := by
  induction xs generalizing d m v r with
  | nil => exact Except.ok.inj he ▸ h
  | cons x xs ih =>
    unfold Device.zcRows at he
    split at he
    · cases he
    · next hd1 => exact ih (h.putZcRow hd1) he

/-- The operation on a stream keeps the invariant. -/
def StreamKeeps (op : StreamOp) : Prop := ∀ it a d e, Sound d → op it a d = .ok e → Sound e

theorem streamKeeps_zcCompress : StreamKeeps zcCompress := by
  intro it a d e h he
  unfold zcCompress at he
  split at he
  · obtain rfl := Except.ok.inj he
    simp [h]
  · obtain ⟨rows, -, he⟩ := bind_eq_ok.mp he
    obtain ⟨d3, hd3, he⟩ := bind_eq_ok.mp he
    obtain ⟨d4, hd4, he⟩ := bind_eq_ok.mp he
    obtain rfl := Except.ok.inj he
    have h3 : Sound (d3.startSeg it) := by simpa using h.zcRows hd3
    simpa using h3.saveArrays hd4

theorem Sound.putRows (h : Sound d) {it : Item} {a : Actor} {rows : List (List Nat)} (he : d.putRows it a rows = .ok e) :
    Sound e := h.of_skip (h.foldlM fun _ _ _ h he => h.putElems he) he

theorem streamKeeps_s24Compress : StreamKeeps s24Compress := by
  intro it a d e h he
  obtain ⟨pats, -, he⟩ := bind_eq_ok.mp he
  obtain ⟨cols, -, he⟩ := bind_eq_ok.mp he
  dsimp only at he
  split at he
  · obtain rfl := Except.ok.inj he
    simp [h]
  · obtain ⟨d1, hd1, he⟩ := bind_eq_ok.mp he
    obtain ⟨d2, hd2, he⟩ := bind_eq_ok.mp he
    obtain ⟨d3, hd3, he⟩ := bind_eq_ok.mp he
    obtain rfl := Except.ok.inj he
    simpa using ((h.putRows hd1).putOut hd2).saveArrays hd3

theorem streamKeeps_prune24t : StreamKeeps prune24t := by
  intro it a d e h he
  unfold prune24t at he
  split at he
  · obtain rfl := Except.ok.inj he
    simp [h]
  · obtain ⟨blocks, -, he⟩ := bind_eq_ok.mp he
    obtain ⟨d1, h1, he⟩ := h.of_when_bind (fun _ => h.putRows) he
    obtain ⟨d2, hd2, he⟩ := bind_eq_ok.mp he
    exact (h1.putOut hd2).saveArrays he

theorem streamKeeps_nnzHist : StreamKeeps nnzHist := by
  intro it a d e h he
  obtain ⟨rows, -, he⟩ := bind_eq_ok.mp he
  dsimp only at he
  split at he
  · obtain rfl := Except.ok.inj he
    simp [h]
  · obtain ⟨d1, hd1, he⟩ := bind_eq_ok.mp he
    obtain ⟨d2, hd2, he⟩ := bind_eq_ok.mp he
    obtain ⟨d3, hd3, he⟩ := bind_eq_ok.mp he
    exact (((h.putOut hd1).putOut hd2).putOut hd3).saveArrays he

@[simp] theorem sound_streamCount (d : Device) (c die k : Nat) (rep : Report) : Sound (d.streamCount c die k rep) ↔ Sound d := by
  simp [Device.streamCount]

section Stream
variable {op : StreamOp} (hop : StreamKeeps op)
include hop

theorem Sound.streamPart (h : Sound d) (it : Item) (rep : Report) (p : Platform) (die k : Nat) :
    Sound (streamPart op it rep p d die k) := by
  unfold Machine.streamPart
  split
  · simpa using h
  · split
    · simp [h]
    · next hd1 => exact Sound.veEnd ((sound_streamCount ..).mpr (hop _ _ _ _ h hd1)) ..

theorem Sound.streamGo (h : Sound d) (it : Item) (rep : Report) (p : Platform) (die k : Nat) :
    Sound (streamGo op it rep p d die k) := by
  unfold Machine.streamGo
  split
  · exact h.streamPart hop ..
  · split
    · next hd1 => exact h.fetch_stall hd1
    · simp [h]
    · next hd1 => exact Sound.streamPart hop (by simpa using h.fetch hd1) ..

theorem Sound.streamItem (h : Sound d) (code c q : Nat) (rep : Report) (p : Platform) :
    Sound (streamItem code op c q rep p d) := by
  unfold Machine.streamItem
  split
  · exact h
  · split
    · exact h
    · split
      · split
        · simp [h]
        · split
          · simp [h]
          · exact h.startClaimed _ (h.veDispatch _ _ fun _ _ _ h => h.streamGo hop ..)
      · split
        · exact h.streamGo hop ..
        · exact h
      · exact h

end Stream

@[simp] theorem sound_enterWork (d : Device) (kit : Item) (b tok : Nat) (r : List Byte) :
    Sound (d.enterWork kit b tok r).1 ↔ Sound d := .rfl

@[simp] theorem Sound.beginStream (h : Sound d) (code p a : Nat) (pl : Platform) (k : KBlock) (kit : Item) (v : VecIn) :
    Sound (beginStream code p a pl k kit v d) := by
  unfold Machine.beginStream
  extract_lets r d0
  have h0 : Sound d0 := by simp [d0, h]
  split
  · simp [h]
  · split
    · simp [h]
    · split
      · simp [h]
      · split
        · simp [h0]
        · dsimp only
          split <;> simp [h0]

/-- What a stream operation of a pack leaves, when it stalls and when it ran. -/
def StreamRunSound (x : Device × Option Device) : Prop := Sound x.1 ∧ ∀ d2 ∈ x.2, Sound d2

theorem RanSound.runStream {op : StreamOp} (hop : StreamKeeps op) (h : Sound d) (rep : Report) (pl : Platform) (v : VecIn)
    (it : Item) : RanSound (runStream op rep pl v it d) := by
  unfold Machine.runStream
  extract_lets fin run
  have hfin : ∀ d, Sound d → Sound (fin d) := fun d h => h.veEnd ..
  have hrun : Answers (fun _ => True) StreamRunSound run := by
    unfold run
    split
    · next hd1 => exact ⟨h.fetch_stall hd1, by simp⟩
    · trivial
    · next d1 x hd1 =>
      have h1 := h.fetch hd1
      cases hd2 : op it (it.actor (some v.die)) d1 with
      | error x => trivial
      | ok d2 => exact ⟨h1, by simpa using hop _ _ _ _ h1 hd2⟩
  clear_value run
  split
  · simp [h]
  · split
    · simp [h]
    · split
      · exact h
      · split
        · exact hfin _ h
        · split
          · obtain ⟨-, h2⟩ := hrun
            exact hfin _ (by simpa using h2)
          · exact hrun.1
          all_goals simp [h]

theorem Sound.streamPack {op : StreamOp} (hop : StreamKeeps op) (h : Sound d) (code p : Nat) (rep : Report) (b : VecBody)
    (pl : Platform) : Sound (streamPack code op p rep b pl d) := by
  refine h.runJkf _ _ _ fun k x => ?_
  split
  · trivial
  · extract_lets v d1
    split
    · trivial
    · have h1 : Sound d1 := by
        unfold d1
        split
        · exact h
        · exact h.beginStream ..
      split
      · exact .runStream hop h1 ..
      · split <;> exact h1

theorem Sound.stream {op : StreamOp} (hop : StreamKeeps op) (h : Sound d) (code : Nat) (src : StreamSrc) (p : Platform) :
    Sound (stream code op src p d) := by
  unfold Machine.stream
  split
  · exact h.streamItem hop ..
  · exact h.streamPack hop ..

/-! ### Work that kernels give to engines (R179 to R182, R198) -/

theorem Sound.placeWork (h : Sound d) {k : KBlock} {it : Item} {kind n : Nat} (he : d.placeWork k it kind n = .ok e) : Sound e := by
  unfold Device.placeWork at he
  dsimp only at he
  split at he
  · cases he
  · obtain rfl := Except.ok.inj he
    split
    · split <;> simpa using h
    · simpa using h

@[simp] theorem sound_giveToken (d : Device) (i : Issue) (b : EngBody) (x : Pack) (tok seq : Nat) :
    Sound (d.giveToken i b x tok seq) ↔ Sound d := .rfl

theorem RanSound.issueWork (h : Sound d) (i : Issue) (b : EngBody) (r rec : List Byte) (pl : Platform) (k : KBlock) (kit : Item)
    (x : Pack) (tok : Nat) : RanSound (issueWork i b r rec pl k kit x tok d) := by
  unfold Machine.issueWork
  have h2 : Sound (((d.enterWork kit (i.pack / 16) tok r).1.giveToken i b x tok (d.enterWork kit (i.pack / 16) tok r).2.seq).take
      pl (d.enterWork kit (i.pack / 16) tok r).2 rec) := Sound.take (by simpa using h) ..
  dsimp only
  generalize ((d.enterWork kit (i.pack / 16) tok r).1.giveToken i b x tok (d.enterWork kit (i.pack / 16) tok r).2.seq).take
      pl (d.enterWork kit (i.pack / 16) tok r).2 rec = d2 at h2
  split
  · exact h2
  · split
    · exact h2
    · split
      · exact h2
      · split
        · simp [h2]
        · split
          · simpa using h
          · next hd3 => exact h2.placeWork hd3

theorem RanSound.ite {c : Prop} [Decidable c] {a b : Ran} (ha : RanSound a) (hb : RanSound b) :
    RanSound (if c then a else b) := by
  split <;> assumption

theorem Sound.engIssue (h : Sound d) (i : Issue) (b : EngBody) (pl : Platform) : Sound (engIssue i b pl d) := by
  refine h.runJkf _ _ _ fun k x => ?_
  extract_lets d1 a r
  have h1 : Sound d1 := (h.cleanCore ..).loseWrites
  clear_value r d1
  generalize field r 0x10 8 = va
  split
  · next kit tok _ _ =>
    have h2 := h1.h0Bytes (kit.actor none) 128 va
    generalize d1.h0Bytes (kit.actor none) 128 va = d2 at h2 ⊢
    refine .ite (ranSound_fail ..) (.ite (ranSound_fail ..) (.ite (ranSound_fail ..) ?_))
    dsimp only
    cases d2.readBytes (kit.actor none) 128 va with
    | error x => simp [h2]
    | ok rec => exact .issueWork h2 ..
  · trivial

theorem Sound.engWait (h : Sound d) (i : Issue) (b : EngBody) (pl : Platform) : Sound (engWait i b pl d) := by
  refine h.runJkf _ _ _ fun k x => ?_
  dsimp only
  split
  · trivial
  · split
    · exact h
    · simp [h]

theorem Sound.vacq (h : Sound d) (i : Issue) (b : EngBody) (pl : Platform) : Sound (vacq i b pl d) := by
  refine h.runJkf _ _ _ fun k x => ?_
  dsimp only
  split
  · simpa using h
  · split <;> simpa using h

theorem Sound.vrel (h : Sound d) (i : Issue) (b : EngBody) (pl : Platform) : Sound (vrel i b pl d) := by
  refine h.runJkf _ _ _ fun k x => ?_
  simpa using h

theorem Sound.vsync (h : Sound d) (i : Issue) (b : EngBody) (pl : Platform) : Sound (vsync i b pl d) := by
  refine h.runJkf _ _ _ fun k x => ?_
  split <;> exact h

/-! ### Kernel images (R191, R201 to R206) -/

@[simp] theorem sound_xlatCome (d : Device) (p : Platform) (check : Nat) (it : Item) :
    Sound (Device.xlatCome p check d it) ↔ Sound d := by
  unfold Device.xlatCome
  extract_lets t d1 d2
  have h2 : Sound d2 ↔ Sound d := by simp [d2, d1]
  split <;> simp [h2]

@[simp] theorem sound_xlatDone (d : Device) (p : Platform) (it : Item) (img : List Byte) :
    Sound (d.xlatDone p it img) ↔ Sound d := by
  unfold Device.xlatDone
  split
  · rfl
  · simp

@[simp] theorem Sound.imageFault (h : Sound d) (p : Platform) (it : Item) (pc : Nat) : Sound (d.imageFault p it pc) :=
  h.takeFaults ..

@[simp] theorem Sound.loadFailed (h : Sound d) (p : Platform) (it : Item) (x : MemErr) : Sound (d.loadFailed p it x) := by
  unfold Device.loadFailed
  split <;> simp [h]

@[simp] theorem Sound.loadImage (h : Sound d) (p : Platform) (it : Item) (hdr : List Byte) : Sound (d.loadImage p it hdr) := by
  unfold Device.loadImage
  extract_lets d1
  have h1 : Sound d1 := h.h0Bytes ..
  split
  · simp [h]
  · split
    · simp [h1]
    · split <;> simp [h1]

theorem Sound.jkfTranslationDone (h : Sound d) (c q : Nat) (p : Platform) : Sound (jkfTranslationDone c q p d) := by
  unfold Machine.jkfTranslationDone
  split
  · exact h
  · split
    · exact h
    · dsimp only
      split <;> simp [h]

theorem Sound.kernel (h : Sound d) (c q : Nat) (p : Platform) : Sound (kernel c q p d) := by
  unfold Machine.kernel
  split
  · exact h
  · split
    · exact h
    · split
      · exact h
      · split
        · simp [h]
        · dsimp only
          split <;> simp [h]

end Sys2Proof.Proofs.MemoryInvariant
end

section
/-! O59, halts and parking, norm-and-update items, the Reel network and the partner ports (R48, R57, R105 to R117, R296 to R324). -/

namespace Sys2Proof.Proofs.MemoryInvariant

open Sys2Proof.Machine Sys2Proof.Spec

variable {d e : Device}

/-! ### Halts and parked tiles (R48, R57, R288) -/

theorem Sound.engineDebugHalt (h : Sound d) (die k chunk : Nat) (p : Platform) : Sound (engineDebugHalt die k chunk p d) := by
  unfold Machine.engineDebugHalt
  dsimp only
  split
  · exact h
  · have hload := h.endLoad p die k
    split
    · next hd1 => rwa [hd1] at hload
    · next d0 hd0 =>
      have h0 : Sound d0 := by rwa [hd0] at hload
      split
      · simpa using h0
      · next which _ =>
        have hran := h0.advance p die k which chunk
        split
        · next hd1 =>
          rw [hd1] at hran
          simpa using hran
        · simpa using h0
        · next hx => exact h0.heldUp _ _ _ (by rwa [hx] at hran)

theorem Sound.tilePark (h : Sound d) (die k chunk : Nat) (p : Platform) : Sound (tilePark die k chunk p d) := by
  unfold Machine.tilePark
  extract_lets r
  split
  · next which _ _ =>
    split
    · exact h
    · split
      · extract_lets park
        have hpark : ∀ d, Sound d → Sound (park d) := by
          intro d h
          unfold park
          split <;> simpa using h
        have hran := h.advance p die k which chunk
        split
        · next hd1 => exact hpark _ (by rwa [hd1] at hran)
        · exact hpark _ h
        · next hx => exact h.heldUp _ _ _ (by rwa [hx] at hran)
      · exact h
  · exact h

/-! ### Norm-and-update items (R105 to R117) -/

@[simp] theorem sound_updRun (d : Device) (c q : Nat) (f : Update → Update) : Sound (d.updRun c q f) ↔ Sound d := .rfl

@[simp] theorem Sound.formSum (h : Sound d) (p : Platform) (it : Item) (layers : Nat) : Sound (d.formSum p it layers) := by
  unfold Device.formSum
  extract_lets d1
  have h1 : Sound d1 := h.h0Read ..
  split <;> simp [h1]

theorem Sound.normUpdate (h : Sound d) (c q : Nat) (p : Platform) : Sound (normUpdate c q p d) := by
  unfold Machine.normUpdate
  split
  · exact h
  · split
    · exact h
    · split
      · exact h
      · split
        · exact h.formSum ..
        · extract_lets d1
          have h1 : Sound d1 := h.h0Bytes ..
          split
          · simp [h1]
          · split
            · simp [h1]
            · exact Sound.formSum (by simpa using h1) ..

@[simp] theorem sound_normKnown (d : Device) (c q : Nat) (total : Word) : Sound (d.normKnown c q total) ↔ Sound d := by
  unfold Device.normKnown
  split
  · rfl
  · dsimp only
    split <;> simp

theorem Sound.mixRange (h : Sound d) (a : Actor) (n : Nat) (r : Nat × Nat) : Sound (d.mixRange a n r) :=
  h.foldl (fun _ _ h => h.mixByte ..) _

@[simp] theorem sound_chargePinWait (d : Device) (it : Item) (cycles : Nat) (held : List (Nat × Nat × Nat)) :
    Sound (d.chargePinWait it cycles held) ↔ Sound d := by simp [Device.chargePinWait]

theorem Sound.layerWriteStart (h : Sound d) (c q waited : Nat) (held : List (Nat × Nat × Nat)) (p : Platform) :
    Sound (layerWriteStart c q waited held p d) := by
  unfold Machine.layerWriteStart
  split
  · split
    · exact h
    · split
      · exact h
      · split
        · exact h
        · extract_lets d0 d1 go
          have h0 : Sound d0 := (sound_updItem ..).mpr ((sound_chargePinWait ..).mpr h)
          have h1 : Sound d1 := h0.h0Read ..
          cases go with
          | error x => exact h1.accessFailed ..
          | ok rs => exact (sound_updRun ..).mpr (Sound.foldl ((sound_mk ..).mpr h1) (fun _ _ h => h.mixRange ..) _)
  · exact h

theorem Sound.writeLayer (h : Sound d) {it : Item} {r : Update} {slot : Bool} {n : Nat} (he : d.writeLayer it r slot = .ok (e, n)) :
    Sound e := by
  have h1 : Sound (d.h0Read (it.actor none) fun b => d.layerReads b it r.layer slot) := h.h0Read ..
  unfold Device.writeLayer at he
  dsimp only at he
  generalize d.h0Read (it.actor none) (fun b => d.layerReads b it r.layer slot) = d1 at h1 he
  obtain ⟨x, -, he⟩ := bind_eq_ok.mp he
  obtain ⟨ws, -, he⟩ := bind_eq_ok.mp he
  obtain ⟨d2, hd2, he⟩ := bind_eq_ok.mp he
  obtain ⟨d3, hd3, he⟩ := bind_eq_ok.mp he
  obtain ⟨d4, h4, he⟩ := ((h1.writeVa hd2).writeVa hd3).of_when_bind (fun _ hd4 => ((h1.writeVa hd2).writeVa hd3).writeVa hd4) he
  obtain rfl : d4 = e := congrArg Prod.fst (Except.ok.inj he)
  exact h4

@[simp] theorem Sound.publish (h : Sound d) (p : Platform) (it : Item) (w : WSet) : Sound (d.publish p it w) := by
  unfold Device.publish
  dsimp only
  split
  · simp [h]
  · next hd1 => simpa using h.writeVa hd1

theorem Sound.swapLayer (h : Sound d) (p : Platform) (it : Item) (r : Update) (w : WSet) (l : WLayer) :
    Sound (d.swapLayer p it r w l) := by
  unfold Device.swapLayer
  extract_lets d1
  have h1 : Sound d1 := by simpa [d1] using h
  split
  · simp [h1]
  · next hd2 =>
    have h2 := h1.writeVa hd2
    split <;> simp [h2]

theorem Sound.layerSwap (h : Sound d) (c q : Nat) (p : Platform) : Sound (layerSwap c q p d) := by
  unfold Machine.layerSwap
  split
  · split
    · exact h
    · split
      · exact h
      · split
        · simp [h]
        · next hd1 => exact Sound.swapLayer (by simpa using h.writeLayer hd1) ..
  · exact h

/-! ### The Reel network (R297 to R309) -/

@[simp] theorem sound_toKids (d : Device) (ps : List Nat) (m : ReelMsg) : Sound (d.toKids ps m) ↔ Sound d := by simp [Device.toKids]

@[simp] theorem sound_decide (d : Device) (g : Nat) (x : Group) (s : Summary) : Sound (d.decide_ g x s) ↔ Sound d := by
  simp [Device.decide_]

@[simp] theorem sound_reelAdvance (d : Device) (g : Nat) : Sound (d.reelAdvance g) ↔ Sound d := by
  unfold Device.reelAdvance
  dsimp only
  split
  · rfl
  · split
    · split
      · split <;> simp
      · rfl
    · simp

theorem Sound.reelStart (h : Sound d) (p : Platform) (c q op len : Nat) (gives : Item → Bool) :
    Sound (d.reelStart p c q op len gives) := by
  refine h.act _ _ _ _ _ fun it d h => ?_
  extract_lets n d1
  have h1 : Sound d1 := h.h0Bytes ..
  split <;> simp [h1]

@[simp] theorem sound_reelArrival (d : Device) (c q : Nat) (p : Platform) : Sound (reelArrival c q p d) ↔ Sound d := by
  unfold reelArrival
  split
  · rfl
  · split
    · rfl
    · split <;> simp

theorem Sound.shardDone (h : Sound d) (p : Platform) (dn : Down) (a : Arrival) : Sound (d.shardDone p dn a) := by
  unfold Device.shardDone
  split
  · exact h
  · split
    · simp [h]
    · extract_lets d1 bs
      have h1 : Sound d1 := by simpa [d1] using h
      split
      · simpa using h1
      · split
        · simp [h1]
        · next hd2 => simpa using h1.writeVa hd2

theorem Sound.reelInstanceComplete (h : Sound d) (g : Nat) (p : Platform) : Sound (reelInstanceComplete g p d) := by
  unfold Machine.reelInstanceComplete
  dsimp only
  split
  · simpa using h
  · refine (sound_reelAdvance ..).mpr (Sound.foldl ?_ (fun _ _ h => h.shardDone ..) _)
    split <;> simpa using h

@[simp] theorem Sound.abortInst (h : Sound d) (g inst : Nat) (ps : ReelParams) (shard : Nat) (come : Option Nat) :
    Sound (d.abortInst g inst ps shard come) := by
  unfold Device.abortInst
  dsimp only
  split
  · exact h
  · have h1 : Sound ((d.instItems g inst).foldl (fun d i => (d.purge i.ctx i.seq .now).updItem i.ctx i.seq fun it =>
        { it with depFail := some (it.depFail.getD (detailDep 5 shard)), phase := .done }) d) :=
      h.foldl (fun d i h => by simp [h]) _
    simpa using h1

theorem Sound.reelAbort (h : Sound d) (g shard : Nat) : Sound (reelAbort g shard d) := by
  unfold Machine.reelAbort
  dsimp only
  split <;> simp [h]

@[simp] theorem Sound.groupDown (h : Sound d) (g port : Nat) : Sound (d.groupDown g port) := by
  unfold Device.groupDown
  extract_lets x its d1 d2
  split
  · exact h
  · have h1 : Sound d1 := h.foldl (fun d i h => by simp [h]) _
    have h2 : Sound d2 := by simpa [d2] using h1
    split <;> simpa using h2

@[simp] theorem sound_toChildren (d : Device) (m : ReelMsg) : Sound (d.toChildren m) ↔ Sound d := by simp [Device.toChildren]

@[simp] theorem sound_snapFreeze (d : Device) (root : Bool) : Sound (d.snapFreeze root) ↔ Sound d := by simp [Device.snapFreeze]

@[simp] theorem sound_snapResume (d : Device) : Sound d.snapResume ↔ Sound d := by simp [Device.snapResume]

@[simp] theorem Sound.groupMsg (h : Sound d) (port : Nat) (m : ReelMsg) : Sound (d.groupMsg port m) := by
  cases m with
  | reset => exact h
  | _ =>
    unfold Device.groupMsg
    dsimp only
    split <;> simp [h]

/-! ### Partner ports (R311 to R324) -/

@[simp] theorem sound_pumpPort (d : Device) (p : Nat) : Sound (d.pumpPort p) ↔ Sound d := .rfl

@[simp] theorem sound_greet (d : Device) (port : Nat) : Sound (d.greet port) ↔ Sound d := sound_emit ..

@[simp] theorem sound_portHandshake (d : Device) (port : Nat) (m : Partner) : Sound (portHandshake port m d) ↔ Sound d := by
  unfold portHandshake
  dsimp only
  split
  · rfl
  · split <;> simp

@[simp] theorem sound_flitReceive (d : Device) (port : Nat) (f : Flit) : Sound (flitReceive port f d) ↔ Sound d := by
  unfold flitReceive
  dsimp only
  split
  · rfl
  · split <;> simp

@[simp] theorem sound_flitNak (d : Device) (port seq : Nat) : Sound (flitNak port seq d) ↔ Sound d := by
  unfold flitNak
  dsimp only
  split
  · rfl
  · split <;> simp

@[simp] theorem Sound.linkLost (h : Sound d) (port : Nat) (o : PeerOut) : Sound (d.linkLost port o) := by
  have h1 := h.itemError o.ctx o.seq .linkLost port
  exact h1.settleWork ..

@[simp] theorem sound_answer (port node tag : Nat) (r : Device × PeerAns) :
    Sound (Device.answer port node tag r) ↔ Sound r.1 := sound_emit ..

@[simp] theorem sound_passedLost (d : Device) (port : Nat) : Sound (d.passedLost port) ↔ Sound d := by
  simp [Device.passedLost]

theorem Sound.linkDown (h : Sound d) (port : Nat) : Sound (linkDown port d) := by
  unfold Machine.linkDown
  extract_lets d0 d1 away d2 gs d3
  split
  · exact h
  · have h2 : Sound d2 := (sound_passedLost ..).mpr (Sound.foldl (by simpa [d1, d0] using h) (fun _ _ h => h.linkLost ..) _)
    have h3 : Sound d3 := h2.foldl (fun _ _ h => h.groupDown ..) _
    exact h3

@[simp] theorem Sound.answerEcc (h : Sound d) (c : Nat) (x : MemErr) : Sound (d.answerEcc c x).1 := by
  unfold Device.answerEcc
  split <;> simpa using h

theorem Sound.peerAtomic (h : Sound d) (c va : Nat) (op : AtomOp) (ty : AtomTy) (ps : List (Dword × Dword)) :
    Sound (d.peerAtomic c va op ty ps).1 := by
  unfold Device.peerAtomic
  dsimp only
  split
  · next x _ _ =>
    have h0 : Sound (d.pastCaches c (x / 128)) := h.pastCaches ..
    split
    · exact h0.answerEcc ..
    · next hd1 => exact h0.atomDev hd1
  · split
    · exact Sound.answerEcc (by simpa using h) ..
    · next hd1 => exact h.atomHost hd1
  · exact h

@[simp] theorem Sound.peerServe (h : Sound d) (r : PeerReq) : Sound (d.peerServe r).1 := by
  unfold Device.peerServe
  extract_lets a
  split
  · exact h
  · split
    · extract_lets d1
      have h1 : Sound d1 := h.h0Bytes ..
      split
      · exact h1.answerEcc ..
      · exact h1
    · split
      · exact h.answerEcc ..
      · next hd1 => exact h.writeVa hd1
    · split
      · exact h.peerAtomic ..
      · exact h

theorem Sound.forward (h : Sound d) {node : Nat} {o : Nat → Output} (he : d.forward node o = some e) : Sound e := by
  unfold Device.forward at he
  split at he
  · cases he
  · split at he
    · obtain rfl := Option.some.inj he
      simpa using h
    · cases he

@[simp] theorem Sound.passOn (h : Sound d) (port dst src tag : Nat) (o : Nat → Output) : Sound (d.passOn port dst src tag o) := by
  unfold Device.passOn
  split
  · next hd1 => exact (sound_mapPorts ..).mpr (h.forward hd1)
  · simpa using h

theorem Sound.writePieces (h : Sound d) (a : Actor) (xs : List (Nat × List Byte)) :
    Answers (fun r => Sound r.1) Sound (d.writePieces a xs) := by
  induction xs generalizing d with
  | nil => exact h
  | cons x xs ih =>
    unfold Device.writePieces
    split
    · exact h
    · next hd1 => exact ih (h.writeVa hd1)

@[simp] theorem Sound.zcServe (h : Sound d) (f : ZcFrame) : Sound (d.zcServe f).1 := by
  unfold Device.zcServe
  extract_lets ps
  split
  · exact h
  · have hwritten := h.writePieces ⟨f.ctx, 0, none, none⟩ ps
    split
    · next hx =>
      rw [hx] at hwritten
      exact Sound.answerEcc hwritten ..
    · next hd1 => rwa [hd1] at hwritten

@[simp] theorem sound_wake (d : Device) (p : Nat) (w : Wait) (f : PeerUse → Bool) : Sound (d.wake p w f) ↔ Sound d := by
  unfold Device.wake
  split <;> simp

@[simp] theorem sound_wakeFences (d : Device) (c q : Nat) : Sound (d.wakeFences c q) ↔ Sound d := by
  unfold Device.wakeFences
  exact sound_foldl (fun d b => sound_foldl (fun d p => by split <;> simp) _) _

@[simp] theorem Sound.lineCome (h : Sound d) (o : PeerOut) (p key rctx rva : Nat) (keep : Bool) (bs : List Byte) :
    Sound (d.lineCome o p key rctx rva keep bs) := by
  unfold Device.lineCome
  split
  · next k _ =>
    extract_lets x
    split
    · exact h
    · next hfree =>
      have hlen : bs.length = 128 := by simpa using (show bs.length = 128 ∧ _ by simpa using hfree).1
      exact (h.installCore k.die k.core (x := x) (by simp [WholeLine, x, hlen])).loseWrites
  · exact h

@[simp] theorem sound_bufferLine (d : Device) (o : PeerOut) (rctx rva : Nat) (bs : List Byte) :
    Sound (d.bufferLine o rctx rva bs) ↔ Sound d := .rfl

@[simp] theorem Sound.rereadEvent (h : Sound d) (p : Platform) (c q : Nat) : Sound (d.rereadEvent p c q) := by
  unfold Device.rereadEvent
  split
  · split <;> simp [h]
  · exact h

@[simp] theorem Sound.peerData (h : Sound d) (p : Platform) (o : PeerOut) (bs : List Byte) : Sound (d.peerData p o bs) := by
  unfold Device.peerData
  extract_lets d1
  have h1 : Sound d1 := by simpa [d1] using h
  split <;> simp [h1]

@[simp] theorem sound_peerOld (d : Device) (o : PeerOut) (vals : List Dword) : Sound (d.peerOld o vals) ↔ Sound d := by
  unfold Device.peerOld
  dsimp only
  split <;> simp

@[simp] theorem Sound.peerRefused (h : Sound d) (p : Platform) (o : PeerOut) : Sound (d.peerRefused p o) := h.takeFaults ..

theorem Sound.peerResponse (h : Sound d) (path : AnsPath) (tag : Nat) (ans : PeerAns) (p : Platform) :
    Sound (peerResponse path tag ans p d) := by
  unfold Machine.peerResponse
  split
  · cases hd1 : (d.mapPorts fun x => { x with passed := x.passed.filter fun e => !(e.src == path.dst && e.tag == tag) }).forward
        path.dst fun q => .peerAns q tag ans path.dst path.src with
    | none => exact h
    | some d1 => exact Sound.forward (d := d.mapPorts _) h hd1
  · split
    · exact h
    · next o _ =>
      extract_lets d1
      have h1 : Sound d1 := h
      have herr := h1.itemError o.ctx o.seq .eccUncorrectable (detailHalf o.va)
      cases ans <;> simp [h1, herr]

end Sys2Proof.Proofs.MemoryInvariant
end

section
/-! O59, resets, bring-up, power and the management port (R349 to R390, R416). -/

namespace Sys2Proof.Proofs.MemoryInvariant

open Sys2Proof.Machine Sys2Proof.Spec

variable {d e : Device}

/-! ### Wipes -/

theorem Sound.wiped (h : Sound d) : Sound d.wiped := ⟨h.mem.wiped, fun _ he => nomatch he⟩

theorem Sound.lost (h : Sound d) (fused : FMap (BitVec 16)) : Sound (d.lost fused) := ⟨h.mem.wiped, fun _ he => nomatch he⟩

@[simp] theorem sound_wiping (d : Device) (on : Bool) : Sound (d.wiping on) ↔ Sound d := by simp [Device.wiping]

@[simp] theorem sound_rewrite (d : Device) (m : Mastiff) : Sound (d.rewrite m) ↔ Sound d := .rfl

@[simp] theorem sound_startHub (d : Device) : Sound d.startHub ↔ Sound d := by simp [Device.startHub]

@[simp] theorem sound_setBypass (d : Device) (p : Platform) (bad : List (Nat × BitVec 16)) (key : Nat) :
    Sound (setBypass p bad d key) ↔ Sound d := by
  unfold setBypass logBypass
  dsimp only
  split <;> simp

@[simp] theorem sound_startDie (d : Device) (i : Nat) : Sound (d.startDie i) ↔ Sound d := by simp [Device.startDie]

@[simp] theorem sound_dev_ite (c : Prop) [Decidable c] (a b : State) :
    Sound (if c then a else b).dev ↔ if c then Sound a.dev else Sound b.dev := by
  split <;> rfl

section
variable {s : State}

/-- A fold over states keeps what each of its steps keeps. -/
theorem Sound.foldlState {α : Type} {f : State → α → State} (h : Sound s.dev) (hf : ∀ t x, Sound t.dev → Sound (f t x).dev)
    (l : List α) : Sound (l.foldl f s).dev := by
  induction l generalizing s with
  | nil => exact h
  | cons x l ih => exact ih (hf s x h)

/-! ### Answers and resets (R353, R385 to R389) -/

@[simp] theorem sound_logPerm (event who arg : Nat) : Sound (logPerm s event who arg).dev ↔ Sound s.dev := .rfl

@[simp] theorem sound_closeButton : Sound s.closeButton.dev ↔ Sound s.dev := by simp [State.closeButton]

@[simp] theorem sound_mgmtAnswer (sid code : Nat) (res : MgmtCode) (data : MgmtData) :
    Sound (mgmtAnswer s sid code res data).dev ↔ Sound s.dev := by simp [mgmtAnswer]

@[simp] theorem sound_mgmtDone (sid code : Nat) (data : MgmtData) : Sound (mgmtDone s sid code data).dev ↔ Sound s.dev := by
  simp [mgmtDone]

@[simp] theorem sound_answerRunning (res : MgmtCode) : Sound (s.answerRunning res).dev ↔ Sound s.dev := by
  unfold State.answerRunning
  split <;> simp

@[simp] theorem sound_answerSlice : Sound s.answerSlice.dev ↔ Sound s.dev := by simp [State.answerSlice]

@[simp] theorem sound_cutSlice : Sound s.cutSlice.dev ↔ Sound s.dev := by
  unfold State.cutSlice
  split <;> simp

@[simp] theorem Sound.warmReset (h : Sound s.dev) : Sound (warmReset s).dev := by
  unfold Machine.warmReset
  split
  · have hcut : Sound s.closeButton.cutSlice.dev := by simpa using h
    simpa using hcut.wiped
  · exact h

@[simp] theorem Sound.coldReset (h : Sound s.dev) : Sound (coldReset s).dev :=
  Sound.wiped (sound_closeButton.mpr h)

@[simp] theorem Sound.shutDies (h : Sound s.dev) (g : Stage) : Sound (shutDies s g).dev := (sound_emit ..).mpr h.wiped

@[simp] theorem sound_lifeEffect : Sound s.lifeEffect.dev ↔ Sound s.dev := by
  unfold State.lifeEffect
  split <;> rfl

/-! ### Input power and bring-up (R357 to R369, R388) -/

@[simp] theorem Sound.powerLost (h : Sound s.dev) : Sound (powerLost s).dev := Sound.lost (sound_lifeEffect.mpr h) _

@[simp] theorem Sound.sealBreak (h : Sound s.dev) : Sound (sealBreak s).dev := by
  unfold Machine.sealBreak
  split <;> simp [h]

@[simp] theorem Sound.powerOn (h : Sound s.dev) (mv : Nat) (sealOpen : Bool) : Sound (powerOn mv sealOpen s).dev := by
  unfold Machine.powerOn
  extract_lets s1
  have h1 : Sound s1.dev := h
  split
  · exact h
  · split
    · exact h1.sealBreak
    · exact h1

@[simp] theorem Sound.powerGood (h : Sound s.dev) (mv : Nat) (jumper btnLow : Bool) (addr : BitVec 3) (twoByEight : Bool) :
    Sound (powerGood mv jumper btnLow addr twoByEight s).dev := by
  unfold Machine.powerGood
  extract_lets fitted s1 s2 s3
  have h2 : Sound s2.dev := by simpa [s2, s1] using h
  split
  · exact h
  · exact h2.coldReset

@[simp] theorem Sound.powerFault (h : Sound s.dev) (mv : Nat) : Sound (powerFault mv s).dev := h.shutDies .waitGood

@[simp] theorem sound_raiseSvn (svn : Nat) : Sound (raiseSvn svn s).dev ↔ Sound s.dev := by simp [raiseSvn]

@[simp] theorem sound_enterRecovery : Sound (enterRecovery s).dev ↔ Sound s.dev := .rfl

@[simp] theorem sound_startImage (svn : Nat) : Sound (startImage svn s).dev ↔ Sound s.dev := by simp [startImage]

@[simp] theorem sound_longOver (code : Nat) (res : MgmtCode) : Sound (s.longOver code res).dev ↔ Sound s.dev := .rfl

@[simp] theorem sound_endLong (code : Nat) : Sound (s.endLong code).dev ↔ Sound s.dev := by
  unfold State.endLong
  split <;> simp

@[simp] theorem sound_endAnyLong : Sound s.endAnyLong.dev ↔ Sound s.dev := by
  unfold State.endAnyLong
  split <;> simp

@[simp] theorem sound_resetComplete : Sound (resetComplete s).dev ↔ Sound s.dev := by
  unfold resetComplete
  dsimp only
  split <;> simp

@[simp] theorem sound_toLink : Sound (toLink s).dev ↔ Sound s.dev := by
  unfold toLink
  dsimp only
  split
  · split <;> simp
  · rfl

@[simp] theorem sound_bootImageCheckDone (img : ImageCheck) : Sound (bootImageCheckDone img s).dev ↔ Sound s.dev := by
  simp [bootImageCheckDone]

@[simp] theorem sound_laneSelfTestDone (bad : List (Nat × BitVec 16)) :
    Sound (laneSelfTestDone bad s).dev ↔ Sound s.dev := by simp [laneSelfTestDone]

@[simp] theorem sound_dramWipeDone : Sound (dramWipeDone s).dev ↔ Sound s.dev := by simp [dramWipeDone]

@[simp] theorem sound_sramWipeDone : Sound (sramWipeDone s).dev ↔ Sound s.dev := by simp [sramWipeDone]

@[simp] theorem sound_hostLinkTrained : Sound (hostLinkTrained s).dev ↔ Sound s.dev := by simp [hostLinkTrained]

@[simp] theorem sound_openButton : Sound (openButton s).dev ↔ Sound s.dev := by simp [openButton]

@[simp] theorem sound_presenceButtonHold : Sound (presenceButtonHold s).dev ↔ Sound s.dev := by simp [presenceButtonHold]

/-! ### Temperature, sensors, sleep and gating (R378 to R384, R416) -/

@[simp] theorem Sound.thermalSample (h : Sound s.dev) (temps : List (Nat × Nat)) (inlet : Option Nat) :
    Sound (thermalSample temps inlet s).dev := by
  unfold Machine.thermalSample
  extract_lets s1 p tripHot s2
  have h1 : Sound s1.dev := h
  repeat' split
  case isFalse.isFalse.isTrue => exact h1.shutDies .tripHold
  all_goals exact h

@[simp] theorem sound_sensorUpdate (w : Sensor) (value : Nat) : Sound (sensorUpdate w value s).dev ↔ Sound s.dev := by
  unfold sensorUpdate
  dsimp only
  split <;> rfl

@[simp] theorem sound_grantEpoch (demands drawn : List (Nat × Nat)) : Sound (grantEpoch demands drawn s).dev ↔ Sound s.dev := .rfl

@[simp] theorem sound_sleepEntry : Sound (sleepEntry s).dev ↔ Sound s.dev := by simp [sleepEntry]

@[simp] theorem sound_unitClockGate (u : UnitId) : Sound (unitClockGate u s).dev ↔ Sound s.dev := by simp [unitClockGate]

@[simp] theorem sound_diePllOff (die : Nat) : Sound (diePllOff die s).dev ↔ Sound s.dev := by simp [diePllOff]

@[simp] theorem sound_unitWakeDone (w : WakeOf) : Sound (unitWakeDone w s).dev ↔ Sound s.dev := by
  cases w <;> simp [unitWakeDone]

@[simp] theorem sound_diePowerUpDone (w : DieId) : Sound (diePowerUpDone w s).dev ↔ Sound s.dev := by
  cases w <;> simp [diePowerUpDone]

@[simp] theorem Sound.tapInstructionLoad (h : Sound s.dev) (i : TapInstr) : Sound (tapInstructionLoad i s).dev := by
  unfold Machine.tapInstructionLoad
  extract_lets s1
  have h1 : Sound s1.dev := h
  split
  · exact h
  · split
    · exact h1.warmReset
    · exact h1

/-! ### The management port (R349 to R360) -/

@[simp] theorem sound_mctpMessage (typ sid : Nat) : Sound (mctpMessage typ sid s).dev ↔ Sound s.dev := by simp [mctpMessage]

@[simp] theorem sound_spdmKeyExchange (sid : Nat) (key : ReqKey) : Sound (spdmKeyExchange sid key s).dev ↔ Sound s.dev := by
  simp [spdmKeyExchange]

@[simp] theorem sound_getMeasurements : Sound (getMeasurements s).dev ↔ Sound s.dev := by
  unfold getMeasurements
  split <;> simp

@[simp] theorem sound_firmwareUpdateTransfer (sid : Nat) (img : ImageCheck) :
    Sound (firmwareUpdateTransfer sid img s).dev ↔ Sound s.dev := by simp [firmwareUpdateTransfer]

@[simp] theorem sound_flashWriteDone : Sound (flashWriteDone s).dev ↔ Sound s.dev := by
  unfold flashWriteDone
  split <;> rfl

@[simp] theorem Sound.recoveryImageLoad (h : Sound s.dev) (img : ImageCheck) : Sound (recoveryImageLoad img s).dev := by
  unfold Machine.recoveryImageLoad
  split
  · exact h
  · split
    · exact Sound.coldReset (s := s.mapMas _) h
    · simpa using h

@[simp] theorem sound_mgmtCommandArrival (sid code : Nat) : Sound (mgmtCommandArrival sid code s).dev ↔ Sound s.dev := by
  simp [mgmtCommandArrival]

/-! ### The Reel network's messages (R301, R307, R308) -/

@[simp] theorem Sound.reelMsg (h : Sound s.dev) (x : Nat × ReelMsg) : Sound (s.reelMsg x).dev := by
  unfold State.reelMsg
  split
  · split
    · exact Sound.warmReset (s := s.mapDev _) ((sound_toChildren ..).mpr h)
    · exact h
  · exact h.groupMsg ..

@[simp] theorem Sound.reelOpen (h : Sound s.dev) : Sound s.reelOpen.dev := by
  unfold State.reelOpen
  split
  · exact Sound.foldlState (s := s.mapDev fun d => d.mapReel fun r => { r with held := [] }) h (fun _ _ h => h.reelMsg _) _
  · exact h

end

end Sys2Proof.Proofs.MemoryInvariant
end

section
/-! O59, contexts, slices, registers, the management commands' frame, and a period of the time counter (R326 to R336, R353, R376, R391 to
R406). -/

namespace Sys2Proof.Proofs.MemoryInvariant

open Sys2Proof.Machine Sys2Proof.Spec

variable {d e : Device}

/-! ### Tables and mappings (R328 to R333) -/

theorem Sound.allocTable (h : Sound d) {c u : Nat} (he : d.allocTable c = some (u, e)) : Sound e := by
  unfold Device.allocTable at he
  obtain ⟨u, -, hu⟩ := Option.map_eq_some_iff.mp he
  obtain ⟨-, rfl⟩ := Prod.mk.inj hu
  refine ⟨?_, h.cores⟩
  dsimp only
  split
  · exact (h.mem.scrubPages _).markPages _ _
  · exact h.mem.markPages _ _

theorem Sound.needTable (h : Sound d) {c lvl shift va : Nat} (he : d.needTable c lvl shift va = some e) : Sound e := by
  unfold Device.needTable at he
  split at he
  · exact Option.some.inj he ▸ h
  · obtain ⟨⟨u, d1⟩, hd1, hu⟩ := Option.map_eq_some_iff.mp he
    obtain rfl := hu
    exact (sound_updCtx ..).mpr (h.allocTable hd1)

theorem Sound.putLeaf (h : Sound d) {c va : Nat} {big : Bool} {x : Dword} (he : d.putLeaf c big va x = some e) : Sound e := by
  obtain ⟨d1, hd1, he⟩ := Option.bind_eq_some_iff.mp he
  obtain ⟨d2, hd2, he⟩ := Option.bind_eq_some_iff.mp he
  have h2 := (h.needTable hd1).needTable hd2
  split at he
  · obtain rfl := Option.some.inj he
    exact h2
  · obtain ⟨d3, hd3, he⟩ := Option.bind_eq_some_iff.mp he
    obtain rfl := Option.some.inj he
    exact (sound_updCtx ..).mpr (h2.needTable hd3)

theorem Sound.mapOne (h : Sound d) {c : Nat} {p : MapPage} (he : mapOne c d p = .ok e) : Sound e := by
  unfold Machine.mapOne at he
  extract_lets d1 at he
  have h1 : Sound d1 := by
    unfold d1
    split
    · exact h.mapMem ((h.mem.scrubPages _).markPages _ _)
    · exact h
  split at he
  · cases he
  · split at he
    · cases he
    · split at he
      · cases he
      · next hd2 =>
        obtain rfl := Except.ok.inj he
        exact h1.putLeaf hd2

theorem Sound.mapPages (h : Sound d) {c : Nat} {ps : List MapPage} (he : mapPages c ps d = .ok e) : Sound e := by
  induction ps generalizing d with
  | nil => exact Except.ok.inj he ▸ h
  | cons p ps ih =>
    unfold Machine.mapPages at he
    split at he
    · cases he
    · next hd1 => exact ih (h.mapOne hd1) he

theorem Sound.leavePages (h : Sound d) (us : List Nat) : Sound (d.leavePages us) := by
  refine h.foldl (fun d x h => ?_) _
  refine Sound.updCore_of_subset ((sound_unused ..).mpr (Sound.loseWrites (h.cleanLines ..))) _ _ fun _ => ?_
  exact List.filter_sublist.subset

/-! ### Teardown (R336) -/

@[simp] theorem sound_zeroCounters (d : Device) (c : Nat) : Sound (d.zeroCounters c) ↔ Sound d := by simp [Device.zeroCounters]

@[simp] theorem sound_reslice (d : Device) (c : Nat) : Sound (d.reslice c) ↔ Sound d := .rfl

@[simp] theorem sound_release (d : Device) (c : Nat) : Sound (d.release c) ↔ Sound d := sound_dropSegs ..

@[simp] theorem sound_teardownRecordsDrained (d : Device) (c : Nat) : Sound (teardownRecordsDrained c d) ↔ Sound d := by
  simp [teardownRecordsDrained]

/-! ### Registers (R396, R426) -/

@[simp] theorem sound_updBlk (d : Device) (b : Block) (f : Blk → Blk) : Sound (d.updBlk b f) ↔ Sound d := by
  cases b <;> exact .rfl

@[simp] theorem sound_blockStopped (d : Device) (b : Block) : Sound (blockStopped b d) ↔ Sound d := by
  unfold blockStopped
  dsimp only
  split
  · split <;> simp
  · rfl

@[simp] theorem sound_cntSelect (d : Device) (c : Nat) : Sound (d.cntSelect c) ↔ Sound d := .rfl

@[simp] theorem sound_cntTake (d : Device) : Sound d.cntTake ↔ Sound d := .rfl

@[simp] theorem sound_cntRelease (d : Device) : Sound d.cntRelease ↔ Sound d := .rfl

@[simp] theorem sound_cntZero (d : Device) : Sound d.cntZero ↔ Sound d := by
  unfold Device.cntZero
  exact sound_foldl (fun d n => by split <;> simp) _

@[simp] theorem sound_cntTraceSet (d : Device) (v : Word) : Sound (d.cntTraceSet v) ↔ Sound d := .rfl

/-! ### Flushes of dies (R226, R242, R378) -/

theorem Sound.flushDie (h : Sound d) (die : Nat) : Sound (d.flushDie die) := by
  have hcount : Sound ((d.prefsOf die).foldl (fun d c => d.count c 95 1) d) := by simpa using h
  exact hcount.mapMem (hcount.mem.flushDie die)

theorem Sound.gateDie (h : Sound d) (i : Nat) : Sound (d.gateDie i) := by
  unfold Device.gateDie
  dsimp only
  generalize List.range 8 = engines
  generalize List.range 16 = cores
  refine Sound.foldl (Sound.foldl ((sound_updDie ..).mpr h) (fun d k h => ?_) _) (fun d c h => ?_) _
  · simpa using h
  · exact h.updCore_of_subset _ _ fun _ => List.nil_subset _

@[simp] theorem sound_flushMarks (d : Device) (dies : List Nat) : Sound (d.flushMarks dies) ↔ Sound d := by
  simp [Device.flushMarks]

section
variable {s : State}

@[simp] theorem Sound.teardownScrubDone (h : Sound s.dev) (c : Nat) : Sound (teardownScrubDone c s).dev := by
  unfold Machine.teardownScrubDone
  dsimp only
  split
  · have h1 := h.mapMem (f := fun m => m.scrubPages _) (h.mem.scrubPages ((s.dev.mem.pages.filter fun p => p.2 == c + 1).map Prod.fst))
    simpa using h1
  · exact h

/-! ### Registers (R391 to R399) -/

@[simp] theorem sound_setWrej (w : Win) : Sound (s.setWrej w).dev ↔ Sound s.dev := by
  unfold State.setWrej
  split <;> simp

@[simp] theorem sound_reject (w : Win) (who : Requester) (off reason : Nat) :
    Sound (s.reject w who off reason).dev ↔ Sound s.dev := by simp [State.reject]

@[simp] theorem sound_leaveSleep : Sound s.leaveSleep.dev ↔ Sound s.dev := by simp [State.leaveSleep]

@[simp] theorem sound_turnOn (b : Block) : Sound (s.turnOn b).dev ↔ Sound s.dev := by
  unfold State.turnOn
  split <;> simp

@[simp] theorem sound_setEnable (b : Block) (en : Bool) : Sound (s.setEnable b en).dev ↔ Sound s.dev := by
  unfold State.setEnable
  dsimp only
  repeat' split
  all_goals simp

@[simp] theorem sound_enableWrite (who : Requester) (b : Block) (en : Bool) :
    Sound (enableWrite who b en s).dev ↔ Sound s.dev := by
  unfold enableWrite
  repeat' split
  all_goals simp

@[simp] theorem sound_blockStarted (b : Block) : Sound (blockStarted b s).dev ↔ Sound s.dev := by
  unfold blockStarted
  dsimp only
  split
  · simp only [State.mapDev_dev]
    split <;> simp
  · rfl

@[simp] theorem Sound.store (h : Sound s.dev) (w : Win) (o v : Nat) : Sound (s.store w o v).dev := by
  unfold State.store
  dsimp only
  split
  case h_13 => exact h.updCore_of_lines _ _ fun _ => rfl
  all_goals simp [h]

@[simp] theorem sound_clearBits (w : Win) (o v : Nat) : Sound (s.clearBits w o v).dev ↔ Sound s.dev := by
  unfold State.clearBits
  dsimp only
  split <;> simp

theorem Sound.writeSlot (h : Sound s.dev) (w : Win) (o : Nat) (ws : List RegWrite) : Sound (writeSlot w o ws s).dev := by
  unfold Machine.writeSlot
  extract_lets bad ok s1 base late s2 rw old v s3
  have h1 : Sound s1.dev := Sound.foldlState h (fun _ _ h => (sound_reject ..).mpr h) _
  have h2 : Sound s2.dev := Sound.foldlState h1 (fun _ _ h => (sound_reject ..).mpr h) _
  have h3 : Sound s3.dev := by
    unfold s3
    clear_value base s2
    cases base with
    | none => exact h2
    | some x =>
      dsimp only
      split <;> simpa using h2
  split
  · exact h3
  · exact h3.store ..

theorem Sound.writeCycle (h : Sound s.dev) (ws : List RegWrite) : Sound (writeCycle ws s).dev := by
  refine Sound.foldlState h (fun t n h => ?_) _
  dsimp only
  split
  · exact h
  · exact h.writeSlot ..

@[simp] theorem Sound.registerWrite (h : Sound s.dev) (ws : List RegWrite) : Sound (registerWrite ws s).dev :=
  (h.writeCycle _).writeCycle _

/-! ### Slices (R279, R406) -/

@[simp] theorem sound_takeSlice (i : Nat) (p : SliceParams) : Sound (s.takeSlice i p).dev ↔ Sound s.dev := .rfl

@[simp] theorem sound_settleSlice (i : Nat) : Sound (s.settleSlice i).dev ↔ Sound s.dev := by
  unfold State.settleSlice
  dsimp only
  repeat' split
  all_goals simp

@[simp] theorem sound_stopSlice (i : Nat) (next : Option SliceParams) : Sound (s.stopSlice i next).dev ↔ Sound s.dev := by
  simp [State.stopSlice]

@[simp] theorem Sound.dieCacheFlushDone (h : Sound s.dev) (die : Nat) : Sound (dieCacheFlushDone die s).dev := by
  unfold Machine.dieCacheFlushDone
  split
  · exact h
  · dsimp only
    split
    · have h1 := (h.flushDie die).gateDie die
      simpa using h1
    · exact h

/-! ### A period of the time counter (R376) -/

end

@[simp] theorem sound_countWaits (d : Device) : Sound d.countWaits ↔ Sound d := by simp [Device.countWaits]

@[simp] theorem sound_reelWaitTick (d : Device) (ns : Nat) : Sound (d.reelWaitTick ns) ↔ Sound d := by simp [Device.reelWaitTick]

@[simp] theorem sound_barrierTick (d : Device) (p : Power) (i : Nat) : Sound (d.barrierTick p i) ↔ Sound d := by
  unfold Device.barrierTick
  dsimp only
  split
  · rfl
  · split <;> simp

@[simp] theorem sound_updateTick (d : Device) (cycles : Nat) : Sound (d.updateTick cycles) ↔ Sound d := by
  unfold Device.updateTick
  dsimp only
  rw [sound_foldl fun d w => sound_count ..]
  refine sound_foldl (fun d s => sound_foldl (fun d x => ?_) _) _
  split
  · split <;> simp
  · rfl

/-- A change of many cores that leaves their lines. -/
theorem CoresSound.updAll {cs : FMap CoreSt} (h : CoresSound cs) {f : CoreSt → CoreSt} (hf : ∀ c, (f c).lines = c.lines)
    (l : List Nat) : CoresSound (l.foldl (fun m i => FMap.upd CoreSt.reset m i f) cs) := by
  induction l generalizing cs with
  | nil => exact h
  | cons i l ih => exact ih (h.upd i fun c hc => by rwa [hf c])

theorem Sound.coreTick (h : Sound d) (p : Power) : Sound (d.coreTick p) := by
  unfold Device.coreTick
  generalize List.range (Config.laneDies * Config.coresPerDie) = ids
  exact ⟨h.mem, h.cores.updAll (f := fun x => { x with cycles := x.cycles + 18 }) (fun _ => rfl) _⟩

theorem Sound.idleTick {s : State} (h : Sound s.dev) : Sound (idleTick s).dev := by
  unfold Machine.idleTick
  extract_lets p t d0 d pl e
  have h0 : Sound d0 := (sound_foldl (fun d i => sound_barrierTick d p i) _).mpr (h.coreTick p)
  have h1 : Sound d := by
    unfold d
    split
    · exact h0
    · exact (sound_updateTick ..).mpr h0
  have he : Sound e := (sound_reelWaitTick ..).mpr h1
  split
  · exact h
  · simpa using he

end Sys2Proof.Proofs.MemoryInvariant
end

section
/-! O59, management commands, and every command of the table. -/

namespace Sys2Proof.Proofs.MemoryInvariant

open Sys2Proof.Machine Sys2Proof.Spec

/-! ### Management commands (R353, R354) -/

/-- Where the checks of a management command pass, its new state has the invariant. -/
def MgmtSound : Except MgmtCode (State × MgmtData) → Prop
  | .ok r => Sound r.1.dev
  | .error _ => True

@[simp] theorem mgmtSound_error (x : MgmtCode) : MgmtSound (.error x) := trivial

@[simp] theorem mgmtSound_ite (c : Prop) [Decidable c] (a b : Except MgmtCode (State × MgmtData)) :
    MgmtSound (if c then a else b) ↔ if c then MgmtSound a else MgmtSound b := by split <;> rfl

@[simp] theorem mgmtSound_ok (r : State × MgmtData) : MgmtSound (.ok r) ↔ Sound r.1.dev := .rfl

@[simp] theorem mgmtSound_done (s : State) : MgmtSound (done s) ↔ Sound s.dev := .rfl

section
variable {s : State} (h : Sound s.dev)
include h

/-- The frame of management commands keeps the invariant where the command's own part does. -/
theorem Sound.mgmt {body : State → Except MgmtCode (State × MgmtData)} (hbody : ∀ s, Sound s.dev → MgmtSound (body s))
    (code sid : Nat) (presence : Bool) : Sound (mgmt code sid presence body s).dev := by
  unfold Machine.mgmt
  split
  case h_1 => exact h
  case h_2 q rest _ =>
    split
    case isTrue => exact h
    case isFalse =>
      dsimp only
      split
      case h_1 => simpa using h
      case h_2 =>
        have hran := hbody (s.mapMas fun m => { m with queue := rest }) h
        split
        case h_4 heq =>
          rw [heq] at hran
          split
          · simpa using h
          · simpa using hran
        all_goals simpa using h

theorem mgmtSound_ctxCreate (ctx : Nat) (home resv : Option Nat) (seed : Option Dword) :
    MgmtSound (ctxCreate ctx home resv seed s) := by
  unfold ctxCreate
  dsimp only
  split
  · trivial
  · split
    · trivial
    · split
      · trivial
      · split
        · trivial
        · next hd0 => simpa using h.allocTable hd0

theorem mgmtSound_gateMove (ctx : Nat) (a b : CtxState) : MgmtSound (gateMove ctx a b s) := by simp [gateMove, h]

theorem Sound.killCtx (c : Nat) : Sound (s.killCtx c).dev := h.killByMgmt ..

theorem mgmtSound_ctxKill (ctx : Nat) : MgmtSound (ctxKill ctx s) := by simp [ctxKill, h.killCtx]

theorem mgmtSound_ctxDestroy (ctx : Nat) : MgmtSound (ctxDestroy ctx s) := by simp [ctxDestroy, h, h.killCtx]

theorem mgmtSound_ctxSet (ctx : Nat) (f : CtxField) : MgmtSound (ctxSet ctx f s) := by simp [ctxSet, h]

theorem mgmtSound_mapCmd (ctx : Nat) (pages : List MapPage) : MgmtSound (mapCmd ctx pages s) := by
  unfold mapCmd
  split
  · trivial
  · split
    · trivial
    · next hd => exact h.mapPages hd

theorem mgmtSound_unmap (ctx va : Nat) : MgmtSound (unmap ctx va s) := by
  unfold unmap
  dsimp only
  split
  · trivial
  · split
    · trivial
    · next x sh _ =>
      split
      · trivial
      · split
        · trivial
        · rw [mgmtSound_done]
          dsimp only
          split
          · have h1 : Sound (s.dev.updCtx ctx fun x => x.dropLeaf sh va) := h
            have h2 := h1.leavePages (leafUnits x sh)
            simpa using h2
          · simpa using h

theorem mgmtSound_share (owner va ctx toVa : Nat) (r w : Bool) : MgmtSound (share owner va ctx toVa r w s) := by
  unfold share
  dsimp only
  split
  · trivial
  · split
    · trivial
    · split
      · trivial
      · split
        · trivial
        · next hd => exact h.putLeaf hd

theorem mgmtSound_unshare (ctx va : Nat) : MgmtSound (unshare ctx va s) := by
  unfold unshare
  dsimp only
  repeat' split
  all_goals simp [h]

theorem mgmtSound_hdmBind (window : Nat) (ctx : Option Nat) (base : Nat) : MgmtSound (hdmBind window ctx base s) := by
  unfold hdmBind
  repeat' split
  all_goals simp [h]

theorem mgmtSound_grantCmd (ctx : Nat) (g : PeerGrant) (revoke : Bool) : MgmtSound (grantCmd ctx g revoke s) := by
  simp [grantCmd, h]

theorem mgmtSound_sliceCreate (i : Nat) (p : SliceParams) : MgmtSound (sliceCreate i p s) := by simp [sliceCreate, h]

theorem mgmtSound_sliceChange (i : Nat) (p : SliceParams) : MgmtSound (sliceChange i p s) := by simp [sliceChange, h]

theorem mgmtSound_sliceDestroy (i : Nat) : MgmtSound (sliceDestroy i s) := by simp [sliceDestroy, h]

theorem mgmtSound_pwrSet (capW : Option Nat) (caps floors : List (Nat × Nat)) : MgmtSound (pwrSet capW caps floors s) := by
  simp [pwrSet, h]

theorem mgmtSound_topoSet (node : Nat) (topo : Word) : MgmtSound (topoSet node topo s) := by simp [topoSet, h]

theorem mgmtSound_reelSysSet (cfg : Word) : MgmtSound (reelSysSet cfg s) := h

theorem mgmtSound_lcTransition (sid : Nat) (target : Life) (key : Nat) : MgmtSound (lcTransition sid target key s) := by
  unfold lcTransition
  dsimp only
  split
  · trivial
  · trivial
  · split
    · trivial
    · split
      · trivial
      · split
        · exact h
        · exact Sound.warmReset (s := State.mapMas _ _) h

theorem mgmtSound_debugUnlock : MgmtSound (debugUnlock s) := by
  unfold debugUnlock
  dsimp only
  split
  · trivial
  · exact Sound.warmReset (s := s.mapMas _) h

theorem mgmtSound_ownerKeyRotate (key : Nat) (sigOk : Bool) : MgmtSound (ownerKeyRotate key sigOk s) := by
  simp [ownerKeyRotate, h]

end

/-! ### The commands -/

/-- A next state that a command answers has the invariant. -/
def OutSound : Out → Prop
  | .next t => Sound t.dev
  | _ => True

@[simp] theorem outSound_next {t : State} : OutSound (.next t) ↔ Sound t.dev := .rfl

theorem outSound_fault {f : Fault} : OutSound (.fault f) := trivial

theorem OutSound.onCode {s : State} (h : Sound s.dev) {c : Instr} {f : Platform → Device → Device} (hf : Sound (f s.plat s.dev)) :
    OutSound (onCode c f s) := by
  unfold Machine.onCode
  split
  · exact hf
  · exact h

section
variable {s : State} (h : Sound s.dev)
include h

/-! Commands whose meaning stands in their definition. -/

theorem outSound_demandMissFill (die line : Nat) (lo hi : Ecc) : OutSound (execDemandMissFill die line lo hi s) := by
  unfold execDemandMissFill
  split
  · exact outSound_fault
  · exact h.demandMissFill ..

theorem outSound_prefetchFill (die line : Nat) (lo hi : Ecc) : OutSound (execPrefetchFill die line lo hi s) := by
  unfold execPrefetchFill
  split
  · exact outSound_fault
  · exact h.prefetchFill ..

theorem outSound_patrolScrubRead (half : Nat) (e : Ecc) : OutSound (execPatrolScrubRead half e s) := by
  unfold execPatrolScrubRead
  split
  · exact outSound_fault
  · refine outSound_next.mpr ?_
    dsimp only
    split
    · exact h
    · split <;> simpa using h

theorem outSound_backInvalidationResponse (line : Nat) : OutSound (execBackInvalidationResponse line s) := by
  unfold execBackInvalidationResponse
  split
  · exact outSound_fault
  · refine outSound_next.mpr ?_
    dsimp only
    split
    · simpa using h
    · exact h

theorem outSound_descriptorFetch (c : Nat) (poisoned : List Nat) (hostNs : Nat) : OutSound (execDescriptorFetch c poisoned hostNs s) := by
  refine outSound_next.mpr ?_
  dsimp only
  split
  · exact Sound.fetchLoop (d := s.dev.mapHub _) h ..
  · exact h

theorem outSound_msixMessage (vector : Nat) : OutSound (execMsixMessage vector s) := by
  refine outSound_next.mpr ?_
  dsimp only
  split
  · simpa using h
  · exact h

theorem outSound_msixTableWrite (offset : Nat) (v : Word) : OutSound (execMsixTableWrite offset v s) := by
  refine outSound_next.mpr ?_
  dsimp only
  split
  · exact h
  · split <;> simpa using h

theorem outSound_eventSet (c q : Nat) : OutSound (execEventSet c q s) := by
  refine outSound_next.mpr (h.act _ _ _ _ _ fun it d h => ?_)
  split
  · simp [h]
  · next hd1 => simpa using h.writeVa hd1

theorem outSound_eventMonitorReread (c q : Nat) (seen : List HostWrite) : OutSound (execEventMonitorReread c q seen s) := by
  refine outSound_next.mpr ?_
  have hseen : Sound (s.dev.see seen) := h.see seen
  dsimp only
  split
  · split
    · exact hseen.eventRead ..
    · exact hseen
  · exact hseen

theorem outSound_eventPoll (c q : Nat) (seen : List HostWrite) : OutSound (execEventPoll c q seen s) := by
  refine outSound_next.mpr ?_
  have hseen : Sound (s.dev.see seen) := h.see seen
  dsimp only
  split
  · split
    · exact Sound.eventRead ((sound_count ..).mpr hseen) ..
    · exact hseen
  · exact hseen

theorem outSound_cancel (c q : Nat) : OutSound (execCancel c q s) := by
  refine outSound_next.mpr (h.act _ _ _ _ _ fun it d h => ?_)
  have hended : Sound ((d.hub.items.filter it.selects).foldl
      (Device.cancelOne s.plat.pow.time (q % (d.ring c).sqSize)) d) := h.foldl (fun _ _ h => h.cancelOne ..) _
  simpa using hended

theorem outSound_portTrainingDone (port : Nat) (lanes : BitVec 16) : OutSound (execPortTrainingDone port lanes s) := by
  refine outSound_next.mpr ?_
  dsimp only
  split <;> simpa using h

theorem outSound_peerRequestReceive (port : Nat) (req : PeerReq) : OutSound (execPeerRequestReceive port req s) := by
  refine outSound_next.mpr ?_
  dsimp only
  split
  · exact h
  · split <;> simp [h]

theorem outSound_zcFrameReceive (port : Nat) (f : ZcFrame) : OutSound (execZcFrameReceive port f s) := by
  refine outSound_next.mpr ?_
  dsimp only
  split
  · exact h
  · split <;> simp [h]

theorem outSound_reelMessageReceive (port : Nat) (m : ReelMsg) : OutSound (execReelMessageReceive port m s) := by
  refine outSound_next.mpr ?_
  have h1 := h.reelOpen
  dsimp only
  split
  · exact h1
  · split
    · exact h1.reelMsg _
    · simpa using h1

theorem outSound_blockStarted (b : Block) : OutSound (execBlockStarted b s) := by
  refine outSound_next.mpr ?_
  have h1 : Sound (blockStarted b s).answerSlice.dev := by simpa using h
  dsimp only
  split
  · exact h1.reelOpen
  · exact h1

end

/-- Every command keeps the invariant. The groups of the split: core instructions, vector instructions, stream operations and work for
engines (`onCode`), the other commands on the device (`onDev`), management commands (`mgmt`), and the other commands on the whole state
(`onState`). -/
theorem exec_keeps (c : Instr) {s : State} (h : Sound s.dev) : OutSound (exec c s) := by
  cases c with
  | intAdd | intSub | intMullo | intMulhi | intDiv | intRem | intMin | intMax | intAnd | intOr | intXor | intNot | intShl | intShr |
    intSar | intPopc | intClz | intBrev | intMov | intSel | fpAdd | fpSub | fpMul | fpFma | fpMin | fpMax | fpAbs | fpNeg | fpCopysign |
    fpDiv | fpSqrt | fpRsqrt | fpRecip | fpExp2 | fpLog2 | cvtF2i | cvtF2u | cvtI2f | cvtU2f | cvtF2n | cvtN2f =>
    exact .onCode h (h.alu ..)
  | predEq | predNe | predLt | predLe | predGt | predGe | predIsnan | predIsinf | predIsfinite => exact .onCode h (h.setPred ..)
  | pand | por | pxor | pnot | pmov => exact .onCode h (h.setPlog ..)
  | memLd => exact .onCode h (h.memLoad ..)
  | memSt => exact .onCode h (h.memStore ..)
  | memDiscard => exact .onCode h (h.memDiscard ..)
  | atomAdd | atomMin | atomMax | atomAnd | atomOr | atomXor | atomXchg | atomCas => exact .onCode h (h.atomic ..)
  | bra => exact .onCode h (h.branch ..)
  | exitThreads => exact .onCode h (h.exitThreads ..)
  | bar => exact .onCode h (h.bar ..)
  | flowNop => exact .onCode h (h.runJkf _ _ _ fun _ _ => h)
  | fence => exact .onCode h (h.fence ..)
  | engIssue => exact .onCode h (h.engIssue ..)
  | engWait => exact .onCode h (h.engWait ..)
  | vacq => exact .onCode h (h.vacq ..)
  | vrel => exact .onCode h (h.vrel ..)
  | vsync => exact .onCode h (h.vsync ..)
  | movsr => exact .onCode h (h.movsr ..)
  | vecFpAdd | vecFpSub | vecFpMul | vecFpFma | vecFpMin | vecFpMax | vecFpAbs | vecFpNeg | vecFpCopysign | vecIntAdd | vecIntSub |
    vecIntMullo | vecIntMin | vecIntMax | vecIntShl | vecIntShr | vecIntSar | vecIntAnd | vecIntOr | vecIntXor | vecIntNot | vecDiv |
    vecSqrt | vecRsqrt | vecRecip | vecExp2 | vecLog2 =>
    exact .onCode h (h.vec (vecKeeps_elemOp _ _) ..)
  | vecFpSel | vecIntSel => exact .onCode h (h.vec (vecKeeps_vsel _) ..)
  | vecCmpEq | vecCmpNe | vecCmpLt | vecCmpLe | vecCmpIsnan | vecCmpIsinf | vecCmpIsfinite =>
    exact .onCode h (h.vec (vecKeeps_maskOp _) ..)
  | vecRedSum | vecRedMin | vecRedMax | vecRedAnd | vecRedOr | vecRedXor => exact .onCode h (h.vec (vecKeeps_redOp _) ..)
  | vecScanAddIncl | vecScanMinIncl | vecScanMaxIncl | vecScanAddExcl | vecScanMinExcl | vecScanMaxExcl =>
    exact .onCode h (h.vec (vecKeeps_scanOp _ _ _) ..)
  | vecLd => exact .onCode h (h.vec (vecKeeps_load _ _ _ fun _ => 1) ..)
  | vecSt => exact .onCode h (h.vec (vecKeeps_save _ _ _ fun _ => 1) ..)
  | vecLds => exact .onCode h (h.vec (vecKeeps_load _ _ _ fun x => (x.arg 10).toNat) ..)
  | vecSts => exact .onCode h (h.vec (vecKeeps_save _ _ _ fun x => (x.arg 10).toNat) ..)
  | vecGather => exact .onCode h (h.vec vecKeeps_vecGather ..)
  | vecScatter => exact .onCode h (h.vec vecKeeps_vecScatter ..)
  | vecCvt => exact .onCode h (h.vec vecKeeps_vecCvt ..)
  | randU32 => exact .onCode h (h.vec vecKeeps_randU32 ..)
  | randUni => exact .onCode h (h.vec vecKeeps_randUni ..)
  | randBern => exact .onCode h (h.vec vecKeeps_randBern ..)
  | dropFwd | dropBwd => exact .onCode h (h.vec vecKeeps_dropOp ..)
  | zcCompress => exact .onCode h (h.stream streamKeeps_zcCompress ..)
  | s24Compress => exact .onCode h (h.stream streamKeeps_s24Compress ..)
  | prune24t => exact .onCode h (h.stream streamKeeps_prune24t ..)
  | nnzHist => exact .onCode h (h.stream streamKeeps_nnzHist ..)
  | demandMissFill => exact outSound_demandMissFill h ..
  | prefetchFill => exact outSound_prefetchFill h ..
  | patrolScrubRead => exact outSound_patrolScrubRead h ..
  | backInvalidationResponse => exact outSound_backInvalidationResponse h ..
  | descriptorFetch => exact outSound_descriptorFetch h ..
  | msixMessage => exact outSound_msixMessage h ..
  | msixTableWrite => exact outSound_msixTableWrite h ..
  | eventSet => exact outSound_eventSet h ..
  | eventMonitorReread => exact outSound_eventMonitorReread h ..
  | eventPoll => exact outSound_eventPoll h ..
  | cancel => exact outSound_cancel h ..
  | portTrainingDone => exact outSound_portTrainingDone h ..
  | peerRequestReceive => exact outSound_peerRequestReceive h ..
  | zcFrameReceive => exact outSound_zcFrameReceive h ..
  | reelMessageReceive => exact outSound_reelMessageReceive h ..
  | blockStarted => exact outSound_blockStarted h ..
  | cxlCacheSnoop => exact h.cxlCacheSnoop ..
  | combinerAtomic => exact h.combinerAtomic ..
  | hostLineAtomic => exact h.hostLineAtomic ..
  | sqTailWrite => exact h.sqTail ..
  | itemComplete => exact h.itemComplete ..
  | contextFault => exact h.takeFaults ..
  | itemNop => exact h.act _ _ _ _ _ fun _ _ h => (sound_finish ..).mpr h
  | eventAdd => exact h.act _ _ _ _ _ fun _ _ h => h.eventAdd ..
  | eventWaitGe => exact h.act _ _ _ _ _ fun _ _ h => Sound.eventRead ((sound_eventWait ..).mpr h) ..
  | cacheCtlPin => exact h.act _ _ _ _ _ fun _ d h => Sound.pinStart (d := d.updSlice _ _) h _
  | pinScanDone => exact h.pinScanDone ..
  | cacheCtlDiscard => exact h.cacheDiscard ..
  | hostMemAccess => exact h.hostMemAccess ..
  | reProduct => exact h.reProduct ..
  | tileStart => exact h.tileStart ..
  | tileDrainDone => exact h.tileDrainDone ..
  | splitCombine => exact h.splitCombine ..
  | itemDispatch => exact h.itemDispatch ..
  | barrierTimeout => exact h.barrierTimeout ..
  | blockPlace => exact h.blockPlace ..
  | engineDebugHalt => exact h.engineDebugHalt ..
  | tilePark => exact h.tilePark ..
  | parkedTileResume => exact h.parkedTileResume ..
  | txbTurnDone => exact h.txbTurnDone ..
  | vecList => exact h.vecList ..
  | jkfTranslationDone => exact h.jkfTranslationDone ..
  | kernel => exact h.kernel ..
  | normUpdate => exact h.normUpdate ..
  | layerWriteStart => exact h.layerWriteStart ..
  | layerSwap => exact h.layerSwap ..
  | reelBarrier | reelBroadcast | reelReduce => exact h.reelStart ..
  | linkDown => exact h.linkDown ..
  | peerResponseReceive => exact h.peerResponse ..
  | coreHaltRequest | coreDebugHalt =>
    refine outSound_next.mpr ?_
    dsimp only
    split
    · exact h.updCore_of_lines _ _ fun _ => rfl
    · exact h
  | cb10Grant | teardownRecordsDrained | blockStopped | reHaltRequest | cntSelWrite | cntSnapTake | cntSnapRelease | cntClear |
    cntTraceWrite | cqHeadWrite | doorbellPageOtherWrite | completionRecordWrite | tileDeal | stealAttempt | packMove | pathReconverge |
    barrierInstanceComplete | portHandshake | noPartnerTimeout | flitReceive | flitNak | ackTimeout | blockLockLoss =>
    exact outSound_next.mpr (by simp [h])
  | ctxCreate => exact h.mgmt (fun _ h => mgmtSound_ctxCreate h ..) ..
  | ctxOpen | ctxFreeze => exact h.mgmt (fun _ h => mgmtSound_gateMove h ..) ..
  | ctxKill => exact h.mgmt (fun _ h => mgmtSound_ctxKill h ..) ..
  | ctxDestroy => exact h.mgmt (fun _ h => mgmtSound_ctxDestroy h ..) ..
  | ctxSet => exact h.mgmt (fun _ h => mgmtSound_ctxSet h ..) ..
  | map => exact h.mgmt (fun _ h => mgmtSound_mapCmd h ..) ..
  | unmap => exact h.mgmt (fun _ h => mgmtSound_unmap h ..) ..
  | share => exact h.mgmt (fun _ h => mgmtSound_share h ..) ..
  | unshare => exact h.mgmt (fun _ h => mgmtSound_unshare h ..) ..
  | hdmBind => exact h.mgmt (fun _ h => mgmtSound_hdmBind h ..) ..
  | grant => exact h.mgmt (fun _ h => mgmtSound_grantCmd h ..) ..
  | sliceCreate => exact h.mgmt (fun _ h => mgmtSound_sliceCreate h ..) ..
  | sliceChange => exact h.mgmt (fun _ h => mgmtSound_sliceChange h ..) ..
  | sliceDestroy => exact h.mgmt (fun _ h => mgmtSound_sliceDestroy h ..) ..
  | pwrSet => exact h.mgmt (fun _ h => mgmtSound_pwrSet h ..) ..
  | topoSet => exact h.mgmt (fun _ h => mgmtSound_topoSet h ..) ..
  | reelSysSet => exact h.mgmt (fun _ h => mgmtSound_reelSysSet h ..) ..
  | lcTransition => exact h.mgmt (fun _ h => mgmtSound_lcTransition h ..) ..
  | debugUnlock => exact h.mgmt (fun _ h => mgmtSound_debugUnlock h ..) ..
  | ownerKeyRotate => exact h.mgmt (fun _ h => mgmtSound_ownerKeyRotate h ..) ..
  | reelReset =>
    refine h.mgmt (fun s h => (mgmtSound_done _).mpr ?_) ..
    exact Sound.warmReset (s := s.mapDev fun d => d.toChildren .reset) ((sound_toChildren ..).mpr h)
  | cmdStatus => exact h.mgmt (fun _ h => by split <;> exact h) ..
  | snapshot | resume | idePolicy | logRead | presenceClose | warmReset =>
    exact h.mgmt (fun _ h => by simp [h]) ..
  | registerWrite => exact h.registerWrite _
  | reelInstanceComplete => exact h.reelOpen.reelInstanceComplete ..
  | reelAbort => exact h.reelOpen.reelAbort ..
  | dieCacheFlushDone => exact sound_answerSlice.mpr (h.dieCacheFlushDone _)
  | powerGood | inputLoss | inputUndervoltageFault | inputOvervoltageFault | bootImageCheckDone | firmwareStartDone |
    stackTrainingDone | laneSelfTestDone | dramWipeDone | sramWipeDone | hostLinkTrained | hostPerstAssert | hostPerstDeassert |
    cxlHotReset | linkBDown | linkBRetrain | refclkLost | refclkStable | configRead | sealCheck | presenceButtonHold |
    presenceWindowExpiry | thermalSample | tripHoldExpiry | sensorUpdate | grantEpoch | sleepEntry | unitClockGate | diePllOff |
    unitWakeDone | diePowerUpDone | tapInstructionLoad | tapTrst | mctpMessage | dynamicAddressAssign | setEndpointId |
    spdmKeyExchange | getMeasurements | pldmSensorRead | ideKm | firmwareUpdateTransfer | flashWriteDone | recoveryImageLoad |
    mgmtCommandArrival | teardownScrubDone | snapshotTaken | enableWriteOne | enableWriteZero | ringEnable | ringDisable |
    pportEnable | reelArrival | powerOn | ppBtnNRelease =>
    exact outSound_next.mpr (by simp [h])

theorem step_keeps {s t : State} (h : Sound s.dev) (hstep : step s = .next t) : Sound t.dev := by
  unfold step at hstep
  split at hstep
  · obtain rfl := Host.Outcome.next.inj hstep
    exact h.idleTick
  · next c rest _ =>
    have hexec := exec_keeps c (s := { s with pending := rest }) h
    rwa [hstep] at hexec

/-- Settles O59: each command, and a period of the time counter, keeps the invariant. -/
theorem memoryStaysCanonicalAndCoherent : Obligations.MemoryStaysCanonicalAndCoherent := by
  unfold Obligations.MemoryStaysCanonicalAndCoherent
  intro s t h hstep
  exact (sound_iff _).mp (step_keeps ((sound_iff _).mpr h) hstep)

end Sys2Proof.Proofs.MemoryInvariant
end

section
/-! O29: doorbells (R253, R254) and host writes that become visible with them (R220, R221). -/

namespace Sys2Proof.Proofs.Doorbells

open Sys2Proof.Machine Sys2Proof.Spec

/-! ### Host writes -/

theorem mem_of_modified {m : Mem} {host : Bool} {l : Nat} {x : DLine} (h : m.modified host l = some x) :
    x ∈ m.lines ∧ x.host = host ∧ x.line = l := by
  have hx := List.find?_some h
  simp only [Bool.and_eq_true, beq_iff_eq] at hx
  exact ⟨List.mem_of_find?_eq_some h, hx.1.1, hx.1.2⟩

theorem writeBack_lines (m : Mem) (x : DLine) : (m.writeBack x).lines = m.lines := by
  unfold Mem.writeBack
  split
  · split <;> rfl
  · rfl

theorem recall_lines (m : Mem) (host : Bool) (l : Nat) :
    (m.recall host l).lines = m.lines.filter fun x => !(x.host == host && x.line == l) := by
  unfold Mem.recall
  split
  · rfl
  · rw [Mem.dropCopies, writeBack_lines]

theorem recall_dram (m : Mem) (l : Nat) : (m.recall true l).dram = m.dram := by
  unfold Mem.recall
  split
  · rfl
  · next x hx =>
    obtain ⟨-, hhost, -⟩ := mem_of_modified hx
    unfold Mem.writeBack
    rw [hhost]
    split <;> rfl

theorem recalls_dram (m : Mem) (ls : List Nat) : (ls.foldl (fun m l => m.recall true l) m).dram = m.dram := by
  induction ls generalizing m with
  | nil => rfl
  | cons l ls ih => exact (ih _).trans (recall_dram m l)

/-- Lines that are recalled leave every die cache, and none comes. -/
theorem mem_recalls_lines {m : Mem} {host : Bool} {ls : List Nat} {x : DLine}
    (hx : x ∈ (ls.foldl (fun m l => m.recall host l) m).lines) : x ∈ m.lines ∧ ¬(x.host = host ∧ x.line ∈ ls) := by
  induction ls generalizing m with
  | nil => exact ⟨hx, by simp⟩
  | cons l ls ih =>
    obtain ⟨hmem, hrest⟩ := ih hx
    rw [recall_lines, List.mem_filter] at hmem
    obtain ⟨hold, hkept⟩ := hmem
    refine ⟨hold, fun ⟨hhost, hline⟩ => ?_⟩
    rcases List.mem_cons.mp hline with rfl | hline
    · simp [hhost] at hkept
    · exact hrest ⟨hhost, hline⟩

theorem hostByte_of_not_cached {m : Mem} {a : Nat} (h : ∀ x ∈ m.lines, ¬(x.host = true ∧ x.line = a / 128)) :
    m.hostByte a = FMap.get 0 m.hostMem a := by
  unfold Mem.hostByte
  split
  · next x hx =>
    obtain ⟨hmem, hline⟩ := mem_of_modified hx
    exact absurd hline (h x hmem)
  · rfl

theorem hostWrites_dram (m : Mem) (w : HostWrite) : (m.hostWrites w).dram = m.dram := by
  unfold Mem.hostWrites
  dsimp only
  split
  · rfl
  · exact recalls_dram m _

/-- The part sees what the host has written (R220). -/
theorem hostByte_hostWrites (m : Mem) (w : HostWrite) {j : Nat} (hj : j < w.data.length) :
    (m.hostWrites w).hostByte (w.addr + j) = w.data.getD j 0 := by
  have hdata : w.data.isEmpty = false := by
    rw [List.isEmpty_eq_false_iff]
    exact List.ne_nil_of_length_pos (by omega)
  have hgone : ∀ x ∈ (m.hostWrites w).lines, ¬(x.host = true ∧ x.line = (w.addr + j) / 128) := by
    intro x hx hline
    unfold Mem.hostWrites at hx
    dsimp only at hx
    rw [hdata] at hx
    obtain ⟨-, hgone⟩ := mem_recalls_lines hx
    refine hgone ⟨hline.1, List.mem_map.mpr ⟨(w.addr + j) / 128 - w.addr / 128, List.mem_range.mpr ?_, ?_⟩⟩ <;> omega
  refine (hostByte_of_not_cached hgone).trans ((get_putBytes w.data _ w.addr 0 (w.addr + j)).trans ?_)
  rw [if_pos (by omega)]
  simp

theorem see_dram (d : Device) (ws : List HostWrite) : (d.see ws).mem.dram = d.mem.dram := by
  unfold Device.see
  rw [Device.mapMem_mem]
  generalize d.mem = m
  induction ws generalizing m with
  | nil => rfl
  | cons w ws ih => exact (ih _).trans (hostWrites_dram m w)

/-! ### Doorbells -/

theorem sqTail_cases (c : Nat) (v : Word) (seen : List HostWrite) (p : Platform) (d : Device) :
    (∃ f, sqTail c v seen p d = (d.see seen).updRing c f) ∨ sqTail c v seen p d = (d.see seen).bellIgnored c := by
  unfold sqTail
  dsimp only
  split
  · exact .inl ⟨_, rfl⟩
  · exact .inr rfl

theorem cqHead_cases (c : Nat) (v : Word) (p : Platform) (d : Device) :
    (∃ f, cqHead c v p d = d.updRing c f) ∨ cqHead c v p d = d.bellIgnored c := by
  unfold cqHead
  dsimp only
  split
  · exact .inl ⟨_, rfl⟩
  · exact .inr rfl

theorem sqTail_ignored {c : Nat} {v : Word} {p : Platform} {d : Device}
    (h : bellsOpen p d c = false ∨ (d.ring c).sqSize ≤ v.toNat) : sqTail c v [] p d = d.bellIgnored c := by
  refine if_neg fun hopen => ?_
  simp only [Bool.and_eq_true, decide_eq_true_eq] at hopen
  rcases h with h | h
  · exact Bool.false_ne_true (h.symm.trans hopen.1.1)
  · exact absurd hopen.1.2 (Nat.not_lt.mpr h)

theorem cqHead_ignored {c : Nat} {v : Word} {p : Platform} {d : Device} (h : bellsOpen p d c = false) :
    cqHead c v p d = d.bellIgnored c := if_neg (by simp [h])

/-- Settles O29: a doorbell is taken or counted, and the host writes that come with it only change memory. -/
theorem doorbellsMoveTheRingIndices : Obligations.DoorbellsMoveTheRingIndices := by
  unfold Obligations.DoorbellsMoveTheRingIndices
  refine ⟨?tail, ?head, ?ignored, ?seen, ?tailFrame, ?headFrame, ?otherFrame, fun _ _ => rfl⟩
  case tail =>
    intro s c v g hopen hlt hforward
    have htaken : sqTail c v [] s.plat s.dev = s.dev.setRing c { g with
        sqTail := v.toNat
        bells := g.bells ++ [(g.nextSeq + (v.toNat + g.sqSize - g.sqHead) % g.sqSize, s.plat.pow.time)] } :=
      if_pos (by
        rw [Bool.and_eq_true, Bool.and_eq_true]
        exact ⟨⟨hopen, decide_eq_true hlt⟩, decide_eq_true hforward⟩)
    exact congrArg (fun d => Host.Outcome.next { s with dev := d }) htaken
  case head =>
    intro s c v g hopen hlt hforward hword
    have htaken : cqHead c v s.plat s.dev = s.dev.setRing c { g with cqHead := v.toNat % g.cqSize } :=
      if_pos (by
        rw [Bool.and_eq_true, Bool.and_eq_true]
        exact ⟨⟨hopen, decide_eq_true hword⟩, decide_eq_true hforward⟩)
    rw [Nat.mod_eq_of_lt hlt] at htaken
    exact congrArg (fun d => Host.Outcome.next { s with dev := d }) htaken
  case ignored =>
    intro s c v x hx n
    rcases hx with ⟨hshut, rfl | rfl⟩ | ⟨rfl, hrange⟩ | ⟨off, size, rfl, hother⟩
    · exact congrArg (fun d => Host.Outcome.next { s with dev := d }) (sqTail_ignored (.inl hshut))
    · exact congrArg (fun d => Host.Outcome.next { s with dev := d }) (cqHead_ignored hshut)
    · exact congrArg (fun d => Host.Outcome.next { s with dev := d }) (sqTail_ignored (.inr hrange))
    · exact congrArg (fun d => Host.Outcome.next { s with dev := d }) (if_neg hother)
  case seen =>
    intro s c v addr data
    refine ⟨_, rfl, rfl, fun j hj => ?_⟩
    have hseen := hostByte_hostWrites s.dev.mem ⟨addr, data⟩ hj
    dsimp only
    rcases sqTail_cases c v [⟨addr, data⟩] s.plat s.dev with ⟨f, h⟩ | h
    · rw [h]
      exact hseen
    · rw [h, Device.bellIgnored, Device.count_mem]
      exact hseen
  case tailFrame =>
    intro s c v seen
    refine ⟨_, rfl, rfl, rfl, ?_⟩
    dsimp only
    rcases sqTail_cases c v seen s.plat s.dev with ⟨f, h⟩ | h
    · rw [h]
      exact ⟨fun k hk => (Device.ring_updRing ..).trans (if_neg hk), see_dram .., rfl⟩
    · rw [h, Device.bellIgnored, Device.count_mem, Device.count_eng]
      exact ⟨fun k _ => Device.count_ring .., see_dram .., rfl⟩
  case headFrame =>
    intro s c v
    refine ⟨_, rfl, rfl, rfl, ?_⟩
    dsimp only
    rcases cqHead_cases c v s.plat s.dev with ⟨f, h⟩ | h
    · rw [h]
      exact ⟨fun k hk => (Device.ring_updRing ..).trans (if_neg hk), rfl, rfl⟩
    · rw [h, Device.bellIgnored, Device.count_mem, Device.count_eng]
      exact ⟨fun k _ => Device.count_ring .., rfl, rfl⟩
  case otherFrame =>
    intro s c off n
    refine ⟨_, rfl, rfl, rfl, ?_⟩
    dsimp only
    split
    · next hbell => exact ⟨rfl, rfl, rfl, fun hother => absurd hbell hother⟩
    · refine ⟨rfl, rfl, rfl, fun _ => ?_⟩
      rw [Device.bellIgnored, Device.counter_count, if_pos rfl, satAdd64, BitVec.toNat_ofNat, Nat.mod_eq_of_lt (by omega)]

end Sys2Proof.Proofs.Doorbells
end

section
/-! O21: settings that management commands write (R247, R308, R323, R326, R338, R374). -/

namespace Sys2Proof.Proofs.Settings

open Sys2Proof.Machine Sys2Proof.Spec

/-! ### A management command whose shared checks are passed (R352 to R354, R363) -/

theorem mgmtAnswer_eq_answer (sid code : Nat) (r : MgmtCode) (data : MgmtData) (s : State) :
    mgmtAnswer s sid code r data = answer sid code r data s := by
  have hlong : longCode code = true ↔ code = 0x05 ∨ code = 0x42 ∨ code = 0x44 := by simp [longCode, or_assoc]
  unfold mgmtAnswer answer
  simp only [hlong]
  split <;> rfl

theorem refusal_of_granted {s : State} {sid code : Nat} {p : Bool} (h : granted s sid code p) :
    (popped s).refusal sid code = none := by
  obtain ⟨-, hauth, ⟨howned, hprovisioned⟩, -⟩ := h
  unfold State.refusal
  rcases hauth with ⟨hblank, rfl⟩ | ⟨x, hsession, hkey⟩
  · exact if_pos ⟨hblank, rfl⟩
  · have hsession' : (popped s).plat.mas.session sid = some x := hsession
    have hkey' : sessionOk (popped s).plat.fuses x.key = true := hkey
    have howned' : ¬(1 ≤ code ∧ code ≤ 0x50 ∧ (popped s).plat.fuses.life ≠ .owned) := fun ⟨h1, h2, hne⟩ => hne (howned h1 h2)
    have hprovisioned' : ¬((popped s).plat.fuses.life = .provisioned ∧ code ≠ 0x70) := fun ⟨h1, hne⟩ => hne (hprovisioned h1)
    dsimp only
    simp only [hsession', hkey', howned', hprovisioned']
    simp

/-- A command that passes the shared checks and its own takes effect. -/
theorem mgmt_of_granted {s u : State} {sid code : Nat} {p : Bool} {data : MgmtData}
    {body : State → Except MgmtCode (State × MgmtData)} (h : granted s sid code p) (hbody : body (popped s) = .ok (u, data)) :
    mgmt code sid p body s = mgmtDone u sid code data := by
  have hrefusal := refusal_of_granted h
  obtain ⟨⟨hhead, hslices, hrunning, hup, hstage⟩, -, -, hwindow⟩ := h
  obtain ⟨rest, hqueue⟩ := List.head?_eq_some_iff.mp hhead
  have hpopped : s.mapMas (fun m => { m with queue := rest }) = popped s := by simp [State.mapMas, popped, hqueue]
  have hwait : (partCode code && !s.plat.pow.wipedOut) = false := by
    by_cases hpart : 1 ≤ code ∧ code ≤ 0x44
    · have hwiped : s.plat.pow.wipedOut = true := by simpa [Power.wipedOut] using hstage hpart.1 hpart.2
      simp [hwiped]
    · simp [partCode, hpart]
  have hshut : (p && !(popped s).plat.mas.window) = false := by
    cases p with
    | false => rfl
    | true =>
      have hopen : (popped s).plat.mas.window = true := hwindow rfl
      simp [hopen]
  unfold mgmt
  simp [hqueue, State.mgmtBusy, hslices, hrunning, hup, hwait, hpopped, hrefusal, hbody, hshut]

/-- Commands other than those on slices and those that reset the part are answered at once. -/
theorem mgmtDone_of_quick {u : State} {sid code : Nat} {data : MgmtData} (hslice : sliceCode code = false)
    (hreset : code < 0x70) : mgmtDone u sid code data = answer sid code .success data u := by
  have hcodes : (code == 0x71) = false ∧ (code == 0x74) = false ∧ (code == 0x70) = false := by
    refine ⟨?_, ?_, ?_⟩ <;> simp <;> omega
  unfold mgmtDone State.resetRuns
  simp [hslice, hcodes, mgmtAnswer_eq_answer]

theorem onState_mgmt {s u : State} {sid code : Nat} {body : State → Except MgmtCode (State × MgmtData)}
    (h : granted s sid code false) (hbody : body (popped s) = done u) (hslice : sliceCode code = false) (hreset : code < 0x70) :
    onState (mgmt code sid false body) s = .next (answer sid code .success .none u) := by
  rw [← mgmtDone_of_quick hslice hreset, ← mgmt_of_granted h hbody]
  rfl

theorem answered_answer {s u : State} {sid code : Nat} (hqueue : u.plat.mas.queue = s.plat.mas.queue.tail)
    (hpending : u.pending = s.pending) : answered s (answer sid code .success .none u) sid code := ⟨rfl, hqueue, hpending⟩

/-! ### The settings -/

/-- TOPO_SET stores mode 3 as 0 and drops the bits that PPORT_TOPO does not have (R323). -/
theorem topo_stored (topo : Word) :
    (if (topo &&& 0xCFFF0FFF#32).extractLsb' 30 2 = 3 then topo &&& 0xCFFF0FFF#32 &&& 0x3FFFFFFF#32 else topo &&& 0xCFFF0FFF#32) =
      topo &&& (if topo.extractLsb' 30 2 = 3 then 0x0FFF0FFF#32 else 0xCFFF0FFF#32) := by
  have hmode : (topo &&& 0xCFFF0FFF#32).extractLsb' 30 2 = topo.extractLsb' 30 2 := by
    rw [BitVec.extractLsb'_and]
    exact BitVec.and_allOnes
  rw [hmode]
  split
  · rw [BitVec.and_assoc]
    rfl
  · rfl

/-- The tree word that REEL_SYS_SET stores (R308). -/
def storedTree (cfg : Word) : Word :=
  BitVec.ofNat 32 (bitsOf cfg.toNat 13 8 * 2 ^ 8 + if cfg.toNat % 16 > 5 then 0xF else cfg.toNat % 16)

theorem storedTree_toNat (cfg : Word) :
    (storedTree cfg).toNat = cfg.toNat / 2 ^ 8 % 2 ^ 6 * 2 ^ 8 + if cfg.toNat % 16 > 5 then 0xF else cfg.toNat % 16 := by
  have hfields : bitsOf cfg.toNat 13 8 = cfg.toNat / 2 ^ 8 % 2 ^ 6 := rfl
  rw [storedTree, hfields, BitVec.toNat_ofNat, Nat.mod_eq_of_lt]
  split <;> omega

theorem storedTree_children (cfg : Word) {i : Nat} (hi : i < 6) : (storedTree cfg).getLsbD (8 + i) = cfg.getLsbD (8 + i) := by
  have hhigh : (storedTree cfg).toNat / 2 ^ 8 = cfg.toNat / 2 ^ 8 % 2 ^ 6 := by
    rw [storedTree_toNat]
    split <;> omega
  simp only [BitVec.getLsbD, Nat.add_comm 8 i, ← Nat.testBit_div_two_pow, hhigh, Nat.testBit_mod_two_pow, hi, decide_true,
    Bool.true_and]

theorem storedTree_parent (cfg : Word) :
    (storedTree cfg).toNat % 16 = if cfg.toNat % 16 ≤ 5 then cfg.toNat % 16 else 15 := by
  rw [storedTree_toNat]
  split <;> split <;> omega

theorem exec_hdmBind {s : State} {sid w base : Nat} {c : Option Nat} (h : granted s sid 0x14 false) (hw : w < 64)
    (hbase : base < 2 ^ 52) (hlive : ∀ k, c = some k → (s.dev.ctx k).live = true) :
    exec (.hdmBind sid w c base) s = .next (answer sid 0x14 .success .none { popped s with
      dev := { s.dev with hub := { s.dev.hub with
        windows := FMap.set none s.dev.hub.windows w (c.map fun k => (k, base)) } } }) := by
  refine onState_mgmt h ?_ rfl (by omega)
  cases c with
  | none => exact if_neg (by omega)
  | some k =>
    have hk : ((popped s).dev.ctx k).live = true := hlive k rfl
    exact (if_neg (by simp [hk])).trans (if_neg (by omega))

theorem exec_grant {s : State} {sid c : Nat} {g : PeerGrant} {rev : Bool} (h : granted s sid 0x15 false)
    (hctx : (s.dev.ctx c).st ≠ .free) (hnode : g.node < 4096) (hsource : g.ctx < 4096)
    (others : List PeerGrant) (hothers : others = (s.dev.ctx c).grants.filter fun y => !(y.node == g.node && y.ctx == g.ctx))
    (hrevoke : rev = true → others ≠ (s.dev.ctx c).grants) (hroom : rev = false → others.length < 64) :
    exec (.grant sid c g rev) s = .next (answer sid 0x15 .success .none { popped s with
      dev := s.dev.setCtx c { s.dev.ctx c with grants := if rev then others else others ++ [g] } }) := by
  subst hothers
  refine onState_mgmt h ?_ rfl (by omega)
  have hst : ((popped s).dev.ctx c).st ≠ .free := hctx
  have hlegal : ¬(4096 ≤ g.node ∨ 4096 ≤ g.ctx) := by omega
  unfold grantCmd
  dsimp only
  rw [if_neg hst, if_neg hlegal]
  cases rev with
  | true => exact if_neg fun hlen => hrevoke rfl (List.filter_sublist.eq_of_length hlen)
  | false => exact if_neg (Nat.not_le.mpr (hroom rfl))

theorem exec_pwrSet {s : State} {sid : Nat} {cap : Option Nat} {caps floors : List (Nat × Nat)} (h : granted s sid 0x30 false)
    (put : FMap Nat → List (Nat × Nat) → FMap Nat) (hput : put = fun t xs => xs.foldl (fun t e => FMap.set 0 t e.1 e.2) t)
    (hslices : ∀ e ∈ caps ++ floors, e.1 < 16)
    (hpower : powerOk (cap.getD s.plat.pow.moduleCap) (put s.plat.pow.sliceCap caps) (put s.plat.pow.sliceFloor floors) = true) :
    exec (.pwrSet sid cap caps floors) s = .next (answer sid 0x30 .success .none { popped s with
      plat := { (popped s).plat with pow := { s.plat.pow with
        moduleCap := cap.getD s.plat.pow.moduleCap, sliceCap := put s.plat.pow.sliceCap caps
        sliceFloor := put s.plat.pow.sliceFloor floors } } }) := by
  subst hput
  refine onState_mgmt h (if_pos ?_) rfl (by omega)
  rw [Bool.and_eq_true]
  exact ⟨List.all_eq_true.mpr fun e he => decide_eq_true (hslices e he), hpower⟩

/-- Settles O21: each command passes the shared checks and its own, and its setting is what its definition stores. -/
theorem bindingsGrantsAndPowerSettings : Obligations.BindingsGrantsAndPowerSettings := by
  unfold Obligations.BindingsGrantsAndPowerSettings
  refine ⟨?bind, ?grant, ?power, ?topo, ?tree, ?policy⟩
  case bind =>
    intro s sid w c base h hw hbase hlive
    exact exec_hdmBind h hw hbase hlive
  case grant =>
    intro s sid c g rev h hctx hnode hsource others hrevoke hroom
    exact exec_grant h hctx hnode hsource others rfl hrevoke hroom
  case power =>
    intro s sid cap caps floors h p put hslices hpower
    exact exec_pwrSet h put rfl hslices hpower
  case topo =>
    intro s sid node topo h hoff hnode
    have hports : ¬((List.range Config.portCount).any fun p => ((popped s).dev.port p).blk.st != .off) = true := by
      simp only [List.any_eq_true, List.mem_range, bne_iff_ne, not_exists, not_and, not_not]
      exact hoff
    refine ⟨_, onState_mgmt h ((if_neg hports).trans (if_neg (Nat.not_le.mpr hnode))) rfl (by omega),
      answered_answer rfl rfl, rfl, rfl, rfl, rfl, topo_stored topo, rfl⟩
  case tree =>
    intro s sid cfg h
    exact ⟨_, onState_mgmt h rfl rfl (by omega), answered_answer rfl rfl, rfl, fun i hi => storedTree_children cfg hi,
      storedTree_parent cfg, rfl, rfl⟩
  case policy =>
    intro s sid b h
    exact onState_mgmt h rfl rfl (by omega)

end Sys2Proof.Proofs.Settings
end

section
/-! O33: completion records (R273, R276) and the MSI-X vectors (R246, R250). -/

namespace Sys2Proof.Proofs.Completions

open Sys2Proof.Machine Sys2Proof.Spec Sys2Proof.Proofs.GlobalStores Sys2Proof.Proofs.BlockStores

/-! ### Bytes of host memory after a store past the caches -/

theorem dropCopies_modified (m : Mem) (host : Bool) (l n : Nat) :
    (m.dropCopies host l).modified host n = if n = l then none else m.modified host n := by
  unfold Mem.modified Mem.dropCopies
  dsimp only
  split
  · next hn =>
    refine List.find?_eq_none.mpr fun x hx => ?_
    have hkept := (List.mem_filter.mp hx).2
    simp only [Bool.not_eq_true', Bool.and_eq_false_iff] at hkept
    rcases hkept with h | h <;> simp [h, hn]
  · next hn =>
    rw [List.find?_filter]
    congr 1
    funext x
    by_cases hx : x.line = n
    · simp [hx, hn, Bool.beq_eq_decide_eq]
    · simp [hx]

theorem hostPut_hostMem (m : Mem) (l : Nat) (bs : List Byte) (b : Nat) :
    FMap.get 0 (m.hostPut l bs).hostMem b =
      if 128 * l ≤ b ∧ b < 128 * l + bs.length then bs.getD (b - 128 * l) 0 else FMap.get 0 m.hostMem b := by
  have hget := get_putBytes bs m.hostMem (128 * l) 0 b
  rwa [Nat.add_zero] at hget

/-- A line put over host memory, no copy of it being cached. -/
theorem hostByte_hostPut (m : Mem) (l : Nat) (bs : List Byte) (hlen : bs.length = 128) (b : Nat) :
    ((m.dropCopies true l).hostPut l bs).hostByte b = if b / 128 = l then bs.getD (b % 128) 0 else m.hostByte b := by
  have hmod : ((m.dropCopies true l).hostPut l bs).modified true (b / 128) = if b / 128 = l then none else m.modified true (b / 128) :=
    dropCopies_modified m true l (b / 128)
  unfold Mem.hostByte
  rw [hmod, hostPut_hostMem]
  by_cases hline : b / 128 = l
  · have hoff : b - 128 * l = b % 128 := by omega
    rw [if_pos hline, if_pos hline, if_pos (by omega), hoff]
  · rw [if_neg hline, if_neg hline, if_neg (by omega)]
    rfl

/-- Bytes within one line that are written past the caches, and no other byte of host memory. -/
theorem hostByte_storeHostLine (d : Device) (tc a : Nat) (bs : List Byte) (hfit : a % 128 + bs.length ≤ 128) (b : Nat) :
    (d.storeHostLine none tc (a / 128) (patchAt (a % 128) bs)).mem.hostByte b =
      if a ≤ b ∧ b < a + bs.length then bs.getD (b - a) 0 else d.mem.hostByte b := by
  have hstore : (d.storeHostLine none tc (a / 128) (patchAt (a % 128) bs)).mem = (d.mem.dropCopies true (a / 128)).hostPut (a / 128)
      (overlay (patchAt (a % 128) bs) ((List.range 128).map fun i => d.mem.hostByte (128 * (a / 128) + i))) := rfl
  rw [hstore, hostByte_hostPut _ _ _ (by simp [overlay])]
  by_cases hline : b / 128 = a / 128
  · have hb : 128 * (a / 128) + b % 128 = b := by omega
    have hlt : b % 128 < 128 := by omega
    have hpatch := getD_patchAt (a % 128) bs hlt
    rw [if_pos hline, overlay, List.getD_eq_getElem _ _ (by simpa [length_patchAt] using hlt), List.getElem_zipWith,
      ← List.getD_eq_getElem _ none, hpatch, List.getElem_map, List.getElem_range, hb]
    by_cases hin : a ≤ b ∧ b < a + bs.length
    · have hoff : b % 128 - a % 128 = b - a := by omega
      rw [if_pos hin, if_pos (by omega), hoff]
      rfl
    · rw [if_neg hin, if_neg (by omega)]
      rfl
  · rw [if_neg hline, if_neg (by omega)]

/-! ### Messages that leave -/

/-- What has been sent stays sent. -/
theorem emit_sent (d : Device) (o : Output) : ∃ ms, (d.emit o).sent = ms ++ d.sent := by
  unfold Device.emit
  split
  · exact ⟨[o], rfl⟩
  · split
    · exact ⟨_, rfl⟩
    · exact ⟨[], rfl⟩

/-! ### COMPLETION_RECORD_WRITE -/

theorem drainReport_of_snap {d : Device} (h : d.reel.snap ≠ 1) : d.drainReport = d := by
  have hsnap : (d.reel.snap == 1) = false := beq_eq_false_iff_ne.mpr h
  unfold Device.drainReport
  rw [hsnap]
  rfl

theorem drainReport_cases (d : Device) :
    d.drainReport = d ∨ ∃ f o, d.drainReport = (d.mapReel f).emit o := by
  unfold Device.drainReport
  split
  · exact .inr ⟨_, _, rfl⟩
  · exact .inl rfl

/-- A snapshot's report leaves hub and memory alone, and what has been sent stays sent. -/
theorem drainReport_frame (d : Device) : d.drainReport.hub = d.hub ∧ d.drainReport.mem = d.mem ∧
    ∃ ms, d.drainReport.sent = ms ++ d.sent ∧ (d.reel.snap ≠ 1 → ms = []) := by
  by_cases hsnap : d.reel.snap = 1
  · rcases drainReport_cases d with h | ⟨f, o, h⟩
    · rw [h]
      exact ⟨rfl, rfl, [], rfl, fun _ => rfl⟩
    · obtain ⟨ms, hsent⟩ := emit_sent (d.mapReel f) o
      rw [h]
      exact ⟨by simp, by simp, ms, hsent, fun hne => absurd hsnap hne⟩
  · rw [drainReport_of_snap hsnap]
    exact ⟨rfl, rfl, [], rfl, fun _ => rfl⟩

@[simp] theorem countStatus_mem (d : Device) (c : Nat) (s : Status) : (d.countStatus c s).mem = d.mem := by
  cases s <;> simp [Device.countStatus, Status.itemError]

@[simp] theorem countStatus_sent (d : Device) (c : Nat) (s : Status) : (d.countStatus c s).sent = d.sent := by
  cases s <;> simp [Device.countStatus, Status.itemError]

@[simp] theorem countStatus_reel (d : Device) (c : Nat) (s : Status) : (d.countStatus c s).reel = d.reel := by
  cases s <;> simp [Device.countStatus, Status.itemError]

@[simp] theorem countStatus_ring (d : Device) (c : Nat) (s : Status) (k : Nat) : (d.countStatus c s).ring k = d.ring k := by
  cases s <;> simp [Device.countStatus, Status.itemError]

@[simp] theorem countStatus_items (d : Device) (c : Nat) (s : Status) : (d.countStatus c s).hub.items = d.hub.items := by
  cases s <;> simp [Device.countStatus, Status.itemError]

/-- The ring once a record is written at its tail. -/
def wroteRecord (g : Ring) (r : Record) : Ring :=
  { g with
    cqTail := (g.cqTail + 1) % g.cqSize, phase := if (g.cqTail + 1) % g.cqSize = 0 then !g.phase else g.phase
    msixDue := g.msixDue || r.irq || (r.status == .contextKilled && g.killMsix)
    killMsix := g.killMsix && !(r.status == .contextKilled) }

section Put
variable (d : Device) (c : Nat) (r : Record)

theorem putRecord_ring (k : Nat) :
    (d.putRecord c r).ring k = if k = c then wroteRecord (d.ring c) r else d.ring k := by
  rw [Device.putRecord, Device.ring, Device.emit_hub]
  exact (countStatus_ring ..).trans (Device.ring_updRing ..)

theorem putRecord_sent : (d.putRecord c r).sent = .record c r (d.ring c).sqHead :: d.sent := by
  rw [Device.putRecord, Device.emit_now _ _ rfl]
  exact congrArg (Output.record c r (d.ring c).sqHead :: ·) (countStatus_sent ..)

theorem putRecord_items : (d.putRecord c r).hub.items = d.hub.items := by
  rw [Device.putRecord, Device.emit_hub]
  exact countStatus_items ..

theorem putRecord_reel : (d.putRecord c r).reel = d.reel := by
  rw [Device.putRecord, Device.emit_reel]
  exact countStatus_reel ..

theorem putRecord_mem : (d.putRecord c r).mem = (d.storeHostLine none 6 (((d.ring c).cqBase + 32 * (d.ring c).cqTail) / 128)
    (patchAt (((d.ring c).cqBase + 32 * (d.ring c).cqTail) % 128) (r.bytes (d.ring c).phase (d.ring c).sqHead))).mem := by
  rw [Device.putRecord, Device.emit_mem]
  exact countStatus_mem ..

end Put

theorem length_record (r : Record) (phase : Bool) (sqHead : Nat) : (r.bytes phase sqHead).length = 32 := by
  simp [Record.bytes]

theorem record_bytes (r : Record) (phase : Bool) (sqHead : Nat) : r.bytes phase sqHead =
    leBytes 2 r.status.code ++ leBytes 2 ((if phase then 1 else 0) + (if r.unmet then 2 else 0)) ++ leBytes 4 r.tag.toNat ++
      leBytes 4 r.time.toNat ++ leBytes 2 sqHead ++ leBytes 2 r.sqIndex ++ leBytes 8 r.detail.toNat ++
      leBytes 8 r.result.toNat := by
  have hunmet : 2 * bit r.unmet = if r.unmet then 2 else 0 := by cases r.unmet <;> rfl
  rw [Record.bytes, hunmet]
  rfl

/-- The oldest record leaves the waiting ones and is written. -/
theorem writeOldest_of_room {d : Device} {c : Nat} {r : Record} {rs : List Record} (hwait : (d.ring c).waiting = r :: rs)
    (hroom : (d.ring c).room = true) (hinval : d.invalOut = false) :
    d.writeOldest c = (d.updRing c fun g => { g with waiting := rs }).putRecord c r := by
  unfold Device.writeOldest
  simp only [hwait, hroom, hinval]
  rfl

theorem writeOldest_of_full {d : Device} {c : Nat} (hroom : (d.ring c).room = false) : d.writeOldest c = d := by
  unfold Device.writeOldest
  split
  · rfl
  · simp [hroom]

theorem record_written (s : State) {c : Nat} {r : Record} {rs : List Record} (hwait : (s.dev.ring c).waiting = r :: rs)
    (hroom : (s.dev.ring c).room = true) (hinval : s.dev.invalOut = false) (halign : (s.dev.ring c).cqBase % 32 = 0) :
    let g := s.dev.ring c
    let a := g.cqBase + 32 * g.cqTail
    let d := (s.dev.writeOldest c).drainReport
    d.hub.items = s.dev.hub.items ∧ d.ring c = wroteRecord { g with waiting := rs } r ∧
      (∀ k, k ≠ c → d.ring k = s.dev.ring k) ∧
      (∃ ms, d.sent = ms ++ .record c r g.sqHead :: s.dev.sent ∧ (s.dev.reel.snap ≠ 1 → ms = [])) ∧
      d.mem.dram = s.dev.mem.dram ∧
      ∀ b, d.mem.hostByte b = if a ≤ b ∧ b < a + 32 then (r.bytes g.phase g.sqHead).getD (b - a) 0 else s.dev.mem.hostByte b := by
  intro g a
  rw [writeOldest_of_room hwait hroom hinval]
  generalize hd : s.dev.updRing c (fun g => { g with waiting := rs }) = d0
  have hring : ∀ k, d0.ring k = if k = c then { g with waiting := rs } else s.dev.ring k := by
    subst hd
    exact fun k => Device.ring_updRing ..
  have hself : d0.ring c = { g with waiting := rs } := (hring c).trans (if_pos rfl)
  have hmem : d0.mem = s.dev.mem := by
    subst hd
    rfl
  have hput := putRecord_mem d0 c r
  rw [hself] at hput
  obtain ⟨hhub, hframe, ms, hsent, hnone⟩ := drainReport_frame (d0.putRecord c r)
  have hrings : ∀ k, (d0.putRecord c r).drainReport.ring k = (d0.putRecord c r).ring k := fun k => by
    rw [Device.ring, hhub]
    rfl
  refine ⟨?_, ?_, fun k hk => ?_, ⟨ms, ?_, fun h => hnone ?_⟩, ?_, fun b => ?_⟩
  · rw [hhub, putRecord_items]
    subst hd
    rfl
  · rw [hrings, putRecord_ring, if_pos rfl, hself]
  · rw [hrings, putRecord_ring, if_neg hk, hring, if_neg hk]
  · rw [hsent, putRecord_sent, hself]
    subst hd
    rfl
  · rw [putRecord_reel]
    subst hd
    exact h
  · rw [hframe, hput, ← hmem]
    rfl
  · have hlen := length_record r g.phase g.sqHead
    have hfit : a % 128 + (r.bytes g.phase g.sqHead).length ≤ 128 := by
      have hbase : g.cqBase % 32 = 0 := halign
      omega
    rw [hframe, hput]
    refine (hostByte_storeHostLine d0 6 a _ hfit b).trans ?_
    rw [hlen, hmem]

/-! ### MSI-X -/

/-- A vector once its message is due: masked, it pends, else the message has left. -/
def dueVector (m : Msix) (time : Dword) : Msix :=
  if m.mask then { m with pend := true } else { m with pend := false, last := some time }

theorem sendMsix_frame (d : Device) (time : Dword) (v : Nat) : (d.sendMsix time v).mem = d.mem ∧
    (d.sendMsix time v).hub.rings = d.hub.rings ∧
    ∀ k, FMap.get Msix.reset (d.sendMsix time v).hub.msix k =
      if k = v then dueVector (FMap.get Msix.reset d.hub.msix v) time else FMap.get Msix.reset d.hub.msix k := by
  unfold Device.sendMsix dueVector
  dsimp only
  split
  · exact ⟨rfl, rfl, fun k => FMap.get_set⟩
  · rw [Device.emit_now _ _ rfl]
    exact ⟨rfl, rfl, fun k => FMap.get_set⟩

theorem sendMsix_sent (d : Device) (time : Dword) (v : Nat) : (d.sendMsix time v).sent =
    if (FMap.get Msix.reset d.hub.msix v).mask then d.sent
      else .msix v (FMap.get Msix.reset d.hub.msix v).addr (FMap.get Msix.reset d.hub.msix v).data :: d.sent := by
  unfold Device.sendMsix
  dsimp only
  split
  · rfl
  · rw [Device.emit_now _ _ rfl]
    rfl

/-- A vector's entry after a write of its word `r`. -/
def tableWrite (m : Msix) (r : Nat) (x : Word) : Msix :=
  { m with
    addr := if r = 0 then m.addr.extractLsb' 32 32 ++ x else if r = 1 then x ++ m.addr.extractLsb' 0 32 else m.addr
    data := if r = 2 then x else m.data
    mask := if r = 3 then x.getLsbD 0 else m.mask }

theorem setLow_eq (a : Dword) (x : Word) : BitVec.ofNat 64 (a.toNat / 2 ^ 32 * 2 ^ 32 + x.toNat) = a.extractLsb' 32 32 ++ x := by
  have hhigh : (a.extractLsb' 32 32).toNat = a.toNat / 2 ^ 32 := by
    rw [BitVec.extractLsb'_toNat, Nat.shiftRight_eq_div_pow]
    omega
  apply BitVec.eq_of_toNat_eq
  rw [BitVec.toNat_append, hhigh, ← Nat.shiftLeft_add_eq_or_of_lt x.isLt, Nat.shiftLeft_eq, BitVec.toNat_ofNat]
  omega

theorem setHigh_eq (a : Dword) (x : Word) : BitVec.ofNat 64 (a.toNat % 2 ^ 32 + x.toNat * 2 ^ 32) = x ++ a.extractLsb' 0 32 := by
  have hlow : (a.extractLsb' 0 32).toNat = a.toNat % 2 ^ 32 := by rw [BitVec.extractLsb'_toNat, Nat.shiftRight_zero]
  apply BitVec.eq_of_toNat_eq
  rw [BitVec.toNat_append, hlow, ← Nat.shiftLeft_add_eq_or_of_lt (by omega), Nat.shiftLeft_eq, BitVec.toNat_ofNat]
  omega

/-- The device once a word of the vector table is written, before a message that was pending leaves. -/
def putVector (d : Device) (v r : Nat) (x : Word) : Device :=
  d.mapHub fun h => { h with msix := FMap.set Msix.reset h.msix v (tableWrite (FMap.get Msix.reset d.hub.msix v) r x) }

theorem exec_msixTableWrite (s : State) {v r : Nat} (x : Word) (hv : v < 4096) (hr : r < 4) :
    exec (.msixTableWrite (16 * v + 4 * r) x) s = .next { s with
      dev := if (FMap.get Msix.reset s.dev.hub.msix v).mask && !(tableWrite (FMap.get Msix.reset s.dev.hub.msix v) r x).mask &&
          (FMap.get Msix.reset s.dev.hub.msix v).pend then (putVector s.dev v r x).sendMsix s.plat.pow.time v
        else putVector s.dev v r x } := by
  have hvec : (16 * v + 4 * r) / 16 = v := by omega
  have hword : (16 * v + 4 * r) / 4 % 4 = r := by omega
  have hin : ¬(16 * v + 4 * r ≥ 0x10000 ∨ (16 * v + 4 * r) % 4 ≠ 0) := by omega
  refine congrArg (fun d => Host.Outcome.next { s with dev := d }) ((if_neg hin).trans ?_)
  rw [hvec, hword]
  unfold putVector
  match r, hr with
  | 0, _ => simp only [setLow_eq]; rfl
  | 1, _ => simp only [setHigh_eq]; rfl
  | 2, _ => rfl
  | 3, _ => rfl

/-- A write that unmasks a vector whose message pends is a write of its mask. -/
theorem unmasks_pending {m : Msix} {r : Nat} {x : Word} (h : (m.mask && !(tableWrite m r x).mask && m.pend) = true) :
    r = 3 ∧ m.mask = true ∧ (tableWrite m r x).mask = false ∧ m.pend = true := by
  simp only [Bool.and_eq_true, Bool.not_eq_true'] at h
  obtain ⟨⟨hmask, hclear⟩, hpend⟩ := h
  refine ⟨by_contra fun hr => ?_, hmask, hclear, hpend⟩
  rw [tableWrite, if_neg hr, hmask] at hclear
  cases hclear

theorem pending_unmasked {m : Msix} {r : Nat} {x : Word} (hr : r = 3) (hmask : m.mask = true) (hclear : x.getLsbD 0 = false)
    (hpend : m.pend = true) : (m.mask && !(tableWrite m r x).mask && m.pend) = true := by
  have hwritten : (tableWrite m r x).mask = false := (if_pos hr).trans hclear
  rw [hmask, hwritten, hpend]
  rfl

/-- Settles O33: a record is a store of its bytes within one line of host memory, and a vector's message leaves or pends. -/
theorem completionsAreWrittenAndInterruptsSent : Obligations.CompletionsAreWrittenAndInterruptsSent := by
  unfold Obligations.CompletionsAreWrittenAndInterruptsSent
  refine ⟨?record, ?message, ?table⟩
  case record =>
    intro s c r rs hwait g a
    refine ⟨fun hfull hsnap => ?full, fun hroom hinval halign => ?written⟩
    case full =>
      have hnoRoom : (s.dev.ring c).room = false := bne_eq_false_iff_eq.mpr hfull
      refine congrArg (fun d => Host.Outcome.next { s with dev := d }) ?_
      dsimp only
      rw [writeOldest_of_full hnoRoom, drainReport_of_snap hsnap]
    case written =>
      have hasRoom : (s.dev.ring c).room = true := bne_iff_ne.mpr hroom
      obtain ⟨hitems, hring, hothers, hsent, hdram, hread⟩ := record_written s hwait hasRoom hinval halign
      have hbytes : ∀ b, ((s.dev.writeOldest c).drainReport.mem.hostByte b) =
          if a ≤ b ∧ b < a + 32 then (r.bytes g.phase g.sqHead).getD (b - a) 0 else s.dev.mem.hostByte b := hread
      refine ⟨_, rfl, rfl, hitems, ?_, ?_, ?_, ?_, hsent, hothers, hdram, fun b hb => ?_, fun j hj => ?_⟩
      · exact congrArg Ring.waiting hring
      · exact congrArg Ring.cqTail hring
      · exact congrArg Ring.phase hring
      · intro hirq
        refine (congrArg Ring.msixDue hring).trans ?_
        simp [wroteRecord, hirq]
      · exact (hbytes b).trans (if_neg (by omega))
      · rw [← record_bytes]
        refine (hbytes (a + j)).trans ?_
        rw [if_pos (by omega), Nat.add_sub_cancel_left]
  case message =>
    intro s v m hdue hlate
    have hearly : (m.last.any fun t => decide (s.plat.pow.time.toNat < t.toNat + 1000)) = false := by
      cases hlast : m.last with
      | none => rfl
      | some u => simpa using hlate u hlast
    have hexec : exec (.msixMessage v) s = .next { s with dev :=
        (s.dev.updRing v fun g => { g with msixDue := false }).sendMsix s.plat.pow.time v } := by
      refine congrArg (fun d => Host.Outcome.next { s with dev := d }) ?_
      dsimp only
      exact if_pos (by rw [hdue, hearly]; rfl)
    obtain ⟨hmem, hrings, hvectors⟩ := sendMsix_frame (s.dev.updRing v fun g => { g with msixDue := false }) s.plat.pow.time v
    have hsent := sendMsix_sent (s.dev.updRing v fun g => { g with msixDue := false }) s.plat.pow.time v
    have hring : ∀ k, ((s.dev.updRing v fun g => { g with msixDue := false }).sendMsix s.plat.pow.time v).ring k =
        if k = v then { s.dev.ring v with msixDue := false } else s.dev.ring k := fun k => by
      rw [Device.ring, hrings]
      exact Device.ring_updRing ..
    have hvector : FMap.get Msix.reset
        ((s.dev.updRing v fun g => { g with msixDue := false }).sendMsix s.plat.pow.time v).hub.msix v =
        dueVector m s.plat.pow.time := (hvectors v).trans (if_pos rfl)
    refine ⟨_, hexec, rfl, hmem, (hring v).trans (if_pos rfl), fun k hk => (hring k).trans (if_neg hk), fun hmask => ?_,
      fun hmask => ?_⟩
    · exact ⟨hsent.trans (if_pos hmask), congrArg Msix.pend (hvector.trans (if_pos hmask))⟩
    · exact ⟨hsent.trans (if_neg fun h => Bool.false_ne_true (hmask.symm.trans h)),
        hvector.trans (if_neg fun h => Bool.false_ne_true (hmask.symm.trans h))⟩
  case table =>
    intro s v x r hv hr m
    have hput : ∀ k, FMap.get Msix.reset (putVector s.dev v r x).hub.msix k =
        if k = v then tableWrite m r x else FMap.get Msix.reset s.dev.hub.msix k := fun k => FMap.get_set
    have hself := (hput v).trans (if_pos rfl)
    refine ⟨_, exec_msixTableWrite s x hv hr, rfl, ?_⟩
    dsimp only
    split
    · next hsend =>
      obtain ⟨hr3, hmask, hclear, hpend⟩ := unmasks_pending hsend
      obtain ⟨hmem, hrings, hvectors⟩ := sendMsix_frame (putVector s.dev v r x) s.plat.pow.time v
      have hsent := sendMsix_sent (putVector s.dev v r x) s.plat.pow.time v
      have hvector := ((hvectors v).trans (if_pos rfl)).trans ((congrArg (dueVector · s.plat.pow.time) hself).trans
        (if_neg fun h => Bool.false_ne_true (hclear.symm.trans h)))
      rw [hself, hclear] at hsent
      refine ⟨hmem, hrings, fun k hk => ?_, ?_⟩
      · rw [hvectors, if_neg hk, hput, if_neg hk]
      · rw [hvector]
        refine ⟨rfl, rfl, rfl, ?_⟩
        subst hr3
        rw [if_pos ⟨rfl, hmask, by exact hclear, hpend⟩]
        exact ⟨rfl, hsent⟩
    · next hkeep =>
      refine ⟨rfl, rfl, fun k hk => (hput k).trans (if_neg hk), ?_⟩
      rw [hself]
      refine ⟨rfl, rfl, rfl, ?_⟩
      rw [if_neg fun ⟨hr3, hmask, hclear, hpend⟩ => hkeep (pending_unmasked hr3 hmask hclear hpend)]
      exact ⟨rfl, rfl⟩

end Sys2Proof.Proofs.Completions
end

section
/-! O34 fails in its second part, on EVENT ADD, as O38 does. The atomic is done past the die caches, and its read takes every finding
on a codeword but 0 (none) and 1 (corrected) for an uncorrectable error that it discovers (`Device.findWeak`, R124, R125), while
`sound` leaves out the finding 2 alone. Where the word's codeword carries a finding of 3, the premises hold, the read makes the
half-line bad, and the item ends with ECC_UNCORRECTABLE, the word standing as it was. The commands of the model write findings up to
2 only (`eccWeak`). -/

namespace Sys2Proof.Proofs.UndiscoveredErrorOfEvent

open Sys2Proof.Machine Sys2Proof.Spec
open Sys2Proof.Proofs.UndiscoveredError (ok_of_toOption)

/-! ### An event word in a codeword with an error that nothing has found -/

/-- EVENT ADD of 1 to the word at 0 (R269). -/
def addDesc : List Byte := 6 :: List.replicate 31 0 ++ leBytes 8 1 ++ List.replicate 24 0

/-- Its item, dispatched. -/
def add : Item := { newItem 1 5 0 addDesc 0 with phase := .dispatched }

/-- The word at 0 of context 1 lies at device address 0, in a codeword with the finding 3. -/
def start : State :=
  { UndiscoveredErrorOfAtomic.start with dev := UndiscoveredErrorOfAtomic.start.dev.mapHub fun h => { h with items := [add] } }

/-! ### The statement's part on EVENT ADD applies to it -/

theorem start_sound : sound start := UndiscoveredErrorOfHostRead.start_sound

theorem start_wholeLines : wholeLines start.dev.mem := nofun

theorem start_startable : startable start 1 5 6 add := by
  unfold startable numbersApart
  decide +kernel

theorem start_translate : translate start.dev 1 add.evLoc .atomic = .ok (.dev 0, 1) := ok_of_toOption (by decide +kernel)

/-! ### The word stays -/

/-- The part after the command. -/
def ended : State :=
  { start with dev := start.dev.act start.plat 1 5 6 (fun it => it.evOp == 0) fun it d => d.eventAdd start.plat it }

theorem exec_eventAdd_start : exec (.eventAdd 1 5) start = .next ended := rfl

theorem ended_word : ended.dev.mem.devNat 1 0 8 = 0 := by decide +kernel

/-- The word with 1 added to it. -/
theorem start_sum : BitVec.ofNat 64 (start.dev.mem.devNat 1 0 8) + BitVec.ofNat 64 add.evVal = 1 := by decide +kernel

/-- Refutes O34: EVENT_ADD of a startable item on a word of a codeword with the finding 3 discovers an uncorrectable error with its
read (R124, R125) and adds nothing, which neither `sound` nor the half-line's state rules out. -/
theorem not_ringEngineItemsRun : ¬ Obligations.RingEngineItemsRun := by
  intro h
  obtain ⟨-, hadd, -⟩ := h
  obtain ⟨t, hexec, -, hword, -⟩ := hadd start 1 5 add 0 1 start_startable (by decide +kernel) (by decide) start_wholeLines
    start_translate (by decide +kernel) start_sound (by decide +kernel)
  obtain rfl : ended = t := Host.Outcome.next.inj (exec_eventAdd_start.symm.trans hexec)
  rw [ended_word, start_sum] at hword
  exact absurd hword (by decide)

end Sys2Proof.Proofs.UndiscoveredErrorOfEvent
end


section
/-! What becomes of the items of a context as items end, by an error, a fault or a kill: no item comes, an item keeps its number, one
that is done or killed remains so, no context changes, and a request to a partner module is of a context that had one before or reaches
a partner (R164, R217, R271, R275 to R277, R345). -/

namespace Sys2Proof.Proofs.EndedItems

open Sys2Proof.Machine Sys2Proof.Proofs.QuietMemory

/-- The item `y` is the item `x` later: it has the number of `x`, it is done if `x` was, and killed if `x` was. -/
def Aged (x y : Item) : Prop :=
  y.ctx = x.ctx ∧ y.seq = x.seq ∧ y.issuedBy = x.issuedBy ∧ (x.phase = .done → y.phase = .done) ∧
    (x.killCode.isSome = true → y.killCode.isSome = true)

theorem Aged.refl (x : Item) : Aged x x := ⟨rfl, rfl, rfl, id, id⟩

theorem Aged.trans {x y z : Item} (h : Aged x y) (h1 : Aged y z) : Aged x z := by
  obtain ⟨hctx, hseq, hby, hdone, hkill⟩ := h
  obtain ⟨hctx1, hseq1, hby1, hdone1, hkill1⟩ := h1
  exact ⟨hctx1.trans hctx, hseq1.trans hseq, hby1.trans hby, hdone1 ∘ hdone, hkill1 ∘ hkill⟩

/-- The items of `d` are items of `a` later. -/
def Later (a d : Device) : Prop := ∀ y ∈ d.hub.items, ∃ x ∈ a.hub.items, Aged x y

/-- The requests to partner modules that `d` waits for are of contexts that waited for one in `a`, or that reach a partner module. -/
def Asks (a d : Device) : Prop :=
  ∀ o ∈ d.ports.out, (∃ p ∈ a.ports.out, p.ctx = o.ctx) ∨ ∃ va, a.peerVa o.ctx va = true

/-- What the end of items leaves: the contexts stand. -/
def Over (a d : Device) : Prop := Later a d ∧ Asks a d ∧ d.hub.ctxs = a.hub.ctxs

/-- What taking items out of the units leaves: the rings stand as well. -/
def Ends (a d : Device) : Prop := Over a d ∧ d.hub.rings = a.hub.rings

theorem Over.refl (d : Device) : Over d d := ⟨fun y hy => ⟨y, hy, Aged.refl y⟩, fun o ho => .inl ⟨o, ho, rfl⟩, rfl⟩

theorem Ends.refl (d : Device) : Ends d d := ⟨Over.refl d, rfl⟩

theorem peerVa_of_ctxs {a d : Device} (h : d.hub.ctxs = a.hub.ctxs) (c va : Nat) : d.peerVa c va = a.peerVa c va := by
  unfold Device.peerVa Device.ctx
  rw [h]

theorem Over.trans {a d e : Device} (h : Over a d) (h1 : Over d e) : Over a e := by
  obtain ⟨hitems, hasks, hctxs⟩ := h
  obtain ⟨hitems1, hasks1, hctxs1⟩ := h1
  refine ⟨fun z hz => ?_, fun o ho => ?_, hctxs1.trans hctxs⟩
  · obtain ⟨y, hy, hyz⟩ := hitems1 z hz
    obtain ⟨x, hx, hxy⟩ := hitems y hy
    exact ⟨x, hx, hxy.trans hyz⟩
  · rcases hasks1 o ho with ⟨p, hp, hpo⟩ | ⟨va, hva⟩
    · rcases hasks p hp with ⟨p', hp', hpp⟩ | ⟨va, hva⟩
      · exact .inl ⟨p', hp', hpp.trans hpo⟩
      · exact .inr ⟨va, hpo ▸ hva⟩
    · exact .inr ⟨va, (peerVa_of_ctxs hctxs o.ctx va) ▸ hva⟩

/-- A change of the items, each for itself. -/
theorem Over.mapItems {a d e : Device} (h : Over a d) {f : Item → Item} (hf : ∀ x, Aged x (f x))
    (he : e.hub.items = d.hub.items.map f) (hctxs : e.hub.ctxs = d.hub.ctxs) (hout : e.ports.out = d.ports.out) : Over a e := by
  refine h.trans ⟨fun y hy => ?_, fun o ho => .inl ⟨o, hout ▸ ho, rfl⟩, hctxs⟩
  rw [he] at hy
  obtain ⟨x, hx, rfl⟩ := List.mem_map.mp hy
  exact ⟨x, hx, hf x⟩

/-- The items that remain when some go. -/
theorem Over.filterItems {a d : Device} (h : Over a d) (f : Item → Bool) :
    Over a (d.mapHub fun x => { x with items := x.items.filter f }) :=
  h.trans ⟨fun y hy => ⟨y, (List.mem_filter.mp hy).1, Aged.refl y⟩, fun o ho => .inl ⟨o, ho, rfl⟩, rfl⟩

variable {a d : Device}

theorem Ends.foldl {β : Type} {f : Device → β → Device} (hf : ∀ d x, Ends a d → Ends a (f d x)) (l : List β)
    (h : Ends a d) : Ends a (l.foldl f d) := by
  induction l generalizing d with
  | nil => exact h
  | cons x l ih => exact ih (hf d x h)

theorem Ends.ite {c : Prop} [Decidable c] {e : Device} (h : Ends a d) (he : Ends a e) : Ends a (if c then d else e) := by
  split
  · exact h
  · exact he

theorem Over.ite {c : Prop} [Decidable c] {e : Device} (h : Over a d) (he : Over a e) : Over a (if c then d else e) := by
  split
  · exact h
  · exact he

/-! ### Shared updates -/

theorem Ends.updItem (h : Ends a d) (c q : Nat) {f : Item → Item} (hf : ∀ x, Aged x (f x)) : Ends a (d.updItem c q f) := by
  obtain ⟨hover, hrings⟩ := h
  refine ⟨hover.mapItems (f := fun x => if x.ctx == c && x.seq == q then f x else x) (fun x => ?_) rfl rfl rfl, hrings⟩
  split
  · exact hf x
  · exact Aged.refl x

theorem Ends.filterItems (h : Ends a d) (f : Item → Bool) :
    Ends a (d.mapHub fun x => { x with items := x.items.filter f }) := ⟨h.1.filterItems f, h.2⟩

theorem Ends.mapMem (h : Ends a d) (f : Mem → Mem) : Ends a (d.mapMem f) := h

theorem Ends.setLayer (h : Ends a d) (recAt i : Nat) (version : Dword) (slot : Bool) :
    Ends a (setLayer d recAt i version slot) := h

theorem Ends.count (h : Ends a d) (c n k : Nat) : Ends a (d.count c n k) := Ends.ite h h

theorem Over.count (h : Over a d) (c n k : Nat) : Over a (d.count c n k) := Over.ite h h

theorem emit_out (d : Device) (o : Output) : (d.emit o).ports.out = d.ports.out := by
  unfold Device.emit
  split
  · rfl
  · split <;> rfl

theorem Over.emit (h : Over a d) (o : Output) : Over a (d.emit o) := by
  unfold Over Later Asks
  rw [emit_out, Device.emit_hub]
  exact h

theorem Ends.emit (h : Ends a d) (o : Output) : Ends a (d.emit o) :=
  ⟨h.1.emit o, (congrArg Hub.rings (Device.emit_hub d o)).trans h.2⟩

theorem Over.updRing (h : Over a d) (c : Nat) (f : Ring → Ring) : Over a (d.updRing c f) := h

/-! ### The memory system -/

theorem closed_ends (a : Device) : Closed (Ends a) where
  count h := h.count
  emit h := h.emit
  prefUsed h _ _ _ := Ends.ite h h
  tick h _ := h
  mem h _ _ := h

theorem closed_over (a : Device) : Closed (Over a) where
  count h := h.count
  emit h := h.emit
  prefUsed h _ _ _ := Over.ite h h
  tick h _ := h
  mem h _ _ := h

theorem Ends.findWeak (h : Ends a d) (half : Nat) : Ends a (d.findWeak half) := by
  unfold Device.findWeak
  split
  · exact h
  · exact Ends.ite h h

theorem Ends.storeLine (h : Ends a d) {d1 : Device} {die : Option Nat} {tc key l : Nat} {patch : List (Option Byte)}
    (hs : d.storeLine die tc key l patch = some d1) : Ends a d1 := by
  have hread : Ends a (if die.isNone then (partialHalves patch).foldl (fun d h => d.findWeak (2 * l + h)) d else d) :=
    Ends.ite (Ends.foldl (fun d x h => h.findWeak _) _ h) h
  unfold Device.storeLine at hs
  dsimp only at hs
  generalize (if die.isNone then (partialHalves patch).foldl (fun d h => d.findWeak (2 * l + h)) d else d) = e at hread hs
  have htold : ∀ f, Ends a ((e.unusedLines f).backInval l) := fun f =>
    (closed_ends a).backInval ((closed_ends a).unusedLines hread f) l
  split at hs
  · cases hs
  · split at hs
    · obtain rfl := Option.some.inj hs
      exact (closed_ends a).cachePut ((htold _).mapMem _) _ _ _ _ _ _ _ _
    · obtain rfl := Option.some.inj hs
      exact htold _

theorem Ends.writeBackLine (h : Ends a d) (die : Nat) (x : CLine) : Ends a (d.writeBackLine die x).1 := by
  have hcount := (closed_ends a).countBack h die x
  unfold Device.writeBackLine
  split
  · exact h
  · dsimp only
    split
    · split
      · exact hcount.storeLine ‹_›
      · exact hcount
    · exact (closed_ends a).storeHostLine hcount _ _ _ _
    · exact hcount

/-- The device part of a fold that collects the writes lost. -/
theorem Ends.foldl_fst {β γ : Type} {f : Device × γ → β → Device × γ} (hf : ∀ r x, Ends a r.1 → Ends a (f r x).1)
    (l : List β) {r : Device × γ} (h : Ends a r.1) : Ends a (l.foldl f r).1 := by
  induction l generalizing r with
  | nil => exact h
  | cons x l ih => exact ih (hf r x h)

theorem Ends.cleanLines (h : Ends a d) (die core : Nat) (f : CLine → Bool) : Ends a (d.cleanLines die core f).1 := by
  have hback : Ends a (d.writeBackAll die ((d.core die core).lines.filter f)).1 := by
    unfold Device.writeBackAll
    refine Ends.foldl_fst (r := (d, [])) (fun r x (h : Ends a r.1) => ?_) _ h
    exact h.writeBackLine die x
  exact hback

theorem Ends.releaseSlice (h : Ends a d) (c q slice : Nat) : Ends a (d.releaseSlice c q slice).1 := by
  unfold Device.releaseSlice
  refine Ends.foldl_fst (fun r i h => ?_) _ h
  refine Ends.foldl_fst (fun r k (h : Ends a r.1) => ?_) _ h
  exact (h.count _ _ _).cleanLines _ _ _

/-! ### Writes of items -/

theorem peerVa_of_translate {d : Device} {c va key node rctx rva : Nat} {g : Acc}
    (h : Machine.translate d c va g = .ok (.peer node rctx rva, key)) : d.peerVa c va = true := by
  unfold Machine.translate at h
  unfold Device.peerVa
  cases hwalk : walk (d.ctx c) va with
  | none =>
    rw [hwalk] at h
    cases h
  | some e =>
    obtain ⟨e, sh⟩ := e
    have hkind : pteKind e ≤ 2 := by
      unfold walk at hwalk
      grind
    simp only [hwalk] at h
    split at h
    · have hplace : leafPlace e sh va = .peer node rctx rva := (Prod.mk.inj (Except.ok.inj h)).1
      unfold leafPlace at hplace
      split at hplace
      · cases hplace
      · cases hplace
      case h_3 hdev hhost =>
        have hpeer : pteKind e = 2 := by grind
        simpa using hpeer
    · cases h

theorem Ends.peerSend (h : Ends a d) (c seq port node rctx rva bytes va : Nat) (op : PeerOp) (use : PeerUse)
    (hpeer : ∃ va, d.peerVa c va = true) : Ends a (d.peerSend c seq port node rctx rva bytes va op use) := by
  obtain ⟨va', hva⟩ := hpeer
  unfold Device.peerSend
  refine Ends.emit ?_ _
  have hitem : ∀ q, Ends a (d.updItem c q fun it => { it with unmet := Nat.lor it.unmet 16 }) := fun q =>
    h.updItem c q fun _ => ⟨rfl, rfl, rfl, id, id⟩
  obtain ⟨⟨hitems, hasks, hctxs⟩, hrings⟩ := hitem _
  refine ⟨⟨hitems, fun o ho => ?_, hctxs⟩, hrings⟩
  rcases List.mem_append.mp ho with ho | ho
  · obtain ⟨p, hp, rfl⟩ := List.mem_map.mp ho
    rw [apply_ite PeerOut.ctx, ite_self]
    exact hasks p hp
  · obtain rfl := List.mem_singleton.mp ho
    exact .inr ⟨va', (peerVa_of_ctxs h.1.2.2 c va').symm.trans hva⟩

theorem Ends.countStore (h : Ends a d) (x : Actor) (tc : Nat) (host : Bool) (l : Nat) (bs : List Byte) :
    Ends a (d.countStore x tc host l bs) := by
  unfold Device.countStore
  split
  · exact h
  · exact Ends.ite h (h.count _ _ _)

theorem Ends.writePlace (h : Ends a d) {d1 : Device} {x : Actor} {tc va key : Nat} {pl : Place} {bs : List Byte}
    (hpl : Machine.translate d x.ctx va .write = .ok (pl, key)) (hw : d.writePlace x tc va pl key bs = .ok d1) : Ends a d1 := by
  unfold Device.writePlace at hw
  split at hw
  · split at hw
    · cases hw
    · split at hw
      · cases hw
      case h_2 hstore =>
        obtain rfl := Except.ok.inj hw
        exact (h.countStore _ _ _ _ _).storeLine hstore
  · split at hw
    · cases hw
    · obtain rfl := Except.ok.inj hw
      exact (closed_ends a).storeHostLine (h.countStore _ _ _ _ _) _ _ _ _
  · split at hw
    · cases hw
    · obtain rfl := Except.ok.inj hw
      exact h.peerSend _ _ _ _ _ _ _ _ _ _ ⟨va, peerVa_of_translate hpl⟩

theorem Ends.writeLoop {x : Actor} {tc : Nat} : ∀ (n : Nat) {d d1 : Device} {va : Nat} {bs : List Byte}, Ends a d →
    Device.writeLoop x tc n d va bs = .ok d1 → Ends a d1
  | 0, _, _, _, _, h, hw => by
    obtain rfl := Except.ok.inj hw
    exact h
  | n + 1, _, _, _, [], h, hw => by
    obtain rfl := Except.ok.inj hw
    exact h
  | n + 1, _, _, _, _ :: _, h, hw => by
    unfold Device.writeLoop at hw
    dsimp only at hw
    split at hw
    · cases hw
    case h_2 hplace =>
      split at hw
      · cases hw
      case h_2 hwrite => exact Ends.writeLoop n (h.writePlace hplace hwrite) hw

theorem Ends.writeVa (h : Ends a d) {d1 : Device} {x : Actor} {tc va : Nat} {bs : List Byte}
    (hw : d.writeVa x tc va bs = .ok d1) : Ends a d1 := Ends.writeLoop _ h hw

/-! ### Items leave the units that run them -/

theorem Ends.veResume (h : Ends a d) (die k : Nat) : Ends a (d.veResume die k) := by
  unfold Device.veResume
  dsimp only
  split
  · exact Ends.ite h h
  · exact h

theorem Ends.unusedNear (h : Ends a d) (c q : Nat) : Ends a (d.unusedNear c q) := by
  refine Ends.foldl (fun d x h => ?_) _ h
  split
  · exact Ends.ite h (h.count _ _ _)
  · exact h

theorem Ends.purgeOne (h : Ends a d) (c q : Nat) (how : Stop) : Ends a (d.purgeOne c q how) := by
  unfold Device.purgeOne
  exact Ends.foldl (fun d e h => h.veResume _ _) _ (h.unusedNear c q)

theorem Ends.freeBlock (h : Ends a d) (b : Nat) : Ends a (d.freeBlock b) := by
  unfold Device.freeBlock
  have hfree : ∀ d (e : Nat × Nat), Ends a d → Ends a (d.updVe e.1 e.2 fun v => { v with holder := none }) := fun _ _ h => h
  exact Ends.foldl hfree _ h

theorem Ends.undoSwap (h : Ends a d) (w : WSet) (r : Update) (i : Nat) : Ends a (undoSwap w r d i) := by
  unfold Machine.undoSwap
  split
  · exact h
  · dsimp only
    split
    · exact h
    case h_2 hw => exact Ends.count ((h.writeVa hw).setLayer _ _ _ _) _ _ _

theorem Ends.undoRun (h : Ends a d) (c q : Nat) : Ends a (d.undoRun c q) := by
  unfold Device.undoRun
  refine Ends.foldl (d := d) (fun d r h => ?_) _ h
  split
  · split
    · exact h
    · exact Ends.foldl (fun d i h => h.undoSwap _ _ _) _ h
  · exact h

theorem Ends.leaveUnits (h : Ends a d) (c q : Nat) (how : Stop) : Ends a (d.leaveUnits c q how) := by
  unfold Device.leaveUnits
  have hundone := (Ends.foldl (fun d b h => h.freeBlock b) _ (h.purgeOne c q how)).undoRun (d := (d.blocksOf c q).foldl _ _) c q
  dsimp only
  refine Ends.updItem ?_ _ _ fun _ => ⟨rfl, rfl, rfl, id, id⟩
  obtain ⟨⟨hitems, hasks, hctxs⟩, hrings⟩ := hundone
  exact ⟨⟨hitems, fun o ho => hasks o (List.mem_filter.mp ho).1, hctxs⟩, hrings⟩

/-! ### What a failed item leaves, and what it held -/

theorem Ends.mixDest (h : Ends a d) (it : Item) : Ends a (d.mixDest it) := by
  unfold Device.mixDest
  refine Ends.foldl (fun d va h => ?_) _ (show Ends a d.fresh.2 from h)
  unfold Device.mixByte
  split
  · split
    case h_1 hw => exact h.writeVa hw
    · exact h
  · exact h

theorem Ends.mixOnce (h : Ends a d) (it : Item) : Ends a (d.mixOnce it) :=
  Ends.ite h ((h.mixDest it).updItem _ _ fun _ => ⟨rfl, rfl, rfl, id, id⟩)

theorem Ends.dropSegs (h : Ends a d) (c : Nat) (f : Seg → Bool) : Ends a (d.dropSegs c f) := by
  have hcounted : Ends a ((d.mapMem fun m => { m with segs := m.segs.filter fun s => !(s.tag.ctx == c && f s) }).stashCount c) :=
    Ends.ite h h
  exact Ends.ite hcounted (hcounted.mapMem _)

theorem Ends.endClaims (h : Ends a d) (it : Item) (ok : Bool) : Ends a (d.endClaims it ok) := by
  unfold Device.endClaims
  exact (Ends.ite ((h.mapMem _).count _ _ _) (h.mapMem _)).dropSegs _ _

theorem Ends.endSave (h : Ends a d) (it : Item) (ok : Bool) : Ends a (d.endSave it ok) := by
  unfold Device.endSave
  split
  · exact h
  · exact Ends.ite ((h.mapMem _).dropSegs _ _) (h.dropSegs _ _)

theorem Ends.dropWork (h : Ends a d) (c w : Nat) (how : Stop) : Ends a (d.dropWork c w how) := by
  unfold Device.dropWork
  dsimp only
  split
  · exact h.leaveUnits c w how
  case h_2 it _ =>
    have hleft := h.leaveUnits c w how
    have hmix := Ends.ite (c := (it.issued && !it.mixed) = true) (hleft.mixDest it) hleft
    refine Ends.ite (hleft.updItem _ _ fun _ => ⟨rfl, rfl, rfl, fun _ => rfl, id⟩) ?_
    obtain ⟨⟨hitems, hasks, hctxs⟩, hrings⟩ := ((hmix.endClaims it false).endSave it false).filterItems
      fun i => !(i.ctx == c && i.seq == w)
    refine ⟨⟨hitems, fun o ho => ?_, hctxs⟩, hrings⟩
    obtain ⟨p, hp, rfl⟩ := List.mem_map.mp ho
    rw [apply_ite PeerOut.ctx, ite_self]
    exact hasks p hp

theorem Ends.purge (h : Ends a d) (c q : Nat) (how : Stop) : Ends a (d.purge c q how) := by
  unfold Device.purge
  exact Ends.foldl (fun d w h => h.dropWork c w how) _ (h.leaveUnits c q how)

theorem Ends.kernelCheck (h : Ends a d) (c q : Nat) : Ends a (d.kernelCheck c q) := by
  unfold Device.kernelCheck
  split
  · exact h
  · exact Ends.ite (h.updItem _ _ fun _ => ⟨rfl, rfl, rfl, fun _ => rfl, id⟩) h

theorem aged_settled (x : Item) (w : Nat) (o : Status × Nat) (unmet : Nat) : Aged x (x.settled w o unmet) := by
  unfold Item.settled
  extract_lets x1 first
  split
  · exact ⟨rfl, rfl, rfl, id, id⟩
  · exact ⟨rfl, rfl, rfl, id, id⟩

theorem Ends.settleWork (h : Ends a d) (c q : Nat) : Ends a (d.settleWork c q) := by
  unfold Device.settleWork
  split
  · exact h
  case h_2 it _ =>
    dsimp only
    generalize (it.isWork && it.phase == .done && !(d.writesAway c q || d.readsOut c q || d.issuedTiles c q != 0)) = drained
    have hmix := Ends.ite (c := drained = true) (h.mixOnce it) h
    split
    · refine (Ends.filterItems (Ends.updItem (d := Device.updBlock _ _ _) ?_ _ _ fun x => aged_settled x _ _ _) _).kernelCheck
        c it.layerIx
      exact (hmix.endClaims it it.outcome.1.success).endSave it it.outcome.1.success
    · exact hmix

theorem Ends.itemError (h : Ends a d) (c q : Nat) (s : Status) (detail : Nat) : Ends a (d.itemError c q s detail) := by
  unfold Device.itemError
  refine Ends.settleWork ((h.leaveUnits c q .now).updItem c q ?_) c q
  exact fun _ => ⟨rfl, rfl, rfl, fun _ => rfl, id⟩

theorem Ends.loseWrites {r : Device × Lost} (h : Ends a r.1) : Ends a (Device.loseWrites r) :=
  Ends.foldl (fun _ _ h => h.itemError _ _ _ _) _ h

/-! ### The other items of the context hear of the end -/

theorem Ends.leaveReel (h : Ends a d) (it : Item) : Ends a (d.leaveReel it) := by
  unfold Device.leaveReel
  split
  · exact h
  · exact Ends.ite h h

theorem Ends.joinReel (h : Ends a d) (it : Item) : Ends a (d.joinReel it).1 := by
  unfold Device.joinReel
  split
  · exact h
  · dsimp only
    generalize (if 255 < _ then Group.reset else d.group _) = g
    split
    · exact h
    · exact h

theorem Ends.loadWait (h : Ends a d) (time : Dword) (it : Item) : Ends a (d.loadWait time it) := by
  unfold Device.loadWait
  split
  · exact Ends.ite ((h.count _ _ _).updItem _ _ fun _ => ⟨rfl, rfl, rfl, id, id⟩) h
  · exact h

theorem aged_after (fin : Item) (s : Status) (idx : Nat) (x : Item) : Aged x (fin.after s idx x) := by
  unfold Item.after Aged
  grind

theorem Ends.tellOthers (h : Ends a d) (time : Dword) (fin : Item) (s : Status) (idx : Nat) :
    Ends a (d.tellOthers time fin s idx) := by
  unfold Device.tellOthers
  obtain ⟨hover, hrings⟩ := Ends.foldl (fun _ _ h => h.loadWait time _)
    (d.hub.items.filter fun x => x.phase != .done && (fin.after s idx x).phase == .done) h
  refine Ends.foldl (fun _ _ h => h.purge _ _ _) _ ⟨?_, hrings⟩
  exact hover.mapItems (aged_after fin s idx) rfl rfl rfl

/-! ### The end of an item, and its record -/

theorem Over.ends {e : Device} (h : Over a d) (h1 : Ends d e) : Over a e := h.trans h1.1

theorem Over.promote (h : Over a d) (c : Nat) : Over a (d.promote c) := by
  unfold Device.promote
  refine Over.count (d := Device.mapHub _ _) (h.mapItems
    (f := fun x => if x.ctx == c && d.promotable x then { x with promoted := true } else x) (fun x => ?_) rfl rfl rfl) _ _ _
  split
  · exact ⟨rfl, rfl, rfl, id, id⟩
  · exact Aged.refl x

theorem Over.countEnd (h : Over a d) (it : Item) : Over a (d.countEnd it) := Over.ite ((h.count _ _ _).count _ _ _) h

theorem Over.countStatus (h : Over a d) (c : Nat) (s : Status) : Over a (d.countStatus c s) := by
  have herr := Over.ite (c := s.itemError = true) (h.count c 137 1) h
  unfold Device.countStatus
  dsimp only
  split
  case h_10 => exact herr
  all_goals exact herr.count _ _ _

theorem Over.putRecord (h : Over a d) (c : Nat) (r : Record) : Over a (d.putRecord c r) := by
  unfold Device.putRecord
  exact ((((closed_over a).storeHostLine h _ _ _ _).updRing _ _).countStatus _ _).emit _

theorem Over.writeOldest (h : Over a d) (c : Nat) : Over a (d.writeOldest c) := by
  unfold Device.writeOldest
  split
  · exact h
  · exact Over.ite ((h.updRing _ _).putRecord _ _) h

theorem Over.pushRecord (h : Over a d) (c : Nat) (r : Record) : Over a (d.pushRecord c r) :=
  Over.ite ((h.updRing _ _).writeOldest c) (h.updRing _ _)

theorem Over.drainReport (h : Over a d) : Over a d.drainReport :=
  Over.ite (Over.emit (d := Device.mapReel _ _) h _) h

/-- An item that ends leaves the window, and the others follow. -/
theorem endNow_over_filterItems (h : Over a d) (time : Dword) (it : Item) : ∃ e, Over a e ∧
    Over (e.mapHub fun x => { x with items := x.items.filter fun y => !(y.ctx == it.ctx && y.seq == it.seq) })
      (Device.endNow time d it) := by
  unfold Device.endNow
  extract_lets r fin o idx ok lost left held told missed failed ended
  have hrelease : Over a r.1 := by
    unfold r
    split
    · exact h.ends ((Ends.refl d).releaseSlice _ _ _)
    · exact h
  have hlost : Over a lost := by
    have hstart : Ends r.1 (r.1, r.2.filter fun w => !(w.1 == fin.ctx && w.2.1 == fin.seq)).1 := Ends.refl r.1
    exact hrelease.ends (hstart.loseWrites.purge _ _ _)
  have hleft : Over a left := Over.ite hlost (hlost.ends ((Ends.refl lost).leaveReel _))
  have hheld : Over a held := hleft.ends (((Ends.refl left).endClaims _ _).endSave _ _)
  have hname : fin.ctx = it.ctx ∧ fin.seq = it.seq := by
    unfold fin
    split
    · exact ⟨rfl, rfl⟩
    · exact ⟨rfl, rfl⟩
  obtain ⟨hctx, hseq⟩ := hname
  refine ⟨held, hheld, ?_⟩
  rw [← hctx, ← hseq]
  have htold := ((Ends.refl (held.mapHub fun x => { x with
    items := x.items.filter fun y => !(y.ctx == fin.ctx && y.seq == fin.seq) })).tellOthers time fin o.1 idx).1
  have hfailed := Over.ite (c := missed = true) (htold.updRing fin.ctx fun g => { g with
    deferFails := g.deferFails ++ [(fin.seq + fin.deadline, idx)] }) htold
  have hended : Over _ ended := ((hfailed.updRing fin.ctx _).countEnd fin).promote fin.ctx
  exact (hended.pushRecord _ _).drainReport

theorem Over.endNow (h : Over a d) (time : Dword) (it : Item) : Over a (Device.endNow time d it) := by
  obtain ⟨e, he, hend⟩ := endNow_over_filterItems h time it
  exact (he.filterItems _).trans hend

theorem endNow_gone (time : Dword) (it : Item) : ∀ y ∈ (Device.endNow time d it).hub.items, ¬(y.ctx = it.ctx ∧ y.seq = it.seq) := by
  intro y hy hname
  obtain ⟨hctx, hseq⟩ := hname
  obtain ⟨e, -, hlater, -⟩ := endNow_over_filterItems (Over.refl d) time it
  obtain ⟨x, hx, hxctx, hxseq, -⟩ := hlater y hy
  have hother := (List.mem_filter.mp hx).2
  simp [← hxctx, ← hxseq, hctx, hseq] at hother

/-! ### Kills (R277, R345) -/

/-- Of the items with the number of `it`, each is done and killed. -/
def Ended (d : Device) (it : Item) : Prop :=
  ∀ y ∈ d.hub.items, y.ctx = it.ctx → y.seq = it.seq → y.phase = .done ∧ y.killCode.isSome = true

theorem Ended.over {e : Device} {it : Item} (h : Ended d it) (hover : Over d e) : Ended e it := by
  intro z hz hctx hseq
  obtain ⟨hlater, -⟩ := hover
  obtain ⟨y, hy, hyctx, hyseq, -, hdone, hkill⟩ := hlater z hz
  obtain ⟨hydone, hykill⟩ := h y hy (hyctx ▸ hctx) (hyseq ▸ hseq)
  exact ⟨hdone hydone, hkill hykill⟩

theorem ended_updItem {f : Item → Item} (d : Device) (it : Item)
    (hf : ∀ x, (f x).phase = .done ∧ (f x).killCode.isSome = true) : Ended (d.updItem it.ctx it.seq f) it := by
  intro y hy hyctx hyseq
  obtain ⟨x, -, rfl⟩ := List.mem_map.mp hy
  split
  · exact hf x
  case isFalse h =>
    simp only [if_neg h] at hyctx hyseq
    simp [hyctx, hyseq] at h

theorem ended_endNow (time : Dword) (it : Item) : Ended (Device.endNow time d it) it :=
  fun y hy hctx hseq => absurd ⟨hctx, hseq⟩ (endNow_gone time it y hy)

/-- An item that is killed ends: it is gone, or done and killed while its writes to partner memory are away. -/
theorem killOne_ends (h : Over a d) (time : Dword) (code : Nat) (it : Item) :
    Over a (Device.killOne time code d it) ∧ Ended (Device.killOne time code d it) it ∧
      ((∀ e, Over a e → e.writesAway it.ctx it.seq = false) →
        ∀ y ∈ (Device.killOne time code d it).hub.items, ¬(y.ctx = it.ctx ∧ y.seq = it.seq)) := by
  have hpurged := ((Ends.refl d).loadWait time it).purge it.ctx it.seq .now
  unfold Device.killOne
  extract_lets d1
  have hd1 : Over a d1 := h.ends hpurged
  split
  case isTrue haway =>
    refine ⟨?_, ended_updItem d1 it fun _ => ⟨rfl, rfl⟩, fun hnone => ?_⟩
    · exact hd1.ends ((Ends.refl d1).updItem _ _ fun _ => ⟨rfl, rfl, rfl, fun _ => rfl, fun _ => rfl⟩)
    · rw [hnone d1 hd1] at haway
      cases haway
  case isFalse =>
    unfold Device.endItem
    split
    · exact ⟨hd1.endNow _ _, ended_endNow time { it with killCode := some code }, fun _ => endNow_gone time { it with killCode := some code }⟩
    · extract_lets d2 it1
      have hd2 : Over a d2 := hd1.ends (((Ends.refl d1).purge it.ctx it.seq .now).mixDest { it with killCode := some code })
      split
      case isTrue haway =>
        refine ⟨?_, ended_updItem d2 it fun _ => ⟨rfl, rfl⟩, fun hnone => ?_⟩
        · exact hd2.ends ((Ends.refl d2).updItem _ _ fun _ => ⟨rfl, rfl, rfl, fun _ => rfl, fun _ => rfl⟩)
        · rw [hnone d2 hd2] at haway
          cases haway
      case isFalse => exact ⟨hd2.endNow _ _, ended_endNow time it1, fun _ => endNow_gone time it1⟩

/-- After the items of a list were killed, each is gone, or done and killed. -/
theorem killAll_ends (time : Dword) (code : Nat) (l : List Item) {d : Device} (h : Over a d) :
    Over a (l.foldl (Device.killOne time code) d) ∧ (∀ it ∈ l, Ended (l.foldl (Device.killOne time code) d) it) ∧
      ∀ it ∈ l, (∀ e, Over a e → e.writesAway it.ctx it.seq = false) →
        ∀ y ∈ (l.foldl (Device.killOne time code) d).hub.items, ¬(y.ctx = it.ctx ∧ y.seq = it.seq) := by
  induction l generalizing a d with
  | nil => exact ⟨h, fun _ hit => absurd hit List.not_mem_nil, fun _ hit => absurd hit List.not_mem_nil⟩
  | cons x l ih =>
    obtain ⟨hfirst, hended, hgone⟩ := killOne_ends h time code x
    obtain ⟨hall, hallEnded, hallGone⟩ := ih hfirst
    obtain ⟨hlast, -, -⟩ := ih (Over.refl (Device.killOne time code d x))
    refine ⟨hall, fun it hit => ?_, fun it hit hnone y hy hname => ?_⟩
    · rcases List.mem_cons.mp hit with rfl | hit
      · exact hended.over hlast
      · exact hallEnded it hit
    · rcases List.mem_cons.mp hit with rfl | hit
      · obtain ⟨hctx, hseq⟩ := hname
        obtain ⟨z, hz, hzctx, hzseq, -⟩ := hlast.1 y hy
        exact hgone hnone z hz ⟨hzctx ▸ hctx, hzseq ▸ hseq⟩
      · exact hallGone it hit hnone y hy hname

theorem Over.killUnfetched (time : Dword) (code c : Nat) : ∀ (n : Nat) {d : Device}, Over a d →
    Over a (Device.killUnfetched time code c n d)
  | 0, _, h => h
  | n + 1, d, h => by
    unfold Device.killUnfetched
    refine Over.ite h (Over.killUnfetched time code c n (Over.pushRecord (Over.count (Over.updRing ?_ _ _) _ _ _) _ _))
    exact h.ends (((Ends.refl d).joinReel _).leaveReel _)

theorem Over.lastKilled (h : Over a d) (time : Dword) (c code : Nat) : Over a (d.lastKilled time c code) :=
  Over.ite h ((Over.killUnfetched time code c _ h).ends ((Ends.refl _).dropSegs _ _))

theorem dropSegs_segs (d : Device) (c : Nat) (f : Seg → Bool) :
    (d.dropSegs c f).mem.segs = d.mem.segs.filter fun s => !(s.tag.ctx == c && f s) := by
  unfold Device.dropSegs Device.poolExtent Device.stashCount
  dsimp only
  split
  · split <;> rfl
  · split <;> rfl

theorem lastKilled_segs (d : Device) (time : Dword) (c code : Nat)
    (hnone : ∀ i ∈ (d.lastKilled time c code).hub.items, i.ctx ≠ c) :
    ∀ g ∈ (d.lastKilled time c code).mem.segs, g.tag.ctx ≠ c := by
  unfold Device.lastKilled at hnone ⊢
  split
  case isTrue h =>
    rw [if_pos h] at hnone
    obtain ⟨i, hi, hctx⟩ := List.any_eq_true.mp h
    exact absurd (eq_of_beq hctx) (hnone i hi)
  case isFalse =>
    intro g hg hctx
    rw [dropSegs_segs] at hg
    simp [hctx] at hg

/-- A context that waits for no partner module and reaches none has no write away. -/
theorem writesAway_of_over {c : Nat} (h : Over a d) (hout : ∀ o ∈ a.ports.out, o.ctx ≠ c) (hpeer : ∀ va, a.peerVa c va = false)
    (q : Nat) : d.writesAway c q = false := by
  obtain ⟨-, hasks, -⟩ := h
  refine List.any_eq_false.mpr fun o ho haway => ?_
  have hctx : o.ctx = c := by
    simp only [Bool.and_eq_true, beq_iff_eq] at haway
    exact haway.1.1
  subst hctx
  rcases hasks o ho with ⟨p, hp, hpctx⟩ | ⟨va, hva⟩
  · exact hout p hp hpctx
  · rw [hpeer va] at hva
    cases hva

/-- The accounting of a kill leaves no item of the context running (R217, R277, R136, R345). -/
theorem account_ends (d : Device) (time : Dword) (c code : Nat) :
    Over d (d.account time c code) ∧
    (∀ i ∈ (d.account time c code).hub.items, i.ctx = c → i.isWork = true ∨ (i.phase = .done ∧ i.killCode.isSome = true)) ∧
    ((∀ i ∈ (d.account time c code).hub.items, i.ctx ≠ c) → ∀ g ∈ (d.account time c code).mem.segs, g.tag.ctx ≠ c) ∧
    ((∀ va, d.peerVa c va = false) → (∀ o ∈ d.ports.out, o.ctx ≠ c) → (∀ i ∈ d.hub.items, i.ctx = c → i.isWork = false) →
      ∀ i ∈ (d.account time c code).hub.items, i.ctx ≠ c) := by
  unfold Device.account
  extract_lets d1
  have hfirst : Over d d1 := Over.refl d
  obtain ⟨hkilled, hended, hgone⟩ := killAll_ends time code (d1.hub.items.filter fun i => i.ctx == c && !i.isWork) hfirst
  generalize (d1.hub.items.filter fun i => i.ctx == c && !i.isWork).foldl (Device.killOne time code) d1 = d2 at hkilled hended hgone ⊢
  have hlast := (Over.refl d2).lastKilled time c code
  have hall := hkilled.trans hlast
  have hlisted : ∀ x ∈ d.hub.items, x.ctx = c → x.isWork = false →
      x ∈ d1.hub.items.filter fun i => i.ctx == c && !i.isWork := by
    intro x hx hctx hwork
    exact List.mem_filter.mpr ⟨hx, by simp [hctx, hwork]⟩
  refine ⟨hall, fun y hy hctx => ?_, lastKilled_segs d2 time c code, fun hpeer hout hwork y hy hctx => ?_⟩
  · obtain ⟨x, hx, hxctx, hxseq, hxby, -⟩ := hall.1 y hy
    cases hwork : x.isWork with
    | true =>
      left
      unfold Item.isWork at hwork ⊢
      rw [hxby, hwork]
    | false => exact .inr ((hended x (hlisted x hx (hxctx ▸ hctx) hwork)).over hlast y hy hxctx hxseq)
  · obtain ⟨z, hz, hzctx, hzseq, -⟩ := hlast.1 y hy
    obtain ⟨x, hx, hxctx, hxseq, -⟩ := hkilled.1 z hz
    have hxc : x.ctx = c := hxctx ▸ hzctx ▸ hctx
    refine hgone x (hlisted x hx hxc (hwork x hx hxc)) (fun e he => ?_) z hz ⟨hxctx, hxseq⟩
    rw [hxc]
    exact writesAway_of_over he hout hpeer x.seq

end Sys2Proof.Proofs.EndedItems
end


section
/-! O30: the fetch of descriptors (R255, R257, R347), and the kill that a descriptor's fault raises (R341, R345). -/

namespace Sys2Proof.Proofs.DescriptorFetch

open Sys2Proof.Machine Sys2Proof.Spec Sys2Proof.Proofs.EndedItems Sys2Proof.Proofs.Completions

/-! ### The context served -/

theorem mem_of_leastBy {α : Type} {key : α → Nat} {xs : List α} {x : α} (h : leastBy key xs = some x) : x ∈ xs := by
  have hfold : ∀ (l : List α) (y : α), (l.foldl (fun a b => if key b < key a then b else a) y) ∈ y :: l := by
    intro l
    induction l with
    | nil => simp
    | cons z l ih =>
      intro y
      have := ih (if key z < key y then z else y)
      simp only [List.foldl_cons, List.mem_cons] at this ⊢
      split at this <;> grind
  cases xs with
  | nil => cases h
  | cons y l =>
    obtain rfl := Option.some.inj h
    exact hfold l y

theorem mem_of_arbiter {n last c : Nat} {xs : List (Nat × Bool)} (h : arbiter n last xs = some c) : ∃ b, (c, b) ∈ xs := by
  unfold arbiter at h
  dsimp only at h
  obtain ⟨x, hx, rfl⟩ := Option.map_eq_some_iff.mp h
  have hmem := mem_of_leastBy hx
  split at hmem
  · exact ⟨x.2, hmem⟩
  · exact ⟨x.2, (List.mem_filter.mp hmem).1⟩

/-- The context served has an entry to fetch, and the window has room for it (R255, R286). -/
theorem served_of_fetchNext {d : Device} {c : Nat} (h : d.fetchNext = some c) :
    d.hasEntries c = true ∧ d.windowFull c = false := by
  obtain ⟨b, hb⟩ := mem_of_arbiter h
  obtain ⟨g, hg, hgc⟩ := List.mem_map.mp hb
  obtain rfl : g.1 = c := (Prod.mk.inj hgc).1
  have hopen := (List.mem_filter.mp hg).2
  simpa using hopen

theorem hasEntries_iff (d : Device) (c : Nat) : d.hasEntries c = true ↔
    (d.ctx c).st = .opened ∧ d.reel.snap = 0 ∧ (d.ring c).blk.st = .on ∧ (d.ring c).sqHead ≠ (d.ring c).sqTail := by
  simp [Device.hasEntries, Blk.isOn, and_assoc]

theorem windowFull_of_window {d : Device} {c : Nat} (h : 1024 ≤ d.window c) : d.windowFull c = true := by
  simp [Device.windowFull, Config.ctxWindow, h]

theorem windowFull_of_windowAll {d : Device} {c : Nat} (h : 16384 ≤ d.windowAll)
    (hshare : 64 * (d.slice (d.nextSlice c)).ringShare ≤
      (d.hub.items.filter fun x => x.slice == d.nextSlice c && !x.isWork).length) : d.windowFull c = true := by
  have hall : Config.partWindow ≤ d.windowAll + d.heldFor (d.nextSlice c) := Nat.le_add_right_of_le h
  simp [Device.windowFull, hall, Nat.not_lt.mpr hshare]

theorem exec_of_not_served {s : State} {c : Nat} (h : s.dev.fetchNext ≠ some c) (ps : List Nat) (ns : Nat) :
    exec (.descriptorFetch c ps ns) s = .next s :=
  congrArg Host.Outcome.next (congrArg (fun d => { s with dev := d }) (if_neg h))

/-! ### One fetch -/

/-- With one entry before the tail, a fetch is of that entry alone. -/
theorem exec_of_one {s : State} {c : Nat} {ps : List Nat} {ns : Nat} (h : s.dev.fetchNext = some c) {d1 : Device} {more : Bool}
    (hone : (s.dev.mapHub fun h => { h with lastFetch := c }).fetchOne s.plat c (ps.contains (s.dev.ring c).sqHead) ns = (d1, more))
    (hlast : more = true → (d1.ring c).sqHead = (d1.ring c).sqTail) :
    exec (.descriptorFetch c ps ns) s = .next { s with dev := d1 } := by
  obtain ⟨hentries, hwindow⟩ := served_of_fetchNext h
  obtain ⟨-, -, -, hhead⟩ := (hasEntries_iff _ _).mp hentries
  have hgo : ¬(decide ((s.dev.ring c).sqHead = (s.dev.ring c).sqTail) || s.dev.windowFull c) = true := by
    simp [hhead, hwindow]
  have hloop : Device.fetchLoop s.plat c ps ns 16 (s.dev.mapHub fun h => { h with lastFetch := c }) = d1 := by
    unfold Device.fetchLoop
    refine (if_neg hgo).trans ?_
    dsimp only
    rw [show ((s.dev.mapHub fun h => { h with lastFetch := c }).ring c).sqHead = (s.dev.ring c).sqHead from rfl, hone]
    cases more with
    | false => rfl
    | true =>
      dsimp only
      unfold Device.fetchLoop
      dsimp only
      exact if_pos (by simp [hlast rfl])
  exact congrArg Host.Outcome.next (congrArg (fun d => { s with dev := d }) ((if_pos h).trans hloop))

/-- The entry at the head of a context's ring (R255). -/
def headDesc (d : Device) (c : Nat) : List Byte :=
  (List.range 64).map fun i => d.mem.hostByte ((d.ring c).sqBase + 64 * (d.ring c).sqHead + i)

/-- The entry at the head as the item it becomes. -/
def headItem (d : Device) (time : Dword) (c : Nat) : Item :=
  newItem c (d.ring c).nextSeq ((d.ctx c).sliceFor (field (headDesc d c) 1 1 % 4)) (headDesc d c)
    ((d.ring c).bellOf (d.ring c).nextSeq time)

/-- The ring engine takes an entry from the ring. -/
def takeEntry (d : Device) (c : Nat) : Device :=
  (d.updRing c fun g => { g with
    sqHead := (g.sqHead + 1) % g.sqSize, nextSeq := (d.ring c).nextSeq + 1, outcomes := d.keptOutcomes c (d.ring c).nextSeq
    bells := g.bells.filter fun b => decide ((d.ring c).nextSeq + 1 < b.1) }).count c 117 1

section Take
variable (d : Device) (c : Nat)

theorem takeEntry_ring_other {k : Nat} (h : k ≠ c) : (takeEntry d c).ring k = d.ring k := by
  rw [takeEntry, Device.count_ring, Device.ring_updRing, if_neg h]

theorem takeEntry_ring : (takeEntry d c).ring c = { d.ring c with
    sqHead := ((d.ring c).sqHead + 1) % (d.ring c).sqSize, nextSeq := (d.ring c).nextSeq + 1
    outcomes := d.keptOutcomes c (d.ring c).nextSeq
    bells := (d.ring c).bells.filter fun b => decide ((d.ring c).nextSeq + 1 < b.1) } := by
  rw [takeEntry, Device.count_ring, Device.ring_updRing, if_pos rfl]

theorem takeEntry_items : (takeEntry d c).hub.items = d.hub.items := Device.count_items ..

theorem takeEntry_ends : Over d (takeEntry d c) := ((Over.refl d).updRing _ _).count _ _ _

theorem takeEntry_counter :
    ((takeEntry d c).counter c 117).toNat = min ((d.counter c 117).toNat + 1) (2 ^ 64 - 1) := by
  rw [takeEntry, Device.counter_count, if_pos rfl, satAdd64, BitVec.toNat_ofNat]
  exact Nat.mod_eq_of_lt (by omega)

end Take

/-- An entry whose check raises a fault is an item that the fault kills with its context (R257, R341). -/
theorem fetchOne_fault {d : Device} {p : Platform} {c ns : Nat} {f : FaultCode} (hfault : d.entryFault c (headDesc d c) = some f) :
    let joined := (takeEntry d c).joinReel (headItem d p.pow.time c)
    d.fetchOne p c false ns = ((joined.1.mapHub fun h => { h with items := h.items ++ [joined.2] }).takeFaults p c
      [⟨f, 0, 60, 0xFF, 0, (d.ring c).nextSeq % (d.ring c).sqSize, noPc, 0, 0,
        if f = .misaligned then misalignedAt (headDesc d c) else 0⟩], false) := by
  unfold headDesc at hfault
  unfold Device.fetchOne
  simp only [hfault]
  rfl

theorem joinReel_of_group {d : Device} {it : Item} (h : it.group = none) : d.joinReel it = (d, it) := by
  unfold Device.joinReel
  rw [h]

theorem fetchOne_clean {d : Device} {p : Platform} {c ns : Nat} (hfault : d.entryFault c (headDesc d c) = none)
    (hdefer : bitOf (field (headDesc d c) 1 1) 2 = false) (hnorm : field (headDesc d c) 0 1 ≠ 4)
    (hreel : field (headDesc d c) 0 1 ≠ 8) (hfails : (d.ring c).deferFails = []) :
    d.fetchOne p c false ns = ((takeEntry d c).mapHub fun h => { h with
      items := h.items ++ [{ headItem d p.pow.time c with hostNs := ns - 1000 }] }, true) := by
  have hdefers : (headItem d p.pow.time c).deferBit = false := hdefer
  have hgroup : (headItem d p.pow.time c).group = none := by
    unfold Item.group
    split
    case h_1 htyp => exact absurd htyp hnorm
    case h_2 htyp => exact absurd htyp hreel
    case h_3 => rfl
  have hjoin := joinReel_of_group (d := takeEntry d c) hgroup
  unfold headItem headDesc takeEntry at hjoin
  unfold headItem headDesc at hdefers
  unfold headDesc at hfault
  unfold Device.fetchOne
  simp only [hfault, hjoin, hfails, hdefers, Item.badDeadline]
  rfl

/-- The device after an entry came poisoned: a record and no item (R347). -/
def poisonedEntry (d : Device) (time : Dword) (c : Nat) : Device :=
  (((takeEntry d c).setOutcome time c (d.ring c).nextSeq .eccUncorrectable false).tellOthers time
    (newItem c (d.ring c).nextSeq 0 [] 0) .eccUncorrectable ((d.ring c).nextSeq % (d.ring c).sqSize)).pushRecord c
      ⟨.eccUncorrectable, false, 0, time.setWidth 32, (d.ring c).nextSeq % (d.ring c).sqSize,
        BitVec.ofNat 64 (detailHalf ((d.ring c).sqBase + 64 * (d.ring c).sqHead)), 0, false, 0⟩

theorem fetchOne_poisoned (d : Device) (p : Platform) (c ns : Nat) :
    d.fetchOne p c true ns = (poisonedEntry d p.pow.time c, true) := rfl

/-! ### Poisoned entries -/

/-- Records that come to wait, or are written, leave the head, the fetched entries and the outcomes of their ring. -/
theorem pushRecord_ring (d : Device) (c : Nat) (r : Record) :
    ((d.pushRecord c r).ring c).sqHead = (d.ring c).sqHead ∧ ((d.pushRecord c r).ring c).sqTail = (d.ring c).sqTail ∧
      ((d.pushRecord c r).ring c).nextSeq = (d.ring c).nextSeq ∧ ((d.pushRecord c r).ring c).outcomes = (d.ring c).outcomes := by
  have hwait : ∀ f : Ring → Ring, (d.updRing c f).ring c = f (d.ring c) := fun f => by rw [Device.ring_updRing, if_pos rfl]
  unfold Device.pushRecord
  dsimp only
  split
  · unfold Device.writeOldest
    split
    · rw [hwait]
      exact ⟨rfl, rfl, rfl, rfl⟩
    · split
      · rw [putRecord_ring, if_pos rfl, Device.ring_updRing, if_pos rfl, hwait]
        exact ⟨rfl, rfl, rfl, rfl⟩
      · rw [hwait]
        exact ⟨rfl, rfl, rfl, rfl⟩
  · rw [hwait]
    exact ⟨rfl, rfl, rfl, rfl⟩

theorem poisonedEntry_over (d : Device) (time : Dword) (c : Nat) : Over d (poisonedEntry d time c) :=
  ((((takeEntry_ends d c).updRing _ _).ends ((Ends.refl _).tellOthers _ _ _ _)).pushRecord _ _)

theorem poisonedEntry_ring (d : Device) (time : Dword) (c : Nat) :
    ((poisonedEntry d time c).ring c).sqHead = ((d.ring c).sqHead + 1) % (d.ring c).sqSize ∧
      ((poisonedEntry d time c).ring c).sqTail = (d.ring c).sqTail ∧
      ((poisonedEntry d time c).ring c).nextSeq = (d.ring c).nextSeq + 1 ∧
      outcomeIs (poisonedEntry d time c) c (d.ring c).nextSeq .eccUncorrectable := by
  have hset : ((takeEntry d c).setOutcome time c (d.ring c).nextSeq .eccUncorrectable false).ring c = { (takeEntry d c).ring c with
      outcomes := FMap.set none ((takeEntry d c).ring c).outcomes (d.ring c).nextSeq (some (.eccUncorrectable, time, false)) } := by
    rw [Device.setOutcome, Device.ring_updRing, if_pos rfl]
  have htold : ∀ e fin s idx, (Device.tellOthers e time fin s idx).ring c = e.ring c := fun e fin s idx =>
    congrArg (FMap.get Ring.reset · c) ((Ends.refl e).tellOthers time fin s idx).2
  unfold poisonedEntry
  obtain ⟨hhead, htail, hseq, houtcomes⟩ := pushRecord_ring (((takeEntry d c).setOutcome time c (d.ring c).nextSeq .eccUncorrectable
    false).tellOthers time (newItem c (d.ring c).nextSeq 0 [] 0) .eccUncorrectable ((d.ring c).nextSeq % (d.ring c).sqSize)) c
    ⟨.eccUncorrectable, false, 0, time.setWidth 32, (d.ring c).nextSeq % (d.ring c).sqSize,
        BitVec.ofNat 64 (detailHalf ((d.ring c).sqBase + 64 * (d.ring c).sqHead)), 0, false, 0⟩
  rw [htold, hset, takeEntry_ring] at hhead htail hseq houtcomes
  refine ⟨hhead, htail, hseq, ?_⟩
  unfold outcomeIs
  rw [houtcomes, FMap.get_set, if_pos rfl]
  rfl

theorem item_none_iff (d : Device) (c q : Nat) : d.item c q = none ↔ ∀ x ∈ d.hub.items, ¬(x.ctx = c ∧ x.seq = q) := by
  simp [Device.item, List.find?_eq_none]

theorem item_none_of_over {a d : Device} (h : Over a d) {c q : Nat} (hnone : a.item c q = none) : d.item c q = none := by
  rw [item_none_iff] at hnone ⊢
  intro y hy hname
  obtain ⟨hlater, -⟩ := h
  obtain ⟨x, hx, hctx, hseq, -⟩ := hlater y hy
  exact hnone x hx (hctx ▸ hseq ▸ hname)

/-! ### Entries that fail their check -/

theorem faultNum_lt (f : FaultCode) : faultNum f < 2 ^ 16 := by
  cases f <;> decide

/-- A fault of an open context leaves none of its items running (R217, R277, R327, R345). -/
theorem takeFaults_noItems {s : State} {d : Device} {p : Platform} {c : Nat} (f : FaultInfo) (h : (d.ctx c).st = .opened)
    (hctxs : d.hub.ctxs = s.dev.hub.ctxs) (hout : d.ports.out = s.dev.ports.out)
    (hitems : ∀ i ∈ d.hub.items, i ∈ s.dev.hub.items ∨ i.isWork = false) : noItems s (d.takeFaults p c [f]) c := by
  unfold Device.takeFaults
  simp only [h]
  obtain ⟨-, hended, hsegs, hgone⟩ := account_ends (((d.updCtx c fun x => { x with
    st := .killed, fault := FaultRec.ofInfo (firstFault f []) p.pow.time 0 }).updRing c fun r => { r with killMsix := true }).logEvent
      p.pow.time 0x0002 3 0 (faultNum (firstFault f []).code + c % 4096 * 2 ^ 16) (.sqIndex (firstFault f []).sqIndex))
      p.pow.time c (faultNum (firstFault f []).code)
  refine ⟨hended, hsegs, fun hpeer houts hwork => hgone (fun va => ?_) (fun o ho => houts o (hout ▸ ho)) fun i hi hctx => ?_⟩
  · have hsame := peerVa_of_ctxs hctxs c va
    rw [← hpeer va, ← hsame]
    have hread : ((d.updCtx c fun x => { x with
        st := .killed, fault := FaultRec.ofInfo (firstFault f []) p.pow.time 0 }).ctx c) = { d.ctx c with
          st := .killed, fault := FaultRec.ofInfo (firstFault f []) p.pow.time 0 } := by
      rw [Device.ctx_updCtx, if_pos rfl]
    exact congrArg (fun x => (walk x va).any fun e => pteKind e.1 == 2) hread
  · rcases hitems i hi with hi | hwork
    · exact hwork i hi hctx
    · exact hwork

theorem joinReel_kept (d : Device) (it : Item) : (d.joinReel it).1.hub = d.hub ∧ (d.joinReel it).1.ports = d.ports ∧
    (d.joinReel it).2.issuedBy = it.issuedBy := by
  unfold Device.joinReel
  split
  · exact ⟨rfl, rfl, rfl⟩
  · dsimp only
    generalize (if 255 < _ then Group.reset else d.group _) = g
    split
    · exact ⟨rfl, rfl, rfl⟩
    · exact ⟨rfl, rfl, rfl⟩

/-! ### The four outcomes of a fetch -/

theorem fetchNext_of_not_open {d : Device} {c : Nat} (h : (d.ctx c).st ≠ .opened ∨ (d.ring c).blk.st ≠ .on ∨
    (d.ring c).sqHead = (d.ring c).sqTail ∨ d.reel.snap ≠ 0 ∨ 1024 ≤ d.window c ∨
      (16384 ≤ d.windowAll ∧ 64 * (d.slice (d.nextSlice c)).ringShare ≤
        (d.hub.items.filter fun x => x.slice == d.nextSlice c && !x.isWork).length) ∨ d.fetchNext ≠ some c) :
    d.fetchNext ≠ some c := by
  intro hnext
  obtain ⟨hentries, hwindow⟩ := served_of_fetchNext hnext
  obtain ⟨hopen, hsnap, hon, hhead⟩ := (hasEntries_iff _ _).mp hentries
  rcases h with h | h | h | h | h | ⟨hall, hshare⟩ | h
  · exact h hopen
  · exact h hon
  · exact hhead h
  · exact h hsnap
  · exact Bool.false_ne_true (hwindow.symm.trans (windowFull_of_window h))
  · exact Bool.false_ne_true (hwindow.symm.trans (windowFull_of_windowAll hall hshare))
  · exact h hnext

section Served
variable {s : State} {c : Nat} (hnext : s.dev.fetchNext = some c)
  (hlast : ((s.dev.ring c).sqHead + 1) % (s.dev.ring c).sqSize = (s.dev.ring c).sqTail)
include hnext

theorem opened_of_fetchNext : (s.dev.ctx c).st = .opened :=
  ((hasEntries_iff _ _).mp (served_of_fetchNext hnext).1).1

include hlast in
theorem fetch_clean (ns : Nat) (hfault : s.dev.entryFault c (headDesc s.dev c) = none)
    (hdefer : bitOf (field (headDesc s.dev c) 1 1) 2 = false) (hnorm : field (headDesc s.dev c) 0 1 ≠ 4)
    (hreel : field (headDesc s.dev c) 0 1 ≠ 8) (hfails : (s.dev.ring c).deferFails = []) :
    ∃ t, exec (.descriptorFetch c [] ns) s = .next t ∧ t.plat = s.plat ∧ t.dev.mem = s.dev.mem ∧
      t.dev.hub.items = s.dev.hub.items ++ [{ headItem s.dev s.plat.pow.time c with hostNs := ns - 1000 }] ∧
      t.dev.hub.lastFetch = c ∧ (t.dev.ring c).sqHead = (s.dev.ring c).sqTail ∧
      (t.dev.ring c).nextSeq = (s.dev.ring c).nextSeq + 1 ∧ (∀ k, k ≠ c → t.dev.ring k = s.dev.ring k) ∧
      (t.dev.counter c 117).toNat = min ((s.dev.counter c 117).toNat + 1) (2 ^ 64 - 1) := by
  let d := s.dev.mapHub fun h => { h with lastFetch := c }
  have hring : ((takeEntry d c).ring c).sqHead = ((takeEntry d c).ring c).sqTail := by
    rw [takeEntry_ring]
    exact hlast
  refine ⟨_, exec_of_one hnext (fetchOne_clean (d := d) hfault hdefer hnorm hreel hfails) fun _ => hring, rfl,
    Device.count_mem .., congrArg (· ++ _) (takeEntry_items d c), ?_, ?_, ?_, fun k hk => takeEntry_ring_other d c hk,
    takeEntry_counter d c⟩
  · exact (congrArg Hub.lastFetch (congrArg Device.hub (Device.count_eq ..))).trans (by split <;> rfl)
  · exact (congrArg Machine.Ring.sqHead (takeEntry_ring d c)).trans hlast
  · exact congrArg Machine.Ring.nextSeq (takeEntry_ring d c)

theorem fetch_fault (ns : Nat) {f : FaultCode} (hfault : s.dev.entryFault c (headDesc s.dev c) = some f) :
    ∃ t, exec (.descriptorFetch c [] ns) s = .next t ∧ (t.dev.ctx c).st = .killed ∧
      (t.dev.ctx c).fault.code.toNat = faultNum f ∧ (t.dev.ctx c).fault.source = 0 ∧
      (t.dev.ctx c).fault.die = 60 ∧ (t.dev.ctx c).fault.unit = 255 ∧ noItems s t.dev c := by
  let d := s.dev.mapHub fun h => { h with lastFetch := c }
  let joined := (takeEntry d c).joinReel (headItem d s.plat.pow.time c)
  let d1 := joined.1.mapHub fun h => { h with items := h.items ++ [joined.2] }
  obtain ⟨hhub, hports, hby⟩ := joinReel_kept (takeEntry d c) (headItem d s.plat.pow.time c)
  have hctxs : d1.hub.ctxs = s.dev.hub.ctxs := (congrArg Hub.ctxs hhub).trans (takeEntry_ends d c).2.2
  have hout : d1.ports.out = s.dev.ports.out := (congrArg Ports.out hports).trans (congrArg Ports.out (Device.count_ports ..))
  have hopen : (d1.ctx c).st = .opened :=
    (congrArg (fun x => (FMap.get Ctx.free x c).st) hctxs).trans (opened_of_fetchNext hnext)
  refine ⟨_, exec_of_one hnext (fetchOne_fault (d := d) hfault) fun h => absurd h Bool.false_ne_true, ?_⟩
  have hrec := ItemEnds.takeFaults_killed (d := d1) s.plat
    ⟨f, 0, 60, 0xFF, 0, (d.ring c).nextSeq % (d.ring c).sqSize, noPc, 0, 0,
      if f = .misaligned then misalignedAt (headDesc d c) else 0⟩ [] hopen
  have hnone := takeFaults_noItems (s := s) (p := s.plat)
    ⟨f, 0, 60, 0xFF, 0, (d.ring c).nextSeq % (d.ring c).sqSize, noPc, 0, 0,
      if f = .misaligned then misalignedAt (headDesc d c) else 0⟩ hopen hctxs hout fun i hi => by
    rcases List.mem_append.mp hi with hi | hi
    · rw [hhub, takeEntry_items] at hi
      exact .inl hi
    · rw [List.mem_singleton.mp hi]
      exact .inr (by rw [Item.isWork, hby]; rfl)
  refine ⟨congrArg Ctx.st hrec, ?_, congrArg (fun x => x.fault.source) hrec, congrArg (fun x => x.fault.die) hrec,
    congrArg (fun x => x.fault.unit) hrec, hnone⟩
  have hcode := congrArg (fun x => x.fault.code.toNat) hrec
  exact hcode.trans (Nat.mod_eq_of_lt (faultNum_lt f))

include hlast in
theorem fetch_poisoned (ns : Nat) : ∃ t, exec (.descriptorFetch c [(s.dev.ring c).sqHead] ns) s = .next t ∧
    (s.dev.item c (s.dev.ring c).nextSeq = none → t.dev.item c (s.dev.ring c).nextSeq = none) ∧
    (t.dev.ctx c).st = .opened ∧ (t.dev.ring c).sqHead = (s.dev.ring c).sqTail ∧
    outcomeIs t.dev c (s.dev.ring c).nextSeq .eccUncorrectable := by
  let d := s.dev.mapHub fun h => { h with lastFetch := c }
  have hpoison : [(s.dev.ring c).sqHead].contains (s.dev.ring c).sqHead = true := by simp
  obtain ⟨hhead, htail, -, houtcome⟩ := poisonedEntry_ring d s.plat.pow.time c
  have hover := poisonedEntry_over d s.plat.pow.time c
  refine ⟨_, exec_of_one hnext ((congrArg (d.fetchOne s.plat c · ns) hpoison).trans (fetchOne_poisoned d s.plat c ns))
    fun _ => ?_, fun hnone => item_none_of_over hover hnone, ?_, hhead.trans hlast, houtcome⟩
  · exact hhead.trans (hlast.trans htail.symm)
  · exact (congrArg (fun x => (FMap.get Ctx.free x c).st) hover.2.2).trans (opened_of_fetchNext hnext)

end Served

/-- Settles O30: the context served has an entry that the window has room for; the entry becomes an item, or its fault kills the context
by the accounting of `EndedItems`, or its poisoned response a record. -/
theorem descriptorsAreFetchedAndChecked : Obligations.DescriptorsAreFetchedAndChecked := by
  unfold Obligations.DescriptorsAreFetchedAndChecked
  intro s c
  refine ⟨fun h ps ns => exec_of_not_served (fetchNext_of_not_open h) ps ns, fun hnext hlast ns => ⟨?_, ?_, ?_⟩⟩
  · exact fetch_clean hnext hlast ns
  · exact fun f hfault => fetch_fault hnext ns hfault
  · exact fetch_poisoned hnext hlast ns

end Sys2Proof.Proofs.DescriptorFetch
end


section
/-! O60: fetched items are numbered below 2^32, work records from 2^32 on (log 76). The invariant, and what leaves the items alone. Only
`Device.fetchOne` and `Device.enterWork` make items come; everything else lets items change in place, keeping their numbers, or go. The
lemmas stand in the order of the model's files. -/

namespace Sys2Proof.Proofs.ItemNumbers

open Sys2Proof.Machine Sys2Proof.Spec Sys2Proof.Proofs.QuietMemory Sys2Proof.Proofs.EndedItems

/-- The item has a number of its kind: a fetched item one below 2^32, a work record one from there on. -/
def NumberOk (x : Item) : Prop := if x.isWork then 2 ^ 32 ≤ x.seq else x.seq < 2 ^ 32

/-- Each item of a list has a number of its kind. -/
structure NumbersOk (xs : List Item) : Prop where
  ok : ∀ x ∈ xs, NumberOk x

/-- The invariant of O60. -/
def Numbered (d : Device) : Prop := NumbersOk d.hub.items

theorem numbered_iff {d : Device} : Numbered d ↔ itemsNumbered d := ⟨fun h => h.ok, fun h => ⟨h⟩⟩

/-- Items of one number and one kind. -/
def SameNumber (x y : Item) : Prop := y.seq = x.seq ∧ y.issuedBy = x.issuedBy

theorem SameNumber.ok {x y : Item} (h : SameNumber x y) (hx : NumberOk x) : NumberOk y := by
  obtain ⟨hseq, hby⟩ := h
  unfold NumberOk Item.isWork
  rwa [hseq, hby]

theorem Aged.ok {x y : Item} (h : Aged x y) (hx : NumberOk x) : NumberOk y := by
  obtain ⟨-, hseq, hby, -⟩ := h
  exact SameNumber.ok ⟨hseq, hby⟩ hx

variable {d e : Device}

/-- What has the items of a device. -/
theorem numbered_congr (h : e.hub.items = d.hub.items) : Numbered e ↔ Numbered d := by
  unfold Numbered
  rw [h]

/-- What the memory system does beside the work leaves the items. -/
theorem numbered_of_quiet (h : Quiet d e) : Numbered e ↔ Numbered d := numbered_congr h.1

/-- However items end, an item that remains keeps its number. -/
theorem Numbered.later (h : Numbered d) (hlater : Later d e) : Numbered e := by
  refine numbered_iff.mpr fun y hy => ?_
  obtain ⟨x, hx, hxy⟩ := hlater y hy
  exact Aged.ok hxy (numbered_iff.mp h x hx)

theorem Numbered.over (h : Numbered d) (hover : Over d e) : Numbered e := h.later hover.1

theorem Numbered.ends (h : Numbered d) (hends : Ends d e) : Numbered e := h.over hends.1

@[simp] theorem numbered_ite (c : Prop) [Decidable c] :
    Numbered (if c then d else e) ↔ if c then Numbered d else Numbered e := by
  split <;> rfl

@[simp] theorem numbered_fst_ite {α : Type} (c : Prop) [Decidable c] (r u : Device × α) :
    Numbered (if c then r else u).1 ↔ if c then Numbered r.1 else Numbered u.1 := by
  split <;> rfl

/-- A fold keeps what each of its steps keeps. -/
theorem Numbered.foldl {β : Type} {f : Device → β → Device} (h : Numbered d) (hf : ∀ d x, Numbered d → Numbered (f d x))
    (l : List β) : Numbered (l.foldl f d) := by
  induction l generalizing d with
  | nil => exact h
  | cons x l ih => exact ih (hf d x h)

@[simp] theorem numbered_foldl {β : Type} {f : Device → β → Device} (hf : ∀ d x, Numbered (f d x) ↔ Numbered d) (l : List β) :
    Numbered (l.foldl f d) ↔ Numbered d := by
  induction l generalizing d with
  | nil => rfl
  | cons x l ih => exact ih.trans (hf d x)

theorem Numbered.foldl_fst {α β : Type} {f : Device × α → β → Device × α} {r : Device × α} (h : Numbered r.1)
    (hf : ∀ r x, Numbered r.1 → Numbered (f r x).1) (l : List β) : Numbered (l.foldl f r).1 := by
  induction l generalizing r with
  | nil => exact h
  | cons x l ih => exact ih (hf r x h)

/-! ### Items that change, go or come -/

section Items
variable (d)

/-- Items that change keep their numbers. -/
theorem Numbered.mapItems (h : Numbered d) {f : Item → Item} (hf : ∀ x, SameNumber x (f x)) :
    Numbered (d.mapHub fun h => { h with items := h.items.map f }) := by
  refine numbered_iff.mpr fun y hy => ?_
  obtain ⟨x, hx, rfl⟩ := List.mem_map.mp hy
  exact (hf x).ok (numbered_iff.mp h x hx)

/-- An item with a number of its kind may come. -/
theorem Numbered.addItem (h : Numbered d) {x : Item} (hx : NumberOk x) :
    Numbered (d.mapHub fun h => { h with items := h.items ++ [x] }) := by
  refine numbered_iff.mpr fun y hy => ?_
  rcases List.mem_append.mp hy with hy | hy
  · exact numbered_iff.mp h y hy
  · rwa [List.mem_singleton.mp hy]

@[simp] theorem numbered_updItem (c q : Nat) {f : Item → Item} (hf : ∀ x, (f x).seq = x.seq ∧ (f x).issuedBy = x.issuedBy) :
    Numbered (d.updItem c q f) ↔ Numbered d := by
  have hsame : ∀ x, SameNumber x (if x.ctx == c && x.seq == q then f x else x) ∧
      SameNumber (if x.ctx == c && x.seq == q then f x else x) x := fun x => by
    obtain ⟨hseq, hby⟩ := hf x
    split
    · exact ⟨⟨hseq, hby⟩, hseq.symm, hby.symm⟩
    · exact ⟨⟨rfl, rfl⟩, rfl, rfl⟩
  refine ⟨fun h => numbered_iff.mpr fun x hx => ?_, fun h => h.mapItems d fun x => (hsame x).1⟩
  exact (hsame x).2.ok (numbered_iff.mp h _ (List.mem_map_of_mem hx))

end Items

/-! ### Updates of the other parts -/

section Frames
variable (d)

@[simp] theorem numbered_mapHub {f : Hub → Hub} (hf : ∀ h, (f h).items = h.items) : Numbered (d.mapHub f) ↔ Numbered d :=
  numbered_congr (hf d.hub)
@[simp] theorem numbered_mapEng (f : Engines → Engines) : Numbered (d.mapEng f) ↔ Numbered d := .rfl
@[simp] theorem numbered_mapUps (f : Ups → Ups) : Numbered (d.mapUps f) ↔ Numbered d := .rfl
@[simp] theorem numbered_mapReel (f : Reel → Reel) : Numbered (d.mapReel f) ↔ Numbered d := .rfl
@[simp] theorem numbered_mapPorts (f : Ports → Ports) : Numbered (d.mapPorts f) ↔ Numbered d := .rfl
@[simp] theorem numbered_mapMem (f : Mem → Mem) : Numbered (d.mapMem f) ↔ Numbered d := .rfl
@[simp] theorem numbered_mapCollie (f : Collie → Collie) : Numbered (d.mapCollie f) ↔ Numbered d := .rfl
@[simp] theorem numbered_setCtx (c : Nat) (x : Ctx) : Numbered (d.setCtx c x) ↔ Numbered d := .rfl
@[simp] theorem numbered_updCtx (c : Nat) (f : Ctx → Ctx) : Numbered (d.updCtx c f) ↔ Numbered d := .rfl
@[simp] theorem numbered_setRing (c : Nat) (x : Ring) : Numbered (d.setRing c x) ↔ Numbered d := .rfl
@[simp] theorem numbered_updRing (c : Nat) (f : Ring → Ring) : Numbered (d.updRing c f) ↔ Numbered d := .rfl
@[simp] theorem numbered_setSlice (i : Nat) (x : Slice) : Numbered (d.setSlice i x) ↔ Numbered d := .rfl
@[simp] theorem numbered_updSlice (i : Nat) (f : Slice → Slice) : Numbered (d.updSlice i f) ↔ Numbered d := .rfl
@[simp] theorem numbered_updDie (i : Nat) (f : DieBlocks → DieBlocks) : Numbered (d.updDie i f) ↔ Numbered d := .rfl
@[simp] theorem numbered_updRe (i k : Nat) (f : RowEng → RowEng) : Numbered (d.updRe i k f) ↔ Numbered d := .rfl
@[simp] theorem numbered_updVe (i k : Nat) (f : VecEng → VecEng) : Numbered (d.updVe i k f) ↔ Numbered d := .rfl
@[simp] theorem numbered_setPack (p : Nat) (x : Pack) : Numbered (d.setPack p x) ↔ Numbered d := .rfl
@[simp] theorem numbered_updPack (p : Nat) (f : Pack → Pack) : Numbered (d.updPack p f) ↔ Numbered d := .rfl
@[simp] theorem numbered_updBlock (b : Nat) (f : KBlock → KBlock) : Numbered (d.updBlock b f) ↔ Numbered d := .rfl
@[simp] theorem numbered_updCore (die core : Nat) (f : CoreSt → CoreSt) : Numbered (d.updCore die core f) ↔ Numbered d := .rfl
@[simp] theorem numbered_updMemBlk (i : Nat) (f : MemBlk → MemBlk) : Numbered (d.updMemBlk i f) ↔ Numbered d := .rfl
@[simp] theorem numbered_setGroup (g : Nat) (x : Group) : Numbered (d.setGroup g x) ↔ Numbered d := .rfl
@[simp] theorem numbered_updPort (p : Nat) (f : Port → Port) : Numbered (d.updPort p f) ↔ Numbered d := .rfl
@[simp] theorem numbered_logEvent (time : Dword) (event who res arg : Nat) (more : LogMore) :
    Numbered (d.logEvent time event who res arg more) ↔ Numbered d := .rfl
@[simp] theorem numbered_setCounter (c n : Nat) (v : Dword) : Numbered (d.setCounter c n v) ↔ Numbered d := .rfl
@[simp] theorem numbered_fresh : Numbered d.fresh.2 ↔ Numbered d := .rfl
@[simp] theorem numbered_unkeep (die core : Nat) (f : Nat → Nat → Nat → Bool) : Numbered (d.unkeep die core f) ↔ Numbered d := .rfl
@[simp] theorem numbered_dropBuf (c q : Nat) : Numbered (d.dropBuf c q) ↔ Numbered d := .rfl

@[simp] theorem numbered_emit (o : Output) : Numbered (d.emit o) ↔ Numbered d :=
  numbered_congr (congrArg Hub.items (d.emit_hub o))

@[simp] theorem numbered_count (c n k : Nat) : Numbered (d.count c n k) ↔ Numbered d := numbered_congr (d.count_items c n k)

@[simp] theorem numbered_countUnit (c die u j k : Nat) : Numbered (d.countUnit c die u j k) ↔ Numbered d :=
  numbered_congr (d.countUnit_items c die u j k)

@[simp] theorem numbered_mk (eng : Engines) (collie : Collie) (mem : Mem) (ups : Ups) (reel : Reel) (ports : Ports)
    (log : List LogEntry) (sent : List Output) (freeCtr lruTick : Nat) :
    Numbered ⟨d.hub, eng, collie, mem, ups, reel, ports, log, sent, freeCtr, lruTick⟩ ↔ Numbered d := .rfl

theorem Numbered.mapMem {d : Device} (h : Numbered d) (f : Mem → Mem) : Numbered (d.mapMem f) := h

end Frames

end Sys2Proof.Proofs.ItemNumbers
end

section
/-! O60, the memory system: nothing that lines, die caches, data caches or the units' accesses do changes an item's number (R122 to R130,
R168, R225 to R241, R319). -/

namespace Sys2Proof.Proofs.ItemNumbers

open Sys2Proof.Machine Sys2Proof.Spec Sys2Proof.Proofs.QuietMemory Sys2Proof.Proofs.EndedItems

variable (d : Device)

section Quiet

@[simp] theorem numbered_prefUsed (die l c : Nat) : Numbered (d.prefUsed die l c) ↔ Numbered d :=
  numbered_of_quiet ((Quiet.refl d).prefUsed die l c)

@[simp] theorem numbered_cachePut (die : Nat) (host : Bool) (l tc : Nat) (st : LineSt) (key : Nat) (data : List Byte)
    (pref : Option Nat) : Numbered (d.cachePut die host l tc st key data pref) ↔ Numbered d :=
  numbered_of_quiet ((closed_quiet d).cachePut (Quiet.refl d) die host l tc st key data pref)

@[simp] theorem numbered_cacheTouch (die : Nat) (host : Bool) (l : Nat) : Numbered (d.cacheTouch die host l) ↔ Numbered d :=
  numbered_of_quiet ((closed_quiet d).cacheTouch (Quiet.refl d) die host l)

@[simp] theorem numbered_eccCe (half : Nat) : Numbered (d.eccCe half) ↔ Numbered d := .rfl

@[simp] theorem numbered_eccUe (half : Nat) : Numbered (d.eccUe half) ↔ Numbered d := .rfl

@[simp] theorem numbered_eccFound (half : Nat) (x : Ecc) : Numbered (d.eccFound half x) ↔ Numbered d := by
  unfold Device.eccFound
  split <;> simp

@[simp] theorem numbered_findWeak (half : Nat) : Numbered (d.findWeak half) ↔ Numbered d :=
  numbered_of_quiet ((Quiet.refl d).findWeak half)

@[simp] theorem numbered_backInval (l : Nat) : Numbered (d.backInval l) ↔ Numbered d :=
  numbered_of_quiet ((Quiet.refl d).backInval l)

@[simp] theorem numbered_unusedLines (f : DLine → Bool) : Numbered (d.unusedLines f) ↔ Numbered d :=
  numbered_of_quiet ((Quiet.refl d).unusedLines f)

@[simp] theorem numbered_hostResponse (l : Nat) : Numbered (d.hostResponse l) ↔ Numbered d := .rfl

@[simp] theorem numbered_storeHostLine (die : Option Nat) (tc l : Nat) (patch : List (Option Byte)) :
    Numbered (d.storeHostLine die tc l patch) ↔ Numbered d :=
  numbered_of_quiet ((Quiet.refl d).storeHostLine die tc l patch)

@[simp] theorem numbered_countBack (die : Nat) (x : CLine) : Numbered (d.countBack die x) ↔ Numbered d :=
  numbered_of_quiet ((Quiet.refl d).countBack die x)

@[simp] theorem numbered_writeBackLine (die : Nat) (x : CLine) : Numbered (d.writeBackLine die x).1 ↔ Numbered d :=
  numbered_of_quiet ((Quiet.refl d).writeBackLine die x)

@[simp] theorem numbered_writeBackAll (die : Nat) (xs : List CLine) : Numbered (d.writeBackAll die xs).1 ↔ Numbered d :=
  numbered_of_quiet ((Quiet.refl d).writeBackAll die xs)

@[simp] theorem numbered_unused (die : Nat) (xs : List CLine) : Numbered (d.unused die xs) ↔ Numbered d :=
  numbered_of_quiet ((Quiet.refl d).unused die xs)

@[simp] theorem numbered_cleanLines (die core : Nat) (f : CLine → Bool) : Numbered (d.cleanLines die core f).1 ↔ Numbered d :=
  numbered_of_quiet ((Quiet.refl d).cleanLines die core f)

@[simp] theorem numbered_cleanCore (die core : Nat) : Numbered (d.cleanCore die core).1 ↔ Numbered d :=
  numbered_of_quiet ((Quiet.refl d).cleanCore die core)

@[simp] theorem numbered_releaseCore (c die core : Nat) : Numbered (d.releaseCore c die core).1 ↔ Numbered d :=
  numbered_of_quiet (((Quiet.refl d).count ..).cleanCore die core)

@[simp] theorem numbered_emptyCore (die core : Nat) : Numbered (d.emptyCore die core).1 ↔ Numbered d :=
  numbered_of_quiet ((Quiet.refl d).emptyCore die core)

@[simp] theorem numbered_acquireCore (c die core : Nat) : Numbered (d.acquireCore c die core).1 ↔ Numbered d :=
  numbered_of_quiet ((Quiet.refl d).acquireCore c die core)

@[simp] theorem numbered_installCore (die core : Nat) (x : CLine) : Numbered (d.installCore die core x).1 ↔ Numbered d :=
  numbered_of_quiet ((Quiet.refl d).installCore die core x)

@[simp] theorem numbered_releaseSlice (c q slice : Nat) : Numbered (d.releaseSlice c q slice).1 ↔ Numbered d :=
  numbered_of_quiet ((Quiet.refl d).releaseSlice c q slice)

@[simp] theorem numbered_dropCoreLine (die core : Nat) (pl : Place) (key : Nat) :
    Numbered (d.dropCoreLine die core pl key).1 ↔ Numbered d := by
  unfold Device.dropCoreLine
  split <;> simp

@[simp] theorem numbered_evictCore (die core : Nat) (evicts : List Nat) : Numbered (d.evictCore die core evicts).1 ↔ Numbered d := by
  simp [Device.evictCore]

end Quiet

section Accesses
variable {d} {e : Device} (h : Numbered d)
include h

theorem Numbered.dropFilled (die l : Nat) : Numbered (d.dropFilled die l).1 :=
  Numbered.foldl_fst (r := (d, [])) h (fun _ _ h => by simpa using h) _

theorem Numbered.storeLine {die : Option Nat} {tc key l : Nat} {patch : List (Option Byte)}
    (he : d.storeLine die tc key l patch = some e) : Numbered e := (numbered_of_quiet ((Quiet.refl d).storeLine he)).mpr h

theorem Numbered.writeVa {a : Actor} {tc va : Nat} {bs : List Byte} (he : d.writeVa a tc va bs = .ok e) : Numbered e :=
  h.ends ((Ends.refl d).writeVa he)

omit h in
@[simp] theorem numbered_peerSend (d : Device) (c seq port node rctx rva bytes va : Nat) (op : PeerOp) (use : PeerUse) :
    Numbered (d.peerSend c seq port node rctx rva bytes va op use) ↔ Numbered d := by simp [Device.peerSend]

omit h in
@[simp] theorem numbered_countStore (d : Device) (a : Actor) (tc : Nat) (host : Bool) (l : Nat) (bs : List Byte) :
    Numbered (d.countStore a tc host l bs) ↔ Numbered d := by
  unfold Device.countStore
  split
  · rfl
  · split <;> simp

theorem Numbered.writePlace {a : Actor} {tc va : Nat} {pl : Place} {key : Nat} {bs : List Byte}
    (he : d.writePlace a tc va pl key bs = .ok e) : Numbered e := by
  unfold Device.writePlace at he
  split at he
  · split at he
    · cases he
    · split at he
      · cases he
      case h_2 hstore =>
        obtain rfl := Except.ok.inj he
        exact Numbered.storeLine (by simpa using h) hstore
  · split at he
    · cases he
    · obtain rfl := Except.ok.inj he
      simpa using h
  · split at he
    · cases he
    · obtain rfl := Except.ok.inj he
      simpa using h

theorem Numbered.askAway {a : Actor} {node rctx rva va : Nat} (he : d.askAway a node rctx rva va = .ok e) : Numbered e := by
  unfold Device.askAway at he
  split at he
  · cases he
  · dsimp only at he
    split at he <;> obtain rfl := Except.ok.inj he <;> simpa using h

theorem Numbered.atomDev {key a : Nat} {op : AtomOp} {ty : AtomTy} {ps : List (Dword × Dword)} {vs : List Dword}
    (he : d.atomDev key a op ty ps = some (vs, e)) : Numbered e := by
  have hout : Numbered (d.unusedLines fun x => !x.host && x.line == a / 128) := by simpa using h
  unfold Device.atomDev at he
  dsimp only at he
  split at he
  · cases he
  · split at he
    · cases he
    · next hstore =>
      obtain ⟨-, rfl⟩ := Prod.mk.inj (Option.some.inj he)
      exact Numbered.storeLine (d := Device.mapMem _ _) hout hstore

theorem Numbered.atomDie {die key a : Nat} {op : AtomOp} {ty : AtomTy} {ps : List (Dword × Dword)} {vs : List Dword}
    (he : d.atomDie die key a op ty ps = some (vs, e)) : Numbered e := by
  unfold Device.atomDie at he
  dsimp only at he
  split at he
  · cases he
  · split at he
    · cases he
    · next hstore =>
      obtain ⟨-, rfl⟩ := Prod.mk.inj (Option.some.inj he)
      exact h.storeLine hstore

theorem Numbered.atomHost {a : Nat} {op : AtomOp} {ty : AtomTy} {ps : List (Dword × Dword)} {vs : List Dword}
    (he : d.atomHost a op ty ps = some (vs, e)) : Numbered e := by
  unfold Device.atomHost at he
  dsimp only at he
  split at he
  · cases he
  · obtain ⟨-, rfl⟩ := Prod.mk.inj (Option.some.inj he)
    simpa using h

end Accesses

end Sys2Proof.Proofs.ItemNumbers
end


section
/-! O60, the end of items: however an item ends, by an error, a fault or a kill, an item that remains keeps its number (R81, R117, R260 to
R277, R339 to R347). -/

namespace Sys2Proof.Proofs.ItemNumbers

open Sys2Proof.Machine Sys2Proof.Spec Sys2Proof.Proofs.EndedItems

variable {d e : Device}

/-! ### What an item leaves and what it held -/

@[simp] theorem numbered_stashCount (d : Device) (c : Nat) : Numbered (d.stashCount c) ↔ Numbered d := by simp [Device.stashCount]

@[simp] theorem numbered_poolExtent (d : Device) : Numbered d.poolExtent ↔ Numbered d := by
  unfold Device.poolExtent
  split <;> simp

@[simp] theorem numbered_dropSegs (d : Device) (c : Nat) (f : Seg → Bool) : Numbered (d.dropSegs c f) ↔ Numbered d := by
  simp [Device.dropSegs]

@[simp] theorem numbered_setLayer (d : Device) (recAt i : Nat) (version : Dword) (slot : Bool) :
    Numbered (setLayer d recAt i version slot) ↔ Numbered d := .rfl

@[simp] theorem numbered_veResume (d : Device) (die k : Nat) : Numbered (d.veResume die k) ↔ Numbered d := by
  unfold Device.veResume
  dsimp only
  split
  · split <;> simp
  · rfl

@[simp] theorem numbered_freeBlock (d : Device) (b : Nat) : Numbered (d.freeBlock b) ↔ Numbered d := by simp [Device.freeBlock]

@[simp] theorem numbered_unusedNear (d : Device) (c q : Nat) : Numbered (d.unusedNear c q) ↔ Numbered d := by
  refine numbered_foldl (fun d x => ?_) _
  split <;> simp

@[simp] theorem numbered_purgeOne (d : Device) (c q : Nat) (how : Stop) : Numbered (d.purgeOne c q how) ↔ Numbered d := by
  simp [Device.purgeOne]

@[simp] theorem numbered_kernelCheck (d : Device) (c q : Nat) : Numbered (d.kernelCheck c q) ↔ Numbered d := by
  unfold Device.kernelCheck
  split
  · rfl
  · split <;> simp

@[simp] theorem numbered_leaveReel (d : Device) (it : Item) : Numbered (d.leaveReel it) ↔ Numbered d := by
  unfold Device.leaveReel
  split
  · rfl
  · dsimp only
    split <;> simp

@[simp] theorem numbered_loadWait (d : Device) (time : Dword) (it : Item) : Numbered (d.loadWait time it) ↔ Numbered d := by
  unfold Device.loadWait
  split
  · split <;> simp
  · rfl

@[simp] theorem numbered_setOutcome (d : Device) (time : Dword) (c q : Nat) (s : Status) (peer : Bool) :
    Numbered (d.setOutcome time c q s peer) ↔ Numbered d := .rfl

@[simp] theorem numbered_drainReport (d : Device) : Numbered d.drainReport ↔ Numbered d := by
  unfold Device.drainReport
  split <;> simp

/-! ### Items that end -/

section Ends
variable (h : Numbered d)
include h

@[simp] theorem Numbered.endClaims (it : Item) (ok : Bool) : Numbered (d.endClaims it ok) := h.ends ((Ends.refl d).endClaims it ok)

@[simp] theorem Numbered.endSave (it : Item) (ok : Bool) : Numbered (d.endSave it ok) := h.ends ((Ends.refl d).endSave it ok)

@[simp] theorem Numbered.undoRun (c q : Nat) : Numbered (d.undoRun c q) := h.ends ((Ends.refl d).undoRun c q)

@[simp] theorem Numbered.leaveUnits (c q : Nat) (how : Stop) : Numbered (d.leaveUnits c q how) :=
  h.ends ((Ends.refl d).leaveUnits c q how)

theorem Numbered.mixByte (a : Actor) (n va : Nat) : Numbered (Device.mixByte a n d va) := by
  unfold Device.mixByte
  split
  · split
    · next hd1 => exact h.writeVa hd1
    · exact h
  · exact h

@[simp] theorem Numbered.mixOnce (it : Item) : Numbered (d.mixOnce it) := h.ends ((Ends.refl d).mixOnce it)

@[simp] theorem Numbered.purge (c q : Nat) (how : Stop) : Numbered (d.purge c q how) := h.ends ((Ends.refl d).purge c q how)

@[simp] theorem Numbered.settleWork (c q : Nat) : Numbered (d.settleWork c q) := h.ends ((Ends.refl d).settleWork c q)

@[simp] theorem Numbered.itemError (c q : Nat) (s : Status) (detail : Nat) : Numbered (d.itemError c q s detail) :=
  h.ends ((Ends.refl d).itemError c q s detail)

@[simp] theorem Numbered.tellOthers (time : Dword) (fin : Item) (s : Status) (idx : Nat) : Numbered (d.tellOthers time fin s idx) :=
  h.ends ((Ends.refl d).tellOthers time fin s idx)

@[simp] theorem Numbered.putRecord (c : Nat) (r : Record) : Numbered (d.putRecord c r) := h.over ((Over.refl d).putRecord c r)

@[simp] theorem Numbered.writeOldest (c : Nat) : Numbered (d.writeOldest c) := h.over ((Over.refl d).writeOldest c)

@[simp] theorem Numbered.pushRecord (c : Nat) (r : Record) : Numbered (d.pushRecord c r) := h.over ((Over.refl d).pushRecord c r)

@[simp] theorem Numbered.promote (c : Nat) : Numbered (d.promote c) := h.over ((Over.refl d).promote c)

@[simp] theorem Numbered.endNow (time : Dword) (it : Item) : Numbered (d.endNow time it) := h.over ((Over.refl d).endNow time it)

@[simp] theorem Numbered.endItem (time : Dword) (it : Item) : Numbered (d.endItem time it) := by
  unfold Device.endItem
  have hmixed := h.ends (((Ends.refl d).purge it.ctx it.seq .now).mixDest it)
  split
  · exact h.endNow time it
  · dsimp only
    split
    · simpa using hmixed
    · exact hmixed.endNow time _

@[simp] theorem Numbered.lastKilled (time : Dword) (c code : Nat) : Numbered (d.lastKilled time c code) :=
  h.over ((Over.refl d).lastKilled time c code)

@[simp] theorem Numbered.account (time : Dword) (c code : Nat) : Numbered (d.account time c code) :=
  h.over (account_ends d time c code).1

end Ends

@[simp] theorem Numbered.loseWrites {r : Device × Lost} (h : Numbered r.1) : Numbered (Device.loseWrites r) :=
  h.foldl (fun _ _ h => h.itemError _ _ _ _) _

/-! ### Instances that items join (R299, R305) -/

@[simp] theorem numbered_joinReel (d : Device) (it : Item) : Numbered (d.joinReel it).1 ↔ Numbered d := by
  unfold Device.joinReel
  split
  · rfl
  · simp

theorem sameNumber_joinReel (d : Device) (it : Item) : SameNumber it (d.joinReel it).2 := by
  unfold Device.joinReel
  split
  · exact ⟨rfl, rfl⟩
  · dsimp only
    generalize (if 255 < _ then Group.reset else d.group _) = g
    split
    · exact ⟨rfl, rfl⟩
    · exact ⟨rfl, rfl⟩

/-- An item may be replaced by one whose number is of its kind. -/
theorem Numbered.replaceItem (h : Numbered d) (c q : Nat) {x : Item} (hx : NumberOk x) : Numbered (d.updItem c q fun _ => x) := by
  refine numbered_iff.mpr fun y hy => ?_
  obtain ⟨z, hz, rfl⟩ := List.mem_map.mp hy
  split
  · exact hx
  · exact numbered_iff.mp h z hz

/-- A fold over the items of a device keeps what each of its steps keeps. -/
theorem Numbered.foldl_items {f : Device → Item → Device} {l : List Item} (h : Numbered d) (hl : ∀ x ∈ l, NumberOk x)
    (hf : ∀ d x, Numbered d → NumberOk x → Numbered (f d x)) : Numbered (l.foldl f d) := by
  induction l generalizing d with
  | nil => exact h
  | cons x l ih =>
    exact ih (hf d x h (hl x List.mem_cons_self)) fun y hy => hl y (List.mem_cons_of_mem x hy)

@[simp] theorem Numbered.renumber (h : Numbered d) (g : Nat) : Numbered (d.renumber g) := by
  refine h.foldl_items (numbered_iff.mp h) fun d x hd hx => ?_
  split
  · exact Numbered.replaceItem ((numbered_joinReel d x).mpr hd) _ _ ((sameNumber_joinReel d x).ok hx)
  · exact hd

/-! ### Faults and kills (R277, R327, R341 to R345) -/

@[simp] theorem numbered_sparseError (d : Device) (c q : Nat) (s : Status) (detail : Nat) :
    Numbered (d.sparseError c q s detail) ↔ Numbered d := numbered_updItem d c q fun _ => ⟨rfl, rfl⟩

@[simp] theorem numbered_noteEcc (d : Device) (c va : Nat) : Numbered (d.noteEcc c va) ↔ Numbered d := by
  unfold Device.noteEcc
  split <;> simp

section Faults
variable (h : Numbered d)
include h

@[simp] theorem Numbered.takeFaults (p : Platform) (c : Nat) (fs : List FaultInfo) : Numbered (d.takeFaults p c fs) := by
  unfold Device.takeFaults
  split
  · exact h
  · split <;> simp [h]

@[simp] theorem Numbered.killByMgmt (p : Platform) (c : Nat) : Numbered (d.killByMgmt p c) := by
  simp [Device.killByMgmt, h]

@[simp] theorem Numbered.itemFault (p : Platform) (it : Item) (source die unit : Nat) (code : FaultCode) (va : Nat) :
    Numbered (d.itemFault p it source die unit code va) := by simp [Device.itemFault, h]

@[simp] theorem Numbered.accessFailed (p : Platform) (it : Item) (source die unit : Nat) (x : MemErr) :
    Numbered (d.accessFailed p it source die unit x) := by
  unfold Device.accessFailed
  split
  case h_5 =>
    split
    · next hd1 => exact h.askAway hd1
    all_goals simp [h]
  all_goals simp [h]

end Faults

@[simp] theorem numbered_firstIssue (d : Device) (time : Dword) (c q : Nat) : Numbered (d.firstIssue time c q) ↔ Numbered d := by
  rcases d.firstIssue_cases time c q with heq | ⟨d1, rfl, heq⟩ | ⟨v, heq⟩ <;> simp [heq]

end Sys2Proof.Proofs.ItemNumbers
end


section
/-! O60, misses, fills, atomics, rings and the items that the ring engine runs itself (R124 to R130, R221, R225 to R241, R247 to
R271). -/

namespace Sys2Proof.Proofs.ItemNumbers

open Sys2Proof.Machine Sys2Proof.Spec Sys2Proof.Proofs.EndedItems Sys2Proof.Proofs.DescriptorFetch

variable {d e : Device}

/-! ### Discards (R232, R233) -/

@[simp] theorem Numbered.dropDead (h : Numbered d) (l : Nat) : Numbered (d.dropDead l) := by
  unfold Device.dropDead
  dsimp only
  generalize hd1 : (if d.mem.misses.any fun x => x.line == l then d else _) = d1
  have hout : Numbered d1 := by simp [← hd1, h]
  exact hout.mapMem _

@[simp] theorem Numbered.discardLine (h : Numbered d) (c l : Nat) : Numbered (d.discardLine c l) := by simp [Device.discardLine, h]

/-! ### Misses and the Retriever (R234 to R241) -/

@[simp] theorem numbered_request (d : Device) (die unit tc key l : Nat) (w : Waiter) :
    Numbered (d.request die unit tc key l w) ↔ Numbered d := by
  unfold Device.request
  split
  · simp
  · dsimp only
    split <;> simp

@[simp] theorem numbered_prefetchLine (d : Device) (die unit tc key : Nat) (w : Waiter) (l : Nat) :
    Numbered (d.prefetchLine die unit tc key w l) ↔ Numbered d := by
  unfold Device.prefetchLine
  dsimp only
  split
  · simp
  · split <;> simp

@[simp] theorem numbered_retrieve (d : Device) (die unit tc key : Nat) (w : Waiter) (l : Nat) :
    Numbered (d.retrieve die unit tc key w l) ↔ Numbered d := by
  unfold Device.retrieve
  dsimp only
  split
  · rfl
  · split
    · simp
    · split <;> simp

@[simp] theorem numbered_follow (d : Device) (die unit tc key : Nat) (w : Waiter) (l : Nat) :
    Numbered (d.follow die unit tc key w l) ↔ Numbered d := by
  unfold Device.follow
  dsimp only
  split <;> simp

@[simp] theorem numbered_deadRead (d : Device) (c l : Nat) : Numbered (d.deadRead c l) ↔ Numbered d := by simp [Device.deadRead]

theorem Numbered.demand (h : Numbered d) {die unit tc key : Nat} {w : Waiter} {l : Nat} {reads hit : Bool}
    (he : d.demand die unit tc key w l reads = .ok (e, hit)) : Numbered e := by
  unfold Device.demand at he
  extract_lets host n d1 dHit dMiss at he
  have h1 : Numbered d1 := by simp [d1, h]
  split at he
  · obtain ⟨rfl, -⟩ := Prod.mk.inj (Except.ok.inj he)
    simp [dHit, h1]
  · split at he
    · cases he
    · obtain ⟨rfl, -⟩ := Prod.mk.inj (Except.ok.inj he)
      simp [dMiss, h1]

/-! ### Reads of stream units -/

@[simp] theorem numbered_chargeStall (d : Device) (c die unit code n : Nat) : Numbered (d.chargeStall c die unit code n) ↔ Numbered d := by
  simp [Device.chargeStall]

@[simp] theorem Numbered.useLines (h : Numbered d) (die unit : Nat) (cls : Nat → Nat → Nat) (c q : Nat) (ls : List (Nat × Nat × Nat)) :
    Numbered (d.useLines die unit cls c q ls).1 := by
  induction ls generalizing d with
  | nil => exact h
  | cons x ls ih =>
    obtain ⟨l, va, key⟩ := x
    unfold Device.useLines
    dsimp only
    split
    · split
      · next p _ => exact ih (by simpa using h)
      · exact ih h
    · split
      · exact ih h
      · next hd1 => exact ih (by simpa using h.demand hd1)

theorem Numbered.fetch {α : Type} (h : Numbered d) {a : Actor} {die unit : Nat} {tc : Nat → Nat} {f : Actor → Except MemErr α} {x : α}
    (he : d.fetch a die unit tc f = .got e x) : Numbered e := by
  unfold Device.fetch at he
  split at he
  · cases he
  · next y _ =>
    extract_lets ls at he
    have hused := h.useLines die unit (fun l va => if d.stashLine a.ctx a.seq l va then 1 else tc va) a.ctx a.seq ls
    split at he
    · next hd1 =>
      obtain ⟨rfl, -⟩ := Fetch.got.inj he
      rw [hd1] at hused
      simpa using hused
    · cases he

theorem Numbered.fetch_stall {α : Type} (h : Numbered d) {a : Actor} {die unit : Nat} {tc : Nat → Nat}
    {f : Actor → Except MemErr α} (he : d.fetch a die unit tc f = .stall e) : Numbered e := by
  unfold Device.fetch at he
  split at he
  · cases he
  · next y _ =>
    extract_lets ls at he
    have hused := h.useLines die unit (fun l va => if d.stashLine a.ctx a.seq l va then 1 else tc va) a.ctx a.seq ls
    split at he
    · cases he
    · next hd1 =>
      obtain rfl := Fetch.stall.inj he
      rw [hd1] at hused
      simpa using hused

/-! ### Fills (R124, R125, R226, R232, R235, R239) -/

@[simp] theorem numbered_wakeMiss (d : Device) (ws : List Waiter) : Numbered (d.wakeMiss ws) ↔ Numbered d := .rfl

@[simp] theorem Numbered.failWaiters (h : Numbered d) (ws : List Waiter) (half : Nat) : Numbered (d.failWaiters ws half) :=
  h.foldl (fun _ _ h => h.itemError ..) _

@[simp] theorem numbered_install (d : Device) (die : Nat) (host : Bool) (l tc : Nat) (pref : Option Nat) :
    Numbered (d.install die host l tc pref) ↔ Numbered d := by
  unfold Device.install
  split
  · rfl
  · simp

@[simp] theorem numbered_pastCaches (d : Device) (c l : Nat) : Numbered (d.pastCaches c l) ↔ Numbered d := by
  simp [Device.pastCaches]

@[simp] theorem numbered_h0Lines (d : Device) (c : Nat) (ls : List (Nat × Nat × Nat)) : Numbered (d.h0Lines c ls) ↔ Numbered d :=
  numbered_foldl (fun d x => by simp) _

@[simp] theorem numbered_h0Read {α : Type} (d : Device) (a : Actor) (f : Actor → Except MemErr α) :
    Numbered (d.h0Read a f) ↔ Numbered d := numbered_h0Lines ..

@[simp] theorem numbered_h0Bytes (d : Device) (a : Actor) (n va : Nat) : Numbered (d.h0Bytes a n va) ↔ Numbered d :=
  numbered_h0Read ..

@[simp] theorem numbered_readHalves (d : Device) (l : Nat) (lo hi : Ecc) : Numbered (d.readHalves l lo hi) ↔ Numbered d := by
  simp [Device.readHalves]

@[simp] theorem Numbered.fillDevice (h : Numbered d) (die l tc : Nat) (ws : List Waiter) (discard : Bool) (lo hi : Ecc) :
    Numbered (d.fillDevice die l tc ws discard lo hi) := by
  unfold Device.fillDevice
  dsimp only
  split
  · split <;> simp [h]
  · have hread : Numbered (d.readHalves l lo hi) := by simpa using h
    split
    · refine Numbered.failWaiters ?_ ..
      split
      · exact hread.dropDead l
      · exact (hread.dropFilled die l).loseWrites.mapMem _
    · split <;> simp [h]

@[simp] theorem Numbered.settleReads (h : Numbered d) (ws : List Waiter) : Numbered (d.settleReads ws) :=
  h.foldl (fun _ _ h => h.settleWork ..) _

@[simp] theorem numbered_modeNow (d : Device) (i : Nat) : Numbered (d.modeNow i) ↔ Numbered d := by
  unfold Device.modeNow
  split <;> simp

@[simp] theorem numbered_modeCheck (d : Device) (die : Nat) : Numbered (d.modeCheck die) ↔ Numbered d := by
  unfold Device.modeCheck
  split <;> simp

@[simp] theorem Numbered.fillHost (h : Numbered d) (die l tc : Nat) (ws : List Waiter) (lo hi : Ecc) :
    Numbered (d.fillHost die l tc ws lo hi) := by
  unfold Device.fillHost
  split <;> simp [h]

theorem Numbered.demandMissFill (h : Numbered d) (die line : Nat) (lo hi : Ecc) : Numbered (demandMissFill die line lo hi d) := by
  unfold Machine.demandMissFill
  split
  · simpa using h
  · split
    · exact h
    · extract_lets d1 d2
      have h1 : Numbered d1 := by simpa [d1] using h
      have h2 : Numbered d2 := by simp [d2, h1]
      simp [h2]

@[simp] theorem numbered_prefetchLost (d : Device) (x : Miss) : Numbered (d.prefetchLost x) ↔ Numbered d := by
  simp [Device.prefetchLost]

@[simp] theorem Numbered.installFirst (h : Numbered d) (x : Miss) : Numbered (d.installFirst x) := by
  unfold Device.installFirst
  dsimp only
  split
  · split <;> simp [h]
  · split
    · simp [h]
    · split
      · next y hy =>
        exact Numbered.loseWrites (by simpa using h)
      · simp [h]

@[simp] theorem Numbered.installPrefetch (h : Numbered d) (x : Miss) : Numbered (d.installPrefetch x) := by
  unfold Device.installPrefetch
  dsimp only
  split <;> split <;> simp [h]

theorem Numbered.prefetchFill (h : Numbered d) (die line : Nat) (lo hi : Ecc) : Numbered (prefetchFill die line lo hi d) := by
  unfold Machine.prefetchFill
  split
  · exact h
  · extract_lets d1 clean d2
    have h1 : Numbered d1 := by simpa [d1] using h
    have h2 : Numbered d2 := by simp [d2, h1]
    split <;> simp [h1, h2]

/-! ### The host's side of the caches (R221, R226) -/

theorem Numbered.cxlCacheSnoop (h : Numbered d) (line : Nat) (takes : Bool) : Numbered (cxlCacheSnoop line takes d) := by
  unfold Machine.cxlCacheSnoop
  split
  · exact h
  · extract_lets d1
    have h1 : Numbered d1 := by
      unfold d1
      split <;> simp [h]
    split
    · exact h1.mapMem _
    · exact h1

/-! ### Atomics past the caches (R129, R130, R249) -/

@[simp] theorem Numbered.atomFault (h : Numbered d) (p : Platform) (c q die : Nat) (f : FaultCode) (va : Nat) :
    Numbered (d.atomFault p c q die f va) := h.takeFaults ..

theorem Numbered.combinerAtomic (h : Numbered d) (c q : Nat) (r : AtomReq) (p : Platform) : Numbered (combinerAtomic c q r p d) := by
  unfold Machine.combinerAtomic
  split
  · exact h
  · split
    · simp [h]
    · split
      · simp [h]
      · dsimp only
        split
        · next hd1 => simpa using Numbered.atomDev ((numbered_pastCaches ..).mpr h) hd1
        · simp [h]
    · exact h

theorem Numbered.hostLineAtomic (h : Numbered d) (c q : Nat) (r : AtomReq) (p : Platform) : Numbered (hostLineAtomic c q r p d) := by
  unfold Machine.hostLineAtomic
  split
  · exact h
  · split
    · simp [h]
    · split
      · simp [h]
      · split
        · simp [h]
        · next hd1 => simpa using h.atomHost hd1
    · exact h

/-! ### Rings (R253 to R257, R274 to R276) -/

@[simp] theorem numbered_see (d : Device) (ws : List HostWrite) : Numbered (d.see ws) ↔ Numbered d := .rfl

@[simp] theorem numbered_bellIgnored (d : Device) (c : Nat) : Numbered (d.bellIgnored c) ↔ Numbered d := by simp [Device.bellIgnored]

theorem Numbered.sqTail (h : Numbered d) (c : Nat) (v : Word) (seen : List HostWrite) (p : Platform) : Numbered (sqTail c v seen p d) := by
  unfold Machine.sqTail
  dsimp only
  split <;> simp [h]

@[simp] theorem numbered_cqHead (d : Device) (c : Nat) (v : Word) (p : Platform) : Numbered (cqHead c v p d) ↔ Numbered d := by
  unfold cqHead
  dsimp only
  split <;> simp

/-! ### Fetched entries (R255) -/

/-- An entry without fault becomes an item with the number of its place in the ring. -/
theorem fetchOne_item {d : Device} {p : Platform} {c ns : Nat} (hfault : d.entryFault c (headDesc d c) = none) :
    ∃ it k, SameNumber (headItem d p.pow.time c) it ∧ d.fetchOne p c false ns =
      ((((takeEntry d c).joinReel (headItem d p.pow.time c)).1.mapHub fun h => { h with items := h.items ++ [it] }).count c 56 k,
        true) := by
  have hjoined := sameNumber_joinReel (takeEntry d c) (headItem d p.pow.time c)
  unfold headDesc at hfault
  unfold Device.fetchOne
  simp only [hfault]
  refine ⟨_, _, ?_, rfl⟩
  exact hjoined

theorem numberOk_headItem {d : Device} {c : Nat} (hseq : (d.ring c).nextSeq < 2 ^ 32) (time : Dword) : NumberOk (headItem d time c) :=
  hseq

theorem numbered_takeEntry (d : Device) (c : Nat) : Numbered (takeEntry d c) ↔ Numbered d := by simp [takeEntry]

/-- While fetching goes on, the ring has one number less left. -/
theorem Numbered.fetchOne (h : Numbered d) (p : Platform) (c : Nat) (poison : Bool) (ns : Nat) (hseq : (d.ring c).nextSeq < 2 ^ 32) :
    Numbered (d.fetchOne p c poison ns).1 ∧ ((d.fetchOne p c poison ns).2 = true →
      ((d.fetchOne p c poison ns).1.ring c).nextSeq = (d.ring c).nextSeq + 1) := by
  have hjoin : Numbered ((takeEntry d c).joinReel (headItem d p.pow.time c)).1 :=
    (numbered_joinReel ..).mpr ((numbered_takeEntry d c).mpr h)
  have hnumber := numberOk_headItem hseq p.pow.time
  cases poison with
  | true =>
    rw [fetchOne_poisoned]
    obtain ⟨-, -, hnext, -⟩ := poisonedEntry_ring d p.pow.time c
    exact ⟨h.over (poisonedEntry_over d p.pow.time c), fun _ => hnext⟩
  | false =>
    cases hfault : d.entryFault c (headDesc d c) with
    | some f =>
      rw [fetchOne_fault hfault]
      exact ⟨(hjoin.addItem _ ((sameNumber_joinReel ..).ok hnumber)).takeFaults .., fun hmore => absurd hmore Bool.false_ne_true⟩
    | none =>
      obtain ⟨it, k, hsame, heq⟩ := fetchOne_item (p := p) (ns := ns) hfault
      rw [heq]
      refine ⟨(numbered_count ..).mpr (hjoin.addItem _ (hsame.ok hnumber)), fun _ => ?_⟩
      obtain ⟨hhub, -, -⟩ := joinReel_kept (takeEntry d c) (headItem d p.pow.time c)
      have hrings : (((takeEntry d c).joinReel (headItem d p.pow.time c)).1.ring c) = (takeEntry d c).ring c :=
        congrArg (fun x : Hub => FMap.get Ring.reset x.rings c) hhub
      rw [Device.count_ring]
      exact (congrArg Machine.Ring.nextSeq hrings).trans (congrArg Machine.Ring.nextSeq (takeEntry_ring d c))

theorem Numbered.fetchLoop (h : Numbered d) (p : Platform) (c : Nat) (poisoned : List Nat) (ns n : Nat)
    (hseq : (d.ring c).nextSeq + n ≤ 2 ^ 32) : Numbered (Device.fetchLoop p c poisoned ns n d) := by
  induction n generalizing d with
  | zero => exact h
  | succ n ih =>
    unfold Device.fetchLoop
    dsimp only
    split
    · exact h
    · obtain ⟨hone, hmore⟩ := h.fetchOne p c (poisoned.contains (d.ring c).sqHead) ns (by omega)
      split
      · next hd1 =>
        rw [hd1] at hone hmore
        exact ih hone (by rw [hmore rfl]; omega)
      · next hd1 => rwa [hd1] at hone

theorem Numbered.itemComplete (h : Numbered d) (c q : Nat) (p : Platform) : Numbered (itemComplete c q p d) := by
  unfold Machine.itemComplete
  split
  · exact h
  · split
    · dsimp only
      split <;> simp [h]
    · exact h

@[simp] theorem numbered_sendMsix (d : Device) (time : Dword) (v : Nat) : Numbered (d.sendMsix time v) ↔ Numbered d := by
  unfold Device.sendMsix
  dsimp only
  split <;> simp

/-! ### Items that the ring engine runs (R228 to R233, R258, R268 to R271) -/

/-- The ring engine's start of an item keeps what its action keeps. -/
theorem Numbered.act (h : Numbered d) (p : Platform) (c q typ : Nat) (ok : Item → Bool) {go : Item → Device → Device}
    (hgo : ∀ it d, Numbered d → Numbered (go it d)) : Numbered (d.act p c q typ ok go) := by
  unfold Device.act
  split
  · exact h
  · split
    · exact h
    · exact hgo _ _ (by simpa using h)

@[simp] theorem numbered_finish (d : Device) (it : Item) : Numbered (d.finish it) ↔ Numbered d := by simp [Device.finish]

@[simp] theorem Numbered.eventAdd (h : Numbered d) (p : Platform) (it : Item) : Numbered (d.eventAdd p it) := by
  unfold Device.eventAdd
  dsimp only
  split
  · simp [h]
  · split
    · simp [h]
    · next hd1 => simpa using Numbered.atomDev ((numbered_pastCaches ..).mpr h) hd1
  · split
    · simp [h]
    · next hd1 => simpa using h.atomHost hd1
  · split <;> simp [h]

@[simp] theorem numbered_eventOver (d : Device) (time : Dword) (it : Item) (v : Nat) : Numbered (d.eventOver time it v) ↔ Numbered d := by
  simp [Device.eventOver]

@[simp] theorem Numbered.eventRead (h : Numbered d) (p : Platform) (it : Item) : Numbered (d.eventRead p it) := by
  unfold Device.eventRead
  dsimp only
  split
  · simp [h]
  · split <;> simp [h]

@[simp] theorem numbered_eventWait (d : Device) (time : Dword) (it : Item) : Numbered (d.eventWait time it) ↔ Numbered d := by
  simp [Device.eventWait]

@[simp] theorem Numbered.cancelOne (h : Numbered d) (time : Dword) (idx : Nat) (x : Item) : Numbered (Device.cancelOne time idx d x) := by
  simp [Device.cancelOne, h]

theorem Numbered.pinStart (h : Numbered d) (it : Item) : Numbered (pinStart it d) := by
  unfold Machine.pinStart
  dsimp only
  repeat' split
  all_goals simp [h]

theorem Numbered.pinScanDone (h : Numbered d) (slice : Nat) : Numbered (pinScanDone slice d) := by
  unfold Machine.pinScanDone
  dsimp only
  split
  · exact h
  · simp only [numbered_finish, numbered_updSlice]
    simpa using h

@[simp] theorem Numbered.discardRange (h : Numbered d) (c n va : Nat) : Numbered (Device.discardRange c n va d).1 := by
  induction n generalizing va d with
  | zero => exact h
  | succ n ih =>
    unfold Device.discardRange
    split
    · exact h
    · exact ih (h.discardLine ..) _
    · exact ih h _

theorem Numbered.cacheDiscard (h : Numbered d) (c q : Nat) (p : Platform) : Numbered (cacheDiscard c q p d) := by
  unfold Machine.cacheDiscard
  dsimp only
  split
  · exact h
  · split
    · split <;> simp [h]
    · refine h.act _ _ _ _ _ fun it d h => ?_
      have hrange := h.discardRange c (field it.desc 0x20 8 / 128) (field it.desc 0x18 8)
      split
      · next hd1 =>
        rw [hd1] at hrange
        split <;> simpa using hrange
      · next hd1 =>
        rw [hd1] at hrange
        exact hrange.accessFailed ..

/-! ### Host accesses (R127, R221, R247, R248) -/

@[simp] theorem numbered_hostDropped (d : Device) (w : Nat) (op : HdmOp) : Numbered (d.hostDropped w op) ↔ Numbered d := by
  unfold Device.hostDropped
  dsimp only
  split <;> simp

@[simp] theorem numbered_hostTakes (d : Device) (l : Nat) : Numbered (d.hostTakes l) ↔ Numbered d := by
  unfold Device.hostTakes
  split <;> simp

@[simp] theorem Numbered.hostRead (h : Numbered d) (c : Nat) (xs : List HdmPiece) (n : Nat) : Numbered (d.hostRead c xs n) := by
  have hread : Numbered (xs.foldl (fun d x => d.pastCaches c (x.addr / 128)) d) := (numbered_foldl (fun _ _ => numbered_pastCaches ..) _).mpr h
  unfold Device.hostRead
  dsimp only
  split <;> simp [hread]

theorem Numbered.hostPut (h : Numbered d) (bs : List Byte) (x : HdmPiece) : Numbered (Device.hostPut bs d x) := by
  unfold Device.hostPut
  dsimp only
  split
  · exact h
  · next hd2 =>
    simpa using Numbered.storeLine (d := Device.mapMem _ _) h hd2

@[simp] theorem Numbered.hostWrite (h : Numbered d) (xs : List HdmPiece) (bs : List Byte) : Numbered (d.hostWrite xs bs) := by
  have hread : Numbered (xs.foldl (fun d x => (x.halves true).foldl Device.findWeak d) d) := by simp [h]
  unfold Device.hostWrite
  dsimp only
  rw [numbered_emit]
  split
  · exact hread.foldl (fun _ x h => h.hostPut bs x) _
  · simpa using hread

theorem Numbered.hostMemAccess (h : Numbered d) (w offset : Nat) (op : HdmOp) (p : Platform) : Numbered (hostMemAccess w offset op p d) := by
  unfold Machine.hostMemAccess
  split
  · exact h
  · split
    · simpa using h
    · split <;> split <;> simp [h]

end Sys2Proof.Proofs.ItemNumbers
end


section
/-! O60, products and the admission of items (R25 to R81, R92 to R117, R131 to R137, R259 to R267, R290, R299). -/

namespace Sys2Proof.Proofs.ItemNumbers

open Sys2Proof.Machine Sys2Proof.Spec
open Sys2Proof.Proofs.MemoryInvariant (bind_eq_ok Answers answers_ok ite_bind_eq_ok)

variable {d e : Device}

/-! ### Answers that may be errors -/

/-- A fold that may fail keeps what each of its steps keeps. -/
theorem Numbered.foldlM {ε β : Type} {f : Device → β → Except ε Device} (h : Numbered d)
    (hf : ∀ d x e, Numbered d → f d x = .ok e → Numbered e) {l : List β} (he : l.foldlM f d = .ok e) : Numbered e := by
  induction l generalizing d with
  | nil => exact Except.ok.inj he ▸ h
  | cons x l ih =>
    rw [List.foldlM_cons] at he
    obtain ⟨d1, hd1, he⟩ := bind_eq_ok.mp he
    exact ih (hf d x d1 h hd1) he

/-- A step that is skipped leaves the device. -/
theorem Numbered.of_skip {ε : Type} {c : Prop} [Decidable c] {r : Except ε Device} (h : Numbered d)
    (hr : r = .ok e → Numbered e) (he : (if c then pure d else r) = .ok e) : Numbered e := by
  split at he
  · exact Except.ok.inj he ▸ h
  · exact hr he

/-- A step that is skipped, before others. -/
theorem Numbered.of_skip_bind {ε β : Type} {c : Prop} [Decidable c] {r : Except ε Device} {k : Device → Except ε β} {b : β} (h : Numbered d)
    (hr : ∀ d1, r = .ok d1 → Numbered d1) (he : (if c then pure d >>= k else r >>= k) = .ok b) :
    ∃ d1, Numbered d1 ∧ k d1 = .ok b := by
  split at he <;> obtain ⟨d1, hd1, he⟩ := bind_eq_ok.mp he
  · exact ⟨d1, Except.ok.inj hd1 ▸ h, he⟩
  · exact ⟨d1, hr d1 hd1, he⟩

/-- A step that is done only sometimes, before others. -/
theorem Numbered.of_when_bind {ε β : Type} {c : Prop} [Decidable c] {r : Except ε Device} {k : Device → Except ε β} {b : β} (h : Numbered d)
    (hr : ∀ d1, r = .ok d1 → Numbered d1) (he : (if c then r >>= k else pure d >>= k) = .ok b) :
    ∃ d1, Numbered d1 ∧ k d1 = .ok b := by
  split at he <;> obtain ⟨d1, hd1, he⟩ := bind_eq_ok.mp he
  · exact ⟨d1, hr d1 hd1, he⟩
  · exact ⟨d1, Except.ok.inj hd1 ▸ h, he⟩

/-! ### Elements and saves (R134, R136) -/

theorem Numbered.poolWrite (h : Numbered d) {a : Actor} {key : Nat} {s : Seg} {f i : Nat} {bs : List Byte}
    (he : Device.poolWrite a key s f d i bs = .ok e) : Numbered e := by
  induction f generalizing d i bs with
  | zero => exact Except.ok.inj he ▸ h
  | succ f ih =>
    cases bs with
    | nil => exact Except.ok.inj he ▸ h
    | cons b bs =>
      unfold Device.poolWrite at he
      dsimp only at he
      split at he
      · exact Except.ok.inj he ▸ h
      · split at he
        · cases he
        · cases he
        · next hd1 => exact ih (h.writePlace hd1) he

theorem Numbered.saveBytes (h : Numbered d) {it : Item} {a : Actor} {i : Nat} {bs : List Byte}
    (he : d.saveBytes it a i bs = .ok e) : Numbered e := by
  unfold Device.saveBytes at he
  split at he
  · exact Except.ok.inj he ▸ h
  · split at he
    · exact Except.ok.inj he ▸ h
    · dsimp only at he
      split at he
      · split at he
        · cases he
        · split at he
          · cases he
          · next hd1 =>
            obtain rfl := Except.ok.inj he
            simpa using h.poolWrite hd1
      · split at he
        · cases he
        · next hd1 =>
          obtain rfl := Except.ok.inj he
          simpa using h.writeVa hd1
      · exact Except.ok.inj he ▸ h

theorem Numbered.putElems (h : Numbered d) {a : Actor} {tc base fmt i : Nat} {codes : List Nat}
    (he : d.putElems a tc base fmt i codes = .ok e) : Numbered e := by
  obtain ⟨first, he⟩ := ite_bind_eq_ok he
  obtain ⟨last, he⟩ := ite_bind_eq_ok he
  exact h.writeVa he

theorem Numbered.saveElems (h : Numbered d) {it : Item} {a : Actor} {off fmt i : Nat} {codes : List Nat}
    (he : d.saveElems it a off fmt i codes = .ok e) : Numbered e := by
  refine h.of_skip (fun he => ?_) he
  obtain ⟨first, he⟩ := ite_bind_eq_ok he
  obtain ⟨last, he⟩ := ite_bind_eq_ok he
  exact h.saveBytes he

/-! ### Items dealt to the engines (R45 to R48) -/

theorem Numbered.startClaimed (h : Numbered d) (it : Item) {go : Device → Device} (hgo : Numbered (go d)) : Numbered (d.startClaimed it go) := by
  unfold Device.startClaimed
  split
  · exact h
  · split
    · simp [h]
    · exact hgo

theorem Numbered.reProduct (h : Numbered d) (c q : Nat) (p : Platform) : Numbered (reProduct c q p d) := by
  unfold Machine.reProduct
  split
  · exact h
  · split
    · exact h
    · dsimp only
      split
      · simp [h]
      · split
        · simp [h]
        · exact h.startClaimed _ (by simpa using h)

@[simp] theorem numbered_queueWork (d : Device) (it : Item) (die k : Nat) : Numbered (d.queueWork it die k) ↔ Numbered d := by
  simp [Device.queueWork]

@[simp] theorem numbered_dealRun (d : Device) (it : Item) (pr : Prod) (x : Nat × Nat) : Numbered (d.dealRun it pr x) ↔ Numbered d := by
  simp [Device.dealRun]

@[simp] theorem numbered_dealWork (d : Device) (it : Item) : Numbered (d.dealWork it) ↔ Numbered d := by
  unfold Device.dealWork
  dsimp only
  split
  · simp
  · split
    · rfl
    · split <;> simp

@[simp] theorem numbered_tileDeal (d : Device) (c q : Nat) : Numbered (tileDeal c q d) ↔ Numbered d := by
  unfold tileDeal
  split
  · rfl
  · dsimp only
    split
    · rfl
    · split
      · simp
      · split <;> simp

/-! ### Tiles (R39 to R58) -/

@[simp] theorem numbered_charge (d : Device) (c die u : Nat) (r : Report) : Numbered (d.charge c die u r) ↔ Numbered d := by
  simp only [Device.charge, numbered_countUnit, numbered_count]
  refine numbered_foldl (fun d x => ?_) _
  split <;> simp

@[simp] theorem numbered_setLanes (d : Device) (die k : Nat) (t : Tile) (i : Nat) : Numbered (d.setLanes die k t i) ↔ Numbered d := .rfl

@[simp] theorem numbered_noteSparse (d : Device) (die k : Nat) (t : Tile) (z : ZcCounts) (bad : List (Status × Nat)) :
    Numbered (d.noteSparse die k t z bad) ↔ Numbered d := by simp [Device.noteSparse]

/-- What a unit that cannot go on leaves: the device with its requests made, where it stalls. -/
def HeldNumbered : Held → Prop
  | .stall d => Numbered d
  | _ => True

@[simp] theorem heldNumbered_stall : HeldNumbered (.stall d) ↔ Numbered d := .rfl

theorem Numbered.advanceComb (h : Numbered d) (die k : Nat) (which : Bool) (it : Item) (t : Tile) (stop : Nat) :
    Answers HeldNumbered Numbered (d.advanceComb die k which it t stop) := by
  unfold Device.advanceComb
  dsimp only
  split
  · trivial
  · next hd1 => simpa using h.fetch_stall hd1
  · next hd1 => simpa using h.fetch hd1

/-- The device with the requests of a unit's reads made. -/
def FetchNumbered {α : Type} : Fetch α → Prop
  | .got d _ => Numbered d
  | .stall d => Numbered d
  | .err _ => True

@[simp] theorem fetchNumbered_got {α : Type} {x : α} : FetchNumbered (.got d x) ↔ Numbered d := .rfl

theorem Numbered.tileReads (h : Numbered d) (die k : Nat) (r : RowEng) (it : Item) (t : Tile) (pos stop : Nat) :
    FetchNumbered (d.tileReads die k r it t pos stop) := by
  unfold Device.tileReads
  dsimp only
  split
  · next hd1 => exact h.fetch_stall hd1
  · trivial
  · next hd1 =>
    have h1 := h.fetch hd1
    split
    · next hd2 => exact h1.fetch_stall hd2
    · trivial
    · next hd2 => exact h1.fetch hd2

theorem Numbered.advanceTile (h : Numbered d) (die k : Nat) (which : Bool) (it : Item) (t : Tile) (stop : Nat) :
    Answers HeldNumbered Numbered (d.advanceTile die k which it t stop) := by
  unfold Device.advanceTile
  dsimp only
  split
  · exact h
  · split
    · trivial
    · have hread := h.tileReads die k (d.re die k) it t ((d.re die k).bank which).pos stop
      split
      · trivial
      · next hd1 => rwa [hd1] at hread
      · next hd1 =>
        rw [hd1] at hread
        split
        · split
          · trivial
          · trivial
          · simpa using hread
        · simpa using hread

theorem Numbered.advance (h : Numbered d) (p : Platform) (die k : Nat) (which : Bool) (upTo : Nat) :
    Answers HeldNumbered Numbered (d.advance p die k which upTo) := by
  unfold Device.advance
  dsimp only
  split
  · exact h
  · split
    · exact h.advanceComb ..
    · have htile := fun it t stop => h.advanceTile die k which it t stop
      split
      · next hx => exact hx ▸ htile _ _ _
      · next hd1 =>
        have h1 := hd1 ▸ htile _ _ _
        simp only [answers_ok] at h1 ⊢
        split <;> simpa using h1

@[simp] theorem Numbered.heldUp (h : Numbered d) (p : Platform) (die k : Nat) {x : Held} (hx : HeldNumbered x) :
    Numbered (d.heldUp p die k x) := by
  unfold Device.heldUp
  split
  · exact h
  · exact hx
  · simp [h]

theorem Numbered.finishOther (h : Numbered d) (p : Platform) (die k : Nat) : Answers HeldNumbered Numbered (d.finishOther p die k) := by
  unfold Device.finishOther
  dsimp only
  split
  · exact h.advance ..
  · exact h

theorem Numbered.loadBank (h : Numbered d) (p : Platform) (die k : Nat) (it : Item) (t : Tile) :
    Answers Numbered (fun r => Numbered r.1) (d.loadBank p die k it t) := by
  unfold Device.loadBank
  dsimp only
  split
  · exact h
  · split
    · next hd1 => simpa using h.fetch_stall hd1
    · exact Numbered.accessFailed (by simpa using h) ..
    · exact h.accessFailed ..
    · next hd1 =>
      have h1 := h.fetch hd1
      simp only [answers_ok]
      split <;> simpa using h1

@[simp] theorem Numbered.startTile (h : Numbered d) (p : Platform) (die k : Nat) (rep : Report) (it : Item) (t : Tile) (rest : List Tile) :
    Numbered (d.startTile p die k rep it t rest) := by
  have hloaded := h.loadBank p die k it t
  unfold Device.startTile
  split
  · next hd1 => rwa [hd1] at hloaded
  · next hd1 =>
    rw [hd1] at hloaded
    simpa using hloaded

theorem Numbered.tileStart (h : Numbered d) (die k : Nat) (rep : Report) (p : Platform) : Numbered (tileStart die k rep p d) := by
  have hother := h.finishOther p die k
  unfold Machine.tileStart
  dsimp only
  split
  · exact h
  · split
    · exact h
    · split
      · simpa using h
      · split
        · exact h
        · split
          · simp [h]
          · split
            · next hx => exact h.heldUp _ _ _ (by rwa [hx] at hother)
            · next hd1 => exact Numbered.startTile (by rwa [hd1] at hother) ..

/-! ### Drains (R48, R81, R109, R134) -/

theorem Numbered.drainRow (h : Numbered d) {it : Item} {pr : Prod} {a : Actor} {t : Tile} {i : Nat} {ws : List Word}
    (he : Device.drainRow it pr a t d i ws = .ok e) : Numbered e := by
  obtain ⟨row, -, he⟩ := bind_eq_ok.mp he
  obtain ⟨d1, h1, he⟩ := h.of_skip_bind (fun _ => h.putElems) he
  obtain ⟨d2, h2, he⟩ := h1.of_skip_bind (fun _ => h1.writeVa) he
  obtain ⟨d3, hd3, he⟩ := bind_eq_ok.mp he
  have h3 := h2.saveElems hd3
  exact h3.of_skip h3.saveBytes he

theorem Numbered.eachRow {f : Device → Nat → List Word → Except MemErr Device} (h : Numbered d)
    (hf : ∀ d i ws e, Numbered d → f d i ws = .ok e → Numbered e) {i : Nat} {rows : List (List Word)}
    (he : eachRow f i rows d = .ok e) : Numbered e := by
  induction rows generalizing d i with
  | nil => exact Except.ok.inj he ▸ h
  | cons ws rows ih =>
    obtain ⟨d1, hd1, he⟩ := bind_eq_ok.mp he
    exact ih (hf d i ws d1 h hd1) he

theorem Numbered.writeTap (h : Numbered d) {it : Item} {pr : Prod} {a : Actor} {t : Tile} {acc : List (List Word)}
    (he : Device.writeTap it pr a t acc d = .ok e) : Numbered e := h.foldlM (fun _ _ _ h he => h.writeVa he) he

theorem Numbered.drainTile (h : Numbered d) {it : Item} {pr : Prod} {a : Actor} {t : Tile} {acc : List (List Word)}
    (he : d.drainTile it pr a t acc = .ok e) : Numbered e := by
  obtain ⟨d1, hd1, he⟩ := bind_eq_ok.mp he
  have h1 := h.eachRow (fun _ _ _ _ h he => h.drainRow he) hd1
  split at he
  · exact h1.writeTap he
  · exact Except.ok.inj he ▸ h1

theorem Numbered.drainPartial (h : Numbered d) {it : Item} {pr : Prod} {a : Actor} {t : Tile} {acc : List (List Word)}
    (he : d.drainPartial it pr a t acc = .ok e) : Numbered e := h.eachRow (fun _ _ _ _ h he => h.writeVa he) he

theorem Numbered.drainWrites (h : Numbered d) {it : Item} {pr : Prod} {a : Actor} {b : Bank} {t : Tile}
    (he : d.drainWrites it pr a b t = .ok e) : Numbered e := by
  unfold Device.drainWrites at he
  split at he
  · exact h.drainTile he
  · exact h.drainPartial he

@[simp] theorem Numbered.productCheck (h : Numbered d) (c q : Nat) : Numbered (d.productCheck c q) := by
  unfold Device.productCheck
  split
  · exact h
  · split <;> simp [h]

@[simp] theorem Numbered.tileDrained (h : Numbered d) (die k : Nat) (pr : Prod) (t : Tile) : Numbered (d.tileDrained die k pr t) := by
  unfold Device.tileDrained
  extract_lets stopped here n
  split
  · simp [h]
  · split <;> simp [h]

@[simp] theorem Numbered.combineDrained (h : Numbered d) (t : Tile) : Numbered (d.combineDrained t) := by simp [Device.combineDrained, h]

@[simp] theorem Numbered.drainOut (h : Numbered d) (p : Platform) (die k : Nat) (which : Bool) (it : Item) (t : Tile) :
    Numbered (d.drainOut p die k which it t) := by
  unfold Device.drainOut
  dsimp only
  split
  · next hd1 => exact h.fetch_stall hd1
  · simp [h]
  · next hd1 =>
    have h1 := h.fetch hd1
    split
    · simp [h1]
    · next hd2 =>
      have h2 := h1.drainWrites hd2
      split <;> simp [h2]

theorem Numbered.tileDrainDone (h : Numbered d) (die k : Nat) (rep : Report) (p : Platform) : Numbered (tileDrainDone die k rep p d) := by
  unfold Machine.tileDrainDone
  dsimp only
  split
  · exact h
  · next which b _ =>
    split
    · exact h
    · next t _ =>
      split
      · simpa using h
      · split
        · exact h
        · have hended : Answers HeldNumbered Numbered (if b.st = .filling then d.advance p die k which toEnd else .ok d) := by
            split
            · exact h.advance ..
            · exact h
          split
          · next hx => exact h.heldUp _ _ _ (by rwa [hx] at hended)
          · next hd1 =>
            rw [hd1] at hended
            exact Numbered.drainOut ((numbered_charge ..).mpr hended) ..

theorem Numbered.startCombine (h : Numbered d) (p : Platform) (die k : Nat) (t : Tile) :
    Answers HeldNumbered Numbered (d.startCombine p die k t) := by
  have hother := h.finishOther p die k
  unfold Device.startCombine
  split
  · next hx => rwa [hx] at hother
  · next hd1 => rwa [hd1] at hother

@[simp] theorem Numbered.runCombine (h : Numbered d) (p : Platform) (die k rows : Nat) (rep : Report) (which : Bool) :
    Numbered (d.runCombine p die k rows rep which) := by
  have hrows := h.advance p die k which rows
  unfold Device.runCombine
  split
  · exact h
  · split
    · next hx => exact h.heldUp _ _ _ (by rwa [hx] at hrows)
    · next hd1 =>
      rw [hd1] at hrows
      have h1 := fun t : Tile => (numbered_charge _ t.ctx die k rep).mpr hrows
      dsimp only
      split
      · exact h1 _
      · exact (h1 _).drainOut ..

theorem Numbered.splitCombine (h : Numbered d) (die k rows : Nat) (rep : Report) (p : Platform) :
    Numbered (splitCombine die k rows rep p d) := by
  unfold Machine.splitCombine
  dsimp only
  split
  · exact h
  · split
    · simp [h]
    · split
      · exact h
      · next t _ =>
        split
        · simpa using h
        · split
          · exact h
          · have hstart := h.startCombine p die k t
            split
            · next hx => exact h.heldUp _ _ _ (by rwa [hx] at hstart)
            · next hd1 =>
              rw [hd1] at hstart
              exact hstart.runCombine ..

/-! ### Admission (R92, R93, R115, R131 to R137, R206, R259 to R267, R299) -/

@[simp] theorem numbered_putSet (d : Device) (w : WSet) : Numbered (d.putSet w) ↔ Numbered d := .rfl

@[simp] theorem numbered_addSeg (d : Device) (it : Item) (t : Tag) (w len : Nat) (kind : SegKind) (gs : List Nat) :
    Numbered (d.addSeg it t w len kind gs) ↔ Numbered d := by simp [Device.addSeg]

@[simp] theorem numbered_dropStored (d : Device) (s : Seg) : Numbered (d.dropStored s) ↔ Numbered d := by simp [Device.dropStored]

@[simp] theorem numbered_makeRoom (d : Device) (c n f : Nat) : Numbered (Device.makeRoom c n f d).1 ↔ Numbered d := by
  induction f generalizing d with
  | zero => rfl
  | succ f ih =>
    unfold Device.makeRoom
    split
    · rfl
    · split
      · rfl
      · exact (ih _).trans (numbered_dropStored ..)

@[simp] theorem numbered_replaceSeg (d : Device) (t : Tag) : Numbered (d.replaceSeg t) ↔ Numbered d := by
  unfold Device.replaceSeg
  split
  · rfl
  · dsimp only
    split <;> simp

@[simp] theorem numbered_reserve (d : Device) (it : Item) (w len : Nat) : Numbered (d.reserve it w len).1 ↔ Numbered d := by
  unfold Device.reserve
  extract_lets t n full d1
  have h1 : Numbered d1 ↔ Numbered d := by simp [d1]
  rw [← h1]
  split
  · exact h1.symm
  · split
    · simp
    · split
      · split <;> simp
      · split
        · simp
        · have hroom := numbered_makeRoom d1 it.ctx n (d1.mem.segs.length + 1)
          split <;> next hd2 => simpa [hd2] using hroom
      · rfl

@[simp] theorem numbered_bindClaims (d : Device) (it : Item) (ws : List Nat) : Numbered (d.bindClaims it ws) ↔ Numbered d := by
  simp [Device.bindClaims]

@[simp] theorem Numbered.endEarly (h : Numbered d) (it : Item) {f : Item → Item}
    (hf : ∀ x, (f x).seq = x.seq ∧ (f x).issuedBy = x.issuedBy) : Numbered (d.endEarly it f) := by
  simp [Device.endEarly, h, hf]

@[simp] theorem Numbered.take (h : Numbered d) (p : Platform) (it : Item) (oprec : List Byte) : Numbered (d.take p it oprec) := by
  unfold Device.take
  extract_lets it1 peer d1 ws
  have h1 : Numbered d1 := by simpa [d1] using h
  split
  · simp [h1]
  · split
    · simp [h1]
    · extract_lets d2 d3 r
      have h2 : Numbered d2 := by simpa [d2] using h1
      split
      · simp [h2]
      · have hr : Numbered r.1 := by simp [r, d3, h2]
        split <;> simp [hr]

@[simp] theorem Numbered.takeRecord (h : Numbered d) (p : Platform) (it : Item) : Numbered (d.takeRecord p it) := by
  unfold Device.takeRecord
  dsimp only
  split <;> simp [h]

theorem Numbered.reelCheck (h : Numbered d) (p : Platform) (it : Item) {go : Device → Device} (hgo : Numbered (go d)) :
    Numbered (d.reelCheck p it go) := by
  unfold Device.reelCheck
  split
  · exact hgo
  · dsimp only
    repeat' split
    all_goals simp [h, hgo]

@[simp] theorem numbered_useXlat (d : Device) (x : Xlat) (cls : Nat) : Numbered (d.useXlat x cls) ↔ Numbered d := .rfl

@[simp] theorem Numbered.startKernel (h : Numbered d) (it : Item) (check : Nat) : Numbered (d.startKernel it check) := by
  simp [Device.startKernel, h]

@[simp] theorem Numbered.kernelDispatch (h : Numbered d) (p : Platform) (it : Item) : Numbered (d.kernelDispatch p it) := by
  unfold Device.kernelDispatch
  dsimp only
  split
  · simp [h]
  · split <;> simp [h]

@[simp] theorem Numbered.normDispatch (h : Numbered d) (p : Platform) (it : Item) : Numbered (d.normDispatch p it) := by
  unfold Device.normDispatch
  dsimp only
  split <;> simp [h]

@[simp] theorem Numbered.dispatch (h : Numbered d) (p : Platform) {it : Item} (hit : NumberOk it) : Numbered (d.dispatch p it) := by
  unfold Device.dispatch
  extract_lets it1 d1
  have hmarked : SameNumber it it1 := ⟨rfl, rfl⟩
  have h1 : Numbered d1 := (numbered_count ..).mpr (h.replaceItem it.ctx it.seq (hmarked.ok hit))
  split
  · simp [h1]
  · simp [h1]
  · simp [h1]
  · exact h1.reelCheck _ _ (h1.normDispatch ..)
  · exact h1.reelCheck _ _ (by simpa using h1)
  · simpa using h1

theorem Numbered.item (h : Numbered d) {c q : Nat} {it : Item} (hit : d.item c q = some it) : NumberOk it :=
  numbered_iff.mp h it (List.mem_of_find?_eq_some hit)

theorem Numbered.itemDispatch (h : Numbered d) (c q : Nat) (p : Platform) : Numbered (itemDispatch c q p d) := by
  unfold Machine.itemDispatch
  split
  · exact h
  · next hit =>
    split
    · exact h
    · split
      · simp [h]
      · split
        · exact h
        · exact (h.dispatch p (h.item hit)).promote c

end Sys2Proof.Proofs.ItemNumbers
end


section
/-! O60, the Collie cores: instructions of packs, the packs' paths and places, and work that goes from engine to engine (R43 to R57,
R129, R161 to R219, R287 to R289). -/

namespace Sys2Proof.Proofs.ItemNumbers

open Sys2Proof.Machine Sys2Proof.Spec
open Sys2Proof.Proofs.MemoryInvariant (Answers eachLane_keeps)

variable {d e : Device}

/-! ### What an instruction comes to -/

@[simp] theorem Numbered.coreFault (h : Numbered d) (pl : Platform) (p : Nat) (k : KBlock) (c : FaultCode) (addr lane more : Nat) :
    Numbered (d.coreFault pl p k c addr lane more) := h.takeFaults ..

@[simp] theorem Numbered.coreFail (h : Numbered d) (pl : Platform) (p : Nat) (k : KBlock) (x : MemErr) (lane more : Nat) :
    Numbered (d.coreFail pl p k x lane more) := by
  unfold Device.coreFail
  split <;> simp [h]

@[simp] theorem numbered_parkPack (d : Device) (p : Nat) (w : Option Wait) : Numbered (d.parkPack p w) ↔ Numbered d := .rfl

@[simp] theorem Numbered.issued (h : Numbered d) (k : KBlock) (slot : Option Nat) : Numbered (d.issued k slot) := by
  simp [Device.issued, h]

/-- The device that the body of an instruction leaves. -/
def RanNumbered : Ran → Prop
  | .go d => Numbered d
  | .jump d => Numbered d
  | .wait _ d => Numbered d
  | .stall => True
  | .hold d => Numbered d
  | .fail _ _ _ => True

@[simp] theorem ranNumbered_go : RanNumbered (.go d) ↔ Numbered d := .rfl
@[simp] theorem ranNumbered_jump : RanNumbered (.jump d) ↔ Numbered d := .rfl
@[simp] theorem ranNumbered_wait (w : Wait) : RanNumbered (.wait w d) ↔ Numbered d := .rfl
@[simp] theorem ranNumbered_hold : RanNumbered (.hold d) ↔ Numbered d := .rfl
@[simp] theorem ranNumbered_fail (x : MemErr) (lane more : Nat) : RanNumbered (.fail x lane more) := trivial

/-- An instruction keeps what its body keeps. -/
theorem Numbered.runJkf (h : Numbered d) (i : Issue) (legal : KBlock → Bool) {body : KBlock → Pack → Device → Ran} (pl : Platform)
    (hbody : ∀ k x, RanNumbered (body k x d)) : Numbered (Device.runJkf i legal body pl d) := by
  unfold Device.runJkf
  split
  · exact h
  · next k x _ _ =>
    have hran := hbody k x
    split
    · split <;> next hd1 => rw [hd1] at hran; simp_all
    · simp [h]

/-! ### Arithmetic and predicates -/

theorem Numbered.alu (h : Numbered d) (o : AluOp) (i : Issue) (b : AluBody) (pl : Platform) : Numbered (alu o i b pl d) :=
  h.runJkf _ _ _ fun _ _ => h

theorem Numbered.setPred (h : Numbered d) (cls : Bool) (f : Nat → Dword → Dword → Bool) (i : Issue) (b : PredBody) (pl : Platform) :
    Numbered (setPred cls f i b pl d) := h.runJkf _ _ _ fun _ _ => h

theorem Numbered.setPlog (h : Numbered d) (f : Bool → Bool → Bool) (i : Issue) (b : PlogBody) (pl : Platform) :
    Numbered (setPlog f i b pl d) := h.runJkf _ _ _ fun _ _ => h

/-! ### Lines that a core uses -/

@[simp] theorem numbered_settlePack (d : Device) (p : Nat) (w : Went) : Numbered (d.settlePack p w) ↔ Numbered d := by
  unfold Device.settlePack
  split <;> simp

@[simp] theorem numbered_stalled (d : Device) (k : KBlock) (code : Nat) : Numbered (d.stalled k code) ↔ Numbered d := by
  simp [Device.stalled]

theorem Numbered.touchLine (h : Numbered d) {k : KBlock} {pk : Nat} {reads : Bool} {p : Place × Nat × Nat} {w : Went}
    (he : d.touchLine k pk reads p = .ok (e, w)) : Numbered e := by
  unfold Device.touchLine at he
  dsimp only at he
  split at he
  · obtain ⟨rfl, -⟩ := Prod.mk.inj (Except.ok.inj he)
    split <;> simp [h]
  · split at he
    · cases he
    · next hd1 =>
      obtain ⟨rfl, -⟩ := Prod.mk.inj (Except.ok.inj he)
      have h1 := h.demand hd1
      split
      · exact Numbered.loseWrites ((numbered_installCore ..).mpr h1)
      · exact h1

@[simp] theorem Numbered.touchLines (h : Numbered d) (k : KBlock) (pk : Nat) (reads : Bool) (ps : List (Place × Nat × Nat)) :
    Numbered (d.touchLines k pk reads ps).1 := by
  refine Numbered.foldl_fst (r := (d, Went.near, none)) h (fun r p h => ?_) _
  split
  · exact h
  · next hd1 => exact h.touchLine hd1

@[simp] theorem Numbered.ownLine (h : Numbered d) (k : KBlock) (p : Place × Nat × Nat) : Numbered (d.ownLine k p) := by
  unfold Device.ownLine
  split
  · exact h
  · exact Numbered.loseWrites ((numbered_installCore ..).mpr h)

@[simp] theorem Numbered.touchDie (h : Numbered d) (k : KBlock) (pk : Nat) (ps : List (Place × Nat × Nat)) :
    Numbered (d.touchDie k pk ps).1 := by
  refine Numbered.foldl_fst (r := (d, Went.near, none)) h (fun r p h => ?_) _
  dsimp only
  split
  · exact h
  · split
    · exact h
    · next hd1 => exact h.demand hd1

/-! ### LD (R195) -/

theorem RanNumbered.innerLoad (h : Numbered d) (i : Issue) (b : MemBody) (k : KBlock) (x : Pack) (ls : List Nat) :
    RanNumbered (innerLoad i b k x ls d) := by
  unfold Machine.innerLoad
  dsimp only
  split
  · trivial
  · simpa using h

theorem Numbered.askLines (h : Numbered d) {k : KBlock} {p : Nat} {vs : List (Nat × Nat × Place × Nat)}
    (he : Device.askLines k p vs d = .ok e) : Numbered e := by
  induction vs generalizing d with
  | nil => exact Except.ok.inj he ▸ h
  | cons v vs ih =>
    obtain ⟨l, va, pl, key⟩ := v
    cases pl with
    | dev a => exact ih h he
    | host a => exact ih h he
    | peer nd rc rva =>
      unfold Device.askLines at he
      dsimp only at he
      split at he
      · exact ih h he
      · split at he
        · cases he
        · exact ih (by simpa using h) he

theorem RanNumbered.globalLoad (h : Numbered d) (i : Issue) (b : MemBody) (evicts : List Nat) (k : KBlock) (x : Pack) (ls : List Nat) :
    RanNumbered (globalLoad i b evicts k x ls d) := by
  have hevicted := Numbered.loseWrites ((numbered_evictCore d k.die k.core evicts).mpr h)
  unfold Machine.globalLoad
  generalize Device.loseWrites (d.evictCore k.die k.core evicts) = d1 at hevicted
  dsimp only
  split
  · trivial
  · next vs _ _ =>
    split
    · split
      · trivial
      · next hd2 => exact hevicted.askLines hd2
    · have htouched := hevicted.touchLines k i.pack true
        ((vs.filter fun v => !v.2.1.2.1.away).map fun v => (v.2.1.2.1, v.2.1.2.2, v.2.1.1))
      split <;> next hd2 => rw [hd2] at htouched; simpa using htouched

theorem Numbered.memLoad (h : Numbered d) (i : Issue) (b : MemBody) (evicts : List Nat) (pl : Platform) :
    Numbered (memLoad i b evicts pl d) := by
  refine h.runJkf _ _ _ fun k x => ?_
  dsimp only
  split
  · exact .globalLoad h ..
  · exact .innerLoad h ..

/-! ### ST (R195) -/

theorem RanNumbered.innerStore (h : Numbered d) (i : Issue) (b : MemBody) (k : KBlock) (x : Pack) (ls : List Nat) :
    RanNumbered (innerStore i b k x ls d) := by
  unfold Machine.innerStore
  dsimp only
  split
  · trivial
  · exact h

theorem Numbered.storeCore (h : Numbered d) {k : KBlock} {p l va : Nat} {pl : Place} {key : Nat} {bs : List Byte}
    (he : d.storeCore k p l va pl key bs = .ok e) : Numbered e := by
  unfold Device.storeCore at he
  split at he
  · split at he
    · cases he
    · obtain rfl := Except.ok.inj he
      simpa using h
  · obtain rfl := Except.ok.inj he
    exact h
  · exact h.writePlace he

theorem RanNumbered.globalStore (h : Numbered d) (i : Issue) (b : MemBody) (evicts : List Nat) (k : KBlock) (x : Pack) (ls : List Nat) :
    RanNumbered (globalStore i b evicts k x ls d) := by
  unfold Machine.globalStore
  extract_lets n d1 place put
  have h1 : Numbered d1 := Numbered.loseWrites ((numbered_evictCore d k.die k.core evicts).mpr h)
  split
  · trivial
  · extract_lets all ps
    have howned : Numbered (((distinctLines all).filter (coversLine n all)).foldl (fun d p => d.ownLine k p) d1) :=
      h1.foldl (fun _ p h => h.ownLine k p) _
    have htouched := howned.touchLines k i.pack false ps
    split
    · next hd2 =>
      rw [hd2] at htouched
      simpa using htouched
    · next hd2 =>
      rw [hd2] at htouched
      have hput : ∀ d l u e, Numbered d → put d l = .ok (u, e) → Numbered e := by
        intro d l u e h he
        unfold put at he
        split at he
        · cases he
        · split at he
          · cases he
          · next hd3 => exact (Prod.mk.inj (Except.ok.inj he)).2 ▸ h.storeCore hd3
      split
      · trivial
      · next hd3 => simpa using eachLane_keeps hput htouched hd3

theorem Numbered.memStore (h : Numbered d) (i : Issue) (b : MemBody) (evicts : List Nat) (pl : Platform) :
    Numbered (memStore i b evicts pl d) := by
  refine h.runJkf _ _ _ fun k x => ?_
  dsimp only
  split
  · exact .globalStore h ..
  · exact .innerStore h ..
  · split
    · exact h
    · trivial

/-! ### DISCARD (R232) -/

@[simp] theorem Numbered.discardFrom (h : Numbered d) (k : KBlock) (pl : Place) : Numbered (d.discardFrom k pl) := by
  unfold Device.discardFrom
  split
  · exact Numbered.discardLine (by simpa using h) ..
  · exact h

theorem Numbered.memDiscard (h : Numbered d) (i : Issue) (b : MemBody) (pl : Platform) : Numbered (memDiscard i b pl d) := by
  refine h.runJkf _ _ _ fun k x => ?_
  dsimp only
  split
  · trivial
  · exact h.foldl (fun _ p h => h.discardFrom k p.1) _

/-! ### Atomics (R129, R176) -/

theorem RanNumbered.innerAtomic (h : Numbered d) (op : AtomOp) (ty : AtomTy) (i : Issue) (b : AtomBody) (k : KBlock) (x : Pack)
    (ls : List Nat) : RanNumbered (innerAtomic op ty i b k x ls d) := by
  unfold Machine.innerAtomic
  dsimp only
  split
  · trivial
  · simpa using h

theorem Numbered.globalAtom {i : Issue} {b : AtomBody} {op : AtomOp} {ty : AtomTy} {k : KBlock} {r u : AtomRun} {va : Nat}
    {ls : List Nat} {ps : List (Dword × Dword)} (h : Numbered r.d) (he : globalAtom i b op ty k r va ls ps = .ok u) : Numbered u.d := by
  unfold Machine.globalAtom at he
  split at he
  · cases he
  · split at he
    · cases he
    · obtain rfl := Except.ok.inj he
      simp [h]
  · have hdropped := fun pl key => Numbered.loseWrites ((numbered_dropCoreLine r.d k.die k.core pl key).mpr h)
    dsimp only at he
    split at he
    · cases he
    · next hd2 =>
      obtain rfl := Except.ok.inj he
      exact (hdropped _ _).atomHost hd2
  · have hdropped := fun pl key => Numbered.loseWrites ((numbered_dropCoreLine r.d k.die k.core pl key).mpr h)
    dsimp only at he
    split at he
    · cases he
    · next hd2 =>
      obtain rfl := Except.ok.inj he
      split at hd2
      · exact (hdropped _ _).atomDie hd2
      · exact Numbered.atomDev ((numbered_pastCaches ..).mpr (hdropped _ _)) hd2

theorem Numbered.eachGroup {f : AtomRun → Nat × List Nat → Except MemErr AtomRun}
    (hf : ∀ r g u, Numbered r.d → f r g = .ok u → Numbered u.d) {gs : List (Nat × List Nat)} {r u : AtomRun} (h : Numbered r.d)
    (he : eachGroup f gs r = .ok u) : Numbered u.d := by
  induction gs generalizing r with
  | nil => exact Except.ok.inj he ▸ h
  | cons g gs ih =>
    unfold Machine.eachGroup at he
    split at he
    · cases he
    · next hr1 => exact ih (hf _ _ _ h hr1) he

theorem RanNumbered.globalAtomic (h : Numbered d) (op : AtomOp) (ty : AtomTy) (i : Issue) (b : AtomBody) (k : KBlock) (x : Pack)
    (ls : List Nat) : RanNumbered (globalAtomic op ty i b k x ls d) := by
  unfold Machine.globalAtomic
  extract_lets n gs near
  have htouched := h.touchDie k i.pack near
  split
  · next hd1 =>
    rw [hd1] at htouched
    simpa using htouched
  · next hd1 =>
    rw [hd1] at htouched
    split
    · trivial
    · next r hr =>
      have hrun : Numbered r.d := Numbered.eachGroup (fun _ _ _ h he => h.globalAtom he) (by simpa using htouched) hr
      simp [hrun]

theorem Numbered.atomic (h : Numbered d) (op : AtomOp) (i : Issue) (b : AtomBody) (pl : Platform) : Numbered (atomic op i b pl d) := by
  refine h.runJkf _ _ _ fun k x => ?_
  dsimp only
  split
  · trivial
  · split
    · exact .innerAtomic h ..
    · exact .globalAtomic h ..

/-! ### Fences (R211) -/

@[simp] theorem Numbered.fenceCaches (h : Numbered d) (b : SyncBody) (k : KBlock) : Numbered (fenceCaches b k d).1 := by
  unfold Machine.fenceCaches
  split <;> simp [h]

theorem Numbered.fence (h : Numbered d) (i : Issue) (b : SyncBody) (waited : Nat) (pl : Platform) : Numbered (fence i b waited pl d) := by
  refine h.runJkf _ _ _ fun k x => ?_
  split
  · exact h
  · split
    · exact h
    · extract_lets d0 d1
      have h0 : Numbered d0 := (h.fenceCaches b k).loseWrites
      have h1 : Numbered d1 := by simp [d1, h0]
      split <;> simp [h1]

/-! ### Paths, barriers and places of packs (R161 to R175) -/

@[simp] theorem numbered_idlePack (d : Device) (p : Nat) : Numbered (d.idlePack p) ↔ Numbered d := by simp [Device.idlePack]

@[simp] theorem numbered_pathReconverge (d : Device) (p : Nat) : Numbered (pathReconverge p d) ↔ Numbered d := by
  unfold pathReconverge
  dsimp only
  split
  · rfl
  · split <;> simp

theorem Numbered.branch (h : Numbered d) (i : Issue) (b : BraBody) (pl : Platform) : Numbered (branch i b pl d) := by
  refine h.runJkf _ _ _ fun k x => ?_
  split <;> simp [h]

@[simp] theorem numbered_retire (d : Device) (p : Nat) (k : KBlock) : Numbered (d.retire p k) ↔ Numbered d := by
  unfold Device.retire
  dsimp only
  split
  · simp
  · split <;> simp

theorem Numbered.exitThreads (h : Numbered d) (i : Issue) (pl : Platform) : Numbered (exitThreads i pl d) := by
  refine h.runJkf _ _ _ fun k x => ?_
  simpa using h

theorem Numbered.bar (h : Numbered d) (i : Issue) (id : Nat) (pl : Platform) : Numbered (bar i id pl d) := by
  refine h.runJkf _ _ _ fun k x => ?_
  dsimp only
  split <;> simpa using h

@[simp] theorem numbered_barrierComplete (d : Device) (b id : Nat) : Numbered (barrierComplete b id d) ↔ Numbered d := by
  unfold barrierComplete
  split
  · rfl
  · dsimp only
    split <;> simp

theorem Numbered.barrierTimeout (h : Numbered d) (b id : Nat) (pl : Platform) : Numbered (barrierTimeout b id pl d) := by
  unfold Machine.barrierTimeout
  split
  · exact h
  · split
    · split <;> simp [h]
    · exact h

@[simp] theorem numbered_chargeCore (d : Device) (die core : Nat) (rep : Report) : Numbered (d.chargeCore die core rep) ↔ Numbered d := by
  unfold Device.chargeCore
  dsimp only
  split <;> simp

@[simp] theorem numbered_packMove (d : Device) (die core : Nat) (rep : Report) : Numbered (packMove die core rep d) ↔ Numbered d := by
  unfold packMove
  dsimp only
  split
  · split <;> simp
  · simp

@[simp] theorem Numbered.placeBlock (h : Numbered d) (it : Item) (x : Xlat) (die core : Nat) : Numbered (d.placeBlock it x die core) := by
  unfold Device.placeBlock
  extract_lets first d1 b t k packs
  have h1 : Numbered d1 := by simp [d1, h]
  simpa using h1

theorem Numbered.blockPlace (h : Numbered d) (c q : Nat) : Numbered (blockPlace c q d) := by
  unfold Machine.blockPlace
  split
  · exact h
  · split
    · exact h
    · split
      · exact h
      · split <;> simp [h]

theorem Numbered.movsr (h : Numbered d) (i : Issue) (b : SpecBody) (pl : Platform) : Numbered (movsr i b pl d) :=
  h.runJkf _ _ _ fun _ _ => h

/-! ### Stealing, halts and parked tiles (R51, R57, R287, R288) -/

@[simp] theorem numbered_stealAttempt (d : Device) (die k : Nat) : Numbered (stealAttempt die k d) ↔ Numbered d := by
  unfold stealAttempt
  split
  · rfl
  · split
    · rfl
    · split
      · simp
      · split
        · rfl
        · split
          · rfl
          · split <;> simp

theorem Numbered.endLoad (h : Numbered d) (p : Platform) (die k : Nat) : Answers Numbered Numbered (d.endLoad p die k) := by
  unfold Device.endLoad
  dsimp only
  split
  · next t it _ =>
    split
    · exact h
    · have hloaded := h.loadBank p die k it t
      split <;> next hd1 => rw [hd1] at hloaded; simpa using hloaded
  · exact h

theorem Numbered.parkedTileResume (h : Numbered d) (die k : Nat) (p : Platform) : Numbered (parkedTileResume die k p d) := by
  unfold Machine.parkedTileResume
  dsimp only
  split
  · split
    · exact h
    · have hother := h.finishOther p die k
      split
      · next hx => exact h.heldUp _ _ _ (by rwa [hx] at hother)
      · next hd1 =>
        rw [hd1] at hother
        simpa using hother
  · exact h

theorem Numbered.txbTurnDone (h : Numbered d) (die k : Nat) (isB : Bool) (row col : Nat) (p : Platform) :
    Numbered (txbTurnDone die k isB row col p d) := by
  unfold Machine.txbTurnDone
  split
  · exact h
  · split
    · exact h
    · dsimp only
      split
      · split <;> simp [h]
      · simpa using h

end Sys2Proof.Proofs.ItemNumbers
end


section
/-! O60, the vector engines, stream operations, work that kernels give to engines, and kernel images (R138 to R160, R179 to R206,
R258, R264, R284 to R291). -/

namespace Sys2Proof.Proofs.ItemNumbers

open Sys2Proof.Machine Sys2Proof.Spec
open Sys2Proof.Proofs.MemoryInvariant (bind_eq_ok Answers ite_bind_eq_ok go_of_checked go_of_aligned4)

variable {d e : Device}

/-! ### Work on an engine (R264, R284, R288, R289) -/

@[simp] theorem numbered_leavePool (d : Device) (it : Item) : Numbered (d.leavePool it) ↔ Numbered d := by simp [Device.leavePool]

@[simp] theorem numbered_veQueue (d : Device) (it : Item) (die k : Nat) : Numbered (d.veQueue it die k) ↔ Numbered d := .rfl

@[simp] theorem numbered_veStart (d : Device) (it : Item) (die k : Nat) : Numbered (d.veStart it die k) ↔ Numbered d := by
  simp [Device.veStart]

@[simp] theorem Numbered.veEnd (h : Numbered d) (die k c q : Nat) : Numbered (d.veEnd die k c q) := by simp [Device.veEnd, h]

theorem Numbered.veDispatch (h : Numbered d) (p : Platform) (it : Item) {go : Device → Nat → Nat → Device}
    (hgo : ∀ d die k, Numbered d → Numbered (go d die k)) : Numbered (d.veDispatch p it go) := by
  unfold Device.veDispatch
  extract_lets run
  have hrun : ∀ d x, Numbered d → Numbered (run d x) := by
    intro d x h
    unfold run
    split
    · exact hgo _ _ _ (by simpa using h)
    · exact h
  split
  · exact hrun _ _ h
  · split
    · exact h
    · exact hrun _ _ (by simpa using h)

theorem Numbered.vecList (h : Numbered d) (c q : Nat) (p : Platform) : Numbered (vecList c q p d) := by
  unfold Machine.vecList
  split
  · exact h
  · split
    · exact h
    · exact h.startClaimed _ (h.veDispatch _ _ fun _ _ _ h => h)

/-! ### Vector instructions (R143, R144, R198) -/

/-- The operation keeps the invariant. -/
def VecKeeps (o : VecOp) : Prop := ∀ x d e, Numbered d → o.run x d = .ok e → Numbered e

theorem VecKeeps.go {o : VecOp} (ho : VecKeeps o) (h : Numbered d) {x : VecIn} (he : o.go x d = .ok e) : Numbered e := by
  unfold VecOp.go at he
  split at he
  · cases he
  · split at he
    · exact Except.ok.inj he ▸ h
    · exact ho x d e h he

@[simp] theorem numbered_vecCount (d : Device) (x : VecIn) (rep : Report) : Numbered (x.count rep d) ↔ Numbered d := by
  simp [VecIn.count]

@[simp] theorem Numbered.vecFault (h : Numbered d) (pl : Platform) (p : Nat) (x : VecIn) (c : FaultCode) (va : Nat) :
    Numbered (d.vecFault pl p x c va) := h.takeFaults ..

theorem RanNumbered.vecFailed (h : Numbered d) (pl : Platform) (p : Nat) (x : VecIn) (m : MemErr) : RanNumbered (vecFailed pl p x m d) := by
  unfold Machine.vecFailed
  split <;> simp [h]

theorem Numbered.vecPack {o : VecOp} (ho : VecKeeps o) (h : Numbered d) (p : Nat) (rep : Report) (b : VecBody) (pl : Platform) :
    Numbered (vecPack o p rep b pl d) := by
  refine h.runJkf _ _ _ fun k x => ?_
  dsimp only
  split
  · trivial
  · split
    · trivial
    · split
      · next hd1 => exact h.fetch_stall hd1
      · exact .vecFailed h ..
      · next hd0 =>
        split
        · next hd1 => simpa using ho.go (h.fetch hd0) hd1
        · exact .vecFailed h ..

@[simp] theorem Numbered.listNext (h : Numbered d) (die k : Nat) (it : Item) : Numbered (d.listNext die k it) := by
  unfold Device.listNext
  dsimp only
  split <;> simp [h]

theorem Numbered.vecOpEntry {o : VecOp} (ho : VecKeeps o) (h : Numbered d) (v : VecIn) (rep : Report) (p : Platform) :
    Numbered (o.entry v rep p d) := by
  unfold VecOp.entry
  split
  · simp [h]
  · split
    · next hd1 => exact h.fetch_stall hd1
    · simp [h]
    · next hd0 =>
      split
      · next hd1 => exact Numbered.listNext (by simpa using ho.go (h.fetch hd0) hd1) ..
      · simp [h]

theorem Numbered.vecEntry {o : VecOp} (ho : VecKeeps o) (h : Numbered d) (code die k : Nat) (u : List Word) (rep : Report)
    (b : VecBody) (p : Platform) : Numbered (vecEntry code o die k u rep b p d) := by
  unfold Machine.vecEntry
  extract_lets d1 eng
  have h1 : Numbered d1 := by simpa [d1] using h
  split
  · exact h1
  · dsimp only
    split
    · exact h1
    · split
      · next hd2 => exact h1.fetch_stall hd2
      · simp [h1]
      · next hd2 =>
        have h2 := h1.fetch hd2
        split
        · simp [h1]
        · split
          · exact h1
          · exact h2.vecOpEntry ho ..

theorem Numbered.vec {o : VecOp} (ho : VecKeeps o) (h : Numbered d) (code : Nat) (v : VecArgs) (p : Platform) :
    Numbered (vec code o v p d) := by
  unfold Machine.vec
  split
  · exact h.vecPack ho ..
  · exact h.vecEntry ho ..

/-! ### The operations (R146 to R157) -/

theorem vecKeeps_elemOp (fmts : List Nat) (f : Nat → Word → Word → Word → Word) : VecKeeps (elemOp fmts f) :=
  fun _ _ _ h he => Except.ok.inj he ▸ h

theorem vecKeeps_vsel (fmts : List Nat) : VecKeeps (vsel fmts) := fun _ _ _ h he => Except.ok.inj he ▸ h

theorem vecKeeps_maskOp (f : Nat → Word → Word → Bool) : VecKeeps (maskOp f) := fun _ _ _ h he => Except.ok.inj he ▸ h

theorem vecKeeps_redOp (f : Nat → Word → Word → Word) : VecKeeps (redOp f) := by
  intro x d e h he
  unfold redOp at he
  dsimp only at he
  split at he <;> exact Except.ok.inj he ▸ h

theorem vecKeeps_scanOp (excl seg : Bool) (f : Nat → Word → Word → Word) : VecKeeps (scanOp excl seg f) :=
  fun _ _ _ h he => Except.ok.inj he ▸ h

theorem Numbered.vecStore (h : Numbered d) {x : VecIn} {va : Nat} {bs : List Byte} (he : x.store d va bs = .ok e) : Numbered e := by
  obtain ⟨d1, hd1, he⟩ := bind_eq_ok.mp he
  have h1 := h.writeVa hd1
  dsimp only at he
  split at he
  · exact h1.saveBytes he
  · exact Except.ok.inj he ▸ h1

theorem Numbered.putBits (h : Numbered d) {x : VecIn} {va bit code : Nat} (he : x.putBits d va bit code = .ok e) : Numbered e := by
  obtain ⟨first, he⟩ := ite_bind_eq_ok he
  obtain ⟨last, he⟩ := ite_bind_eq_ok he
  exact h.vecStore he

theorem vecKeeps_load (words : Nat) (fmts : List Nat) (draws : VecIn → Bool) (stride : VecIn → Nat) :
    VecKeeps ⟨words, fmts, draws, fun x => x.load (stride x)⟩ := by
  intro x d e h he
  obtain ⟨xs, -, he⟩ := bind_eq_ok.mp (go_of_checked he)
  exact Except.ok.inj he ▸ h

theorem vecKeeps_save (words : Nat) (fmts : List Nat) (draws : VecIn → Bool) (stride : VecIn → Nat) :
    VecKeeps ⟨words, fmts, draws, fun x => x.save (stride x)⟩ := by
  intro x d e h he
  obtain ⟨d1, hd1, he⟩ := bind_eq_ok.mp (go_of_checked he)
  have h1 := h.foldlM (fun _ _ _ h he => h.putBits he) hd1
  exact h1.foldlM (fun _ _ _ h he => h.vecStore he) he

theorem vecKeeps_vecGather : VecKeeps vecGather := by
  intro x d e h he
  obtain ⟨xs, -, he⟩ := bind_eq_ok.mp (go_of_aligned4 he)
  exact Except.ok.inj he ▸ h

theorem vecKeeps_vecScatter : VecKeeps vecScatter :=
  fun _ _ _ h he => h.foldlM (fun _ _ _ h he => h.vecStore he) (go_of_aligned4 he)

theorem vecKeeps_vecCvt : VecKeeps vecCvt := by
  intro x d e h he
  unfold vecCvt at he
  dsimp only at he
  split at he
  · cases he
  · exact Except.ok.inj he ▸ h

theorem vecKeeps_randU32 : VecKeeps randU32 := fun _ _ _ h he => Except.ok.inj he ▸ h

theorem vecKeeps_randUni : VecKeeps randUni := fun _ _ _ h he => Except.ok.inj he ▸ h

theorem vecKeeps_randBern : VecKeeps randBern := by
  intro x d e h he
  unfold randBern at he
  dsimp only at he
  split at he
  · cases he
  · exact Except.ok.inj he ▸ h

theorem vecKeeps_dropOp : VecKeeps dropOp := fun _ _ _ h he => Except.ok.inj he ▸ h

/-! ### Grants of the generator (R158, R159) -/

@[simp] theorem numbered_chargeDraw (d : Device) (die cycles : Nat) (r : DrawReq) : Numbered (d.chargeDraw die cycles r) ↔ Numbered d := by
  unfold Device.chargeDraw
  split
  · split <;> simp
  · rfl

@[simp] theorem numbered_cb10Grant (d : Device) (die : Nat) (reqs : List DrawReq) : Numbered (cb10Grant die reqs d) ↔ Numbered d := by
  unfold cb10Grant
  extract_lets b blocks real won lost cycles d1 d2
  have h1 : Numbered d1 ↔ Numbered d := numbered_foldl (fun d r => by split <;> simp) _
  have h2 : Numbered d2 ↔ Numbered d1 := numbered_foldl (fun d r => by simp) _
  rw [numbered_updDie, h2, h1]

/-! ### Stream operations (R59, R68, R72, R152, R265) -/

theorem Numbered.putOut (h : Numbered d) {a : Actor} {base off : Nat} {bs : List Byte} (he : d.putOut a base off bs = .ok e) :
    Numbered e := h.of_skip h.writeVa he

theorem Numbered.saveArrays (h : Numbered d) {it : Item} {a : Actor} {off : Nat} {arrays : List (List Byte)}
    (he : d.saveArrays it a off arrays = .ok e) : Numbered e := by
  induction arrays generalizing d off with
  | nil => exact Except.ok.inj he ▸ h
  | cons bs rest ih =>
    obtain ⟨d1, h1, he⟩ := h.of_skip_bind (fun _ => h.saveBytes) he
    exact ih h1 he

@[simp] theorem numbered_startSeg (d : Device) (it : Item) : Numbered (d.startSeg it) ↔ Numbered d := by
  unfold Device.startSeg
  split <;> simp

theorem Numbered.putZcRow (h : Numbered d) {it : Item} {a : Actor} {mOff vOff rOff : Nat} {row : List Byte × List Byte}
    (he : d.putZcRow it a mOff vOff rOff row = .ok e) : Numbered e := by
  unfold Device.putZcRow at he
  dsimp only at he
  split at he
  · split at he
    · cases he
    · obtain rfl := Except.ok.inj he
      simpa using h
  · obtain ⟨d1, hd1, he⟩ := bind_eq_ok.mp he
    obtain ⟨d2, hd2, he⟩ := bind_eq_ok.mp he
    exact ((h.putOut hd1).putOut hd2).putOut he

theorem Numbered.zcRows (h : Numbered d) {it : Item} {a : Actor} {m v r : Nat} {xs : List (List Byte × List Byte)}
    (he : Device.zcRows it a m v r xs d = .ok e) : Numbered e := by
  induction xs generalizing d m v r with
  | nil => exact Except.ok.inj he ▸ h
  | cons x xs ih =>
    unfold Device.zcRows at he
    split at he
    · cases he
    · next hd1 => exact ih (h.putZcRow hd1) he

/-- The operation on a stream keeps the invariant. -/
def StreamKeeps (op : StreamOp) : Prop := ∀ it a d e, Numbered d → op it a d = .ok e → Numbered e

theorem streamKeeps_zcCompress : StreamKeeps zcCompress := by
  intro it a d e h he
  unfold zcCompress at he
  split at he
  · obtain rfl := Except.ok.inj he
    simp [h]
  · obtain ⟨rows, -, he⟩ := bind_eq_ok.mp he
    obtain ⟨d3, hd3, he⟩ := bind_eq_ok.mp he
    obtain ⟨d4, hd4, he⟩ := bind_eq_ok.mp he
    obtain rfl := Except.ok.inj he
    have h3 : Numbered (d3.startSeg it) := by simpa using h.zcRows hd3
    simpa using h3.saveArrays hd4

theorem Numbered.putRows (h : Numbered d) {it : Item} {a : Actor} {rows : List (List Nat)} (he : d.putRows it a rows = .ok e) :
    Numbered e := h.of_skip (h.foldlM fun _ _ _ h he => h.putElems he) he

theorem streamKeeps_s24Compress : StreamKeeps s24Compress := by
  intro it a d e h he
  obtain ⟨pats, -, he⟩ := bind_eq_ok.mp he
  obtain ⟨cols, -, he⟩ := bind_eq_ok.mp he
  dsimp only at he
  split at he
  · obtain rfl := Except.ok.inj he
    simp [h]
  · obtain ⟨d1, hd1, he⟩ := bind_eq_ok.mp he
    obtain ⟨d2, hd2, he⟩ := bind_eq_ok.mp he
    obtain ⟨d3, hd3, he⟩ := bind_eq_ok.mp he
    obtain rfl := Except.ok.inj he
    simpa using ((h.putRows hd1).putOut hd2).saveArrays hd3

theorem streamKeeps_prune24t : StreamKeeps prune24t := by
  intro it a d e h he
  unfold prune24t at he
  split at he
  · obtain rfl := Except.ok.inj he
    simp [h]
  · obtain ⟨blocks, -, he⟩ := bind_eq_ok.mp he
    obtain ⟨d1, h1, he⟩ := h.of_when_bind (fun _ => h.putRows) he
    obtain ⟨d2, hd2, he⟩ := bind_eq_ok.mp he
    exact (h1.putOut hd2).saveArrays he

theorem streamKeeps_nnzHist : StreamKeeps nnzHist := by
  intro it a d e h he
  obtain ⟨rows, -, he⟩ := bind_eq_ok.mp he
  dsimp only at he
  split at he
  · obtain rfl := Except.ok.inj he
    simp [h]
  · obtain ⟨d1, hd1, he⟩ := bind_eq_ok.mp he
    obtain ⟨d2, hd2, he⟩ := bind_eq_ok.mp he
    obtain ⟨d3, hd3, he⟩ := bind_eq_ok.mp he
    exact (((h.putOut hd1).putOut hd2).putOut hd3).saveArrays he

@[simp] theorem numbered_streamCount (d : Device) (c die k : Nat) (rep : Report) : Numbered (d.streamCount c die k rep) ↔ Numbered d := by
  simp [Device.streamCount]

section Stream
variable {op : StreamOp} (hop : StreamKeeps op)
include hop

theorem Numbered.streamPart (h : Numbered d) (it : Item) (rep : Report) (p : Platform) (die k : Nat) :
    Numbered (streamPart op it rep p d die k) := by
  unfold Machine.streamPart
  split
  · simpa using h
  · split
    · simp [h]
    · next hd1 => exact Numbered.veEnd ((numbered_streamCount ..).mpr (hop _ _ _ _ h hd1)) ..

theorem Numbered.streamGo (h : Numbered d) (it : Item) (rep : Report) (p : Platform) (die k : Nat) :
    Numbered (streamGo op it rep p d die k) := by
  unfold Machine.streamGo
  split
  · exact h.streamPart hop ..
  · split
    · next hd1 => exact h.fetch_stall hd1
    · simp [h]
    · next hd1 => exact Numbered.streamPart hop (by simpa using h.fetch hd1) ..

theorem Numbered.streamItem (h : Numbered d) (code c q : Nat) (rep : Report) (p : Platform) :
    Numbered (streamItem code op c q rep p d) := by
  unfold Machine.streamItem
  split
  · exact h
  · split
    · exact h
    · split
      · split
        · simp [h]
        · split
          · simp [h]
          · exact h.startClaimed _ (h.veDispatch _ _ fun _ _ _ h => h.streamGo hop ..)
      · split
        · exact h.streamGo hop ..
        · exact h
      · exact h

end Stream

/-- A work record takes a number from 2^32 on (R179; log 76). -/
@[simp] theorem Numbered.enterWork (h : Numbered d) (kit : Item) (b tok : Nat) (r : List Byte) :
    Numbered (d.enterWork kit b tok r).1 := by
  have hwork : NumberOk (d.enterWork kit b tok r).2 := Nat.le_add_right ..
  have hadd : Numbered (d.mapHub fun h => { h with workSeq := h.workSeq + 1, items := h.items ++ [(d.enterWork kit b tok r).2] }) :=
    h.addItem d hwork
  exact (numbered_updItem _ kit.ctx kit.seq (f := fun x => { x with out := x.out + 1 }) fun _ => ⟨rfl, rfl⟩).mpr hadd

@[simp] theorem Numbered.beginStream (h : Numbered d) (code p a : Nat) (pl : Platform) (k : KBlock) (kit : Item) (v : VecIn) :
    Numbered (beginStream code p a pl k kit v d) := by
  unfold Machine.beginStream
  extract_lets r d0
  have h0 : Numbered d0 := by simp [d0, h]
  split
  · simp [h]
  · split
    · simp [h]
    · split
      · simp [h]
      · split
        · simp [h0]
        · dsimp only
          split <;> simp [h0]

/-- What a stream operation of a pack leaves, when it stalls and when it ran. -/
def StreamRunNumbered (x : Device × Option Device) : Prop := Numbered x.1 ∧ ∀ d2 ∈ x.2, Numbered d2

theorem RanNumbered.runStream {op : StreamOp} (hop : StreamKeeps op) (h : Numbered d) (rep : Report) (pl : Platform) (v : VecIn)
    (it : Item) : RanNumbered (runStream op rep pl v it d) := by
  unfold Machine.runStream
  extract_lets fin run
  have hfin : ∀ d, Numbered d → Numbered (fin d) := fun d h => h.veEnd ..
  have hrun : Answers (fun _ => True) StreamRunNumbered run := by
    unfold run
    split
    · next hd1 => exact ⟨h.fetch_stall hd1, by simp⟩
    · trivial
    · next d1 x hd1 =>
      have h1 := h.fetch hd1
      cases hd2 : op it (it.actor (some v.die)) d1 with
      | error x => trivial
      | ok d2 => exact ⟨h1, by simpa using hop _ _ _ _ h1 hd2⟩
  clear_value run
  split
  · simp [h]
  · split
    · simp [h]
    · split
      · exact h
      · split
        · exact hfin _ (by simpa using h)
        · split
          · obtain ⟨-, h2⟩ := hrun
            exact hfin _ (by simpa using h2)
          · exact hrun.1
          all_goals simp [h]

theorem Numbered.streamPack {op : StreamOp} (hop : StreamKeeps op) (h : Numbered d) (code p : Nat) (rep : Report) (b : VecBody)
    (pl : Platform) : Numbered (streamPack code op p rep b pl d) := by
  refine h.runJkf _ _ _ fun k x => ?_
  split
  · trivial
  · extract_lets v d1
    split
    · trivial
    · have h1 : Numbered d1 := by
        unfold d1
        split
        · exact h
        · exact h.beginStream ..
      split
      · exact .runStream hop h1 ..
      · split <;> exact h1

theorem Numbered.stream {op : StreamOp} (hop : StreamKeeps op) (h : Numbered d) (code : Nat) (src : StreamSrc) (p : Platform) :
    Numbered (stream code op src p d) := by
  unfold Machine.stream
  split
  · exact h.streamItem hop ..
  · exact h.streamPack hop ..

/-! ### Work that kernels give to engines (R179 to R182, R198) -/

theorem Numbered.placeWork (h : Numbered d) {k : KBlock} {it : Item} {kind n : Nat} (he : d.placeWork k it kind n = .ok e) : Numbered e := by
  unfold Device.placeWork at he
  dsimp only at he
  split at he
  · cases he
  · obtain rfl := Except.ok.inj he
    split
    · split <;> simpa using h
    · simpa using h

@[simp] theorem numbered_giveToken (d : Device) (i : Issue) (b : EngBody) (x : Pack) (tok seq : Nat) :
    Numbered (d.giveToken i b x tok seq) ↔ Numbered d := .rfl

theorem RanNumbered.issueWork (h : Numbered d) (i : Issue) (b : EngBody) (r rec : List Byte) (pl : Platform) (k : KBlock) (kit : Item)
    (x : Pack) (tok : Nat) : RanNumbered (issueWork i b r rec pl k kit x tok d) := by
  unfold Machine.issueWork
  have h2 : Numbered (((d.enterWork kit (i.pack / 16) tok r).1.giveToken i b x tok (d.enterWork kit (i.pack / 16) tok r).2.seq).take
      pl (d.enterWork kit (i.pack / 16) tok r).2 rec) := Numbered.take (by simp [h]) ..
  dsimp only
  generalize ((d.enterWork kit (i.pack / 16) tok r).1.giveToken i b x tok (d.enterWork kit (i.pack / 16) tok r).2.seq).take
      pl (d.enterWork kit (i.pack / 16) tok r).2 rec = d2 at h2
  split
  · exact h2
  · split
    · exact h2
    · split
      · exact h2
      · split
        · simp [h2]
        · split
          · simpa using h
          · next hd3 => exact h2.placeWork hd3

theorem RanNumbered.ite {c : Prop} [Decidable c] {a b : Ran} (ha : RanNumbered a) (hb : RanNumbered b) :
    RanNumbered (if c then a else b) := by
  split <;> assumption

theorem Numbered.engIssue (h : Numbered d) (i : Issue) (b : EngBody) (pl : Platform) : Numbered (engIssue i b pl d) := by
  refine h.runJkf _ _ _ fun k x => ?_
  extract_lets d1 a r
  have h1 : Numbered d1 := Numbered.loseWrites ((numbered_cleanCore ..).mpr h)
  clear_value r d1
  generalize field r 0x10 8 = va
  split
  · next kit tok _ _ =>
    have h2 := (numbered_h0Bytes d1 (kit.actor none) 128 va).mpr h1
    generalize d1.h0Bytes (kit.actor none) 128 va = d2 at h2 ⊢
    refine .ite (ranNumbered_fail ..) (.ite (ranNumbered_fail ..) (.ite (ranNumbered_fail ..) ?_))
    dsimp only
    cases d2.readBytes (kit.actor none) 128 va with
    | error x => simp [h2]
    | ok rec => exact .issueWork h2 ..
  · trivial

theorem Numbered.engWait (h : Numbered d) (i : Issue) (b : EngBody) (pl : Platform) : Numbered (engWait i b pl d) := by
  refine h.runJkf _ _ _ fun k x => ?_
  dsimp only
  split
  · trivial
  · split
    · exact h
    · simp [h]

theorem Numbered.vacq (h : Numbered d) (i : Issue) (b : EngBody) (pl : Platform) : Numbered (vacq i b pl d) := by
  refine h.runJkf _ _ _ fun k x => ?_
  dsimp only
  split
  · simpa using h
  · split <;> simpa using h

theorem Numbered.vrel (h : Numbered d) (i : Issue) (b : EngBody) (pl : Platform) : Numbered (vrel i b pl d) := by
  refine h.runJkf _ _ _ fun k x => ?_
  simpa using h

theorem Numbered.vsync (h : Numbered d) (i : Issue) (b : EngBody) (pl : Platform) : Numbered (vsync i b pl d) := by
  refine h.runJkf _ _ _ fun k x => ?_
  split <;> exact h

/-! ### Kernel images (R191, R201 to R206) -/

@[simp] theorem Numbered.xlatCome (h : Numbered d) (p : Platform) (check : Nat) (it : Item) :
    Numbered (Device.xlatCome p check d it) := by
  unfold Device.xlatCome
  extract_lets t d1 d2
  have h2 : Numbered d2 := by simp [d2, d1, h]
  split <;> simp [h2]

@[simp] theorem Numbered.xlatDone (h : Numbered d) (p : Platform) (it : Item) (img : List Byte) : Numbered (d.xlatDone p it img) := by
  unfold Device.xlatDone
  split
  · exact h
  · refine Numbered.foldl (f := Device.xlatCome p (imgCheck img)) ?_ (fun _ x h => h.xlatCome ..) _
    exact (numbered_count ..).mpr h

@[simp] theorem Numbered.imageFault (h : Numbered d) (p : Platform) (it : Item) (pc : Nat) : Numbered (d.imageFault p it pc) :=
  h.takeFaults ..

@[simp] theorem Numbered.loadFailed (h : Numbered d) (p : Platform) (it : Item) (x : MemErr) : Numbered (d.loadFailed p it x) := by
  unfold Device.loadFailed
  split <;> simp [h]

@[simp] theorem Numbered.loadImage (h : Numbered d) (p : Platform) (it : Item) (hdr : List Byte) : Numbered (d.loadImage p it hdr) := by
  unfold Device.loadImage
  extract_lets d1
  have h1 : Numbered d1 := (numbered_h0Bytes ..).mpr h
  split
  · simp [h]
  · split
    · simp [h1]
    · split <;> simp [h1]

theorem Numbered.jkfTranslationDone (h : Numbered d) (c q : Nat) (p : Platform) : Numbered (jkfTranslationDone c q p d) := by
  unfold Machine.jkfTranslationDone
  split
  · exact h
  · split
    · exact h
    · dsimp only
      split <;> simp [h]

theorem Numbered.kernel (h : Numbered d) (c q : Nat) (p : Platform) : Numbered (kernel c q p d) := by
  unfold Machine.kernel
  split
  · exact h
  · split
    · exact h
    · split
      · exact h
      · split
        · simp [h]
        · dsimp only
          split <;> simp [h]

end Sys2Proof.Proofs.ItemNumbers
end


section
/-! O60, halts and parking, norm-and-update items, the Reel network and the partner ports (R48, R57, R105 to R117, R296 to R324). -/

namespace Sys2Proof.Proofs.ItemNumbers

open Sys2Proof.Machine Sys2Proof.Spec
open Sys2Proof.Proofs.MemoryInvariant (bind_eq_ok Answers)

variable {d e : Device}

/-! ### Halts and parked tiles (R48, R57, R288) -/

theorem Numbered.engineDebugHalt (h : Numbered d) (die k chunk : Nat) (p : Platform) : Numbered (engineDebugHalt die k chunk p d) := by
  unfold Machine.engineDebugHalt
  dsimp only
  split
  · exact h
  · have hload := h.endLoad p die k
    split
    · next hd1 => rwa [hd1] at hload
    · next d0 hd0 =>
      have h0 : Numbered d0 := by rwa [hd0] at hload
      split
      · simpa using h0
      · next which _ =>
        have hran := h0.advance p die k which chunk
        split
        · next hd1 =>
          rw [hd1] at hran
          simpa using hran
        · simpa using h0
        · next hx => exact h0.heldUp _ _ _ (by rwa [hx] at hran)

theorem Numbered.tilePark (h : Numbered d) (die k chunk : Nat) (p : Platform) : Numbered (tilePark die k chunk p d) := by
  unfold Machine.tilePark
  extract_lets r
  split
  · next which _ _ =>
    split
    · exact h
    · split
      · extract_lets park
        have hpark : ∀ d, Numbered d → Numbered (park d) := by
          intro d h
          unfold park
          split <;> simpa using h
        have hran := h.advance p die k which chunk
        split
        · next hd1 => exact hpark _ (by rwa [hd1] at hran)
        · exact hpark _ h
        · next hx => exact h.heldUp _ _ _ (by rwa [hx] at hran)
      · exact h
  · exact h

/-! ### Norm-and-update items (R105 to R117) -/

@[simp] theorem numbered_updRun (d : Device) (c q : Nat) (f : Update → Update) : Numbered (d.updRun c q f) ↔ Numbered d := .rfl

@[simp] theorem Numbered.formSum (h : Numbered d) (p : Platform) (it : Item) (layers : Nat) : Numbered (d.formSum p it layers) := by
  unfold Device.formSum
  extract_lets d1
  have h1 : Numbered d1 := (numbered_h0Read ..).mpr h
  split <;> simp [h1]

theorem Numbered.normUpdate (h : Numbered d) (c q : Nat) (p : Platform) : Numbered (normUpdate c q p d) := by
  unfold Machine.normUpdate
  split
  · exact h
  · split
    · exact h
    · split
      · exact h
      · split
        · exact h.formSum ..
        · extract_lets d1
          have h1 : Numbered d1 := (numbered_h0Bytes ..).mpr h
          split
          · simp [h1]
          · split
            · simp [h1]
            · exact Numbered.formSum (by simpa using h1) ..

@[simp] theorem numbered_normKnown (d : Device) (c q : Nat) (total : Word) : Numbered (d.normKnown c q total) ↔ Numbered d := by
  unfold Device.normKnown
  split
  · rfl
  · dsimp only
    split <;> simp

theorem Numbered.mixRange (h : Numbered d) (a : Actor) (n : Nat) (r : Nat × Nat) : Numbered (d.mixRange a n r) :=
  h.foldl (fun _ _ h => h.mixByte ..) _

@[simp] theorem numbered_chargePinWait (d : Device) (it : Item) (cycles : Nat) (held : List (Nat × Nat × Nat)) :
    Numbered (d.chargePinWait it cycles held) ↔ Numbered d := by simp [Device.chargePinWait]

theorem Numbered.layerWriteStart (h : Numbered d) (c q waited : Nat) (held : List (Nat × Nat × Nat)) (p : Platform) :
    Numbered (layerWriteStart c q waited held p d) := by
  unfold Machine.layerWriteStart
  split
  · split
    · exact h
    · split
      · exact h
      · split
        · exact h
        · extract_lets d0 d1 go
          have h0 : Numbered d0 := by simp [d0, h]
          have h1 : Numbered d1 := (numbered_h0Read ..).mpr h0
          cases go with
          | error x => exact h1.accessFailed ..
          | ok rs => exact (numbered_updRun ..).mpr (Numbered.foldl ((numbered_mk ..).mpr h1) (fun _ _ h => h.mixRange ..) _)
  · exact h

theorem Numbered.writeLayer (h : Numbered d) {it : Item} {r : Update} {slot : Bool} {n : Nat} (he : d.writeLayer it r slot = .ok (e, n)) :
    Numbered e := by
  have h1 : Numbered (d.h0Read (it.actor none) fun b => d.layerReads b it r.layer slot) := (numbered_h0Read ..).mpr h
  unfold Device.writeLayer at he
  dsimp only at he
  generalize d.h0Read (it.actor none) (fun b => d.layerReads b it r.layer slot) = d1 at h1 he
  obtain ⟨x, -, he⟩ := bind_eq_ok.mp he
  obtain ⟨ws, -, he⟩ := bind_eq_ok.mp he
  obtain ⟨d2, hd2, he⟩ := bind_eq_ok.mp he
  obtain ⟨d3, hd3, he⟩ := bind_eq_ok.mp he
  obtain ⟨d4, h4, he⟩ := ((h1.writeVa hd2).writeVa hd3).of_when_bind (fun _ hd4 => ((h1.writeVa hd2).writeVa hd3).writeVa hd4) he
  obtain rfl : d4 = e := congrArg Prod.fst (Except.ok.inj he)
  exact h4

@[simp] theorem Numbered.publish (h : Numbered d) (p : Platform) (it : Item) (w : WSet) : Numbered (d.publish p it w) := by
  unfold Device.publish
  dsimp only
  split
  · simp [h]
  · next hd1 => simpa using h.writeVa hd1

theorem Numbered.swapLayer (h : Numbered d) (p : Platform) (it : Item) (r : Update) (w : WSet) (l : WLayer) :
    Numbered (d.swapLayer p it r w l) := by
  unfold Device.swapLayer
  extract_lets d1
  have h1 : Numbered d1 := by simpa [d1] using h
  split
  · simp [h1]
  · next hd2 =>
    have h2 := h1.writeVa hd2
    split <;> simp [h2]

theorem Numbered.layerSwap (h : Numbered d) (c q : Nat) (p : Platform) : Numbered (layerSwap c q p d) := by
  unfold Machine.layerSwap
  split
  · split
    · exact h
    · split
      · exact h
      · split
        · simp [h]
        · next hd1 => exact Numbered.swapLayer (by simpa using h.writeLayer hd1) ..
  · exact h

/-! ### The Reel network (R297 to R309) -/

@[simp] theorem numbered_toKids (d : Device) (ps : List Nat) (m : ReelMsg) : Numbered (d.toKids ps m) ↔ Numbered d := by simp [Device.toKids]

@[simp] theorem numbered_decide (d : Device) (g : Nat) (x : Group) (s : Summary) : Numbered (d.decide_ g x s) ↔ Numbered d := by
  simp [Device.decide_]

@[simp] theorem numbered_reelAdvance (d : Device) (g : Nat) : Numbered (d.reelAdvance g) ↔ Numbered d := by
  unfold Device.reelAdvance
  dsimp only
  split
  · rfl
  · split
    · split
      · split <;> simp
      · rfl
    · simp

theorem Numbered.reelStart (h : Numbered d) (p : Platform) (c q op len : Nat) (gives : Item → Bool) :
    Numbered (d.reelStart p c q op len gives) := by
  refine h.act _ _ _ _ _ fun it d h => ?_
  extract_lets n d1
  have h1 : Numbered d1 := (numbered_h0Bytes ..).mpr h
  split <;> simp [h1]

@[simp] theorem numbered_reelArrival (d : Device) (c q : Nat) (p : Platform) : Numbered (reelArrival c q p d) ↔ Numbered d := by
  unfold reelArrival
  split
  · rfl
  · split
    · rfl
    · split <;> simp

theorem Numbered.shardDone (h : Numbered d) (p : Platform) (dn : Down) (a : Arrival) : Numbered (d.shardDone p dn a) := by
  unfold Device.shardDone
  split
  · exact h
  · split
    · simp [h]
    · extract_lets d1 bs
      have h1 : Numbered d1 := by simpa [d1] using h
      split
      · simpa using h1
      · split
        · simp [h1]
        · next hd2 => simpa using h1.writeVa hd2

theorem Numbered.reelInstanceComplete (h : Numbered d) (g : Nat) (p : Platform) : Numbered (reelInstanceComplete g p d) := by
  unfold Machine.reelInstanceComplete
  dsimp only
  split
  · simpa using h
  · refine (numbered_reelAdvance ..).mpr (Numbered.foldl ?_ (fun _ _ h => h.shardDone ..) _)
    split <;> simpa using h

@[simp] theorem Numbered.abortInst (h : Numbered d) (g inst : Nat) (ps : ReelParams) (shard : Nat) (come : Option Nat) :
    Numbered (d.abortInst g inst ps shard come) := by
  unfold Device.abortInst
  dsimp only
  split
  · exact h
  · have h1 : Numbered ((d.instItems g inst).foldl (fun d i => (d.purge i.ctx i.seq .now).updItem i.ctx i.seq fun it =>
        { it with depFail := some (it.depFail.getD (detailDep 5 shard)), phase := .done }) d) :=
      h.foldl (fun d i h => by simp [h]) _
    simpa using h1

theorem Numbered.reelAbort (h : Numbered d) (g shard : Nat) : Numbered (reelAbort g shard d) := by
  unfold Machine.reelAbort
  dsimp only
  split <;> simp [h]

@[simp] theorem Numbered.groupDown (h : Numbered d) (g port : Nat) : Numbered (d.groupDown g port) := by
  unfold Device.groupDown
  extract_lets x its d1 d2
  split
  · exact h
  · have h1 : Numbered d1 := h.foldl (fun d i h => by simp [h]) _
    have h2 : Numbered d2 := by simpa [d2] using h1
    split <;> simpa using h2

@[simp] theorem numbered_toChildren (d : Device) (m : ReelMsg) : Numbered (d.toChildren m) ↔ Numbered d := by simp [Device.toChildren]

@[simp] theorem numbered_snapFreeze (d : Device) (root : Bool) : Numbered (d.snapFreeze root) ↔ Numbered d := by simp [Device.snapFreeze]

@[simp] theorem numbered_snapResume (d : Device) : Numbered d.snapResume ↔ Numbered d := by simp [Device.snapResume]

@[simp] theorem Numbered.groupMsg (h : Numbered d) (port : Nat) (m : ReelMsg) : Numbered (d.groupMsg port m) := by
  cases m with
  | reset => exact h
  | _ =>
    unfold Device.groupMsg
    dsimp only
    split <;> simp [h]

/-! ### Partner ports (R311 to R324) -/

@[simp] theorem numbered_pumpPort (d : Device) (p : Nat) : Numbered (d.pumpPort p) ↔ Numbered d := .rfl

@[simp] theorem numbered_greet (d : Device) (port : Nat) : Numbered (d.greet port) ↔ Numbered d := numbered_emit ..

@[simp] theorem numbered_portHandshake (d : Device) (port : Nat) (m : Partner) : Numbered (portHandshake port m d) ↔ Numbered d := by
  unfold portHandshake
  dsimp only
  split
  · rfl
  · split <;> simp

@[simp] theorem numbered_flitReceive (d : Device) (port : Nat) (f : Flit) : Numbered (flitReceive port f d) ↔ Numbered d := by
  unfold flitReceive
  dsimp only
  split
  · rfl
  · split <;> simp

@[simp] theorem numbered_flitNak (d : Device) (port seq : Nat) : Numbered (flitNak port seq d) ↔ Numbered d := by
  unfold flitNak
  dsimp only
  split
  · rfl
  · split <;> simp

@[simp] theorem Numbered.linkLost (h : Numbered d) (port : Nat) (o : PeerOut) : Numbered (d.linkLost port o) := by
  have h1 := h.itemError o.ctx o.seq .linkLost port
  exact h1.settleWork ..

@[simp] theorem numbered_answer (port node tag : Nat) (r : Device × PeerAns) :
    Numbered (Device.answer port node tag r) ↔ Numbered r.1 := numbered_emit ..

@[simp] theorem numbered_passedLost (d : Device) (port : Nat) : Numbered (d.passedLost port) ↔ Numbered d := by
  simp [Device.passedLost]

theorem Numbered.linkDown (h : Numbered d) (port : Nat) : Numbered (linkDown port d) := by
  unfold Machine.linkDown
  extract_lets d0 d1 away d2 gs d3
  split
  · exact h
  · have h2 : Numbered d2 := (numbered_passedLost ..).mpr (Numbered.foldl (by simpa [d1, d0] using h) (fun _ _ h => h.linkLost ..) _)
    have h3 : Numbered d3 := h2.foldl (fun _ _ h => h.groupDown ..) _
    exact h3

@[simp] theorem Numbered.answerEcc (h : Numbered d) (c : Nat) (x : MemErr) : Numbered (d.answerEcc c x).1 := by
  unfold Device.answerEcc
  split <;> simpa using h

theorem Numbered.peerAtomic (h : Numbered d) (c va : Nat) (op : AtomOp) (ty : AtomTy) (ps : List (Dword × Dword)) :
    Numbered (d.peerAtomic c va op ty ps).1 := by
  unfold Device.peerAtomic
  dsimp only
  split
  · next x _ _ =>
    have h0 : Numbered (d.pastCaches c (x / 128)) := (numbered_pastCaches ..).mpr h
    split
    · exact h0.answerEcc ..
    · next hd1 => exact h0.atomDev hd1
  · split
    · exact Numbered.answerEcc (by simpa using h) ..
    · next hd1 => exact h.atomHost hd1
  · exact h

@[simp] theorem Numbered.peerServe (h : Numbered d) (r : PeerReq) : Numbered (d.peerServe r).1 := by
  unfold Device.peerServe
  extract_lets a
  split
  · exact h
  · split
    · extract_lets d1
      have h1 : Numbered d1 := (numbered_h0Bytes ..).mpr h
      split
      · exact h1.answerEcc ..
      · exact h1
    · split
      · exact h.answerEcc ..
      · next hd1 => exact h.writeVa hd1
    · split
      · exact h.peerAtomic ..
      · exact h

theorem Numbered.forward (h : Numbered d) {node : Nat} {o : Nat → Output} (he : d.forward node o = some e) : Numbered e := by
  unfold Device.forward at he
  split at he
  · cases he
  · split at he
    · obtain rfl := Option.some.inj he
      simpa using h
    · cases he

@[simp] theorem Numbered.passOn (h : Numbered d) (port dst src tag : Nat) (o : Nat → Output) : Numbered (d.passOn port dst src tag o) := by
  unfold Device.passOn
  split
  · next hd1 => exact (numbered_mapPorts ..).mpr (h.forward hd1)
  · simpa using h

theorem Numbered.writePieces (h : Numbered d) (a : Actor) (xs : List (Nat × List Byte)) :
    Answers (fun r => Numbered r.1) Numbered (d.writePieces a xs) := by
  induction xs generalizing d with
  | nil => exact h
  | cons x xs ih =>
    unfold Device.writePieces
    split
    · exact h
    · next hd1 => exact ih (h.writeVa hd1)

@[simp] theorem Numbered.zcServe (h : Numbered d) (f : ZcFrame) : Numbered (d.zcServe f).1 := by
  unfold Device.zcServe
  extract_lets ps
  split
  · exact h
  · have hwritten := h.writePieces ⟨f.ctx, 0, none, none⟩ ps
    split
    · next hx =>
      rw [hx] at hwritten
      exact Numbered.answerEcc hwritten ..
    · next hd1 => rwa [hd1] at hwritten

@[simp] theorem numbered_wake (d : Device) (p : Nat) (w : Wait) (f : PeerUse → Bool) : Numbered (d.wake p w f) ↔ Numbered d := by
  unfold Device.wake
  split <;> simp

@[simp] theorem numbered_wakeFences (d : Device) (c q : Nat) : Numbered (d.wakeFences c q) ↔ Numbered d := by
  unfold Device.wakeFences
  exact numbered_foldl (fun d b => numbered_foldl (fun d p => by split <;> simp) _) _

@[simp] theorem Numbered.lineCome (h : Numbered d) (o : PeerOut) (p key rctx rva : Nat) (keep : Bool) (bs : List Byte) :
    Numbered (d.lineCome o p key rctx rva keep bs) := by
  unfold Device.lineCome
  split
  · next k _ =>
    extract_lets x
    split
    · exact h
    · exact Numbered.loseWrites ((numbered_installCore d k.die k.core x).mpr h)
  · exact h

@[simp] theorem numbered_bufferLine (d : Device) (o : PeerOut) (rctx rva : Nat) (bs : List Byte) :
    Numbered (d.bufferLine o rctx rva bs) ↔ Numbered d := .rfl

@[simp] theorem Numbered.rereadEvent (h : Numbered d) (p : Platform) (c q : Nat) : Numbered (d.rereadEvent p c q) := by
  unfold Device.rereadEvent
  split
  · split <;> simp [h]
  · exact h

@[simp] theorem Numbered.peerData (h : Numbered d) (p : Platform) (o : PeerOut) (bs : List Byte) : Numbered (d.peerData p o bs) := by
  unfold Device.peerData
  extract_lets d1
  have h1 : Numbered d1 := by simpa [d1] using h
  split <;> simp [h1]

@[simp] theorem numbered_peerOld (d : Device) (o : PeerOut) (vals : List Dword) : Numbered (d.peerOld o vals) ↔ Numbered d := by
  unfold Device.peerOld
  dsimp only
  split <;> simp

@[simp] theorem Numbered.peerRefused (h : Numbered d) (p : Platform) (o : PeerOut) : Numbered (d.peerRefused p o) := h.takeFaults ..

theorem Numbered.peerResponse (h : Numbered d) (path : AnsPath) (tag : Nat) (ans : PeerAns) (p : Platform) :
    Numbered (peerResponse path tag ans p d) := by
  unfold Machine.peerResponse
  split
  · cases hd1 : (d.mapPorts fun x => { x with passed := x.passed.filter fun e => !(e.src == path.dst && e.tag == tag) }).forward
        path.dst fun q => .peerAns q tag ans path.dst path.src with
    | none => exact h
    | some d1 => exact Numbered.forward (d := d.mapPorts _) h hd1
  · split
    · exact h
    · next o _ =>
      extract_lets d1
      have h1 : Numbered d1 := h
      have herr := h1.itemError o.ctx o.seq .eccUncorrectable (detailHalf o.va)
      cases ans <;> simp [h1, herr]

end Sys2Proof.Proofs.ItemNumbers
end


section
/-! O60, resets, bring-up, power and the management port (R349 to R390, R416). -/

namespace Sys2Proof.Proofs.ItemNumbers

open Sys2Proof.Machine Sys2Proof.Spec

variable {d e : Device}

/-! ### Wipes -/

/-- A wiped part has no items. -/
theorem numbered_of_items_nil (h : d.hub.items = []) : Numbered d := numbered_iff.mpr fun x hx => by
  rw [h] at hx
  exact nomatch hx

@[simp] theorem numbered_wiped (d : Device) : Numbered d.wiped := numbered_of_items_nil rfl

@[simp] theorem numbered_lost (d : Device) (fused : FMap (BitVec 16)) : Numbered (d.lost fused) := numbered_of_items_nil rfl

@[simp] theorem numbered_wiping (d : Device) (on : Bool) : Numbered (d.wiping on) ↔ Numbered d := by simp [Device.wiping]

@[simp] theorem numbered_rewrite (d : Device) (m : Mastiff) : Numbered (d.rewrite m) ↔ Numbered d := .rfl

@[simp] theorem numbered_startHub (d : Device) : Numbered d.startHub ↔ Numbered d := by simp [Device.startHub]

@[simp] theorem numbered_setBypass (d : Device) (p : Platform) (bad : List (Nat × BitVec 16)) (key : Nat) :
    Numbered (setBypass p bad d key) ↔ Numbered d := by
  unfold setBypass logBypass
  dsimp only
  split <;> simp

@[simp] theorem numbered_startDie (d : Device) (i : Nat) : Numbered (d.startDie i) ↔ Numbered d := by simp [Device.startDie]

@[simp] theorem numbered_dev_ite (c : Prop) [Decidable c] (a b : State) :
    Numbered (if c then a else b).dev ↔ if c then Numbered a.dev else Numbered b.dev := by
  split <;> rfl

section
variable {s : State}

/-- A fold over states keeps what each of its steps keeps. -/
theorem Numbered.foldlState {α : Type} {f : State → α → State} (h : Numbered s.dev) (hf : ∀ t x, Numbered t.dev → Numbered (f t x).dev)
    (l : List α) : Numbered (l.foldl f s).dev := by
  induction l generalizing s with
  | nil => exact h
  | cons x l ih => exact ih (hf s x h)

/-! ### Answers and resets (R353, R385 to R389) -/

@[simp] theorem numbered_logPerm (event who arg : Nat) : Numbered (logPerm s event who arg).dev ↔ Numbered s.dev := .rfl

@[simp] theorem numbered_closeButton : Numbered s.closeButton.dev ↔ Numbered s.dev := by simp [State.closeButton]

@[simp] theorem numbered_mgmtAnswer (sid code : Nat) (res : MgmtCode) (data : MgmtData) :
    Numbered (mgmtAnswer s sid code res data).dev ↔ Numbered s.dev := by simp [mgmtAnswer]

@[simp] theorem numbered_mgmtDone (sid code : Nat) (data : MgmtData) : Numbered (mgmtDone s sid code data).dev ↔ Numbered s.dev := by
  simp [mgmtDone]

@[simp] theorem numbered_answerRunning (res : MgmtCode) : Numbered (s.answerRunning res).dev ↔ Numbered s.dev := by
  unfold State.answerRunning
  split <;> simp

@[simp] theorem numbered_answerSlice : Numbered s.answerSlice.dev ↔ Numbered s.dev := by simp [State.answerSlice]

@[simp] theorem numbered_cutSlice : Numbered s.cutSlice.dev ↔ Numbered s.dev := by
  unfold State.cutSlice
  split <;> simp

@[simp] theorem Numbered.warmReset (h : Numbered s.dev) : Numbered (warmReset s).dev := by
  unfold Machine.warmReset
  split
  · simp
  · exact h

@[simp] theorem numbered_coldReset : Numbered (coldReset s).dev := numbered_wiped _

@[simp] theorem numbered_shutDies (g : Stage) : Numbered (shutDies s g).dev := (numbered_emit ..).mpr (numbered_wiped _)

@[simp] theorem numbered_lifeEffect : Numbered s.lifeEffect.dev ↔ Numbered s.dev := by
  unfold State.lifeEffect
  split <;> rfl

/-! ### Input power and bring-up (R357 to R369, R388) -/

@[simp] theorem numbered_powerLost : Numbered (powerLost s).dev := numbered_lost ..

@[simp] theorem Numbered.sealBreak (h : Numbered s.dev) : Numbered (sealBreak s).dev := by
  unfold Machine.sealBreak
  split <;> simp [h]

@[simp] theorem Numbered.powerOn (h : Numbered s.dev) (mv : Nat) (sealOpen : Bool) : Numbered (powerOn mv sealOpen s).dev := by
  unfold Machine.powerOn
  extract_lets s1
  have h1 : Numbered s1.dev := h
  split
  · exact h
  · split
    · exact h1.sealBreak
    · exact h1

@[simp] theorem Numbered.powerGood (h : Numbered s.dev) (mv : Nat) (jumper btnLow : Bool) (addr : BitVec 3) (twoByEight : Bool) :
    Numbered (powerGood mv jumper btnLow addr twoByEight s).dev := by
  unfold Machine.powerGood
  dsimp only
  split
  · exact h
  · exact numbered_coldReset

@[simp] theorem numbered_powerFault (mv : Nat) : Numbered (powerFault mv s).dev := numbered_shutDies .waitGood

@[simp] theorem numbered_raiseSvn (svn : Nat) : Numbered (raiseSvn svn s).dev ↔ Numbered s.dev := by simp [raiseSvn]

@[simp] theorem numbered_enterRecovery : Numbered (enterRecovery s).dev ↔ Numbered s.dev := .rfl

@[simp] theorem numbered_startImage (svn : Nat) : Numbered (startImage svn s).dev ↔ Numbered s.dev := by simp [startImage]

@[simp] theorem numbered_longOver (code : Nat) (res : MgmtCode) : Numbered (s.longOver code res).dev ↔ Numbered s.dev := .rfl

@[simp] theorem numbered_endLong (code : Nat) : Numbered (s.endLong code).dev ↔ Numbered s.dev := by
  unfold State.endLong
  split <;> simp

@[simp] theorem numbered_endAnyLong : Numbered s.endAnyLong.dev ↔ Numbered s.dev := by
  unfold State.endAnyLong
  split <;> simp

@[simp] theorem numbered_resetComplete : Numbered (resetComplete s).dev ↔ Numbered s.dev := by
  unfold resetComplete
  dsimp only
  split <;> simp

@[simp] theorem numbered_toLink : Numbered (toLink s).dev ↔ Numbered s.dev := by
  unfold toLink
  dsimp only
  split
  · split <;> simp
  · rfl

@[simp] theorem numbered_bootImageCheckDone (img : ImageCheck) : Numbered (bootImageCheckDone img s).dev ↔ Numbered s.dev := by
  simp [bootImageCheckDone]

@[simp] theorem numbered_laneSelfTestDone (bad : List (Nat × BitVec 16)) :
    Numbered (laneSelfTestDone bad s).dev ↔ Numbered s.dev := by simp [laneSelfTestDone]

@[simp] theorem numbered_dramWipeDone : Numbered (dramWipeDone s).dev ↔ Numbered s.dev := by simp [dramWipeDone]

@[simp] theorem numbered_sramWipeDone : Numbered (sramWipeDone s).dev ↔ Numbered s.dev := by simp [sramWipeDone]

@[simp] theorem numbered_hostLinkTrained : Numbered (hostLinkTrained s).dev ↔ Numbered s.dev := by simp [hostLinkTrained]

@[simp] theorem numbered_openButton : Numbered (openButton s).dev ↔ Numbered s.dev := by simp [openButton]

@[simp] theorem numbered_presenceButtonHold : Numbered (presenceButtonHold s).dev ↔ Numbered s.dev := by simp [presenceButtonHold]

/-! ### Temperature, sensors, sleep and gating (R378 to R384, R416) -/

@[simp] theorem Numbered.emergencyUnmet (h : Numbered d) : Numbered d.emergencyUnmet := by
  refine h.mapItems d fun x => ?_
  split
  · exact ⟨rfl, rfl⟩
  · exact ⟨rfl, rfl⟩

@[simp] theorem Numbered.thermalSample (h : Numbered s.dev) (temps : List (Nat × Nat)) (inlet : Option Nat) :
    Numbered (thermalSample temps inlet s).dev := by
  unfold Machine.thermalSample
  extract_lets s1 p tripHot s2
  have h1 : Numbered s1.dev := h
  repeat' split
  case isFalse.isFalse.isTrue => exact numbered_shutDies .tripHold
  case isFalse.isFalse.isFalse.isTrue => exact h1.emergencyUnmet
  all_goals exact h

@[simp] theorem numbered_sensorUpdate (w : Sensor) (value : Nat) : Numbered (sensorUpdate w value s).dev ↔ Numbered s.dev := by
  unfold sensorUpdate
  dsimp only
  split <;> rfl

@[simp] theorem numbered_grantEpoch (demands drawn : List (Nat × Nat)) : Numbered (grantEpoch demands drawn s).dev ↔ Numbered s.dev := .rfl

@[simp] theorem numbered_sleepEntry : Numbered (sleepEntry s).dev ↔ Numbered s.dev := by simp [sleepEntry]

@[simp] theorem numbered_unitClockGate (u : UnitId) : Numbered (unitClockGate u s).dev ↔ Numbered s.dev := by simp [unitClockGate]

@[simp] theorem numbered_diePllOff (die : Nat) : Numbered (diePllOff die s).dev ↔ Numbered s.dev := by simp [diePllOff]

@[simp] theorem numbered_unitWakeDone (w : WakeOf) : Numbered (unitWakeDone w s).dev ↔ Numbered s.dev := by
  cases w <;> simp [unitWakeDone]

@[simp] theorem numbered_diePowerUpDone (w : DieId) : Numbered (diePowerUpDone w s).dev ↔ Numbered s.dev := by
  cases w <;> simp [diePowerUpDone]

@[simp] theorem Numbered.tapInstructionLoad (h : Numbered s.dev) (i : TapInstr) : Numbered (tapInstructionLoad i s).dev := by
  unfold Machine.tapInstructionLoad
  extract_lets s1
  have h1 : Numbered s1.dev := h
  split
  · exact h
  · split
    · exact h1.warmReset
    · exact h1

/-! ### The management port (R349 to R360) -/

@[simp] theorem numbered_mctpMessage (typ sid : Nat) : Numbered (mctpMessage typ sid s).dev ↔ Numbered s.dev := by simp [mctpMessage]

@[simp] theorem numbered_spdmKeyExchange (sid : Nat) (key : ReqKey) : Numbered (spdmKeyExchange sid key s).dev ↔ Numbered s.dev := by
  simp [spdmKeyExchange]

@[simp] theorem numbered_getMeasurements : Numbered (getMeasurements s).dev ↔ Numbered s.dev := by
  unfold getMeasurements
  split <;> simp

@[simp] theorem numbered_firmwareUpdateTransfer (sid : Nat) (img : ImageCheck) :
    Numbered (firmwareUpdateTransfer sid img s).dev ↔ Numbered s.dev := by simp [firmwareUpdateTransfer]

@[simp] theorem numbered_flashWriteDone : Numbered (flashWriteDone s).dev ↔ Numbered s.dev := by
  unfold flashWriteDone
  split <;> rfl

@[simp] theorem Numbered.recoveryImageLoad (h : Numbered s.dev) (img : ImageCheck) : Numbered (recoveryImageLoad img s).dev := by
  unfold Machine.recoveryImageLoad
  split
  · exact h
  · split
    · exact numbered_coldReset
    · simpa using h

@[simp] theorem numbered_mgmtCommandArrival (sid code : Nat) : Numbered (mgmtCommandArrival sid code s).dev ↔ Numbered s.dev := by
  simp [mgmtCommandArrival]

/-! ### The Reel network's messages (R301, R307, R308) -/

@[simp] theorem Numbered.reelMsg (h : Numbered s.dev) (x : Nat × ReelMsg) : Numbered (s.reelMsg x).dev := by
  unfold State.reelMsg
  split
  · split
    · exact Numbered.warmReset (s := s.mapDev _) ((numbered_toChildren ..).mpr h)
    · exact h
  · exact h.groupMsg ..

@[simp] theorem Numbered.reelOpen (h : Numbered s.dev) : Numbered s.reelOpen.dev := by
  unfold State.reelOpen
  split
  · exact Numbered.foldlState (s := s.mapDev fun d => d.mapReel fun r => { r with held := [] }) h (fun _ _ h => h.reelMsg _) _
  · exact h

end

end Sys2Proof.Proofs.ItemNumbers
end


section
/-! O60, contexts, slices, registers, the management commands' frame, and a period of the time counter (R326 to R336, R353, R376, R391 to
R406). -/

namespace Sys2Proof.Proofs.ItemNumbers

open Sys2Proof.Machine Sys2Proof.Spec

variable {d e : Device}

/-! ### Tables and mappings (R328 to R333) -/

theorem Numbered.allocTable (h : Numbered d) {c u : Nat} (he : d.allocTable c = some (u, e)) : Numbered e := by
  unfold Device.allocTable at he
  obtain ⟨u, -, hu⟩ := Option.map_eq_some_iff.mp he
  obtain ⟨-, rfl⟩ := Prod.mk.inj hu
  exact h

theorem Numbered.needTable (h : Numbered d) {c lvl shift va : Nat} (he : d.needTable c lvl shift va = some e) : Numbered e := by
  unfold Device.needTable at he
  split at he
  · exact Option.some.inj he ▸ h
  · obtain ⟨⟨u, d1⟩, hd1, hu⟩ := Option.map_eq_some_iff.mp he
    obtain rfl := hu
    exact (numbered_updCtx ..).mpr (h.allocTable hd1)

theorem Numbered.putLeaf (h : Numbered d) {c va : Nat} {big : Bool} {x : Dword} (he : d.putLeaf c big va x = some e) : Numbered e := by
  obtain ⟨d1, hd1, he⟩ := Option.bind_eq_some_iff.mp he
  obtain ⟨d2, hd2, he⟩ := Option.bind_eq_some_iff.mp he
  have h2 := (h.needTable hd1).needTable hd2
  split at he
  · obtain rfl := Option.some.inj he
    exact h2
  · obtain ⟨d3, hd3, he⟩ := Option.bind_eq_some_iff.mp he
    obtain rfl := Option.some.inj he
    exact (numbered_updCtx ..).mpr (h2.needTable hd3)

theorem Numbered.mapOne (h : Numbered d) {c : Nat} {p : MapPage} (he : mapOne c d p = .ok e) : Numbered e := by
  unfold Machine.mapOne at he
  extract_lets d1 at he
  have h1 : Numbered d1 := by
    unfold d1
    split
    · exact h.mapMem _
    · exact h
  split at he
  · cases he
  · split at he
    · cases he
    · split at he
      · cases he
      · next hd2 =>
        obtain rfl := Except.ok.inj he
        exact h1.putLeaf hd2

theorem Numbered.mapPages (h : Numbered d) {c : Nat} {ps : List MapPage} (he : mapPages c ps d = .ok e) : Numbered e := by
  induction ps generalizing d with
  | nil => exact Except.ok.inj he ▸ h
  | cons p ps ih =>
    unfold Machine.mapPages at he
    split at he
    · cases he
    · next hd1 => exact ih (h.mapOne hd1) he

theorem Numbered.leavePages (h : Numbered d) (us : List Nat) : Numbered (d.leavePages us) := by
  refine h.foldl (fun d x h => ?_) _
  extract_lets r
  have hlost : Numbered (Device.loseWrites r) := Numbered.loseWrites (by simpa [r] using h)
  simpa using hlost

/-! ### Teardown (R336) -/

@[simp] theorem numbered_zeroCounters (d : Device) (c : Nat) : Numbered (d.zeroCounters c) ↔ Numbered d := by simp [Device.zeroCounters]

@[simp] theorem Numbered.reslice (h : Numbered d) (c : Nat) : Numbered (d.reslice c) := by
  refine h.mapItems d fun x => ?_
  split
  · exact ⟨rfl, rfl⟩
  · exact ⟨rfl, rfl⟩

@[simp] theorem numbered_release (d : Device) (c : Nat) : Numbered (d.release c) ↔ Numbered d := numbered_dropSegs ..

@[simp] theorem numbered_teardownRecordsDrained (d : Device) (c : Nat) : Numbered (teardownRecordsDrained c d) ↔ Numbered d := by
  simp [teardownRecordsDrained]

/-! ### Registers (R396, R426) -/

@[simp] theorem numbered_updBlk (d : Device) (b : Block) (f : Blk → Blk) : Numbered (d.updBlk b f) ↔ Numbered d := by
  cases b <;> exact .rfl

@[simp] theorem numbered_blockStopped (d : Device) (b : Block) : Numbered (blockStopped b d) ↔ Numbered d := by
  unfold blockStopped
  dsimp only
  split
  · split <;> simp
  · rfl

@[simp] theorem numbered_cntSelect (d : Device) (c : Nat) : Numbered (d.cntSelect c) ↔ Numbered d := .rfl

@[simp] theorem numbered_cntTake (d : Device) : Numbered d.cntTake ↔ Numbered d := .rfl

@[simp] theorem numbered_cntRelease (d : Device) : Numbered d.cntRelease ↔ Numbered d := .rfl

@[simp] theorem numbered_cntZero (d : Device) : Numbered d.cntZero ↔ Numbered d := by
  unfold Device.cntZero
  exact numbered_foldl (fun d n => by split <;> simp) _

@[simp] theorem numbered_cntTraceSet (d : Device) (v : Word) : Numbered (d.cntTraceSet v) ↔ Numbered d := .rfl

/-! ### Flushes of dies (R226, R242, R378) -/

theorem Numbered.flushDie (h : Numbered d) (die : Nat) : Numbered (d.flushDie die) := by
  have hcount : Numbered ((d.prefsOf die).foldl (fun d c => d.count c 95 1) d) := by simpa using h
  exact hcount.mapMem _

theorem Numbered.gateDie (h : Numbered d) (i : Nat) : Numbered (d.gateDie i) := by
  unfold Device.gateDie
  dsimp only
  generalize List.range 8 = engines
  generalize List.range 16 = cores
  refine Numbered.foldl (Numbered.foldl ((numbered_updDie ..).mpr h) (fun d k h => ?_) _) (fun d c h => ?_) _
  · simpa using h
  · exact h

@[simp] theorem numbered_flushMarks (d : Device) (dies : List Nat) : Numbered (d.flushMarks dies) ↔ Numbered d := by
  simp [Device.flushMarks]

section
variable {s : State}

@[simp] theorem Numbered.teardownScrubDone (h : Numbered s.dev) (c : Nat) : Numbered (teardownScrubDone c s).dev := by
  unfold Machine.teardownScrubDone
  dsimp only
  split
  · simpa using h
  · exact h

/-! ### Registers (R391 to R399) -/

@[simp] theorem numbered_setWrej (w : Win) : Numbered (s.setWrej w).dev ↔ Numbered s.dev := by
  unfold State.setWrej
  split <;> simp

@[simp] theorem numbered_reject (w : Win) (who : Requester) (off reason : Nat) :
    Numbered (s.reject w who off reason).dev ↔ Numbered s.dev := by simp [State.reject]

@[simp] theorem numbered_leaveSleep : Numbered s.leaveSleep.dev ↔ Numbered s.dev := by simp [State.leaveSleep]

@[simp] theorem numbered_turnOn (b : Block) : Numbered (s.turnOn b).dev ↔ Numbered s.dev := by
  unfold State.turnOn
  split <;> simp

@[simp] theorem numbered_setEnable (b : Block) (en : Bool) : Numbered (s.setEnable b en).dev ↔ Numbered s.dev := by
  unfold State.setEnable
  dsimp only
  repeat' split
  all_goals simp

@[simp] theorem numbered_enableWrite (who : Requester) (b : Block) (en : Bool) :
    Numbered (enableWrite who b en s).dev ↔ Numbered s.dev := by
  unfold enableWrite
  repeat' split
  all_goals simp

@[simp] theorem numbered_blockStarted (b : Block) : Numbered (blockStarted b s).dev ↔ Numbered s.dev := by
  unfold blockStarted
  dsimp only
  split
  · simp only [State.mapDev_dev]
    split <;> simp
  · rfl

@[simp] theorem Numbered.store (h : Numbered s.dev) (w : Win) (o v : Nat) : Numbered (s.store w o v).dev := by
  unfold State.store
  dsimp only
  split
  all_goals simp [h]

@[simp] theorem numbered_clearBits (w : Win) (o v : Nat) : Numbered (s.clearBits w o v).dev ↔ Numbered s.dev := by
  unfold State.clearBits
  dsimp only
  split <;> simp

theorem Numbered.writeSlot (h : Numbered s.dev) (w : Win) (o : Nat) (ws : List RegWrite) : Numbered (writeSlot w o ws s).dev := by
  unfold Machine.writeSlot
  extract_lets bad ok s1 base late s2 rw old v s3
  have h1 : Numbered s1.dev := Numbered.foldlState h (fun _ _ h => (numbered_reject ..).mpr h) _
  have h2 : Numbered s2.dev := Numbered.foldlState h1 (fun _ _ h => (numbered_reject ..).mpr h) _
  have h3 : Numbered s3.dev := by
    unfold s3
    clear_value base s2
    cases base with
    | none => exact h2
    | some x =>
      dsimp only
      split <;> simpa using h2
  split
  · exact h3
  · exact h3.store ..

theorem Numbered.writeCycle (h : Numbered s.dev) (ws : List RegWrite) : Numbered (writeCycle ws s).dev := by
  refine Numbered.foldlState h (fun t n h => ?_) _
  dsimp only
  split
  · exact h
  · exact h.writeSlot ..

@[simp] theorem Numbered.registerWrite (h : Numbered s.dev) (ws : List RegWrite) : Numbered (registerWrite ws s).dev :=
  (h.writeCycle _).writeCycle _

/-! ### Slices (R279, R406) -/

@[simp] theorem numbered_takeSlice (i : Nat) (p : SliceParams) : Numbered (s.takeSlice i p).dev ↔ Numbered s.dev := .rfl

@[simp] theorem numbered_settleSlice (i : Nat) : Numbered (s.settleSlice i).dev ↔ Numbered s.dev := by
  unfold State.settleSlice
  dsimp only
  repeat' split
  all_goals simp

@[simp] theorem numbered_stopSlice (i : Nat) (next : Option SliceParams) : Numbered (s.stopSlice i next).dev ↔ Numbered s.dev := by
  simp [State.stopSlice]

@[simp] theorem Numbered.dieCacheFlushDone (h : Numbered s.dev) (die : Nat) : Numbered (dieCacheFlushDone die s).dev := by
  unfold Machine.dieCacheFlushDone
  split
  · exact h
  · dsimp only
    split
    · have h1 := (h.flushDie die).gateDie die
      simpa using h1
    · exact h

/-! ### A period of the time counter (R376) -/

end

@[simp] theorem numbered_countWaits (d : Device) : Numbered d.countWaits ↔ Numbered d := by simp [Device.countWaits]

@[simp] theorem numbered_reelWaitTick (d : Device) (ns : Nat) : Numbered (d.reelWaitTick ns) ↔ Numbered d := by simp [Device.reelWaitTick]

@[simp] theorem numbered_barrierTick (d : Device) (p : Power) (i : Nat) : Numbered (d.barrierTick p i) ↔ Numbered d := by
  unfold Device.barrierTick
  dsimp only
  split
  · rfl
  · split <;> simp

@[simp] theorem numbered_updateTick (d : Device) (cycles : Nat) : Numbered (d.updateTick cycles) ↔ Numbered d := by
  unfold Device.updateTick
  dsimp only
  rw [numbered_foldl fun d w => numbered_count ..]
  refine numbered_foldl (fun d s => numbered_foldl (fun d x => ?_) _) _
  split
  · split <;> simp
  · rfl

@[simp] theorem numbered_coreTick (d : Device) (p : Power) : Numbered (d.coreTick p) ↔ Numbered d := .rfl

theorem Numbered.idleTick {s : State} (h : Numbered s.dev) : Numbered (idleTick s).dev := by
  unfold Machine.idleTick
  extract_lets p t d0 d pl e
  have h0 : Numbered d0 := (numbered_foldl (fun d i => numbered_barrierTick d p i) _).mpr ((numbered_coreTick s.dev p).mpr h)
  have h1 : Numbered d := by
    unfold d
    split
    · exact h0
    · exact (numbered_updateTick ..).mpr h0
  have he : Numbered e := (numbered_reelWaitTick ..).mpr h1
  split
  · exact h
  · simpa using he

end Sys2Proof.Proofs.ItemNumbers
end


section
/-! O60, management commands, and every command of the table. -/

namespace Sys2Proof.Proofs.ItemNumbers

open Sys2Proof.Machine Sys2Proof.Spec

/-! ### Management commands (R353, R354) -/

/-- Where the checks of a management command pass, its new state has the invariant. -/
def MgmtNumbered : Except MgmtCode (State × MgmtData) → Prop
  | .ok r => Numbered r.1.dev
  | .error _ => True

@[simp] theorem mgmtNumbered_error (x : MgmtCode) : MgmtNumbered (.error x) := trivial

@[simp] theorem mgmtNumbered_ite (c : Prop) [Decidable c] (a b : Except MgmtCode (State × MgmtData)) :
    MgmtNumbered (if c then a else b) ↔ if c then MgmtNumbered a else MgmtNumbered b := by split <;> rfl

@[simp] theorem mgmtNumbered_ok (r : State × MgmtData) : MgmtNumbered (.ok r) ↔ Numbered r.1.dev := .rfl

@[simp] theorem mgmtNumbered_done (s : State) : MgmtNumbered (done s) ↔ Numbered s.dev := .rfl

section
variable {s : State} (h : Numbered s.dev)
include h

/-- The frame of management commands keeps the invariant where the command's own part does. -/
theorem Numbered.mgmt {body : State → Except MgmtCode (State × MgmtData)} (hbody : ∀ s, Numbered s.dev → MgmtNumbered (body s))
    (code sid : Nat) (presence : Bool) : Numbered (mgmt code sid presence body s).dev := by
  unfold Machine.mgmt
  split
  case h_1 => exact h
  case h_2 q rest _ =>
    split
    case isTrue => exact h
    case isFalse =>
      dsimp only
      split
      case h_1 => simpa using h
      case h_2 =>
        have hran := hbody (s.mapMas fun m => { m with queue := rest }) h
        split
        case h_4 heq =>
          rw [heq] at hran
          split
          · simpa using h
          · simpa using hran
        all_goals simpa using h

theorem mgmtNumbered_ctxCreate (ctx : Nat) (home resv : Option Nat) (seed : Option Dword) :
    MgmtNumbered (ctxCreate ctx home resv seed s) := by
  unfold ctxCreate
  dsimp only
  split
  · trivial
  · split
    · trivial
    · split
      · trivial
      · split
        · trivial
        · next hd0 => simpa using h.allocTable hd0

theorem mgmtNumbered_gateMove (ctx : Nat) (a b : CtxState) : MgmtNumbered (gateMove ctx a b s) := by simp [gateMove, h]

theorem Numbered.killCtx (c : Nat) : Numbered (s.killCtx c).dev := h.killByMgmt ..

theorem mgmtNumbered_ctxKill (ctx : Nat) : MgmtNumbered (ctxKill ctx s) := by simp [ctxKill, h.killCtx]

theorem mgmtNumbered_ctxDestroy (ctx : Nat) : MgmtNumbered (ctxDestroy ctx s) := by simp [ctxDestroy, h, h.killCtx]

theorem mgmtNumbered_ctxSet (ctx : Nat) (f : CtxField) : MgmtNumbered (ctxSet ctx f s) := by simp [ctxSet, h]

theorem mgmtNumbered_mapCmd (ctx : Nat) (pages : List MapPage) : MgmtNumbered (mapCmd ctx pages s) := by
  unfold mapCmd
  split
  · trivial
  · split
    · trivial
    · next hd => exact h.mapPages hd

theorem mgmtNumbered_unmap (ctx va : Nat) : MgmtNumbered (unmap ctx va s) := by
  unfold unmap
  dsimp only
  split
  · trivial
  · split
    · trivial
    · next x sh _ =>
      split
      · trivial
      · split
        · trivial
        · rw [mgmtNumbered_done]
          dsimp only
          split
          · have h1 : Numbered (s.dev.updCtx ctx fun x => x.dropLeaf sh va) := h
            have h2 := h1.leavePages (leafUnits x sh)
            simpa using h2
          · simpa using h

theorem mgmtNumbered_share (owner va ctx toVa : Nat) (r w : Bool) : MgmtNumbered (share owner va ctx toVa r w s) := by
  unfold share
  dsimp only
  split
  · trivial
  · split
    · trivial
    · split
      · trivial
      · split
        · trivial
        · next hd => exact h.putLeaf hd

theorem mgmtNumbered_unshare (ctx va : Nat) : MgmtNumbered (unshare ctx va s) := by
  unfold unshare
  dsimp only
  repeat' split
  all_goals simp [h]

theorem mgmtNumbered_hdmBind (window : Nat) (ctx : Option Nat) (base : Nat) : MgmtNumbered (hdmBind window ctx base s) := by
  unfold hdmBind
  repeat' split
  all_goals simp [h]

theorem mgmtNumbered_grantCmd (ctx : Nat) (g : PeerGrant) (revoke : Bool) : MgmtNumbered (grantCmd ctx g revoke s) := by
  simp [grantCmd, h]

theorem mgmtNumbered_sliceCreate (i : Nat) (p : SliceParams) : MgmtNumbered (sliceCreate i p s) := by simp [sliceCreate, h]

theorem mgmtNumbered_sliceChange (i : Nat) (p : SliceParams) : MgmtNumbered (sliceChange i p s) := by simp [sliceChange, h]

theorem mgmtNumbered_sliceDestroy (i : Nat) : MgmtNumbered (sliceDestroy i s) := by simp [sliceDestroy, h]

theorem mgmtNumbered_pwrSet (capW : Option Nat) (caps floors : List (Nat × Nat)) : MgmtNumbered (pwrSet capW caps floors s) := by
  simp [pwrSet, h]

theorem mgmtNumbered_topoSet (node : Nat) (topo : Word) : MgmtNumbered (topoSet node topo s) := by simp [topoSet, h]

theorem mgmtNumbered_reelSysSet (cfg : Word) : MgmtNumbered (reelSysSet cfg s) := h

theorem mgmtNumbered_lcTransition (sid : Nat) (target : Life) (key : Nat) : MgmtNumbered (lcTransition sid target key s) := by
  unfold lcTransition
  dsimp only
  split
  · trivial
  · trivial
  · split
    · trivial
    · split
      · trivial
      · split
        · exact h
        · exact Numbered.warmReset (s := State.mapMas _ _) h

theorem mgmtNumbered_debugUnlock : MgmtNumbered (debugUnlock s) := by
  unfold debugUnlock
  dsimp only
  split
  · trivial
  · exact Numbered.warmReset (s := s.mapMas _) h

theorem mgmtNumbered_ownerKeyRotate (key : Nat) (sigOk : Bool) : MgmtNumbered (ownerKeyRotate key sigOk s) := by
  simp [ownerKeyRotate, h]

end

/-! ### The commands -/

/-- A next state that a command answers has the invariant. -/
def OutNumbered : Out → Prop
  | .next t => Numbered t.dev
  | _ => True

@[simp] theorem outNumbered_next {t : State} : OutNumbered (.next t) ↔ Numbered t.dev := .rfl

theorem outNumbered_fault {f : Fault} : OutNumbered (.fault f) := trivial

theorem OutNumbered.onCode {s : State} (h : Numbered s.dev) {c : Instr} {f : Platform → Device → Device} (hf : Numbered (f s.plat s.dev)) :
    OutNumbered (onCode c f s) := by
  unfold Machine.onCode
  split
  · exact hf
  · exact h

section
variable {s : State} (h : Numbered s.dev)
include h

/-! Commands whose meaning stands in their definition. -/

theorem outNumbered_demandMissFill (die line : Nat) (lo hi : Ecc) : OutNumbered (execDemandMissFill die line lo hi s) := by
  unfold execDemandMissFill
  split
  · exact outNumbered_fault
  · exact h.demandMissFill ..

theorem outNumbered_prefetchFill (die line : Nat) (lo hi : Ecc) : OutNumbered (execPrefetchFill die line lo hi s) := by
  unfold execPrefetchFill
  split
  · exact outNumbered_fault
  · exact h.prefetchFill ..

theorem outNumbered_patrolScrubRead (half : Nat) (e : Ecc) : OutNumbered (execPatrolScrubRead half e s) := by
  unfold execPatrolScrubRead
  split
  · exact outNumbered_fault
  · refine outNumbered_next.mpr ?_
    dsimp only
    split
    · exact h
    · split <;> simpa using h

theorem outNumbered_backInvalidationResponse (line : Nat) : OutNumbered (execBackInvalidationResponse line s) := by
  unfold execBackInvalidationResponse
  split
  · exact outNumbered_fault
  · refine outNumbered_next.mpr ?_
    dsimp only
    split
    · simpa using h
    · exact h

theorem outNumbered_descriptorFetch (hseq : ∀ c, (s.dev.ring c).nextSeq + 16 ≤ 2 ^ 32) (c : Nat) (poisoned : List Nat) (hostNs : Nat) :
    OutNumbered (execDescriptorFetch c poisoned hostNs s) := by
  have hserved : Numbered (s.dev.mapHub fun h => { h with lastFetch := c }) := h
  refine outNumbered_next.mpr ?_
  dsimp only
  split
  · exact hserved.fetchLoop _ _ _ _ 16 (hseq c)
  · exact h

theorem outNumbered_msixMessage (vector : Nat) : OutNumbered (execMsixMessage vector s) := by
  refine outNumbered_next.mpr ?_
  dsimp only
  split
  · simpa using h
  · exact h

theorem outNumbered_msixTableWrite (offset : Nat) (v : Word) : OutNumbered (execMsixTableWrite offset v s) := by
  refine outNumbered_next.mpr ?_
  dsimp only
  split
  · exact h
  · split <;> simpa using h

theorem outNumbered_eventSet (c q : Nat) : OutNumbered (execEventSet c q s) := by
  refine outNumbered_next.mpr (h.act _ _ _ _ _ fun it d h => ?_)
  split
  · simp [h]
  · next hd1 => simpa using h.writeVa hd1

theorem outNumbered_eventMonitorReread (c q : Nat) (seen : List HostWrite) : OutNumbered (execEventMonitorReread c q seen s) := by
  refine outNumbered_next.mpr ?_
  have hseen : Numbered (s.dev.see seen) := (numbered_see ..).mpr h
  dsimp only
  split
  · split
    · exact hseen.eventRead ..
    · exact hseen
  · exact hseen

theorem outNumbered_eventPoll (c q : Nat) (seen : List HostWrite) : OutNumbered (execEventPoll c q seen s) := by
  refine outNumbered_next.mpr ?_
  have hseen : Numbered (s.dev.see seen) := (numbered_see ..).mpr h
  dsimp only
  split
  · split
    · exact Numbered.eventRead ((numbered_count ..).mpr hseen) ..
    · exact hseen
  · exact hseen

theorem outNumbered_cancel (c q : Nat) : OutNumbered (execCancel c q s) := by
  refine outNumbered_next.mpr (h.act _ _ _ _ _ fun it d h => ?_)
  have hended : Numbered ((d.hub.items.filter it.selects).foldl
      (Device.cancelOne s.plat.pow.time (q % (d.ring c).sqSize)) d) := h.foldl (fun _ _ h => h.cancelOne ..) _
  simpa using hended

theorem outNumbered_portTrainingDone (port : Nat) (lanes : BitVec 16) : OutNumbered (execPortTrainingDone port lanes s) := by
  refine outNumbered_next.mpr ?_
  dsimp only
  split <;> simpa using h

theorem outNumbered_peerRequestReceive (port : Nat) (req : PeerReq) : OutNumbered (execPeerRequestReceive port req s) := by
  refine outNumbered_next.mpr ?_
  dsimp only
  split
  · exact h
  · split <;> simp [h]

theorem outNumbered_zcFrameReceive (port : Nat) (f : ZcFrame) : OutNumbered (execZcFrameReceive port f s) := by
  refine outNumbered_next.mpr ?_
  dsimp only
  split
  · exact h
  · split <;> simp [h]

theorem outNumbered_reelMessageReceive (port : Nat) (m : ReelMsg) : OutNumbered (execReelMessageReceive port m s) := by
  refine outNumbered_next.mpr ?_
  have h1 := h.reelOpen
  dsimp only
  split
  · exact h1
  · split
    · exact h1.reelMsg _
    · simpa using h1

theorem outNumbered_blockStarted (b : Block) : OutNumbered (execBlockStarted b s) := by
  refine outNumbered_next.mpr ?_
  have h1 : Numbered (blockStarted b s).answerSlice.dev := by simpa using h
  dsimp only
  split
  · exact h1.reelOpen
  · exact h1

end

/-- Every command keeps the invariant. The groups of the split: core instructions, vector instructions, stream operations and work for
engines (`onCode`), the other commands on the device (`onDev`), management commands (`mgmt`), and the other commands on the whole state
(`onState`). -/
theorem exec_keeps (c : Instr) {s : State} (h : Numbered s.dev) (hseq : ∀ c, (s.dev.ring c).nextSeq + 16 ≤ 2 ^ 32) : OutNumbered (exec c s) := by
  cases c with
  | intAdd | intSub | intMullo | intMulhi | intDiv | intRem | intMin | intMax | intAnd | intOr | intXor | intNot | intShl | intShr |
    intSar | intPopc | intClz | intBrev | intMov | intSel | fpAdd | fpSub | fpMul | fpFma | fpMin | fpMax | fpAbs | fpNeg | fpCopysign |
    fpDiv | fpSqrt | fpRsqrt | fpRecip | fpExp2 | fpLog2 | cvtF2i | cvtF2u | cvtI2f | cvtU2f | cvtF2n | cvtN2f =>
    exact .onCode h (h.alu ..)
  | predEq | predNe | predLt | predLe | predGt | predGe | predIsnan | predIsinf | predIsfinite => exact .onCode h (h.setPred ..)
  | pand | por | pxor | pnot | pmov => exact .onCode h (h.setPlog ..)
  | memLd => exact .onCode h (h.memLoad ..)
  | memSt => exact .onCode h (h.memStore ..)
  | memDiscard => exact .onCode h (h.memDiscard ..)
  | atomAdd | atomMin | atomMax | atomAnd | atomOr | atomXor | atomXchg | atomCas => exact .onCode h (h.atomic ..)
  | bra => exact .onCode h (h.branch ..)
  | exitThreads => exact .onCode h (h.exitThreads ..)
  | bar => exact .onCode h (h.bar ..)
  | flowNop => exact .onCode h (h.runJkf _ _ _ fun _ _ => h)
  | fence => exact .onCode h (h.fence ..)
  | engIssue => exact .onCode h (h.engIssue ..)
  | engWait => exact .onCode h (h.engWait ..)
  | vacq => exact .onCode h (h.vacq ..)
  | vrel => exact .onCode h (h.vrel ..)
  | vsync => exact .onCode h (h.vsync ..)
  | movsr => exact .onCode h (h.movsr ..)
  | vecFpAdd | vecFpSub | vecFpMul | vecFpFma | vecFpMin | vecFpMax | vecFpAbs | vecFpNeg | vecFpCopysign | vecIntAdd | vecIntSub |
    vecIntMullo | vecIntMin | vecIntMax | vecIntShl | vecIntShr | vecIntSar | vecIntAnd | vecIntOr | vecIntXor | vecIntNot | vecDiv |
    vecSqrt | vecRsqrt | vecRecip | vecExp2 | vecLog2 =>
    exact .onCode h (h.vec (vecKeeps_elemOp _ _) ..)
  | vecFpSel | vecIntSel => exact .onCode h (h.vec (vecKeeps_vsel _) ..)
  | vecCmpEq | vecCmpNe | vecCmpLt | vecCmpLe | vecCmpIsnan | vecCmpIsinf | vecCmpIsfinite =>
    exact .onCode h (h.vec (vecKeeps_maskOp _) ..)
  | vecRedSum | vecRedMin | vecRedMax | vecRedAnd | vecRedOr | vecRedXor => exact .onCode h (h.vec (vecKeeps_redOp _) ..)
  | vecScanAddIncl | vecScanMinIncl | vecScanMaxIncl | vecScanAddExcl | vecScanMinExcl | vecScanMaxExcl =>
    exact .onCode h (h.vec (vecKeeps_scanOp _ _ _) ..)
  | vecLd => exact .onCode h (h.vec (vecKeeps_load _ _ _ fun _ => 1) ..)
  | vecSt => exact .onCode h (h.vec (vecKeeps_save _ _ _ fun _ => 1) ..)
  | vecLds => exact .onCode h (h.vec (vecKeeps_load _ _ _ fun x => (x.arg 10).toNat) ..)
  | vecSts => exact .onCode h (h.vec (vecKeeps_save _ _ _ fun x => (x.arg 10).toNat) ..)
  | vecGather => exact .onCode h (h.vec vecKeeps_vecGather ..)
  | vecScatter => exact .onCode h (h.vec vecKeeps_vecScatter ..)
  | vecCvt => exact .onCode h (h.vec vecKeeps_vecCvt ..)
  | randU32 => exact .onCode h (h.vec vecKeeps_randU32 ..)
  | randUni => exact .onCode h (h.vec vecKeeps_randUni ..)
  | randBern => exact .onCode h (h.vec vecKeeps_randBern ..)
  | dropFwd | dropBwd => exact .onCode h (h.vec vecKeeps_dropOp ..)
  | zcCompress => exact .onCode h (h.stream streamKeeps_zcCompress ..)
  | s24Compress => exact .onCode h (h.stream streamKeeps_s24Compress ..)
  | prune24t => exact .onCode h (h.stream streamKeeps_prune24t ..)
  | nnzHist => exact .onCode h (h.stream streamKeeps_nnzHist ..)
  | demandMissFill => exact outNumbered_demandMissFill h ..
  | prefetchFill => exact outNumbered_prefetchFill h ..
  | patrolScrubRead => exact outNumbered_patrolScrubRead h ..
  | backInvalidationResponse => exact outNumbered_backInvalidationResponse h ..
  | descriptorFetch => exact outNumbered_descriptorFetch h hseq ..
  | msixMessage => exact outNumbered_msixMessage h ..
  | msixTableWrite => exact outNumbered_msixTableWrite h ..
  | eventSet => exact outNumbered_eventSet h ..
  | eventMonitorReread => exact outNumbered_eventMonitorReread h ..
  | eventPoll => exact outNumbered_eventPoll h ..
  | cancel => exact outNumbered_cancel h ..
  | portTrainingDone => exact outNumbered_portTrainingDone h ..
  | peerRequestReceive => exact outNumbered_peerRequestReceive h ..
  | zcFrameReceive => exact outNumbered_zcFrameReceive h ..
  | reelMessageReceive => exact outNumbered_reelMessageReceive h ..
  | blockStarted => exact outNumbered_blockStarted h ..
  | cxlCacheSnoop => exact h.cxlCacheSnoop ..
  | combinerAtomic => exact h.combinerAtomic ..
  | hostLineAtomic => exact h.hostLineAtomic ..
  | sqTailWrite => exact h.sqTail ..
  | itemComplete => exact h.itemComplete ..
  | contextFault => exact h.takeFaults ..
  | itemNop => exact h.act _ _ _ _ _ fun _ _ h => (numbered_finish ..).mpr h
  | eventAdd => exact h.act _ _ _ _ _ fun _ _ h => h.eventAdd ..
  | eventWaitGe => exact h.act _ _ _ _ _ fun _ _ h => Numbered.eventRead ((numbered_eventWait ..).mpr h) ..
  | cacheCtlPin => exact h.act _ _ _ _ _ fun _ d h => Numbered.pinStart (d := d.updSlice _ _) h _
  | pinScanDone => exact h.pinScanDone ..
  | cacheCtlDiscard => exact h.cacheDiscard ..
  | hostMemAccess => exact h.hostMemAccess ..
  | reProduct => exact h.reProduct ..
  | tileStart => exact h.tileStart ..
  | tileDrainDone => exact h.tileDrainDone ..
  | splitCombine => exact h.splitCombine ..
  | itemDispatch => exact h.itemDispatch ..
  | barrierTimeout => exact h.barrierTimeout ..
  | blockPlace => exact h.blockPlace ..
  | engineDebugHalt => exact h.engineDebugHalt ..
  | tilePark => exact h.tilePark ..
  | parkedTileResume => exact h.parkedTileResume ..
  | txbTurnDone => exact h.txbTurnDone ..
  | vecList => exact h.vecList ..
  | jkfTranslationDone => exact h.jkfTranslationDone ..
  | kernel => exact h.kernel ..
  | normUpdate => exact h.normUpdate ..
  | layerWriteStart => exact h.layerWriteStart ..
  | layerSwap => exact h.layerSwap ..
  | reelBarrier | reelBroadcast | reelReduce => exact h.reelStart ..
  | linkDown => exact h.linkDown ..
  | peerResponseReceive => exact h.peerResponse ..
  | coreHaltRequest | coreDebugHalt =>
    refine outNumbered_next.mpr ?_
    dsimp only
    split
    · exact h
    · exact h
  | cb10Grant | teardownRecordsDrained | blockStopped | reHaltRequest | cntSelWrite | cntSnapTake | cntSnapRelease | cntClear |
    cntTraceWrite | cqHeadWrite | doorbellPageOtherWrite | completionRecordWrite | tileDeal | stealAttempt | packMove | pathReconverge |
    barrierInstanceComplete | portHandshake | noPartnerTimeout | flitReceive | flitNak | ackTimeout | blockLockLoss =>
    exact outNumbered_next.mpr (by simp [h])
  | ctxCreate => exact h.mgmt (fun _ h => mgmtNumbered_ctxCreate h ..) ..
  | ctxOpen | ctxFreeze => exact h.mgmt (fun _ h => mgmtNumbered_gateMove h ..) ..
  | ctxKill => exact h.mgmt (fun _ h => mgmtNumbered_ctxKill h ..) ..
  | ctxDestroy => exact h.mgmt (fun _ h => mgmtNumbered_ctxDestroy h ..) ..
  | ctxSet => exact h.mgmt (fun _ h => mgmtNumbered_ctxSet h ..) ..
  | map => exact h.mgmt (fun _ h => mgmtNumbered_mapCmd h ..) ..
  | unmap => exact h.mgmt (fun _ h => mgmtNumbered_unmap h ..) ..
  | share => exact h.mgmt (fun _ h => mgmtNumbered_share h ..) ..
  | unshare => exact h.mgmt (fun _ h => mgmtNumbered_unshare h ..) ..
  | hdmBind => exact h.mgmt (fun _ h => mgmtNumbered_hdmBind h ..) ..
  | grant => exact h.mgmt (fun _ h => mgmtNumbered_grantCmd h ..) ..
  | sliceCreate => exact h.mgmt (fun _ h => mgmtNumbered_sliceCreate h ..) ..
  | sliceChange => exact h.mgmt (fun _ h => mgmtNumbered_sliceChange h ..) ..
  | sliceDestroy => exact h.mgmt (fun _ h => mgmtNumbered_sliceDestroy h ..) ..
  | pwrSet => exact h.mgmt (fun _ h => mgmtNumbered_pwrSet h ..) ..
  | topoSet => exact h.mgmt (fun _ h => mgmtNumbered_topoSet h ..) ..
  | reelSysSet => exact h.mgmt (fun _ h => mgmtNumbered_reelSysSet h ..) ..
  | lcTransition => exact h.mgmt (fun _ h => mgmtNumbered_lcTransition h ..) ..
  | debugUnlock => exact h.mgmt (fun _ h => mgmtNumbered_debugUnlock h ..) ..
  | ownerKeyRotate => exact h.mgmt (fun _ h => mgmtNumbered_ownerKeyRotate h ..) ..
  | reelReset =>
    refine h.mgmt (fun s h => (mgmtNumbered_done _).mpr ?_) ..
    exact Numbered.warmReset (s := s.mapDev fun d => d.toChildren .reset) ((numbered_toChildren ..).mpr h)
  | cmdStatus => exact h.mgmt (fun _ h => by split <;> exact h) ..
  | snapshot | resume | idePolicy | logRead | presenceClose | warmReset =>
    exact h.mgmt (fun _ h => by simp [h]) ..
  | registerWrite => exact h.registerWrite _
  | reelInstanceComplete => exact h.reelOpen.reelInstanceComplete ..
  | reelAbort => exact h.reelOpen.reelAbort ..
  | dieCacheFlushDone => exact numbered_answerSlice.mpr (h.dieCacheFlushDone _)
  | powerGood | inputLoss | inputUndervoltageFault | inputOvervoltageFault | bootImageCheckDone | firmwareStartDone |
    stackTrainingDone | laneSelfTestDone | dramWipeDone | sramWipeDone | hostLinkTrained | hostPerstAssert | hostPerstDeassert |
    cxlHotReset | linkBDown | linkBRetrain | refclkLost | refclkStable | configRead | sealCheck | presenceButtonHold |
    presenceWindowExpiry | thermalSample | tripHoldExpiry | sensorUpdate | grantEpoch | sleepEntry | unitClockGate | diePllOff |
    unitWakeDone | diePowerUpDone | tapInstructionLoad | tapTrst | mctpMessage | dynamicAddressAssign | setEndpointId |
    spdmKeyExchange | getMeasurements | pldmSensorRead | ideKm | firmwareUpdateTransfer | flashWriteDone | recoveryImageLoad |
    mgmtCommandArrival | teardownScrubDone | snapshotTaken | enableWriteOne | enableWriteZero | ringEnable | ringDisable |
    pportEnable | reelArrival | powerOn | ppBtnNRelease =>
    exact outNumbered_next.mpr (by simp [h])

theorem step_keeps {s t : State} (h : Numbered s.dev) (hseq : ∀ c, (s.dev.ring c).nextSeq + 16 ≤ 2 ^ 32) (hstep : step s = .next t) :
    Numbered t.dev := by
  unfold step at hstep
  split at hstep
  · obtain rfl := Host.Outcome.next.inj hstep
    exact h.idleTick
  · next c rest _ =>
    have hexec := exec_keeps c (s := { s with pending := rest }) h hseq
    rwa [hstep] at hexec

theorem numbersApart_of_itemsNumbered {d : Device} (h : itemsNumbered d) : numbersApart d := by
  intro x hx y hy _ hseq
  have hxok := h x hx
  have hyok := h y hy
  rw [hseq] at hxok
  cases hxw : x.isWork <;> cases hyw : y.isWork <;> simp [hxw, hyw] at hxok hyok ⊢ <;> omega

/-- Settles O60: each command, and a period of the time counter, leaves the items their numbers; a fetched entry and a work record come
with a number of their kind. -/
theorem itemNumbersStayApart : Obligations.ItemNumbersStayApart := by
  unfold Obligations.ItemNumbersStayApart
  refine ⟨fun s t h hseq hstep => ?_, fun d h => numbersApart_of_itemsNumbered h⟩
  exact numbered_iff.mp (step_keeps (numbered_iff.mpr h) hseq hstep)

end Sys2Proof.Proofs.ItemNumbers
end
